-- ==== Sys2Proof/Word.lean ====
section
/-! DEFINITION. Word.lean: the word types of the module and the plainest arithmetic over them. -/

namespace Sys2Proof

/-- A byte. -/
abbrev Byte := BitVec 8

/-- A register of the management space (R494: every register is 32 bits wide). -/
abbrev Word := BitVec 32

/-- A 64-bit word: a scalar register of a trim core (R115), a translation entry (R194). -/
abbrev DWord := BitVec 64

/-- A 512-bit vector register of a trim core (R115). -/
abbrev VWord := BitVec 512

/-- `n` rounded up to the next multiple of `k` (`k = 0` leaves `n`). -/
def roundUp (n k : Nat) : Nat := if k = 0 then n else (n + k - 1) / k * k

/-- Division rounded up. -/
def ceilDiv (n k : Nat) : Nat := if k = 0 then 0 else (n + k - 1) / k

/-- Bits `lo .. lo + w - 1` of a natural number. -/
def natBits (n lo w : Nat) : Nat := (n >>> lo) % 2 ^ w

/-- A counter of `w` bits that holds at its greatest value. -/
def holdAdd (w n k : Nat) : Nat := min (n + k) (2 ^ w - 1)

/-- A counter of `w` bits that wraps. -/
def wrapAdd (w n k : Nat) : Nat := (n + k) % 2 ^ w

end Sys2Proof
end

