-- ==== Sys2Proof/Syntax.lean ====
section
/-! DEFINITION. Syntax.lean: the commands of the block. The table of operations and events gives its rows no encoding, so
each constructor's operands are what its rule says the event brings: a message's fields and payload bytes, a received
frame, the registers of a trim instruction, a measured value, the number of the thing the event concerns. -/

namespace Sys2Proof

/-- A side of a doubled part: front end, supervisor or crystal A or B (R17, R21). -/
inductive Side where
  | a | b
  deriving DecidableEq, Repr

/-- The PLLs of R411. -/
inductive Pll where
  | memory | ethernet | pcie | video
  deriving DecidableEq, Repr

/-- The element types of R116 (code 0b111 is reserved and has no constructor). -/
inductive ElemType where
  | int8 | int16 | int32 | int64 | fp16 | bf16 | fp32
  deriving DecidableEq, Repr

/-- A logical trim core, 0 to 63. -/
abbrev CoreId := BitVec 6
/-- A scalar register s0 to s31 (R115). -/
abbrev SReg := BitVec 5
/-- A vector register v0 to v15 (R115). -/
abbrev VReg := BitVec 4
/-- A predicate register p0 to p7 (R115). -/
abbrev PReg := BitVec 3
/-- The 16-bit immediate or branch offset of formats SI and BR (R121). -/
abbrev Imm16 := BitVec 16
/-- The signed 13-bit immediate of format LS (R121). -/
abbrev Imm13 := BitVec 13
/-- The 6-bit immediate of format VS (R121). -/
abbrev Imm6 := BitVec 6

/-- A partner's address: family, address and UDP port (R308). -/
structure PeerAddr where
  v6 : Bool
  addr : Nat
  udp : Nat
  deriving DecidableEq, Repr

/-- A partner message that has passed the checks of R313: session number, sequence number, request tag and payload. -/
structure Msg where
  session : Nat
  number : Nat
  tag : Nat
  payload : List Byte
  deriving DecidableEq, Repr

/-- The MACsec tag of a received frame (R307): association number, SCI, packet number, and whether the check value verified. -/
structure MacsecTag where
  an : Nat
  sci : Nat
  pn : Nat
  ok : Bool
  deriving DecidableEq, Repr

/-- A received UDP datagram: the port it arrived on, its VLAN (0 untagged), the partner's address, the destination UDP
port, whether it has IP options or extension headers, is an IP fragment or has a wrong checksum, its MACsec tag if any,
and the UDP payload (R305, R307, R309). -/
structure Datagram where
  port : Nat
  vlan : Nat
  peer : PeerAddr
  dst : Nat
  dstUdp : Nat
  options : Bool
  fragment : Bool
  badSum : Bool
  sec : Option MacsecTag
  bytes : List Byte
  deriving DecidableEq, Repr

/-- An ARP packet (R305): the port it arrived on, VLAN, sender's MAC and IPv4 address, target IPv4 address, MACsec tag if any. -/
structure ArpPacket where
  port : Nat
  vlan : Nat
  mac : Nat
  ip : Nat
  target : Nat
  sec : Option MacsecTag
  deriving DecidableEq, Repr

/-- A neighbor discovery packet (R305): port, VLAN, sender's MAC and IPv6 address, target IPv6 address, of an advertisement whether it
is solicited, and its MACsec tag if any. -/
structure NdPacket where
  port : Nat
  vlan : Nat
  mac : Nat
  ip : Nat
  target : Nat
  solicited : Bool
  sec : Option MacsecTag
  deriving DecidableEq, Repr

/-- An ICMP or ICMPv6 echo request (R305): port, VLAN, source and destination address, identifier, sequence, data, MACsec tag if any. -/
structure EchoPacket where
  port : Nat
  vlan : Nat
  v6 : Bool
  src : Nat
  dst : Nat
  ident : Nat
  seq : Nat
  data : List Byte
  sec : Option MacsecTag
  deriving DecidableEq, Repr

/-- A queue of units (R234): model slot, phase (0 pass, 1 prompt, 2 decoding), priority and bucket. -/
structure QueueKey where
  slot : Nat
  phase : Nat
  priority : Nat
  bucket : Nat
  deriving DecidableEq, Repr

/-- What happened to a session, in a SESSION record (R345). -/
inductive SessionEvent where
  | opened | path | closed
  deriving DecidableEq, Repr

/-- What happened to a model slot, in a MODEL record (R345). -/
inductive ModelEvent where
  | loadAdmitted | loadCompleted | unload
  deriving DecidableEq, Repr

/-- The body of a journal record, by type (R345). -/
inductive RecBody where
  | admitted (digest : List Byte) (customer slot priority bucket debit allowance seed : Nat) (inputPages : List Nat)
  | refuse (digest : List Byte) (code : BitVec 16)
  | allow (seq tokens : Nat)
  | refund (amount : Nat)
  | budget (customer balance grant : Nat) (isOpen : Bool)
  | cancel (tag : Nat)
  | candidates (bytes : List Byte)
  | session (ev : SessionEvent) (counter : Nat)
  | model (ev : ModelEvent) (slot : Nat) (digest : List Byte)
  | config (epoch : Nat) (digest : List Byte)
  | preempt (seq : Nat)
  | complete (digest : List Byte) (flags : BitVec 16) (code : BitVec 16)
  | tokens (seq step : Nat) (toks : List Nat)
  | stop (reason emitted token : Nat) (flags : BitVec 16) (code : BitVec 16)
  | video (context : Nat) (bytes : List Byte)
  | checkpoint (slot : Nat) (digest : List Byte) (covers : Nat)
  | lease (epoch : Nat)
  deriving DecidableEq, Repr

/-- A journal record (R344): its index, origin byte, writer's lease epoch, session, subject and body, and whether the
memory controller has acknowledged every granule of it (R346). -/
structure JRecord where
  index : Nat
  origin : Nat := 0
  epoch : Nat := 0
  session : Nat := 0
  subject : Nat := 0
  body : RecBody
  written : Bool := false
  deriving DecidableEq, Repr

/-- The errors that a pass's checks find (R90). -/
inductive ArrayErrorKind where
  | residue | uncorrectable | weightParity
  deriving DecidableEq, Repr

/-- An error that a check of the array finds (R90): its kind, and the logical row and column groups it was located in, none where not
located. -/
structure ArrayError where
  kind : ArrayErrorKind
  rowGroup : Option Nat := none
  colGroup : Option Nat := none
  deriving DecidableEq, Repr


/-- One thermal snapshot (R438): sensors A and B of the 24 hot spots in 1/16 °C (none: an open or shorted diode), the two inlet
sensors (QM-512W: the first) and the outlet sensor in 1/16 °C, and the flow in mL/min (none: open circuit). -/
structure ThermalSnapshot where
  a : List (Option Int)
  b : List (Option Int)
  inlet : Int
  inlet2 : Int
  outlet : Int
  flow : Option Nat
  deriving DecidableEq, Repr

/-- What a self-test slice found (R455): whether it passed as a whole where no part is named; whether it repaired something; the parts
that failed (CLOCK oscillators, BANK bank ids, MEM channels, ARRAY physical row groups, FEED generators, TRIM physical cores,
PORTS ports), ARRAY's physical column groups, and THERMAL's readings of sensors A and B in 1/16 °C. -/
structure SliceReport where
  ok : Bool
  repaired : Bool
  failed : List Nat
  cols : List Nat
  a : List (Option Int)
  b : List (Option Int)
  deriving DecidableEq, Repr

/-- A cartridge as it is inserted (R387, R483 to R487): the digest of its carrier's key, whether the chain and the signature over
the challenge verify, its objects by number, its life measures and whether it reports itself read-only. -/
structure CartridgeInfo where
  carrier : List Byte
  genuine : Bool
  objects : List (Nat × List Byte)
  written : Nat
  matings : Nat
  devicePct : Nat
  readOnly : Bool
  deriving DecidableEq, Repr

/-- The commands of the block: one constructor per row of the table of operations and events. -/
inductive Instr where
  /-- SESSION_OPEN (R515). A partner's SESSION_OPEN is checked in order and answered with SESSION_ACCEPT or a refusal carrying the new session's keys, window and role. -/
  | sessionOpen (port : Nat) (peer : PeerAddr) (wire : List Byte)
  /-- SESSION_CLOSE (R318). A partner's SESSION_CLOSE ends the session and ends its live requests, sequences and video contexts. -/
  | sessionClose (m : Msg)
  /-- IDLE_CLOSE (R318). When no frame has arrived on any path of a session for NET.PROBE.IDLE_S seconds, the module closes it with B_RETRY. -/
  | idleClose (session : Nat)
  /-- PATH_ADD (R308). A PATH_ADD forms a further path of the session from its source address, port and front end, and is answered with the path number. -/
  | pathAdd (port : Nat) (peer : PeerAddr) (m : Msg)
  /-- MACSEC_SAK (R307). The rack controller installs a MACsec secure association key for one port, direction and association number. -/
  | macsecSak (m : Msg)
  /-- DATA_FRAME (R310). A received QMT data frame's fragment is stored in the session window and reassembled into its message. -/
  | dataFrame (d : Datagram)
  /-- ACK_FRAME (R310). A received ack frame updates acknowledged packets, the credit report, the round-trip estimate and loss detection. -/
  | ackFrame (d : Datagram)
  /-- PROBE_FRAME (R310). A received probe frame is answered with an ack. -/
  | probeFrame (d : Datagram)
  /-- PATH_RESET_FRAME (R311). A received path reset frame starts a newer epoch and resets the received-packet record. -/
  | pathResetFrame (d : Datagram)
  /-- ACK_DELAY_EXPIRY (R327). 25 µs after the first unacknowledged data frame, the receiver sends an ack on the path. -/
  | ackDelayExpiry (session : Nat) (path : Nat)
  /-- RETRANSMIT_TIMEOUT (R327). The retransmission timer of a path expires, the lost fragment is resent and rto is doubled. -/
  | retransmitTimeout (session : Nat) (path : Nat)
  /-- PROBE_INTERVAL (R329). A path with no unacknowledged frame sends a probe every NET.PROBE.PROBE_US. -/
  | probeInterval (session : Nat) (path : Nat)
  /-- SEND_MESSAGE (R326). A ready module message begins sending, fragmented on its paths, once the partner's window grants credit for it. -/
  | sendMessage (session : Nat)
  /-- AUTH_FAIL_TIMEOUT (R323). If no valid copy of a message that failed its tag arrives within 1 s, the session is closed with E_AUTH_FAIL. -/
  | authFailTimeout (session : Nat) (number : Nat)
  /-- PHY_LINK_CHANGE (R333). A port's PHY reports link gained or lost, and a lost link sets NET.FAULT.LINK. -/
  | phyLinkChange (port : Nat) (up : Bool)
  /-- OAM_FRAME (R304). A received OAM frame is passed to the supervisor and its status enters the health report. -/
  | oamFrame (port : Nat) (status : Byte)
  /-- ARP_REQUEST (R305). An ARP request for a port's address is answered. -/
  | arpRequest (a : ArpPacket)
  /-- NEIGHBOR_SOLICITATION (R305). An IPv6 neighbor solicitation for a port address is answered with an advertisement. -/
  | neighborSolicitation (n : NdPacket)
  /-- ICMP_ECHO (R305). An ICMP or ICMPv6 echo request is answered. -/
  | icmpEcho (e : EchoPacket)
  /-- NET_APPLY (R306). Writing NET.CTRL.APPLY applies every port's address, prefix, gateway, VLAN and the QMT UDP port. -/
  | netApply
  /-- SUBMIT_PASS (R225). A SUBMIT_PASS is admitted or refused by the ordered admission checks, and an admitted request is debited, journalled and queued by bucket. -/
  | submitPass (m : Msg)
  /-- SUBMIT_GEN (R225). A SUBMIT_GEN is admitted or refused; an admitted one gets a sequence slot, key-value pages, a journalled seed and its first allowance. -/
  | submitGen (m : Msg)
  /-- CANDIDATES (R273). A CANDIDATES tree for a waiting CAND sequence is validated, journalled and its step enters the queue as one unit. -/
  | candidates (m : Msg)
  /-- CANCEL (R224). CANCEL journals the cancellation of a live request and ends it or its sequence at the next boundary. -/
  | cancel (m : Msg)
  /-- BUDGET_OPEN (R228). BUDGET_SET operation 1 opens or reconfigures an account and sets its balance. -/
  | budgetOpen (m : Msg)
  /-- BUDGET_CLOSE (R228). BUDGET_SET operation 2 closes an account, letting its live requests finish. -/
  | budgetClose (m : Msg)
  /-- BUDGET_READ (R228). BUDGET_SET operation 3 returns an account's values. -/
  | budgetRead (m : Msg)
  /-- BUDGET_GRANT (R230). A grant whose number exceeds the last applied is added to the account's balance exactly once. -/
  | budgetGrant (m : Msg)
  /-- REFILL_INTERVAL (R229). At each refill interval the account's balance is raised by the refill amount up to the cap and journalled. -/
  | refillInterval (customer : Nat)
  /-- MODEL_LOAD (R170). The lease holder admits a MODEL_LOAD for an EMPTY slot, journals it and sets the slot LOADING, or refuses it. -/
  | modelLoad (m : Msg)
  /-- LOAD_START (R171). When earlier admitted loads have finished, the next load runs check 0, reads the image from the cartridge and runs checks 1 to 8. -/
  | loadStart
  /-- LOAD_WEIGHTS (R170). When the image checks pass, each weight reference is copied, hashed and decoded into the slot's pages and check 9 runs. -/
  | loadWeights
  /-- LOAD_COMPLETE (R170). When check 9 passes, the slot's measurement is recorded, a completion record journalled, the slot set READY and the reply sent once durable. -/
  | loadComplete
  /-- MODEL_UNLOAD_DRAIN (R252). MODEL_UNLOAD mode 1 sets the slot UNLOADING and lets admitted requests finish. -/
  | modelUnloadDrain (m : Msg)
  /-- MODEL_UNLOAD_ABORT (R252). MODEL_UNLOAD mode 2 sets the slot UNLOADING and ends every unfinished request with E_CANCELLED. -/
  | modelUnloadAbort (m : Msg)
  /-- SLOT_EMPTIED (R252). When no request of an UNLOADING slot remains, the slot becomes EMPTY, its pages pass to clearing and the unload is answered. -/
  | slotEmptied (slot : Nat)
  /-- QUEUE_HOLD_EXPIRY (R234). A queue whose oldest row has waited SRV.HOLD.HOLD_US becomes ready. -/
  | queueHoldExpiry (q : QueueKey)
  /-- REQUEST_DEADLINE (R227). A request whose batch has not started when its deadline passes ends with B_DEADLINE and its debit is refunded. -/
  | requestDeadline (row : Nat)
  /-- BATCH_START (R234). When the previous batch's last coat completes, the engine forms the next batch from the chosen ready queue and the sequencer starts its first coat. -/
  | batchStart
  /-- DECODING_STEP_END (R277). After a decoding step's coats complete, the accepted path is found, the stop walk runs and accepted entries are compacted. -/
  | decodingStepEnd (seq : Nat)
  /-- STEP_COMMIT (R277). When the emitted-token record is durable, committed and tree counts are set, tree slots and chunks released, and TOKENS and STOP sent. -/
  | stepCommit (seq : Nat)
  /-- SEQUENCE_REBUILD (R255). A preempted or lost sequence reruns its prompt and emitted tokens as prompt chunks before its next decoding row. -/
  | sequenceRebuild (seq : Nat)
  /-- RELEASE_GRID_TICK (R243). Ready RESULT, TOKENS and STOP messages leave at the next multiple of SRV.HOLD.GRID_US. -/
  | releaseGridTick
  /-- FIXED_MODE_WRITE (R245). A write of SRV.MODE.FIXED turns fixed-slot mode on or off at the next batch boundary, or is refused. -/
  | fixedModeWrite (on : Bool)
  /-- FIXED_MODE_TAKES_EFFECT (R249). At the batch boundary fixed-slot mode takes effect, pins the operating point and gives each framed customer its quotas. -/
  | fixedModeTakesEffect
  /-- FIXED_SLOT_START (R247). A fixed slot starts on the serving counter, invalidates the translation cache and forms batches only from its customer's rows. -/
  | fixedSlotStart
  /-- FIXED_SLOT_GUARD (R246). When less than the guard remains in a slot, no new coat begins and an unfinished batch is spilled. -/
  | fixedSlotGuard
  /-- TILE_FETCH_DONE (R78). A tile's packed bytes have arrived in a weight buffer half and are decoded in line. -/
  | tileFetchDone
  /-- SHADOW_WRITE_DONE (R78). A decoded tile has been written into the shadow registers in 33 handshakes and its half is free again. -/
  | shadowWriteDone
  /-- PASS_ISSUE (R80). A pass issues once its tile is in the shadow registers, its accumulator bank meets R81 and the previous operation's feed has ended. -/
  | passIssue (parity : Option (Option Nat × Option Nat))
  /-- PASS_LANDED (R75). A pass's last contribution lands 1,056 handshakes after its last feed row, and the pass's residue check runs. -/
  | passLanded (error : Option ArrayError) (corrected : Nat)
  /-- BANK_DRAIN_START (R88). When an n-tile's last pass has landed, the bank drains entry by entry through the drain port with saturation, scaling and one rounding. -/
  | bankDrainStart (bank : Nat) (refuses : Option Nat) (error : Option ArrayError) (corrected : Nat)
  /-- DRAIN_RESUME (R89). A drain held by a refusing destination resumes when the write is accepted. -/
  | drainResume (bank : Nat) (refuses : Option Nat) (error : Option ArrayError) (corrected : Nat)
  /-- DRAIN_END (R88). A bank's drain ends and, after a coat's last drain, the coat's kernels start. -/
  | drainEnd (bank : Nat)
  /-- COAT_COMPLETE (R82). A coat completes when its last drain or write has ended, its residue checks passed and its kernels finished, releasing its held deliveries. -/
  | coatComplete (coat : Nat)
  /-- STRIPE_LOAD_DONE (R104). A stripe-load program has filled a stripe buffer half with the input rows of a row stripe. -/
  | stripeLoadDone (coat : Nat)
  /-- WINDOW_GATHER (R106). A window-gather program writes each output pixel's validity mask and tap pixels to a trim-core local bank. -/
  | windowGather (coat : Nat)
  /-- CROP_AND_RESIZE (R108). A crop-and-resize feed coat samples each box bilinearly into its output and writes a status byte per box. -/
  | cropAndResize (coat : Nat)
  /-- ARGMAX (R111). An argmax feed coat writes each pixel's index of its largest channel and, under VALUE, the value. -/
  | argmax (coat : Nat)
  /-- FUSED_ATTENTION (R260). An attention coat writes new keys and values to pages and computes online-softmax attention per row and head. -/
  | fusedAttention (coat : Nat)
  /-- KERNEL_START (R139). When a kernel's coat dependencies are met and its cores are free, the sequencer writes code, zeroes local data, writes arguments and sets registers. -/
  | kernelStart (coat : Nat) (kernel : Nat)
  /-- KERNEL_END (R142). A kernel ends when every core in its mask has executed DONE. -/
  | kernelEnd (coat : Nat) (kernel : Nat)
  /-- CORE_CONTEXT_SWITCH (R144). A host physical core switches between its two logical cores when the running one executes DONE or waits, saving its registers. -/
  | coreContextSwitch (physical : Nat)
  /-- ADD (R124). Scalar integer add. -/
  | add (core : CoreId) (sd : SReg) (sa : SReg) (sb : SReg)
  /-- SUB (R124). Scalar integer subtract. -/
  | sub (core : CoreId) (sd : SReg) (sa : SReg) (sb : SReg)
  /-- AND (R124). Scalar bitwise and. -/
  | and (core : CoreId) (sd : SReg) (sa : SReg) (sb : SReg)
  /-- OR (R124). Scalar bitwise or. -/
  | or (core : CoreId) (sd : SReg) (sa : SReg) (sb : SReg)
  /-- XOR (R124). Scalar bitwise exclusive or. -/
  | xor (core : CoreId) (sd : SReg) (sa : SReg) (sb : SReg)
  /-- SLL (R124). Scalar shift left logical by sb[5:0]. -/
  | sll (core : CoreId) (sd : SReg) (sa : SReg) (sb : SReg)
  /-- SRL (R124). Scalar shift right logical by sb[5:0]. -/
  | srl (core : CoreId) (sd : SReg) (sa : SReg) (sb : SReg)
  /-- SRA (R124). Scalar shift right arithmetic by sb[5:0]. -/
  | sra (core : CoreId) (sd : SReg) (sa : SReg) (sb : SReg)
  /-- MUL (R124). Scalar multiply, low 64 bits. -/
  | mul (core : CoreId) (sd : SReg) (sa : SReg) (sb : SReg)
  /-- MULH (R124). Scalar multiply, high 64 bits signed. -/
  | mulh (core : CoreId) (sd : SReg) (sa : SReg) (sb : SReg)
  /-- MULHU (R124). Scalar multiply, high 64 bits unsigned. -/
  | mulhu (core : CoreId) (sd : SReg) (sa : SReg) (sb : SReg)
  /-- DIV (R124). Signed truncating division with defined results for zero and overflow. -/
  | div (core : CoreId) (sd : SReg) (sa : SReg) (sb : SReg)
  /-- DIVU (R124). Unsigned truncating division. -/
  | divu (core : CoreId) (sd : SReg) (sa : SReg) (sb : SReg)
  /-- REM (R124). Signed remainder. -/
  | rem (core : CoreId) (sd : SReg) (sa : SReg) (sb : SReg)
  /-- REMU (R124). Unsigned remainder. -/
  | remu (core : CoreId) (sd : SReg) (sa : SReg) (sb : SReg)
  /-- SLT (R124). Signed set-less-than. -/
  | slt (core : CoreId) (sd : SReg) (sa : SReg) (sb : SReg)
  /-- SLTU (R124). Unsigned set-less-than. -/
  | sltu (core : CoreId) (sd : SReg) (sa : SReg) (sb : SReg)
  /-- MIN (R124). Signed scalar minimum. -/
  | min (core : CoreId) (sd : SReg) (sa : SReg) (sb : SReg)
  /-- MAX (R124). Signed scalar maximum. -/
  | max (core : CoreId) (sd : SReg) (sa : SReg) (sb : SReg)
  /-- ADDI (R124). Add sign-extended immediate. -/
  | addi (core : CoreId) (sd : SReg) (sa : SReg) (imm : Imm16)
  /-- ANDI (R124). And with zero-extended immediate. -/
  | andi (core : CoreId) (sd : SReg) (sa : SReg) (imm : Imm16)
  /-- ORI (R124). Or with zero-extended immediate. -/
  | ori (core : CoreId) (sd : SReg) (sa : SReg) (imm : Imm16)
  /-- XORI (R124). Exclusive or with zero-extended immediate. -/
  | xori (core : CoreId) (sd : SReg) (sa : SReg) (imm : Imm16)
  /-- SHI (R124). Shift by immediate, kind chosen by imm16[7:6]. -/
  | shi (core : CoreId) (sd : SReg) (sa : SReg) (imm : Imm16)
  /-- LUI (R124). Load sign-extended immediate shifted left by 16. -/
  | lui (core : CoreId) (sd : SReg) (imm : Imm16)
  /-- SLTI (R124). Set-less-than against sign-extended immediate. -/
  | slti (core : CoreId) (sd : SReg) (sa : SReg) (imm : Imm16)
  /-- FADD (R124). Scalar FP32 add, correctly rounded. -/
  | fadd (core : CoreId) (sd : SReg) (sa : SReg) (sb : SReg)
  /-- FSUB (R124). Scalar FP32 subtract. -/
  | fsub (core : CoreId) (sd : SReg) (sa : SReg) (sb : SReg)
  /-- FMUL (R124). Scalar FP32 multiply. -/
  | fmul (core : CoreId) (sd : SReg) (sa : SReg) (sb : SReg)
  /-- FDIV (R124). Scalar FP32 divide. -/
  | fdiv (core : CoreId) (sd : SReg) (sa : SReg) (sb : SReg)
  /-- FSQRT (R124). Scalar FP32 square root. -/
  | fsqrt (core : CoreId) (sd : SReg) (sa : SReg)
  /-- FFMA (R124). Scalar FP32 fused multiply-add, rounded once. -/
  | ffma (core : CoreId) (sd : SReg) (sa : SReg) (sb : SReg)
  /-- FMIN (R124). Scalar FP32 minimum with canonical NaN. -/
  | fmin (core : CoreId) (sd : SReg) (sa : SReg) (sb : SReg)
  /-- FMAX (R124). Scalar FP32 maximum with canonical NaN. -/
  | fmax (core : CoreId) (sd : SReg) (sa : SReg) (sb : SReg)
  /-- FEQ (R124). Scalar FP32 equal compare. -/
  | feq (core : CoreId) (sd : SReg) (sa : SReg) (sb : SReg)
  /-- FLT (R124). Scalar FP32 less-than compare. -/
  | flt (core : CoreId) (sd : SReg) (sa : SReg) (sb : SReg)
  /-- FLE (R124). Scalar FP32 less-or-equal compare. -/
  | fle (core : CoreId) (sd : SReg) (sa : SReg) (sb : SReg)
  /-- FCVTWS (R124). FP32 to INT32 with nearest-even rounding and saturation. -/
  | fcvtws (core : CoreId) (sd : SReg) (sa : SReg)
  /-- FCVTSW (R124). INT32 to FP32 with nearest-even rounding. -/
  | fcvtsw (core : CoreId) (sd : SReg) (sa : SReg)
  /-- LB (R125). Load byte sign-extended. -/
  | lb (core : CoreId) (sd : SReg) (sa : SReg) (imm : Imm13)
  /-- LH (R125). Load halfword sign-extended. -/
  | lh (core : CoreId) (sd : SReg) (sa : SReg) (imm : Imm13)
  /-- LW (R125). Load word sign-extended. -/
  | lw (core : CoreId) (sd : SReg) (sa : SReg) (imm : Imm13)
  /-- LD (R125). Load doubleword. -/
  | ld (core : CoreId) (sd : SReg) (sa : SReg) (imm : Imm13)
  /-- SB (R125). Store low byte. -/
  | sb (core : CoreId) (sd : SReg) (sa : SReg) (imm : Imm13)
  /-- SH (R125). Store low halfword. -/
  | sh (core : CoreId) (sd : SReg) (sa : SReg) (imm : Imm13)
  /-- SW (R125). Store low word. -/
  | sw (core : CoreId) (sd : SReg) (sa : SReg) (imm : Imm13)
  /-- SD (R125). Store doubleword. -/
  | sd (core : CoreId) (sd : SReg) (sa : SReg) (imm : Imm13)
  /-- VLD (R125). Load 64 bytes into a vector register. -/
  | vld (core : CoreId) (vd : VReg) (sa : SReg) (p : PReg) (imm : Imm13)
  /-- VST (R125). Store 64 bytes from a vector register. -/
  | vst (core : CoreId) (vd : VReg) (sa : SReg) (p : PReg) (imm : Imm13)
  /-- VLQ8 (R125). Read one QB8 block and write its 32 values as FP32 to a register pair. -/
  | vlq8 (core : CoreId) (vd : VReg) (sa : SReg) (p : PReg) (imm : Imm13)
  /-- VLQ4 (R125). Read one QB4 block and write its 32 values as FP32 to a register pair. -/
  | vlq4 (core : CoreId) (vd : VReg) (sa : SReg) (p : PReg) (imm : Imm13)
  /-- VSQ8 (R125). Quantise 32 FP32 lanes into a QB8 block and store it. -/
  | vsq8 (core : CoreId) (vd : VReg) (sa : SReg) (p : PReg) (imm : Imm13)
  /-- VSQ4 (R125). Quantise 32 FP32 lanes into a QB4 block and store it. -/
  | vsq4 (core : CoreId) (vd : VReg) (sa : SReg) (p : PReg) (imm : Imm13)
  /-- VADD (R126). Vector integer add. -/
  | vadd (core : CoreId) (vd : VReg) (va : VReg) (vb : VReg) (p : PReg) (et : ElemType)
  /-- VSUB (R126). Vector integer subtract. -/
  | vsub (core : CoreId) (vd : VReg) (va : VReg) (vb : VReg) (p : PReg) (et : ElemType)
  /-- VMUL (R126). Vector integer multiply, low half. -/
  | vmul (core : CoreId) (vd : VReg) (va : VReg) (vb : VReg) (p : PReg) (et : ElemType)
  /-- VDOT (R126). Vector dot-product accumulate into INT32 lanes. -/
  | vdot (core : CoreId) (vd : VReg) (va : VReg) (vb : VReg) (p : PReg) (et : ElemType)
  /-- VMIN (R126). Vector signed minimum. -/
  | vmin (core : CoreId) (vd : VReg) (va : VReg) (vb : VReg) (p : PReg) (et : ElemType)
  /-- VMAX (R126). Vector signed maximum. -/
  | vmax (core : CoreId) (vd : VReg) (va : VReg) (vb : VReg) (p : PReg) (et : ElemType)
  /-- VAND (R126). Vector bitwise and. -/
  | vand (core : CoreId) (vd : VReg) (va : VReg) (vb : VReg) (p : PReg) (et : ElemType)
  /-- VOR (R126). Vector bitwise or. -/
  | vor (core : CoreId) (vd : VReg) (va : VReg) (vb : VReg) (p : PReg) (et : ElemType)
  /-- VXOR (R126). Vector bitwise exclusive or. -/
  | vxor (core : CoreId) (vd : VReg) (va : VReg) (vb : VReg) (p : PReg) (et : ElemType)
  /-- VSHL (R126). Vector shift left by lane. -/
  | vshl (core : CoreId) (vd : VReg) (va : VReg) (vb : VReg) (p : PReg) (et : ElemType)
  /-- VSHR (R126). Vector arithmetic shift right by lane. -/
  | vshr (core : CoreId) (vd : VReg) (va : VReg) (vb : VReg) (p : PReg) (et : ElemType)
  /-- VSHRU (R126). Vector logical shift right by lane. -/
  | vshru (core : CoreId) (vd : VReg) (va : VReg) (vb : VReg) (p : PReg) (et : ElemType)
  /-- VFADD (R126). Vector floating-point add. -/
  | vfadd (core : CoreId) (vd : VReg) (va : VReg) (vb : VReg) (p : PReg) (et : ElemType)
  /-- VFSUB (R126). Vector floating-point subtract. -/
  | vfsub (core : CoreId) (vd : VReg) (va : VReg) (vb : VReg) (p : PReg) (et : ElemType)
  /-- VFMUL (R126). Vector floating-point multiply. -/
  | vfmul (core : CoreId) (vd : VReg) (va : VReg) (vb : VReg) (p : PReg) (et : ElemType)
  /-- VFMA (R126). Vector fused multiply-add, rounded once. -/
  | vfma (core : CoreId) (vd : VReg) (va : VReg) (vb : VReg) (p : PReg) (et : ElemType)
  /-- VFMS (R126). Vector fused multiply-subtract, rounded once. -/
  | vfms (core : CoreId) (vd : VReg) (va : VReg) (vb : VReg) (p : PReg) (et : ElemType)
  /-- VFDIV (R126). Vector floating-point divide. -/
  | vfdiv (core : CoreId) (vd : VReg) (va : VReg) (vb : VReg) (p : PReg) (et : ElemType)
  /-- VFSQRT (R126). Vector floating-point square root. -/
  | vfsqrt (core : CoreId) (vd : VReg) (va : VReg) (p : PReg) (et : ElemType)
  /-- VFMIN (R126). Vector floating-point minimum. -/
  | vfmin (core : CoreId) (vd : VReg) (va : VReg) (vb : VReg) (p : PReg) (et : ElemType)
  /-- VFMAX (R126). Vector floating-point maximum. -/
  | vfmax (core : CoreId) (vd : VReg) (va : VReg) (vb : VReg) (p : PReg) (et : ElemType)
  /-- VFABS (R126). Vector absolute value by sign bit. -/
  | vfabs (core : CoreId) (vd : VReg) (va : VReg) (p : PReg) (et : ElemType)
  /-- VFNEG (R126). Vector negation by sign bit. -/
  | vfneg (core : CoreId) (vd : VReg) (va : VReg) (p : PReg) (et : ElemType)
  /-- VCEQ (R126). Lane compare equal into a predicate. -/
  | vceq (core : CoreId) (pd : PReg) (va : VReg) (vb : VReg) (p : PReg) (et : ElemType)
  /-- VCNE (R126). Lane compare not-equal into a predicate. -/
  | vcne (core : CoreId) (pd : PReg) (va : VReg) (vb : VReg) (p : PReg) (et : ElemType)
  /-- VCLT (R126). Lane compare less-than into a predicate. -/
  | vclt (core : CoreId) (pd : PReg) (va : VReg) (vb : VReg) (p : PReg) (et : ElemType)
  /-- VCLE (R126). Lane compare less-or-equal into a predicate. -/
  | vcle (core : CoreId) (pd : PReg) (va : VReg) (vb : VReg) (p : PReg) (et : ElemType)
  /-- PAND (R126). Predicate and. -/
  | pand (core : CoreId) (pd : PReg) (pa : PReg) (pb : PReg)
  /-- POR (R126). Predicate or. -/
  | por (core : CoreId) (pd : PReg) (pa : PReg) (pb : PReg)
  /-- PXOR (R126). Predicate exclusive or. -/
  | pxor (core : CoreId) (pd : PReg) (pa : PReg) (pb : PReg)
  /-- PNOT (R126). Predicate not. -/
  | pnot (core : CoreId) (pd : PReg) (pa : PReg)
  /-- VSEL (R126). Select lanes of two vectors by predicate. -/
  | vsel (core : CoreId) (vd : VReg) (va : VReg) (vb : VReg) (p : PReg) (et : ElemType)
  /-- VCVT (R126). Convert lanes from the element type to the type named by fn[2:0]. -/
  | vcvt (core : CoreId) (vd : VReg) (va : VReg) (p : PReg) (et : ElemType) (dst : ElemType)
  /-- VPERM (R126). Permute lanes by index vector. -/
  | vperm (core : CoreId) (vd : VReg) (va : VReg) (vb : VReg) (p : PReg) (et : ElemType)
  /-- EXP2 (R60). Vector 2^x, correctly rounded. -/
  | exp2 (core : CoreId) (vd : VReg) (va : VReg) (p : PReg)
  /-- RCP (R60). Vector reciprocal, correctly rounded. -/
  | rcp (core : CoreId) (vd : VReg) (va : VReg) (p : PReg)
  /-- RSQRT (R60). Vector reciprocal square root, correctly rounded. -/
  | rsqrt (core : CoreId) (vd : VReg) (va : VReg) (p : PReg)
  /-- LOG2 (R60). Vector log2, correctly rounded. -/
  | log2 (core : CoreId) (vd : VReg) (va : VReg) (p : PReg)
  /-- TANH (R60). Vector tanh, correctly rounded. -/
  | tanh (core : CoreId) (vd : VReg) (va : VReg) (p : PReg)
  /-- SIGM (R60). Vector logistic sigmoid, correctly rounded. -/
  | sigm (core : CoreId) (vd : VReg) (va : VReg) (p : PReg)
  /-- GELU (R60). Vector error-function GELU, correctly rounded. -/
  | gelu (core : CoreId) (vd : VReg) (va : VReg) (p : PReg)
  /-- GELUT (R60). Vector tanh-form GELU, correctly rounded against the formula. -/
  | gelut (core : CoreId) (vd : VReg) (va : VReg) (p : PReg)
  /-- SILU (R60). Vector SiLU, correctly rounded. -/
  | silu (core : CoreId) (vd : VReg) (va : VReg) (p : PReg)
  /-- VBCAST (R127). Broadcast a scalar to every lane. -/
  | vbcast (core : CoreId) (v : VReg) (sa : SReg) (et : ElemType)
  /-- VINS (R127). Insert a scalar into one lane. -/
  | vins (core : CoreId) (v : VReg) (sa : SReg) (lane : Imm6) (et : ElemType)
  /-- VEXTR (R127). Extract one lane into a scalar. -/
  | vextr (core : CoreId) (v : VReg) (sd : SReg) (lane : Imm6) (et : ElemType)
  /-- VREDSUM (R127). Sum enabled lanes, FP lanes in the pairwise order of R128. -/
  | vredsum (core : CoreId) (v : VReg) (sd : SReg) (p : PReg) (et : ElemType)
  /-- VREDMAX (R127). Maximum of enabled lanes. -/
  | vredmax (core : CoreId) (v : VReg) (sd : SReg) (p : PReg) (et : ElemType)
  /-- VREDMIN (R127). Minimum of enabled lanes. -/
  | vredmin (core : CoreId) (v : VReg) (sd : SReg) (p : PReg) (et : ElemType)
  /-- VREDARG (R127). Index of the largest enabled lane under the argmax rules. -/
  | vredarg (core : CoreId) (v : VReg) (sd : SReg) (p : PReg) (et : ElemType)
  /-- PCNT (R127). Count predicate bits among the lanes of the element type. -/
  | pcnt (core : CoreId) (sd : SReg) (p : PReg) (et : ElemType)
  /-- BEQ (R129). Branch if equal. -/
  | beq (core : CoreId) (sa : SReg) (sb : SReg) (off : Imm16)
  /-- BNE (R129). Branch if not equal. -/
  | bne (core : CoreId) (sa : SReg) (sb : SReg) (off : Imm16)
  /-- BLT (R129). Branch if signed less. -/
  | blt (core : CoreId) (sa : SReg) (sb : SReg) (off : Imm16)
  /-- BGE (R129). Branch if signed greater or equal. -/
  | bge (core : CoreId) (sa : SReg) (sb : SReg) (off : Imm16)
  /-- BLTU (R129). Branch if unsigned less. -/
  | bltu (core : CoreId) (sa : SReg) (sb : SReg) (off : Imm16)
  /-- BGEU (R129). Branch if unsigned greater or equal. -/
  | bgeu (core : CoreId) (sa : SReg) (sb : SReg) (off : Imm16)
  /-- JAL (R129). Jump and link. -/
  | jal (core : CoreId) (sd : SReg) (off : Imm16)
  /-- JR (R129). Jump to register. -/
  | jr (core : CoreId) (sa : SReg)
  /-- MSEND (R134). Deliver bytes from the core view to a collector slot, waiting for a credit if none is held. -/
  | msend (core : CoreId) (sa : SReg)
  /-- CREDIT_RETURN (R135). The collector empties a slot round-robin and returns its credit to the core, releasing a waiting MSEND or MWAIT. -/
  | creditReturn (core : CoreId)
  /-- CRED (R129). Read the delivery credits held. -/
  | cred (core : CoreId) (sd : SReg)
  /-- MWAIT (R129). Wait until all four credits are held again. -/
  | mwait (core : CoreId)
  /-- BAR (R129). Wait until every logical core of the kernel reaches its k-th BAR. -/
  | bar (core : CoreId)
  /-- BARRIER_RELEASE (R129). When the last core of a kernel reaches the k-th BAR, every waiting core continues. -/
  | barrierRelease (coat : Nat) (kernel : Nat)
  /-- FENCE (R129). Complete this core's earlier stores before any later access. -/
  | fence (core : CoreId)
  /-- XRED_FSUM (R130). Cross-core FP32 sum in pairwise order of core index. -/
  | xredFsum (core : CoreId) (sd : SReg) (sa : SReg)
  /-- XRED_FMAX (R130). Cross-core FP32 maximum. -/
  | xredFmax (core : CoreId) (sd : SReg) (sa : SReg)
  /-- XRED_FMIN (R130). Cross-core FP32 minimum. -/
  | xredFmin (core : CoreId) (sd : SReg) (sa : SReg)
  /-- XRED_ISUM (R130). Cross-core exact 64-bit integer sum. -/
  | xredIsum (core : CoreId) (sd : SReg) (sa : SReg)
  /-- XRED_IMAX (R130). Cross-core integer maximum. -/
  | xredImax (core : CoreId) (sd : SReg) (sa : SReg)
  /-- XRED_COMPLETE (R130). When every core in the mask has contributed to the k-th XRED, each receives the same result. -/
  | xredComplete (coat : Nat) (kernel : Nat)
  /-- DRAW (R131). Compute the stateless random draw of a seed and a counter. -/
  | draw (core : CoreId) (sd : SReg) (sa : SReg) (sb : SReg)
  /-- FLAGS (R129). Read and clear the core's numeric flags register. -/
  | flags (core : CoreId) (sd : SReg)
  /-- DONE (R132). End this core's part of the kernel and OR its remaining flags into its rows' statuses. -/
  | done (core : CoreId)
  /-- TRANSLATION_FAULT (R200). A RANGE, INVALID, WRITE or UPDATE translation fault is handled by refusal, hold, restore or F_XLT. -/
  | translationFault (owner : Nat) (vpn : Nat) (write : Bool) (master : Nat)
  /-- SPILLED_PAGE_RESTORE (R211). A page on the cartridge is restored, its entry rewritten with V = 1 and the held access proceeds. -/
  | spilledPageRestore (owner : Nat) (vpn : Nat)
  /-- TABLE_UPDATE_DONE (R198). A translation table update returns its completion marker once every earlier-translated access has completed. -/
  | tableUpdateDone
  /-- RANGE_MOVE (R199). Between two coats the supervisor moves an owner's table entries to a longer free run and updates its descriptor. -/
  | rangeMove (owner : Nat)
  /-- PAGE_CLEARED (R193). A freed pool page has been cleared to zero by class 6 traffic and becomes free and clear. -/
  | pageCleared (page : Nat)
  /-- ACTIVATION_SPILL (R210). Before switching slots mid-batch, the sequencer spills the bank ranges a later coat reads and restores them before resuming. -/
  | activationSpill
  /-- KV_CARTRIDGE_SPILL (R211). With cartridge spill on, an idle sequence's pages are written whole to cartridge slots and their entries set to C = 1. -/
  | kvCartridgeSpill
  /-- UNCORRECTABLE_GRANULE (R201). An uncorrectable granule is poisoned, its page retired and its region's recovery action taken. -/
  | uncorrectableGranule (granule : Nat) (wrong : List (Nat × Nat × Byte))
  /-- PATROL_PASS (R184). The patrol scrubber reads every granule once per patrol interval, writes back corrections and counts corrected bytes. -/
  | patrolPass (corrected : List (Nat × Nat))
  /-- DQS_OSCILLATOR_READ (R186). Every 1 ms the DQS interval oscillator of every channel is read and write DQ delays adjusted. -/
  | dqsOscillatorRead (drifted : List Nat)
  /-- ZQ_CALIBRATION (R186). Background ZQ calibration runs every 256 ms. -/
  | zqCalibration
  /-- MR4_READ (R186). Every 16 ms MR4 is read and the refresh interval follows device temperature. -/
  | mr4Read (code : Nat)
  /-- PER_BANK_REFRESH (R186). The refresh timer on crystal B issues per-bank refresh. -/
  | perBankRefresh
  /-- BANK_COLLISION (R206). Two ports writing one word keep the lower master's write and return collision status to the other. -/
  | bankCollision (m1 : Nat) (m2 : Nat) (bank : Nat) (unit : Nat) (d1 : List Byte) (d2 : List Byte)
  /-- BANK_UNCORRECTABLE (R208). An uncorrectable bank subword is counted and handled as BANK for a trim core or as a collision for others. -/
  | bankUncorrectable (master : Nat) (bank : Nat) (unit : Nat) (wrong : List Nat)
  /-- VIDEO_OPEN (R283). A VIDEO_OPEN opens a stream context and reserves its buffer units, or is refused. -/
  | videoOpen (m : Msg)
  /-- VIDEO_DATA (R286). VIDEO_DATA bytes for a context are journalled and appended to its stream. -/
  | videoData (m : Msg)
  /-- VIDEO_CLOSE_DRAIN (R287). VIDEO_CLOSE mode 1 finishes and delivers every complete access unit, then frees the context. -/
  | videoCloseDrain (m : Msg)
  /-- VIDEO_CLOSE_ABORT (R287). VIDEO_CLOSE mode 2 discards undecoded data, cancels undelivered pictures and frees the context. -/
  | videoCloseAbort (m : Msg)
  /-- PICTURE_DECODE_START (R285). A free decode pipe takes the earliest-completed access unit of any context and decodes the picture. -/
  | pictureDecodeStart
  /-- PICTURE_DECODED (R296). A decoded picture is concealed where damaged, marked for output and a VIDEO_STATUS sent if blocks were concealed. -/
  | pictureDecoded (pipe : Nat)
  /-- PICTURE_WATCHDOG (R295). A picture that reaches its time limit is damaged from the point reached and VID.FAULT.WATCHDOG set. -/
  | pictureWatchdog (pipe : Nat) (block : Nat)
  /-- PICTURE_DELIVER (R290). When a feed-bank slot is free, the picture is converted, resized and written with trailer and statistics in output order. -/
  | pictureDeliver
  /-- PICTURE_ENCODE (R300). The encode pipe codes a picture in H.265 within the session window and sends it in one VIDEO_OUT. -/
  | pictureEncode
  /-- VIDEO_CONTEXT_RESTART (R297). After a module fault each context restarts from the newest journalled random access point and decodes without delivery. -/
  | videoContextRestart
  /-- MGMT_READ (R502). A MGMT_READ is checked and returns count consecutive registers of one block. -/
  | mgmtRead (m : Msg)
  /-- MGMT_WRITE (R505). A MGMT_WRITE checks every entry and then applies the masked writes to registers in entry order. -/
  | mgmtWrite (m : Msg)
  /-- GATE_WRITE (R416). A write to SYS.GATE changes unlocked enable bits, refusing to gate a block in use and restarting a block within 10 µs. -/
  | gateWrite (mask : Word) (value : Word)
  /-- ARR_COUNTER_CLEAR (R93). Writing ARR.CTRL.CLEAR sets every array counter and ARR.ACC_CORR to zero. -/
  | arrCounterClear
  /-- FEED_COUNTER_CLEAR (R113). Writing FEED.CTRL.CLEAR sets every feed counter to zero. -/
  | feedCounterClear
  /-- TRIM_COUNTER_CLEAR (R147). Writing TRIM.CTRL.CLEAR sets every trim counter to zero. -/
  | trimCounterClear
  /-- MEM_COUNTER_CLEAR (R212). Writing MEM.CTRL.CLEAR clears corrected and uncorrectable counts and the read peak. -/
  | memCounterClear
  /-- XLT_COUNTER_CLEAR (R213). Writing XLT.CTRL.CLEAR sets every translation counter to zero. -/
  | xltCounterClear
  /-- BANK_COUNTER_CLEAR (R214). Writing BANK.CTRL.CLEAR sets every bank counter to zero. -/
  | bankCounterClear
  /-- SRV_COUNTER_CLEAR (R256). Writing SRV.CTRL.CLEAR sets every serving counter to zero. -/
  | srvCounterClear
  /-- VID_COUNTER_CLEAR (R302). Writing VID.CTRL.CLEAR sets every video counter to zero. -/
  | vidCounterClear
  /-- NET_COUNTER_CLEAR (R332). Writing NET.CTRL.CLEAR sets every network counter to zero. -/
  | netCounterClear
  /-- CONT_COUNTER_CLEAR (R365). Writing CONT.CTRL.CLEAR sets every continuity counter to zero. -/
  | contCounterClear
  /-- THM_COUNTER_CLEAR (R452). Writing THM.CTRL.CLEAR sets the thermal counters and every MAX to zero. -/
  | thmCounterClear
  /-- HANDOVER (R343). Writing CONT.CTRL.HANDOVER hands the supervisor lease to a ready standby, or is refused with B_RETRY. -/
  | handover
  /-- MEAS_START (R422). Writing CLK.MEAS_CFG.START counts target-source edges over WINDOW reference cycles. -/
  | measStart (cfg : Word)
  /-- MEAS_DONE (R422). A clock measurement completes, setting DONE with the count in CLK.MEAS_COUNT. -/
  | measDone (count : Nat)
  /-- MANUAL_POINT_WRITE (R424). A write of PWR.MANUAL sets or clears manual limits on point, pacer and voltage. -/
  | manualPointWrite (m : Msg) (value : Word)
  /-- RAW_SLICE_GO (R465). Writing BIST.RUN.GO runs one self-test slice on one unit, or is refused. -/
  | rawSliceGo (m : Msg) (slice : Nat) (unit : Nat)
  /-- HEALTH_READ (R459). A HEALTH_READ is answered with the 128-byte health report from one register snapshot. -/
  | healthRead (m : Msg)
  /-- CAP_SET (R432). A CAP_SET sets the pacer within 2 µs and steps toward the point chosen for the cap. -/
  | capSet (m : Msg)
  /-- CAP_SETTLED (R430). When the target point is reached and the pacer holds its value, the cap reply is sent with overrun data. -/
  | capSettled
  /-- OP_STEP (R425). A step between adjacent operating points changes pacer, data rate and core voltage in the stated order. -/
  | opStep (failed : List Nat)
  /-- VOLTAGE_CONFIRM_TIMEOUT (R425). A voltage not confirmed within the step bound abandons the step at the lower point and sets PWR.FAULT.VREG. -/
  | voltageConfirmTimeout
  /-- POWER_INTERVAL (R433). Each 100 µs the measured power is compared with the cap and the pacer's cap value lowered or raised. -/
  | powerInterval (mw : Nat)
  /-- THROTTLE_ASSERT (R434). An emergency throttle assertion of at least 0.5 µs limits the pacer to 8/64. -/
  | throttleAssert
  /-- THROTTLE_RELEASE (R434). On release of the throttle the pacer limit begins to rise. -/
  | throttleRelease
  /-- THROTTLE_RAMP_STEP (R434). Every 16 µs after release the throttle limit rises by 1/64 until it no longer limits. -/
  | throttleRampStep
  /-- CRYSTAL_STABLE (R411). A crystal that has delivered 32,768 cycles after oscillating is stable, or fails at twice the time. -/
  | crystalStable (side : Side) (ok : Bool)
  /-- PLL_LOCK_LOSS (R411). A PLL losing lock stops its domain, taking memory or links out of service as stated. -/
  | pllLockLoss (pll : Pll)
  /-- OSCILLATOR_CHECK (R418). Each check window counts an oscillator against crystal B and two bad counts mark it failed. -/
  | oscillatorCheck (osc : Nat) (count : Nat)
  /-- TEMPO_WINDOW (R421). At the end of each 1 ms crystal window CLK.TEMPO_COUNT and CLK.TEMPO_PACED update. -/
  | tempoWindow (count : Nat) (paced : Nat)
  /-- THERMAL_INTERVAL (R438). Every 125 µs all sensors are read into one snapshot and validity, pair rule, model, bands and coolant rules are applied. -/
  | thermalInterval (x : ThermalSnapshot)
  /-- AIRFLOW_CLEAR (R451). After 60 s of normal rise rates the lost-airflow cap and fault clear. -/
  | airflowClear
  /-- FLOW_AVERAGE (R446). Every 100 ms the coolant flow is averaged and its band and coolant cap updated under hysteresis. -/
  | flowAverage
  /-- SUDDEN_STOP_WATCH_END (R449). When the 500 ms watch ends without a rise, OP0 at 1/64 is held while flow stays low. -/
  | suddenStopWatchEnd
  /-- SUDDEN_STOP_CLEAR (R449). Flow held at or above 0.80 L/min for 10 s clears the stop. -/
  | suddenStopClear
  /-- BEAT_WATCH (R335). Every 250 µs the active supervisor reads both front-end beats and fails over a front end whose beat has stalled. -/
  | beatWatch
  /-- FRONT_END_RETURN (R336). A restarted front end that passed its slice and showed 1 s of clean health gets its paths back. -/
  | frontEndReturn
  /-- CHECKPOINT (R338). Every 10 ms the holder writes a sealed checkpoint and a CHECKPOINT record. -/
  | checkpoint
  /-- LEASE_RENEWAL (R340). Every 10 ms the holder renews the supervisor lease, and an old holder whose renewal is refused partially resets. -/
  | leaseRenewal
  /-- LEASE_HOLD_LIMIT (R340). At 40 ms since its last accepted renewal the holder stops bound actions. -/
  | leaseHoldLimit
  /-- STANDBY_LEASE_POLL (R340). Every 1 ms the standby reads the renewal count and claims epoch + 1 after 70 ms without change. -/
  | standbyLeasePoll
  /-- TAKEOVER (R342). An accepted claim loads the newest checkpoint, applies later journal records and resumes bound actions. -/
  | takeover
  /-- REPLAY (R350). Affected requests are requeued or rebuilt from the journal and their outputs resent with the same bits and numbers. -/
  | replay
  /-- PREFERRED_LEASE_RETURN (R343). A repaired preferred supervisor with 1 s of clean health asks for the lease and the holder releases it. -/
  | preferredLeaseReturn
  /-- JOURNAL_DURABLE (R346). A journal record becomes durable when its granules are acknowledged and, for bound records on a pair, the twin has acknowledged it. -/
  | journalDurable (index : Nat)
  /-- MIRROR_RECORDS (R352). A follower applies mirrored bound records in index order and acknowledges them once durable. -/
  | mirrorRecords (m : Msg) (records : List JRecord)
  /-- MIRROR_ACK (R353). The holder receives a follower's ack of its highest durable index. -/
  | mirrorAck (m : Msg)
  /-- MIRROR_FETCH (R352). A MIRROR fetch asks the holder for a partner message, which it returns as a fetched message. -/
  | mirrorFetch (m : Msg)
  /-- MIRROR_FETCHED_MESSAGE (R352). A follower receives a fetched partner message and executes the admitted request from it. -/
  | mirrorFetchedMessage (m : Msg)
  /-- FOLLOWER_FETCH_TIMER (R352). A follower holding no copy 1 ms after applying an ADMIT fetches the message through MIRROR. -/
  | followerFetchTimer
  /-- MIRROR_ACK_TIMEOUT (R353). With no MIRROR ack for 20 ms the holder marks the twin lost and continues alone. -/
  | mirrorAckTimeout
  /-- TWIN_LEASE_RENEW (R354). Every 10 ms the twin lease holder sends a LEASE renewal. -/
  | twinLeaseRenew
  /-- TWIN_LEASE_RENEW_RECEIVED (R354). A follower receives a LEASE renewal and acknowledges it. -/
  | twinLeaseRenewReceived (m : Msg)
  /-- TWIN_LEASE_ACK (R354). The holder receives the follower's LEASE acknowledgement. -/
  | twinLeaseAck (m : Msg)
  /-- TWIN_LEASE_HOLD_LIMIT (R354). A twin holder at 40 ms without acknowledged renewal stops bound actions and sends a release. -/
  | twinLeaseHoldLimit
  /-- TWIN_LEASE_RELEASE (R354). A follower receiving a release sends a claim for epoch + 1 to the rack controller. -/
  | twinLeaseRelease (m : Msg)
  /-- TWIN_LEASE_EXPIRY (R354). A follower without renewal for 70 ms sends a claim to the rack controller. -/
  | twinLeaseExpiry
  /-- TWIN_LEASE_GRANT (R354). A granted twin-lease claim makes the module the holder of the new epoch. -/
  | twinLeaseGrant (m : Msg)
  /-- TWIN_LEASE_REFUSE (R354). A refused twin-lease claim leaves the module as follower. -/
  | twinLeaseRefuse (m : Msg)
  /-- TWIN_JOIN (R355). A new twin receives session and bound records, loads models, fetches messages and rebuilds sequences until caught up. -/
  | twinJoin
  /-- CONFIG_STAGE (R360). A CONFIG_STAGE payload is checked and staged, and the digest that activation would give is returned. -/
  | configStage (m : Msg)
  /-- CONFIG_ACTIVATE (R362). CONFIG_ACTIVATE applies the staged writes and pairs at the next batch boundary after a CONFIG record. -/
  | configActivate (m : Msg)
  /-- HEARTBEAT (R363). Every CONT.HB.PERIOD_MS the module sends HEARTBEAT on its rack-controller session. -/
  | heartbeat
  /-- FLUSH_RECORD (R359). Every CONT.HB.FLUSH_S the sealed flush record is written alternately to the cartridge. -/
  | flushRecord
  /-- PULL_SENSE_BREAK (R357). A pull-sense pin open for 100 µs starts the tray-pull timeline: refuse admissions, release the lease and send unacked bound records. -/
  | pullSenseBreak (pin : Nat)
  /-- PULL_TWIN_ACK_WAIT (R357). On the twin's ack or after 5 ms the flush record is written to the cartridge and NVMe Flush issued. -/
  | pullTwinAckWait
  /-- HOLDUP_END (R357). When hold-up ends the module holds reset. -/
  | holdupEnd
  /-- PULL_PIN_FAULT (R478). One pull-sense pin open for 1 s while the other is made is marked faulted and admissions resume. -/
  | pullPinFault
  /-- PULL_SENSE_REMADE (R478). Both pins made again for 1 s clears the pull and resumes admissions. -/
  | pullSenseRemade
  /-- ATTEST (R379). An ATTEST is answered with a signed ATTEST_REPORT, held while measurements change. -/
  | attest (m : Msg)
  /-- TENANT_SWITCH (R385). A TENANT_SWITCH is checked and, if accepted, ends live work and starts the switch timeline. -/
  | tenantSwitch (m : Msg)
  /-- TENANT_SWITCH_ACKED (R386). When the cancellations are acknowledged or 100 ms pass, the enrolment is stored, the job salt replaced and OK sent. -/
  | tenantSwitchAcked
  /-- TENANT_SWITCH_RESET (R386). When the reply is acknowledged or 10 ms pass, the module performs a full reset with zeroed memory. -/
  | tenantSwitchReset
  /-- DEBUG_TOKEN (R390). A debug token presented while reset is held opens level 1 or 2 debug or is refused. -/
  | debugToken (token : List Byte)
  /-- DEBUG_CAP_REMOVED (R489). Removing the debug port's cap writes the tamper mark once and sets SYS.J1.TAMPER. -/
  | debugCapRemoved
  /-- FWU_BEGIN (R397). FWU_BEGIN discards any package and starts reception. -/
  | fwuBegin (m : Msg)
  /-- FWU_BLOCK (R398). An FWU_BLOCK stores one block of the package in the staging area. -/
  | fwuBlock (m : Msg)
  /-- PACKAGE_STAGED (R400). When the flash write and read-back end, the package is staged. -/
  | packageStaged (ok : Bool)
  /-- FWU_STATUS (R399). FWU_STATUS returns the update state. -/
  | fwuStatus (m : Msg)
  /-- FWU_ACTIVATE_LIVE (R402). FWU_ACTIVATE mode 1 moves each component onto its new image in the fixed order and enters TRIAL. -/
  | fwuActivateLive (m : Msg)
  /-- MEASUREMENT_COMMIT (R402). Once a component's new image runs, the SEC engine commits its measurement and the configuration digest is recomputed. -/
  | measurementCommit
  /-- COMMIT_TIMEOUT (R382). If no commit comes within 250 ms of a stop, fall-back restores the old image. -/
  | commitTimeout
  /-- FWU_ACTIVATE_RESET (R403). FWU_ACTIVATE mode 2 sets the try-once mark and performs a full reset onto the staged bank. -/
  | fwuActivateReset (m : Msg)
  /-- FWU_DISCARD (R407). FWU_ACTIVATE mode 3 falls back in ACTIVATING or TRIAL, or discards the staged package. -/
  | fwuDiscard (m : Msg)
  /-- TRIAL_EXPIRY (R406). When the trial count ends without a fall-back trigger the update is confirmed. -/
  | trialExpiry
  /-- FALLBACK (R407). Fall-back runs the activation steps in reverse with the previous images and returns to STAGED. -/
  | fallback
  /-- AUX_RISE (R468). When AUX rises the straps are read into SYS.STRAPS and the coupling count is incremented. -/
  | auxRise (slots : Nat) (parity : Bool) (leader : Bool)
  /-- POWER_ENABLE_RISE (R453). PWR_EN rising starts the power-up sequence through its ten steps to service. -/
  | powerEnableRise
  /-- POWER_UP_STEP_DONE (R453). Each power-up step's end starts the next step of the start-up timeline. -/
  | powerUpStepDone
  /-- SLICE_BUDGET_EXPIRY (R454). A slice reaching its budget ends, sets BIST.FAULT.OVERTIME and counts as failed. -/
  | sliceBudgetExpiry (slice : Nat) (unit : Nat) (report : SliceReport)
  /-- SLICE_END (R457). A self-test slice ends, its block is reset and restarted, and a failure marks the block unusable. -/
  | sliceEnd (slice : Nat) (unit : Nat) (report : SliceReport)
  /-- POWER_ENABLE_FALL (R474). PWR_EN falling in service runs steps 1 to 4 of R357 and removes the rails. -/
  | powerEnableFall
  /-- RUNTIME_TEST_PIECE (R463). The run-time self-test saves, tests and restores one piece of at most 64 KiB of a tested region. -/
  | runtimeTestPiece (region : Nat) (ok : Bool) (restored : Bool)
  /-- STANDBY_TEST_STOP (R464). A standby whose lease count shows no change for 60 ms starts no new piece and restores the current one. -/
  | standbyTestStop
  /-- VIN_DIP (R476). VIN below 38 V is ridden on hold-up and counted if it returns within 10 ms. -/
  | vinDip (decivolts : Nat)
  /-- VIN_LOST (R476). If VIN does not return within 10 ms the module holds reset. -/
  | vinLost
  /-- OVERVOLTAGE_SHUTDOWN (R471). Input above 62 V removes every rail within 10 µs and asserts FAULT#. -/
  | overvoltageShutdown (decivolts : Nat)
  /-- HOLDUP_CHARGED (R475). The hold-up store is charged and SYS.HOLDUP.READY set. -/
  | holdupCharged
  /-- START_CAP_WRITE (R473). A sideband write of the start cap is stored for application at step 10 of start-up. -/
  | startCapWrite (watts : Nat)
  /-- PANEL_IDENTIFY (R479). Setting the identify bit makes the SERVICE light blink. -/
  | panelIdentify (on : Bool)
  /-- CARTRIDGE_INSERTION (R483). After the presence pin has been closed 100 ms, the bay is powered, the link trained and the identity checked. -/
  | cartridgeInsertion (x : CartridgeInfo)
  /-- CARTRIDGE_REMOVAL (R483). On the presence pin's break, commands stop within 1 ms, bay power is removed and loads or spills in progress fail. -/
  | cartridgeRemoval
  /-- CARTRIDGE_LIFE_POLL (R486). Every 60 s the cartridge's three life measures are read and warnings raised. -/
  | cartridgeLifePoll (written : Nat) (matings : Nat) (devicePct : Nat) (readOnly : Bool)
  /-- FRONT_END_INTERNAL_ERROR (R335). A front end that reports an internal error is held in reset and its data-port paths move to the other front end. -/
  | frontEndInternalError (side : Side)
  /-- FRONT_END_BEAT_ADVANCE (R335). Every 100 µs on its interval counter each front end advances its beat counter. -/
  | frontEndBeatAdvance (side : Side)
  /-- CARTRIDGE_FAILED (R333). A cartridge that fails, as the NVMe link state shows, leaves resident models serving, fails MODEL_LOAD and rebuilds spilled sequences. -/
  | cartridgeFailed
  /-- VIN_RETURN (R476). VIN rising back above 39.5 V within 10 ms of a dip ends the ride-through and counts the dip in SYS.J1.DIPS. -/
  | vinReturn (decivolts : Nat)
  /-- ARP_REPLY (R305). A received ARP reply resolves a partner's IPv4 address for sending. -/
  | arpReply (a : ArpPacket)
  /-- NEIGHBOR_ADVERTISEMENT (R305). A received IPv6 neighbor advertisement resolves a partner and feeds unreachability and duplicate address detection. -/
  | neighborAdvertisement (n : NdPacket)
  /-- PREFERRED_TWIN_LEASE_RETURN (R355). A repaired preferred twin with 1 s of clean health takes the twin lease back, because the holder releases it. -/
  | preferredTwinLeaseReturn
  deriving DecidableEq, Repr

end Sys2Proof
end

