-- ==== Sys2Proof/Machine/Maps.lean ====
section
/-! DEFINITION. Maps.lean: the two shapes of keyed data of the state, both lists of (key, value) pairs with strictly
rising keys: a `Dict` (an absent key has no value) and a `Tab` (an absent key reads as a default, and no entry holds the
default), and memory, which is a `Tab` of bytes whose default is zero (R209: the wake clear writes zero everywhere). -/

namespace Sys2Proof.Machine

/-- A finite map from numbers, keys strictly rising. -/
abbrev Dict (α : Type) := List (Nat × α)

/-- The value at a key. -/
def Dict.fetch {α : Type} (d : Dict α) (k : Nat) : Option α :=
  match d with
  | [] => none
  | (k', v) :: r => if k' = k then some v else Dict.fetch r k

/-- Put a value at a key, in key order. -/
def Dict.store {α : Type} (d : Dict α) (k : Nat) (v : α) : Dict α :=
  match d with
  | [] => [(k, v)]
  | (k', v') :: r =>
    if k < k' then (k, v) :: (k', v') :: r
    else if k' = k then (k, v) :: r
    else (k', v') :: Dict.store r k v

/-- Take a key out. -/
def Dict.remove {α : Type} (d : Dict α) (k : Nat) : Dict α :=
  match d with
  | [] => []
  | (k', v) :: r => if k' = k then Dict.remove r k else (k', v) :: Dict.remove r k

/-- Change the value at a key, if there is one. -/
def Dict.modify {α : Type} (d : Dict α) (k : Nat) (f : α → α) : Dict α :=
  d.map fun (k', v) => if k' = k then (k', f v) else (k', v)

/-- Does a key have a value? -/
def Dict.has {α : Type} (d : Dict α) (k : Nat) : Bool := (Dict.fetch d k).isSome

/-- Keep the entries that satisfy a test. -/
def Dict.keep {α : Type} (d : Dict α) (p : Nat → α → Bool) : Dict α := d.filter fun (k, v) => p k v

/-- The values in key order. -/
def Dict.values {α : Type} (d : Dict α) : List α := d.map (·.2)

/-- The keys in order. -/
def Dict.keys {α : Type} (d : Dict α) : List Nat := d.map (·.1)

/-- The least number from `lo` on that is no key, looking at `n` numbers. -/
def Dict.firstFree {α : Type} (d : Dict α) (lo : Nat) : Nat → Option Nat
  | 0 => none
  | n + 1 => if Dict.has d lo then Dict.firstFree d (lo + 1) n else some lo

/-- Keys strictly rising. -/
def Dict.wf {α : Type} (d : Dict α) : Bool :=
  match d with
  | [] => true
  | [_] => true
  | (k, _) :: (k', v') :: r => decide (k < k') && Dict.wf ((k', v') :: r)

/-- A total map from numbers with a default value. -/
abbrev Tab (α : Type) := List (Nat × α)

/-- The value at a key, the default where none is listed. -/
def Tab.read {α : Type} (dflt : α) (t : Tab α) (k : Nat) : α := (Dict.fetch t k).getD dflt

/-- Write a value at a key; writing the default takes the entry out, so that equal maps are equal lists. -/
def Tab.write {α : Type} [DecidableEq α] (dflt : α) (t : Tab α) (k : Nat) (v : α) : Tab α :=
  if v = dflt then Dict.remove t k else Dict.store t k v

/-- The canonical form of a table: keys strictly rising, no entry equal to the default. -/
def Tab.wf {α : Type} [DecidableEq α] (dflt : α) (t : Tab α) : Bool :=
  Dict.wf t && t.all fun (_, v) => decide (v ≠ dflt)

/-- Memory: the bytes that are not zero, by address (R209: memory reads zero until it is written). -/
abbrev Memory := List Host.Cell

/-- What an address that is not listed reads as. -/
def Memory.blank : Byte := 0

/-- One byte of memory. -/
def Memory.byte (m : Memory) (a : Nat) : Byte := Tab.read Memory.blank m a

/-- Write one byte of memory. -/
def Memory.put (m : Memory) (a : Nat) (b : Byte) : Memory := Tab.write Memory.blank m a b

/-- The canonical form of memory. -/
def Memory.wf (m : Memory) : Bool := Tab.wf Memory.blank m

/-- `n` bytes from an address, in address order. -/
def Memory.bytes (m : Memory) (a : Nat) : Nat → List Byte
  | 0 => []
  | n + 1 => Memory.byte m a :: Memory.bytes m (a + 1) n

/-- Write a list of bytes at rising addresses. -/
def Memory.putBytes (m : Memory) (a : Nat) : List Byte → Memory
  | [] => m
  | b :: bs => Memory.putBytes (Memory.put m a b) (a + 1) bs

/-- Set `n` bytes from an address to zero. -/
def Memory.clear (m : Memory) (a n : Nat) : Memory := Dict.keep m fun k _ => decide (k < a ∨ a + n ≤ k)

/-- The entry of a list at an index, a default beyond its end. -/
def listAt {α : Type} (dflt : α) (l : List α) (i : Nat) : α := (l[i]?).getD dflt

/-- Change the entry of a list at an index. -/
def listModify {α : Type} (l : List α) (i : Nat) (f : α → α) : List α := l.modify i f

/-- Insert a number into an ascending list without repeats. -/
def insertNat (p : Nat) : List Nat → List Nat
  | [] => [p]
  | q :: r => if p < q then p :: q :: r else if p = q then q :: r else q :: insertNat p r

end Sys2Proof.Machine
end

