-- ==== Sys2Proof/Machine/Bytes.lean ====
section
/-! DEFINITION. Bytes.lean: reading and building byte strings. Every multi-byte field of the module is little-endian
unless its rule says otherwise (R8). -/

namespace Sys2Proof.Machine

/-- The number a little-endian byte string stands for (R8). -/
def leNat : List Byte → Nat
  | [] => 0
  | b :: bs => b.toNat + 256 * leNat bs

/-- The number a big-endian byte string stands for (network headers, ECDSA numbers). -/
def beNat (bs : List Byte) : Nat := bs.foldl (fun a b => a * 256 + b.toNat) 0

/-- `n` bytes of a number, least significant first (R8). -/
def leBytes : Nat → Nat → List Byte
  | 0, _ => []
  | n + 1, v => BitVec.ofNat 8 v :: leBytes n (v / 256)

/-- `n` bytes of a number, most significant first. -/
def beBytes (n v : Nat) : List Byte := (leBytes n v).reverse

/-- `n` zero bytes. -/
def zeroBytes (n : Nat) : List Byte := List.replicate n 0

/-- `n` bytes of a payload from an offset; a byte beyond the end reads zero. -/
def slice (p : List Byte) (off n : Nat) : List Byte :=
  let t := (p.drop off).take n
  t ++ zeroBytes (n - t.length)

/-- The byte of a payload at an offset, as a number. -/
def u8 (p : List Byte) (off : Nat) : Nat := (listAt 0 p off).toNat

/-- The 16-bit field of a payload at an offset. -/
def u16 (p : List Byte) (off : Nat) : Nat := leNat (slice p off 2)

/-- The 32-bit field of a payload at an offset. -/
def u32 (p : List Byte) (off : Nat) : Nat := leNat (slice p off 4)

/-- The 64-bit field of a payload at an offset. -/
def u64 (p : List Byte) (off : Nat) : Nat := leNat (slice p off 8)

/-- Are the `n` bytes at an offset all zero? -/
def allZero (p : List Byte) (off n : Nat) : Bool := ((p.drop off).take n).all (· == 0)

/-- The bytes cut into pieces of `k` bytes, at most `n` of them. -/
def chunks (k : Nat) : Nat → List Byte → List (List Byte)
  | 0, _ => []
  | n + 1, p => if p.isEmpty then [] else p.take k :: chunks k n (p.drop k)

/-- The 64-bit number as signed. -/
def sInt (w n : Nat) : Int := (BitVec.ofNat w n).toInt

end Sys2Proof.Machine
end

