-- ==== Sys2Proof/Machine/NetTypes.lean ====
section
/-! DEFINITION. NetTypes.lean: the state of links, paths, sessions and messages ("Links and message transport"). -/

namespace Sys2Proof.Machine

/-- A result code (R331). -/
abbrev Code := BitVec 16

def Code.OK : Code := 0x0000
def Code.W_NUMERIC : Code := 0x1001
def Code.W_EMPTY_OUTPUT : Code := 0x1002
def Code.E_LEN_RANGE : Code := 0x2001
def Code.E_RESERVED : Code := 0x2002
def Code.E_VERSION : Code := 0x2003
def Code.E_TYPE : Code := 0x2004
def Code.E_PARAM : Code := 0x2005
def Code.E_FORMAT : Code := 0x2006
def Code.E_LATH_PARAM : Code := 0x2007
def Code.E_FEED_PARAM : Code := 0x2008
def Code.E_TRIM_PARAM : Code := 0x2009
def Code.E_WEIGHT_FORMAT : Code := 0x200A
def Code.E_COUNT_RANGE : Code := 0x200B
def Code.E_INPUT_SIZE : Code := 0x200C
def Code.E_CONTEXT_LIMIT : Code := 0x200D
def Code.E_SLOT_STATE : Code := 0x200E
def Code.E_SLOT_BUSY : Code := 0x200F
def Code.E_MODEL_KIND : Code := 0x2010
def Code.E_CUSTOMER : Code := 0x2011
def Code.E_TAG_BUSY : Code := 0x2012
def Code.E_NONDET : Code := 0x2013
def Code.E_STENCIL : Code := 0x2014
def Code.E_TOKEN : Code := 0x2015
def Code.E_KERNEL : Code := 0x2016
def Code.E_NUMERIC : Code := 0x2017
def Code.E_CANCELLED : Code := 0x2018
def Code.E_VIDEO_PARAM : Code := 0x2019
def Code.E_VIDEO_STREAM : Code := 0x201A
def Code.E_VIDEO_STATE : Code := 0x201B
def Code.E_GATED : Code := 0x201C
def Code.E_SEQ_LIMIT : Code := 0x201D
def Code.E_WINDOW : Code := 0x201E
def Code.E_BUDGET : Code := 0x3001
def Code.E_FOOTPRINT : Code := 0x3002
def Code.E_SIGNATURE : Code := 0x4001
def Code.E_LOCKED : Code := 0x4002
def Code.E_ROLE : Code := 0x4003
def Code.E_ENROL : Code := 0x4004
def Code.E_AUTH_FAIL : Code := 0x4005
def Code.F_ARRAY : Code := 0x5001
def Code.F_TRIM : Code := 0x5002
def Code.F_MEM : Code := 0x5003
def Code.F_XLT : Code := 0x5004
def Code.F_BANK : Code := 0x5005
def Code.F_REPLAYED : Code := 0x5006
def Code.B_RETRY : Code := 0x6001
def Code.B_DEADLINE : Code := 0x6002

/-- A fragment of a message that the module is sending: message number, offset and length in its wire form (R310). -/
structure Frag where
  message : Nat
  offset : Nat
  length : Nat
  deriving DecidableEq, Repr

/-- A data frame that has not been acknowledged: its packet number, fragment, the interval count when it left, whether it
resends a fragment, and how many higher packet numbers acks have shown (R327). -/
structure SentFrame where
  packet : Nat
  frag : Frag
  sentAt : Nat
  retx : Bool
  passed : Nat
  deriving DecidableEq, Repr

/-- A path of a session (R308 to R311, R327 to R329). -/
structure Path where
  /-- Path number, 0 in the first path. -/
  number : Nat := 0
  port : Nat := 0
  fe : Side := .a
  /-- The front end that formed it (R308, R336). -/
  home : Side := .a
  peer : PeerAddr := ⟨false, 0, 0⟩
  /-- Sending epoch and the next packet number in it. -/
  txEpoch : Nat := 0
  txNext : Nat := 1
  /-- Receiving epoch and received-packet record: every packet up to `rxCum`, and those of `rxAbove`. -/
  rxEpoch : Nat := 0
  rxCum : Nat := 0
  rxAbove : List Nat := []
  /-- Data frames received since the last ack, the last arrival's packet number and its interval count. -/
  ackOwed : Nat := 0
  echo : Nat := 0
  echoAt : Nat := 0
  unacked : List SentFrame := []
  toSend : List Frag := []
  /-- Round-trip estimate in µs (R327). -/
  sampled : Bool := false
  srtt : Nat := 0
  rttvar : Nat := 0
  rto : Nat := 1000
  /-- Consecutive expiries without an ack (R329). -/
  expiries : Nat := 0
  /-- Congestion window in bytes (R328). -/
  cwnd : Nat := 65536
  down : Bool := false
  deriving DecidableEq, Repr

/-- A message the module is ready to send (R320, R321, R347): its number, type, code, tag and payload, whether it goes
PLAIN, the journal records that must be durable before it begins, and the pool pages it frees once acknowledged (R242). -/
structure ModMsg where
  number : Nat
  type : Nat
  code : Code
  tag : Nat := 0
  payload : List Byte := []
  plain : Bool := false
  needs : List Nat := []
  pages : List Nat := []
  deriving DecidableEq, Repr

/-- A message that has begun: its wire form and the pages it frees once acknowledged. -/
structure WireMsg where
  bytes : List Byte
  needs : List Nat := []
  pages : List Nat := []
  deriving DecidableEq, Repr

/-- A partner message being reassembled: the bytes held by offset, and its wire length once the header is held. -/
structure Assembly where
  held : Dict Byte := []
  wire : Option Nat := none
  deriving DecidableEq, Repr

/-- A partner message delivered to its owning block (R313): session, type, number, tag, payload. -/
structure Delivered where
  session : Nat
  type : Nat
  number : Nat
  tag : Nat
  payload : List Byte
  deriving DecidableEq, Repr

/-- A session (R312 to R330, R500). -/
structure Session where
  /-- Session number: index in [13:0], generation in [31:14] (R312). -/
  number : Nat
  minor : Nat := 0
  /-- Role granted (R373). -/
  role : Nat := 0
  wantsProtected : Bool := false
  partnerKey : List Byte := []
  /-- Keys of the two directions (R317). -/
  keyPM : List Byte := []
  keyMP : List Byte := []
  /-- The salt of R317, which binds an ATTEST_REPORT to this session (R379). -/
  salt : List Byte := []
  /-- Window the module grants and the pool pages that hold it; window the partner grants (R325). -/
  window : Nat := 0
  pages : List Nat := []
  partnerWindow : Nat := 0
  paths : List Path := []
  /-- The next partner number to deliver, messages held ahead of a gap, and assemblies. -/
  nextDeliver : Nat := 2
  ahead : Dict (Option Delivered) := []
  assemblies : Dict Assembly := []
  /-- Copies of messages already whole, while their tags are yet to be checked (R313). -/
  repeats : Dict Assembly := []
  /-- Wire lengths of the distinct partner messages begun and consumed (R325). -/
  rxBegun : Nat := 0
  rxConsumed : Nat := 0
  /-- Partner messages whose tag failed and whose valid copy is awaited (R323). -/
  authWait : List Nat := []
  /-- The counter of module-originated messages (R321). -/
  counter : Nat := 1
  /-- Messages ready to leave, in order, and messages begun and not yet acknowledged whole. -/
  ready : List ModMsg := []
  sending : Dict WireMsg := []
  /-- Wire lengths the module has begun, and the partner's consumed report (R325, R326). -/
  txBegun : Nat := 0
  txConsumed : Nat := 0
  /-- A SESSION_CLOSE has been answered or sent: the session ends when its last message has begun. -/
  closing : Bool := false
  /-- Interval count of the last frame that arrived on any path (R318). -/
  lastFrame : Nat := 0
  /-- The session's copies of the selectors, by register address (R500). -/
  selectors : Dict Nat := []
  /-- The session's latched high words and digest words, by register address (R500). -/
  latches : Dict Word := []
  deriving DecidableEq, Repr

/-- A MACsec secure association (R307). -/
structure MacsecSa where
  an : Nat
  cipher : Nat
  sci : Nat
  key : List Byte
  salt : List Byte
  ssci : Nat
  /-- Transmit: the next packet number. Receive: the highest seen. -/
  pn : Nat
  /-- Receive: the packet numbers seen in the replay window of 64. -/
  seen : List Nat := []
  deriving DecidableEq, Repr

/-- A neighbour: its protocol address and MAC address, and, for neighbor unreachability detection, whether a solicited advertisement
confirmed it, the interval count when it did, and the solicitations it has not answered since (R305). -/
structure Neighbor where
  port : Nat
  v6 : Bool
  ip : Nat
  mac : Nat
  reachable : Bool
  confirmedAt : Nat := 0
  probes : Nat := 0
  deriving DecidableEq, Repr

/-- The settings of a port that APPLY has put in force (R306). -/
structure PortApplied where
  vlan : Nat := 0
  v4 : Bool := false
  ipv4 : Nat := 0
  prefix4 : Nat := 24
  gateway : Nat := 0
  v6 : Bool := false
  ipv6 : Nat := 0
  prefix6 : Nat := 64
  deriving DecidableEq, Repr

/-- A port: the settings in force, its MACsec associations, the last OAM status, and whether duplicate address detection
found its link-local address in use (R303 to R307). -/
structure Port where
  applied : PortApplied := {}
  txSa : Option MacsecSa := none
  rxSas : List MacsecSa := []
  oam : Byte := 0
  llDuplicate : Bool := false
  /-- The interval count when duplicate address detection of the link-local address began, if it has (R305). -/
  dadAt : Option Nat := none
  deriving DecidableEq, Repr

/-- What a sent frame carries (R305, R309). -/
inductive FrameBody where
  | qmt (peer : PeerAddr) (bytes : List Byte)
  | arpRequest (target : Nat)
  | arpReply (target : Nat) (mac : Nat)
  | solicitation (target : Nat)
  | advertisement (target : Nat) (dst : Nat)
  | echoReply (v6 : Bool) (dst : Nat) (ident seq : Nat) (data : List Byte)
  deriving DecidableEq, Repr

/-- A frame handed to a port: the port, the VLAN tag's identifier and priority, its destination MAC (none: broadcast or
multicast), the SCI, MACsec association and packet number it left under, and its body. -/
structure TxFrame where
  port : Nat
  vlan : Nat
  prio : Nat
  mac : Option Nat
  sec : Option (Nat × Nat × Nat)
  body : FrameBody
  deriving DecidableEq, Repr

/-- A message of an open session being reassembled from the data frames of an address and port that are no path yet (R308). -/
structure NewPath where
  session : Nat
  port : Nat
  peer : PeerAddr
  number : Nat
  asm : Assembly
  deriving DecidableEq, Repr

/-- A SESSION_OPEN being reassembled from data frames of session 0. -/
structure OpenAssembly where
  port : Nat
  peer : PeerAddr
  asm : Assembly
  deriving DecidableEq, Repr

/-- A SESSION_OPEN received whole. -/
structure OpenRequest where
  port : Nat
  peer : PeerAddr
  wire : List Byte
  deriving DecidableEq, Repr

/-- The network state. -/
structure NetState where
  /-- Sessions by session index (R312). -/
  sessions : Dict Session := []
  /-- Generations already used, by session index, so that no session number comes again. -/
  generations : Tab Nat := []
  /-- Ports 0 to 5. -/
  ports : List Port := [{}, {}, {}, {}, {}, {}]
  /-- The QMT UDP port in force (R305, R306). -/
  udpPort : Nat := 47100
  neighbors : List Neighbor := []
  /-- Frames that wait for a neighbour's address, oldest first. -/
  unresolved : List TxFrame := []
  /-- Frames handed to the ports, oldest first. -/
  tx : List TxFrame := []
  opens : List OpenAssembly := []
  newPaths : List NewPath := []
  openInbox : List OpenRequest := []
  /-- Delivered partner messages that their owning blocks have not yet executed, oldest first. -/
  inbox : List Delivered := []
  /-- Executed partner messages of protected sessions, kept for a twin that fetches them while their request lives (R352). -/
  copies : List Delivered := []
  deriving DecidableEq, Repr

end Sys2Proof.Machine
end

