-- ==== Sys2Proof/Machine/ContTypes.lean ====
section
/-! DEFINITION. ContTypes.lean: the state of continuity: journal, leases, checkpoints, twin, configuration, tray pull
("Continuity: redundancy, journals and replay"). -/

namespace Sys2Proof.Machine

/-- A checkpoint slot (R338): what the newest checkpoint in it covers, and the module counters it holds by session index. -/
structure Checkpoint where
  covers : Nat
  counters : Dict Nat
  digest : List Byte
  deriving DecidableEq, Repr

/-- The active configuration (R360 to R362). -/
structure ActiveConfig where
  epoch : Nat := 0
  /-- SHA-384 of the payload that was activated. -/
  payload : List Byte := []
  /-- Byte s: slot of the twin of slot s; 255 none. -/
  pairs : List Nat := []
  identities : List (List Byte) := []
  deriving DecidableEq, Repr

/-- A staged configuration (R360): its payload and the register writes parsed from it. -/
structure StagedConfig where
  epoch : Nat
  payload : List Byte
  pairs : List Nat
  identities : List (List Byte)
  writes : List (Nat × Nat)
  deriving DecidableEq, Repr

/-- A message to be answered later: session, sequence number and tag. -/
structure ReplyTo where
  session : Nat
  number : Nat
  tag : Nat
  deriving DecidableEq, Repr

/-- The accounts and figures of a flush record (R359). -/
structure FlushAccount where
  customer : Nat
  isOpen : Bool
  weight : Nat
  interval : Nat
  amount : Nat
  cap : Nat
  quota : Nat
  balance : Nat
  grant : Nat
  deriving DecidableEq, Repr

/-- A flush record (R359): the module's identity digest, tenant, epoch, last journal index, accounts and the tail of the
health log. -/
structure FlushRecord where
  identity : List Byte
  tenant : List Byte
  epoch : Nat
  index : Nat
  accounts : List FlushAccount
  health : List (List Byte)
  deriving DecidableEq, Repr

/-- What a supervisor is doing (R337, R340, R342, R343). -/
inductive SupState where
  /-- It holds the lease and acts, or is the one that will claim at start-up. -/
  | holder
  /-- A standby that is ready. -/
  | standby
  /-- It runs its self-test slice after a partial reset. -/
  | testing
  | unusable
  deriving DecidableEq, Repr

/-- Where a front end stands (R335, R336, NET.FE). -/
inductive FeState where
  | down | starting | clean | up
  deriving DecidableEq, Repr

/-- A front end: its state, interval counter (1 µs per count), beat counter, the beat the supervisor last read and the
time since it changed (µs). -/
structure FrontEnd where
  state : FeState := .down
  interval : Nat := 0
  beat : Nat := 0
  seen : Nat := 0
  still : Nat := 0
  deriving DecidableEq, Repr

/-- What started the timeline of R357: the pull-sense pins, a Trip band or a sudden stop (R450), or a fall of PWR_EN (R474). -/
inductive PullWhy where
  | sense | trip | suddenStop | powerOff
  deriving DecidableEq, Repr

/-- The steps of the tray-pull timeline (R357). -/
inductive PullStep where
  | none | waitAck | flushed | held
  deriving DecidableEq, Repr

/-- The twin lease and mirroring (R351 to R355). -/
structure TwinState where
  /-- The holder may take bound actions: the twin acknowledged a renewal sent less than 40 ms ago (R354). -/
  acting : Bool := true
  /-- Renewals sent. -/
  renewals : Nat := 0
  /-- The highest bound index sent to the twin, and the highest applied from the holder. -/
  mirrored : Nat := 0
  applied : Nat := 0
  /-- ADMIT and REFUSE records applied whose message this module does not hold yet (R352). -/
  wanting : List JRecord := []
  /-- A claim for this epoch has been sent to the rack controller, because the holder was lost or released. -/
  claiming : Option Nat := none
  lost : Bool := false
  /-- This module has sent a release and awaits its successor (R354, R357). -/
  released : Bool := false
  /-- The highest index held durable that the follower has acknowledged. -/
  acked : Nat := 0
  /-- The join of R355 has been started by this holder. -/
  joining : Bool := false
  deriving DecidableEq, Repr

/-- The state of continuity. -/
structure ContState where
  /-- Journal records that still hold space, oldest first. -/
  journal : List JRecord := []
  nextIndex : Nat := 1
  /-- Where the oldest record that still holds space begins in the 4 GiB ring (R344, R349). -/
  ringStart : Nat := 0
  /-- The highest index the twin has acknowledged (R346, R353). -/
  twinAck : Nat := 0
  /-- A twin is healthy: bound records wait for its acknowledgement. -/
  twinHealthy : Bool := false
  supA : SupState := .holder
  supB : SupState := .standby
  /-- The holder may take bound actions (R340). -/
  acting : Bool := true
  /-- The lease has been released and a claim is accepted at once. -/
  released : Bool := false
  /-- A request of the preferred supervisor for the lease is pending (R343). -/
  returnAsked : Bool := false
  /-- The renewal count that the standby last read, and its 1 ms polls since it last saw it change. -/
  standbyCount : Nat := 0
  standbyPolls : Nat := 0
  checkpoints : List (Option Checkpoint) := [none, none]
  nextCheckpoint : Nat := 0
  /-- The epoch of an accepted claim whose takeover has not run yet. -/
  claimed : Option Nat := none
  /-- That claim followed a release (R343), not an expiry (R342). -/
  byRelease : Bool := false
  feA : FrontEnd := {}
  feB : FrontEnd := {}
  twin : TwinState := {}
  config : ActiveConfig := {}
  staged : Option StagedConfig := none
  /-- A CONFIG_ACTIVATE that waits for the next batch boundary. -/
  activating : Option ReplyTo := none
  /-- The configuration writes' own selector set (R510). -/
  configSelectors : Dict Nat := []
  pull : PullStep := .none
  pullWhy : PullWhy := .sense
  /-- Admissions are refused and no batch starts (steps 1 to 4 of R357). -/
  quiesced : Bool := false
  /-- The next of the two flush locations. -/
  nextFlush : Nat := 0
  /-- Host timestamp of the rack controller's last message. -/
  rackStamp : Nat := 0
  deriving DecidableEq, Repr

end Sys2Proof.Machine
end

