-- ==== Sys2Proof/Machine/Flags.lean ====
section
/-! DEFINITION. Flags.lean: the numeric flags word (R52) and how flags are gathered (R53, R54). -/

namespace Sys2Proof.Machine

/-- The numeric flags word of R52. -/
abbrev NumFlags := BitVec 16

/-- R52 bit 0: non-zero bits below the accumulator window were dropped. -/
def NumFlags.ACC_LOW : NumFlags := 0x01
/-- R52 bit 1: a contribution was clamped or the sum saturated at the window. -/
def NumFlags.ACC_OVF : NumFlags := 0x02
/-- R52 bit 2: an INT or FP output was clamped to its format's range. -/
def NumFlags.OUT_SAT : NumFlags := 0x04
/-- R52 bit 3: a QB mantissa was clamped. -/
def NumFlags.Q_SAT : NumFlags := 0x08
/-- R52 bit 4: a NaN entered or was produced. -/
def NumFlags.INVALID : NumFlags := 0x10
/-- R52 bit 5: an infinity entered or was produced. -/
def NumFlags.INF : NumFlags := 0x20

/-- A flag when a condition holds. -/
def flagIf (b : Bool) (f : NumFlags) : NumFlags := if b then f else 0

/-- The flags of a list of results, ORed together (R53). -/
def flagsOr (l : List NumFlags) : NumFlags := l.foldl (· ||| ·) 0

/-- Do the flags make the message carry W_NUMERIC (R53: any flag other than ACC_LOW)? -/
def flagsWarn (f : NumFlags) : Bool := decide (f &&& 0x3E ≠ 0)

/-- Do the flags meet the coat's fatal mask (R54)? -/
def flagsFatal (mask f : NumFlags) : Bool := decide (mask &&& f ≠ 0)

end Sys2Proof.Machine
end

