-- ==== Sys2Proof/Machine/Fp.lean ====
section
/-! DEFINITION. Fp.lean: FP16, BF16 and FP32 (R41, R57): unpacking, exact values, one rounding to nearest with ties to
even, and the arithmetic of the trim cores. -/

namespace Sys2Proof.Machine

/-- A binary floating-point format: exponent bits and fraction bits. -/
structure FpFmt where
  ebits : Nat
  fbits : Nat
  deriving DecidableEq, Repr

/-- IEEE 754 binary16 (R41). -/
def fp16 : FpFmt := ⟨5, 10⟩
/-- bfloat16 (R41). -/
def bf16 : FpFmt := ⟨8, 7⟩
/-- IEEE 754 binary32 (R41). -/
def fp32 : FpFmt := ⟨8, 23⟩

/-- The exponent bias. -/
def FpFmt.bias (f : FpFmt) : Nat := 2 ^ (f.ebits - 1) - 1
/-- The exponent of the least subnormal's unit. -/
def FpFmt.qmin (f : FpFmt) : Int := 1 - (f.bias : Int) - (f.fbits : Int)
/-- The bits of +Inf. -/
def FpFmt.infBits (f : FpFmt) : Nat := (2 ^ f.ebits - 1) * 2 ^ f.fbits
/-- The sign bit. -/
def FpFmt.signBit (f : FpFmt) : Nat := 2 ^ (f.ebits + f.fbits)
/-- The canonical quiet NaN (R41: 0x7E00, 0x7FC0, 0x7FC0_0000). -/
def FpFmt.nanBits (f : FpFmt) : Nat := f.infBits + 2 ^ (f.fbits - 1)
/-- The greatest finite value. -/
def FpFmt.maxBits (f : FpFmt) : Nat := f.infBits - 1

/-- A floating-point value: not a number, an infinity, or plus or minus `m × 2^e` (zero keeps its sign). -/
inductive FpVal where
  | nan
  | inf (neg : Bool)
  | fin (neg : Bool) (m : Nat) (e : Int)
  deriving DecidableEq, Repr

/-- The value of a bit pattern; subnormal values are exact (R41). -/
def FpFmt.val (f : FpFmt) (bits : Nat) : FpVal :=
  let neg := natBits bits (f.ebits + f.fbits) 1 = 1
  let ex := natBits bits f.fbits f.ebits
  let fr := natBits bits 0 f.fbits
  if ex = 2 ^ f.ebits - 1 then (if fr = 0 then .inf neg else .nan)
  else if ex = 0 then .fin neg fr f.qmin
  else .fin neg (fr + 2 ^ f.fbits) (f.qmin + (ex : Int) - 1)

def FpVal.isNan : FpVal → Bool | .nan => true | _ => false
def FpVal.isInf : FpVal → Bool | .inf _ => true | _ => false
def FpVal.isZero : FpVal → Bool | .fin _ m _ => m == 0 | _ => false
def FpVal.isNeg : FpVal → Bool | .nan => false | .inf n => n | .fin n _ _ => n
/-- The value with its sign changed. -/
def FpVal.neg : FpVal → FpVal
  | .nan => .nan
  | .inf n => .inf (!n)
  | .fin n m e => .fin (!n) m e

/-- Round `m / 2^d` to the nearest integer, ties to even; `sticky` says that the value exceeds `m` by less than one unit
of its last place. -/
def rneShift (m d : Nat) (sticky : Bool) : Nat :=
  let q := m >>> d
  let r := m % 2 ^ d
  let h := 2 ^ d / 2
  if d = 0 then m
  else if r > h ∨ (r = h ∧ sticky) then q + 1
  else if r = h then q + q % 2
  else q

/-- The nearest integer to `m × 2^e`, ties to even. -/
def rneScaled (m : Nat) (e : Int) : Nat :=
  match e with
  | .ofNat k => m * 2 ^ k
  | .negSucc k => if m < 2 ^ k then 0 else rneShift m (k + 1) false

/-- Round plus or minus `m × 2^e` (exceeded by less than one unit when `sticky`) to a format, to nearest with ties to
even; the second value says that the result is beyond the greatest finite value. -/
def FpFmt.round (f : FpFmt) (neg : Bool) (m : Nat) (e : Int) (sticky : Bool) : Nat × Bool :=
  let s := if neg then f.signBit else 0
  if m = 0 then (s, false)
  else
    let q : Int := max (e + (Nat.log2 m : Int) - (f.fbits : Int)) f.qmin
    let r := if q ≤ e then m * 2 ^ (e - q).toNat
             else if (q - e).toNat > Nat.log2 m + 2 then 0
             else rneShift m (q - e).toNat sticky
    let enc := (q - f.qmin).toNat * 2 ^ f.fbits + r
    if f.infBits ≤ enc then (s + f.infBits, true) else (s + enc, false)

/-- A value's bits in a format, rounded once; NaN is the canonical one (R41). -/
def FpFmt.pack (f : FpFmt) (v : FpVal) : Nat :=
  match v with
  | .nan => f.nanBits
  | .inf n => (if n then f.signBit else 0) + f.infBits
  | .fin n m e => (f.round n m e false).1

/-- The flags of an operation's result: INVALID where a NaN entered or was produced, INF where an infinity entered or was
produced (R52). -/
def fpFlags (f : FpFmt) (ins : List FpVal) (out : Nat) : NumFlags :=
  flagIf (ins.any FpVal.isNan || (f.val out).isNan) NumFlags.INVALID |||
  flagIf (ins.any FpVal.isInf || (f.val out).isInf) NumFlags.INF

/-- The exact sum of two finite values as a signed integer times `2^e`. -/
def exactAdd (n1 : Bool) (m1 : Nat) (e1 : Int) (n2 : Bool) (m2 : Nat) (e2 : Int) : Int × Int :=
  let e := min e1 e2
  let a : Int := (m1 * 2 ^ (e1 - e).toNat : Nat)
  let b : Int := (m2 * 2 ^ (e2 - e).toNat : Nat)
  ((if n1 then -a else a) + (if n2 then -b else b), e)

/-- IEEE addition of two values, as a value to be rounded; an exact zero sum of unlike signs is +0. -/
def fpAddVal (a b : FpVal) : FpVal :=
  match a, b with
  | .nan, _ => .nan
  | _, .nan => .nan
  | .inf n1, .inf n2 => if n1 = n2 then .inf n1 else .nan
  | .inf n, _ => .inf n
  | _, .inf n => .inf n
  | .fin n1 m1 e1, .fin n2 m2 e2 =>
    let (s, e) := exactAdd n1 m1 e1 n2 m2 e2
    if s = 0 then .fin (n1 && n2) 0 e else .fin (decide (s < 0)) s.natAbs e

/-- IEEE multiplication, as a value to be rounded. -/
def fpMulVal (a b : FpVal) : FpVal :=
  match a, b with
  | .nan, _ => .nan
  | _, .nan => .nan
  | .inf n1, .inf n2 => .inf (n1 != n2)
  | .inf n1, .fin n2 m _ => if m = 0 then .nan else .inf (n1 != n2)
  | .fin n1 m _, .inf n2 => if m = 0 then .nan else .inf (n1 != n2)
  | .fin n1 m1 e1, .fin n2 m2 e2 => .fin (n1 != n2) (m1 * m2) (e1 + e2)

/-- Round a value to a format and give the flags that the operands and the result raise. -/
def fpFinish (f : FpFmt) (ins : List FpVal) (v : FpVal) : Nat × NumFlags :=
  let r := f.pack v
  (r, fpFlags f ins r)

/-- a + b. -/
def fpAdd (f : FpFmt) (a b : Nat) : Nat × NumFlags :=
  fpFinish f [f.val a, f.val b] (fpAddVal (f.val a) (f.val b))
/-- a − b. -/
def fpSub (f : FpFmt) (a b : Nat) : Nat × NumFlags :=
  fpFinish f [f.val a, f.val b] (fpAddVal (f.val a) (f.val b).neg)
/-- a × b. -/
def fpMul (f : FpFmt) (a b : Nat) : Nat × NumFlags :=
  fpFinish f [f.val a, f.val b] (fpMulVal (f.val a) (f.val b))
/-- a × b + c, rounded once (R57). -/
def fpFma (f : FpFmt) (a b c : Nat) : Nat × NumFlags :=
  fpFinish f [f.val a, f.val b, f.val c] (fpAddVal (fpMulVal (f.val a) (f.val b)) (f.val c))
/-- c − a × b, rounded once. -/
def fpFms (f : FpFmt) (a b c : Nat) : Nat × NumFlags :=
  fpFinish f [f.val a, f.val b, f.val c] (fpAddVal (fpMulVal (f.val a) (f.val b)).neg (f.val c))

/-- a / b, correctly rounded: a quotient of enough bits with its remainder as the sticky bit. -/
def fpDiv (f : FpFmt) (a b : Nat) : Nat × NumFlags :=
  let va := f.val a
  let vb := f.val b
  let r : Nat :=
    match va, vb with
    | .nan, _ => f.nanBits
    | _, .nan => f.nanBits
    | .inf _, .inf _ => f.nanBits
    | .inf n1, .fin n2 _ _ => f.pack (.inf (n1 != n2))
    | .fin n1 _ _, .inf n2 => f.pack (.fin (n1 != n2) 0 0)
    | .fin n1 m1 e1, .fin n2 m2 e2 =>
      if m2 = 0 then (if m1 = 0 then f.nanBits else f.pack (.inf (n1 != n2)))
      else if m1 = 0 then f.pack (.fin (n1 != n2) 0 0)
      else
        let k := f.fbits * 2 + 8
        let num := m1 * 2 ^ k
        (f.round (n1 != n2) (num / m2) (e1 - e2 - (k : Int)) (decide (num % m2 ≠ 0))).1
  (r, fpFlags f [va, vb] r)

/-- The integer square root, bit by bit from bit `n - 1` of the root down. -/
def isqrtBits : Nat → Nat → Nat → Nat
  | 0, _, r => r
  | n + 1, x, r => let t := r + 2 ^ n; isqrtBits n x (if t * t ≤ x then t else r)

/-- The integer square root. -/
def isqrt (x : Nat) : Nat := isqrtBits (Nat.log2 x / 2 + 1) x 0

/-- sqrt a, correctly rounded; a negative operand is invalid. -/
def fpSqrt (f : FpFmt) (a : Nat) : Nat × NumFlags :=
  let va := f.val a
  let r : Nat :=
    match va with
    | .nan => f.nanBits
    | .inf n => if n then f.nanBits else f.infBits
    | .fin n m e =>
      if m = 0 then a
      else if n then f.nanBits
      else
        let k := f.fbits * 2 + 8
        let odd := (e - (k : Int)) % 2 ≠ 0
        let m' := m * 2 ^ (if odd then k + 1 else k)
        let e' := if odd then e - (k : Int) - 1 else e - (k : Int)
        let q := isqrt m'
        (f.round false q (e' / 2) (decide (q * q ≠ m'))).1
  (r, fpFlags f [va] r)

/-- The order of two values that are not NaN: is a below b? (−0 equals +0.) -/
def fpLt (a b : FpVal) : Bool :=
  match a, b with
  | .nan, _ => false
  | _, .nan => false
  | .inf n1, .inf n2 => n1 && !n2
  | .inf n, .fin _ _ _ => n
  | .fin _ _ _, .inf n => !n
  | .fin n1 m1 e1, .fin n2 m2 e2 => decide ((exactAdd n1 m1 e1 (!n2) m2 e2).1 < 0)

/-- Are two values equal (NaN equals nothing, −0 equals +0)? -/
def fpEq (a b : FpVal) : Bool :=
  match a, b with
  | .nan, _ => false
  | _, .nan => false
  | a, b => !fpLt a b && !fpLt b a

/-- One round of the pairwise reduction of R128: neighbours added, an odd last term kept. -/
def pairRound (f : FpFmt) : List Nat → List Nat × NumFlags
  | a :: b :: l =>
    let r := pairRound f l
    ((fpAdd f a b).1 :: r.1, (fpAdd f a b).2 ||| r.2)
  | l => (l, 0)

/-- The pairwise sum of R128, at most `fuel` rounds; a sum of no terms is +0 (R127). -/
def pairSum (f : FpFmt) : Nat → List Nat → Nat × NumFlags
  | _, [] => (0, 0)
  | _, [a] => (a, 0)
  | 0, a :: _ => (a, 0)
  | fuel + 1, l =>
    let r := pairRound f l
    let t := pairSum f fuel r.1
    (t.1, r.2 ||| t.2)

/-- An integer times `2^s` as a value. -/
def intVal (q s : Int) : FpVal := .fin (decide (q < 0)) q.natAbs s

/-- A value rounded to the nearest integer, ties to even, and saturated to `lo .. hi`; NaN gives 0. The second value
says that it was saturated. -/
def fpToInt (v : FpVal) (lo hi : Int) : Int × Bool :=
  match v with
  | .nan => (0, false)
  | .inf n => (if n then lo else hi, true)
  | .fin n m e =>
    let big := (Nat.log2 m : Int) + e > 140
    let a : Int := if m ≠ 0 ∧ big then hi + 1 - lo else (rneScaled m e : Nat)
    let q := if n then -a else a
    if q < lo then (lo, true) else if q > hi then (hi, true) else (q, false)

end Sys2Proof.Machine
end

