-- ==== Sys2Proof/Machine/Formats.lean ====
section
/-! DEFINITION. Formats.lean: the format codes (R33), block formats and quantisation (R37 to R39), the long accumulator
(R42 to R47), output conversion (R48 to R50), the packed weight stream (R63 to R65) and spill coding (R67). -/

namespace Sys2Proof.Machine

/-- The number formats of R33. -/
inductive Format where
  | int8 | int4 | qb8 | qb4 | fp16 | bf16 | fp32 | int32 | acc96
  deriving DecidableEq, Repr

/-- The format of a code; 0x00 and the reserved codes name none (R33, R34). -/
def Format.ofCode : Nat → Option Format
  | 1 => some .int8 | 2 => some .int4 | 3 => some .qb8 | 4 => some .qb4 | 5 => some .fp16
  | 6 => some .bf16 | 7 => some .fp32 | 8 => some .int32 | 9 => some .acc96 | _ => none

/-- The code of a format (R33). -/
def Format.code : Format → Nat
  | .int8 => 1 | .int4 => 2 | .qb8 => 3 | .qb4 => 4 | .fp16 => 5 | .bf16 => 6 | .fp32 => 7 | .int32 => 8 | .acc96 => 9

/-- Is it a block format (R37)? -/
def Format.isQB : Format → Bool | .qb8 => true | .qb4 => true | _ => false
/-- Is it a floating-point format (R41)? -/
def Format.isFp : Format → Bool | .fp16 => true | .bf16 => true | .fp32 => true | _ => false
/-- Bits of an element's stored mantissa or pattern. -/
def Format.ebits : Format → Nat
  | .int8 => 8 | .int4 => 4 | .qb8 => 8 | .qb4 => 4 | .fp16 => 16 | .bf16 => 16 | .fp32 => 32 | .int32 => 32 | .acc96 => 96
/-- The floating-point format behind a code. -/
def Format.fp : Format → FpFmt | .fp16 => Machine.fp16 | .bf16 => Machine.bf16 | _ => Machine.fp32

/-- Bytes of a row of `n` elements (R36, R38). -/
def Format.rowBytes (f : Format) (n : Nat) : Nat :=
  match f with
  | .qb8 => ceilDiv n 32 * 33
  | .qb4 => ceilDiv n 32 * 17
  | _ => ceilDiv (n * f.ebits) 8

/-- The operand pairs of an array operation (R35). -/
def pairAllowed (a w : Format) : Bool :=
  match a, w with
  | .int8, .int8 | .int8, .qb8 | .qb8, .int8 | .qb8, .qb8 => true
  | .int8, .int4 | .int8, .qb4 | .qb8, .int4 | .qb8, .qb4 => true
  | .int4, .int4 | .int4, .qb4 | .qb4, .int4 | .qb4, .qb4 => true
  | .fp16, .fp16 | .bf16, .bf16 => true
  | _, _ => false

/-- The least and greatest integer of `b` bits. -/
def intLo (b : Nat) : Int := -((2 ^ (b - 1) : Nat) : Int)
def intHi (b : Nat) : Int := ((2 ^ (b - 1) : Nat) : Int) - 1

/-- Is an exponent byte valid (R37)? -/
def qbExpOk (b : Byte) : Bool := decide (-64 ≤ b.toInt) && decide (b.toInt ≤ 63)

/-- The nearest integer to a finite value over 2^t, ties to even, with its sign. -/
def rneAt (neg : Bool) (m : Nat) (e t : Int) : Int :=
  let q : Int := (rneScaled m (e - t) : Nat)
  if neg then -q else q

/-- Does a value fit a mantissa of `b` bits at exponent `t` (R39)? NaN and infinities take no part. -/
def qbFits (b : Nat) (t : Int) (v : FpVal) : Bool :=
  match v with
  | .fin n m e => decide (intLo b ≤ rneAt n m e t) && decide (rneAt n m e t ≤ intHi b)
  | _ => true

/-- The smallest exponent from −64 to 63 at which every value fits, 63 where none does (R39). -/
def qbExponent (b : Nat) (vs : List FpVal) : Int :=
  match (List.range 128).find? (fun (k : Nat) => vs.all (qbFits b ((k : Int) - 64))) with
  | some k => (k : Int) - 64
  | none => 63

/-- One mantissa of a block at exponent `e`, with its flags (R39). -/
def qbMantissa (b : Nat) (e : Int) (v : FpVal) : Int × NumFlags :=
  match v with
  | .nan => (0, NumFlags.INVALID)
  | .inf n => (if n then intLo b else intHi b, NumFlags.INF ||| NumFlags.Q_SAT)
  | .fin n m x =>
    let q := rneAt n m x e
    if q > intHi b then (intHi b, NumFlags.Q_SAT)
    else if q < intLo b then (intLo b, NumFlags.Q_SAT)
    else (q, 0)

/-- Quantise the values of a block (R39): the exponent, the mantissas and the flags. -/
def qbQuantise (b : Nat) (vs : List FpVal) : Int × List Int × NumFlags :=
  let e := qbExponent b vs
  let ms := vs.map (qbMantissa b e)
  (e, ms.map (·.1), flagsOr (ms.map (·.2)))

/-- A signed integer as `b` bits. -/
def intBits (b : Nat) (v : Int) : Nat := (v % ((2 ^ b : Nat) : Int)).toNat

/-- Pack mantissas of 8 or 4 bits into bytes; 4-bit element 2i stands in the low nibble (R36). -/
def packNibbles : List Nat → List Byte
  | a :: b :: r => BitVec.ofNat 8 (a + 16 * b) :: packNibbles r
  | [a] => [BitVec.ofNat 8 a]
  | [] => []

/-- Pack integers of a format's element width (R36, R38). -/
def packInts (f : Format) (vs : List Int) : List Byte :=
  if f.ebits = 4 then packNibbles (vs.map (intBits 4))
  else (vs.map fun v => leBytes (f.ebits / 8) (intBits f.ebits v)).flatten

/-- The element `i` of packed integers of `b` bits. -/
def unpackInt (b : Nat) (p : List Byte) (i : Nat) : Int :=
  if b = 4 then sInt 4 (natBits (u8 p (i / 2)) (4 * (i % 2)) 4)
  else sInt b (leNat (slice p (i * (b / 8)) (b / 8)))

/-- The exact value of element `i` of a stored row of `n` elements in a format, at scale exponent `s` (R36, R38, R41). -/
def rowVal (f : Format) (s : Int) (n : Nat) (p : List Byte) (i : Nat) : FpVal :=
  match f with
  | .qb8 => intVal (unpackInt 8 (p.drop (ceilDiv n 32)) i) (listAt 0 p (i / 32)).toInt
  | .qb4 => intVal (unpackInt 4 (p.drop (ceilDiv n 32)) i) (listAt 0 p (i / 32)).toInt
  | .fp16 => Machine.fp16.val (u16 p (2 * i))
  | .bf16 => Machine.bf16.val (u16 p (2 * i))
  | .fp32 => Machine.fp32.val (u32 p (4 * i))
  | _ => intVal (unpackInt f.ebits p i) s

/-- The exact values of a stored row. -/
def rowVals (f : Format) (s : Int) (n : Nat) (p : List Byte) : List FpVal := (List.range n).map (rowVal f s n p)

/-- Are the exponent bytes of a QB row valid (R37)? -/
def rowExpsOk (f : Format) (n : Nat) (p : List Byte) : Bool := !f.isQB || (p.take (ceilDiv n 32)).all qbExpOk

/-- Groups of 32 values, the last one padded with exact zeros (R38). -/
def blocks32 : Nat → List FpVal → List (List FpVal)
  | 0, _ => []
  | k + 1, vs =>
    if vs.isEmpty then []
    else let h := vs.take 32
         (h ++ List.replicate (32 - h.length) (.fin false 0 0)) :: blocks32 k (vs.drop 32)

/-- Store a row of values in a QB format: exponent bytes, then mantissas (R38, R39). -/
def packQB (f : Format) (vs : List FpVal) : List Byte × NumFlags :=
  let bs := (blocks32 vs.length vs).map (qbQuantise f.ebits)
  (bs.map (fun b => BitVec.ofInt 8 b.1) ++ packInts f (bs.map (·.2.1)).flatten, flagsOr (bs.map (·.2.2)))

-- The long accumulator (R43 to R46).

/-- One column entry of the accumulator: the exact sum in units of 2^(A−48), the ACC flags and the record of NaN and
infinities (R42, R44). -/
structure AccEntry where
  sum : Int := 0
  flags : NumFlags := 0
  nan : Bool := false
  pinf : Bool := false
  ninf : Bool := false
  deriving DecidableEq, Repr

/-- The greatest magnitude of a contribution (R44). -/
def accMax : Int := ((2 ^ 95 : Nat) : Int) - 1
/-- The least sum (R44). -/
def accMin : Int := -((2 ^ 95 : Nat) : Int)

/-- A finite value in units of 2^(A−48), truncated toward zero, and whether non-zero bits were dropped (R44). -/
def accUnits (a : Int) (neg : Bool) (m : Nat) (e : Int) : Int × Bool :=
  let sh := e - (a - 48)
  let q : Nat := if 0 ≤ sh then m * 2 ^ sh.toNat else m / 2 ^ (-sh).toNat
  let low := decide (sh < 0) && decide (m % 2 ^ (-sh).toNat ≠ 0)
  (if neg then -(q : Int) else (q : Int), low)

/-- Add one contribution to a column entry (R42, R44). -/
def accAdd (a : Int) (x : AccEntry) (v : FpVal) : AccEntry :=
  match v with
  | .nan => { x with nan := true }
  | .inf n => if n then { x with ninf := true } else { x with pinf := true }
  | .fin n m e =>
    let (q, low) := accUnits a n m e
    let c := if q > accMax then accMax else if q < -accMax then -accMax else q
    { x with sum := x.sum + c,
             flags := x.flags ||| flagIf low NumFlags.ACC_LOW ||| flagIf (decide (c ≠ q)) NumFlags.ACC_OVF }

/-- Add the products of an activation row and a weight column (R44). -/
def accProducts (a : Int) (x : AccEntry) : List FpVal → List FpVal → AccEntry
  | u :: us, w :: ws => accProducts a (accAdd a x (fpMulVal u w)) us ws
  | _, _ => x

/-- The sum of a column entry, saturated (R44), with the ACC flags. -/
def accSum (x : AccEntry) : Int × NumFlags :=
  if x.sum > accMax then (accMax, x.flags ||| NumFlags.ACC_OVF)
  else if x.sum < accMin then (accMin, x.flags ||| NumFlags.ACC_OVF)
  else (x.sum, x.flags)

/-- The exact value that output conversion rounds: S × 2^(A−48) × c × 2^k (R48, R49), or the NaN or infinity that the
column recorded (R42), with the flags so far. -/
def accValue (a : Int) (c : Nat) (k : Int) (x : AccEntry) : FpVal × NumFlags :=
  let (s, fl) := accSum x
  if x.nan || (x.pinf && x.ninf) then (.nan, fl ||| NumFlags.INVALID)
  else if x.pinf || x.ninf then (.inf x.ninf, fl ||| NumFlags.INF)
  else (intVal (s * (c : Int)) (a - 48 + k), fl)

/-- An ACC96 value of 12 bytes (R50). -/
def acc96Bytes (s : Int) : List Byte := leBytes 12 (intBits 96 s)

/-- Convert one column entry to an element of an INT format at scale `s` (R50, R42). -/
def convInt (b : Nat) (s : Int) (v : FpVal) : Int × NumFlags :=
  match v with
  | .nan => (0, NumFlags.INVALID)
  | .inf n => (if n then intLo b else intHi b, NumFlags.INF ||| NumFlags.OUT_SAT)
  | .fin n m e =>
    let q := rneAt n m e s
    if q > intHi b then (intHi b, NumFlags.OUT_SAT) else if q < intLo b then (intLo b, NumFlags.OUT_SAT) else (q, 0)

/-- Convert one column entry to a floating-point format: a finite value beyond the range becomes the greatest finite value
and sets OUT_SAT (R50). One above it by less than half a unit in its last place rounds to it like any other value, and sets nothing
(DESIGN CHOICE, log entry 40). -/
def convFp (f : FpFmt) (v : FpVal) : Nat × NumFlags :=
  match v with
  | .fin n m e =>
    let (r, ovf) := f.round n m e false
    if ovf then ((if n then f.signBit else 0) + f.maxBits, NumFlags.OUT_SAT)
    else (if m = 0 then 0 else r, 0)
  | v => (f.pack v, 0)

/-- Convert a row of column entries to the output format (R48 to R50): its bytes, and the flags of each column. `c` gives
each column's multiplier. -/
def convRow (f : Format) (a s k : Int) (c : Nat → Nat) (xs : List AccEntry) : List Byte × NumFlags :=
  let vs := (List.range xs.length).map fun i =>
    if f = .acc96 then accValue a 1 0 (listAt {} xs i) else accValue a (c i) k (listAt {} xs i)
  let fl := flagsOr (vs.map (·.2))
  match f with
  | .acc96 => ((xs.map fun x => acc96Bytes (accSum x).1).flatten, fl)
  | .qb8 => let (p, q) := packQB .qb8 (vs.map (·.1)); (p, fl ||| q)
  | .qb4 => let (p, q) := packQB .qb4 (vs.map (·.1)); (p, fl ||| q)
  | .fp16 | .bf16 | .fp32 =>
    let r := vs.map fun v => convFp f.fp v.1
    ((r.map fun x => leBytes (f.ebits / 8) x.1).flatten, fl ||| flagsOr (r.map (·.2)))
  | _ =>
    let r := vs.map fun v => convInt f.ebits s v.1
    (packInts f (r.map (·.1)), fl ||| flagsOr (r.map (·.2)))

-- The packed weight stream (R63 to R65).

/-- The bits of bytes, bit 0 of each byte first (R64). -/
def bitsOf (p : List Byte) : List Bool := (p.map fun b => (List.range 8).map fun i => b.getLsbD i).flatten

/-- Read `n` bits, least significant first. -/
def takeBits : Nat → List Bool → Option (Nat × List Bool)
  | 0, bs => some (0, bs)
  | _ + 1, [] => none
  | n + 1, b :: bs =>
    match takeBits n bs with
    | some (v, r) => some ((if b then 1 else 0) + 2 * v, r)
    | none => none

/-- Count one-bits up to a zero-bit or twelve of them. -/
def takeOnes : Nat → List Bool → Option (Nat × List Bool)
  | 0, bs => some (0, bs)
  | _ + 1, [] => none
  | n + 1, b :: bs =>
    if b then
      match takeOnes n bs with
      | some (q, r) => some (q + 1, r)
      | none => none
    else some (0, bs)

/-- Decode `n` Rice-coded mantissas of `b` bits with parameter `k` (R64): the mantissas and the bits left. -/
def riceDecode (b k : Nat) : Nat → List Bool → Option (List Int × List Bool)
  | 0, bs => some ([], bs)
  | n + 1, bs =>
    match takeOnes 12 bs with
    | none => none
    | some (q, r) =>
      let one : Option (Int × List Bool) :=
        if q = 12 then (takeBits b r).map fun (m, r') => (sInt b m, r')
        else (takeBits k r).bind fun (lo, r') =>
          let u := q * 2 ^ k + lo
          if u < 2 ^ b then some (if u % 2 = 0 then ((u / 2 : Nat) : Int) else -((u / 2 : Nat) : Int) - 1, r') else none
      match one with
      | none => none
      | some (m, r') => (riceDecode b k n r').map fun (ms, r'') => (m :: ms, r'')

/-- An unpacked tensor: its elements' integers (mantissas or 16-bit patterns) and its blocks' exponents. -/
structure Tensor where
  ints : List Int := []
  exps : List Int := []
  deriving DecidableEq, Repr

/-- Decode one chunk of `n` elements (R63, R65): its contents and its size, none where it is malformed. -/
def decodeChunk (f : Format) (n : Nat) (p : List Byte) : Option (Tensor × Nat) :=
  let x := if f.isQB then ceilDiv n 32 else 0
  let mode := u8 p 0
  let len := u16 p 2
  let b := f.ebits
  let raw := ceilDiv (n * b) 8
  let exps := (p.drop 4).take x
  let pay := (p.drop (4 + x)).take len
  if p.length < 4 + x + len ∨ mode / 32 ≠ 0 ∨ u8 p 1 ≠ 0 ∨ !exps.all (fun e => !f.isQB || qbExpOk e) then none
  else if mode % 4 = 0 then
    if mode ≠ 0 ∨ len ≠ raw then none
    else some (⟨(List.range n).map (unpackInt b pay), exps.map (·.toInt)⟩, 4 + x + len)
  else if mode % 4 = 1 then
    if len ≥ raw then none
    else
      match riceDecode b (mode / 4) n (bitsOf pay) with
      | none => none
      | some (ms, rest) =>
        if rest.length ≥ 8 ∨ rest.any id then none else some (⟨ms, exps.map (·.toInt)⟩, 4 + x + len)
  else none

/-- Decode a packed stream of `n` elements, at most `fuel` chunks; it must end exactly with its bytes (R65). -/
def decodeStream (f : Format) : Nat → Nat → List Byte → Option Tensor
  | 0, n, p => if n = 0 ∧ p.isEmpty then some {} else none
  | fuel + 1, n, p =>
    if n = 0 then (if p.isEmpty then some {} else none)
    else
      match decodeChunk f (min n 1024) p with
      | none => none
      | some (t, used) =>
        (decodeStream f fuel (n - min n 1024) (p.drop used)).map fun r => ⟨t.ints ++ r.ints, t.exps ++ r.exps⟩

/-- The exact value of element `i` of an unpacked tensor (R36, R37, R41). -/
def Tensor.val (t : Tensor) (f : Format) (s : Int) (i : Nat) : FpVal :=
  let m := listAt 0 t.ints i
  match f with
  | .qb8 | .qb4 => intVal m (listAt 0 t.exps (i / 32))
  | .fp16 => Machine.fp16.val (intBits 16 m)
  | .bf16 => Machine.bf16.val (intBits 16 m)
  | _ => intVal m s

-- Spill coding (R67).

/-- Code one segment: an 8-byte mask of the 64-byte granules that are not zero, then those granules (R67). -/
def spillSegment (p : List Byte) : List Byte :=
  let gs := chunks 64 64 (p ++ zeroBytes (4096 - p.length))
  let mask := (List.range 64).foldl (fun m i => if (listAt [] gs i).any (· ≠ 0) then m + 2 ^ i else m) 0
  leBytes 8 mask ++ (gs.filter fun g => g.any (· ≠ 0)).flatten

/-- Code unpacked bytes in segments of 4,096 (R67). -/
def spillCode (p : List Byte) : List Byte := ((chunks 4096 (p.length / 4096 + 1) p).map spillSegment).flatten

/-- The granules of one coded segment from its mask, from granule `i`, and the bytes left. -/
def spillGranules (mask : Nat) : Nat → Nat → List Byte → List Byte × List Byte
  | 0, _, p => ([], p)
  | n + 1, i, p =>
    if natBits mask i 1 = 1 then
      let (g, r) := spillGranules mask n (i + 1) (p.drop 64)
      (slice p 0 64 ++ g, r)
    else
      let (g, r) := spillGranules mask n (i + 1) p
      (zeroBytes 64 ++ g, r)

/-- Decode `n` bytes from coded segments (R67). -/
def spillDecode : Nat → Nat → List Byte → List Byte
  | 0, _, _ => []
  | fuel + 1, n, p =>
    if n = 0 then []
    else
      let (g, r) := spillGranules (u64 p 0) 64 0 (p.drop 8)
      g.take n ++ spillDecode fuel (n - min n 4096) r

end Sys2Proof.Machine
end

