-- ==== Sys2Proof/Machine/LathTypes.lean ====
section
/-! DEFINITION. LathTypes.lean: a parsed lath image (R148 to R166) and a model slot (R170). -/

namespace Sys2Proof.Machine

/-- The header of an image (R149). -/
structure LathHeader where
  minor : Nat
  nondet : Bool
  skim : Bool
  length : Nat
  sections : Nat
  coats : Nat
  kind : Nat
  ident : List Byte
  version : Nat
  footprint : Nat
  batchRows : Nat
  context : Nat
  skimPair : List Byte
  deriving DecidableEq, Repr

/-- A coat record (R153). -/
structure Coat where
  kind : Nat
  biasBinding : Bool
  format : Nat
  anchor : Int
  shift : Int
  fatal : BitVec 16
  k : Nat
  n : Nat
  dest : Nat
  programs : Nat
  firstProgram : Nat
  firstPass : Nat
  passes : Nat
  attention : Nat
  weights : Nat
  bias : Nat
  scales : Nat
  kernels : Nat
  deps : Nat
  firstKernel : Nat
  depList : List Nat
  deriving DecidableEq, Repr

/-- A bank binding (R160). -/
structure Binding where
  kind : Nat
  bank : Nat
  offset : Nat
  size : Nat
  deriving DecidableEq, Repr

/-- A pass-program record (R157). -/
structure PassRec where
  nouter : Bool
  couter : Bool
  pair : Bool
  firstN : Nat
  count : Nat
  deriving DecidableEq, Repr

/-- The geometry of a program's window (R97). -/
structure Window where
  kh : Nat
  kw : Nat
  ky0 : Nat
  kx0 : Nat
  khw : Nat
  kww : Nat
  sy : Nat
  sx : Nat
  dy : Nat
  dx : Nat
  pt : Nat
  pb : Nat
  pl : Nat
  pr : Nat
  sr : Nat
  sc : Nat
  deriving DecidableEq, Repr

/-- An address-generator program (R97). -/
structure Program where
  kind : Nat
  flags : Nat
  format : Nat
  src : Nat
  dst : Nat
  aux : Nat
  h : Nat
  w : Nat
  c : Nat
  g : Nat
  win : Window
  oh : Nat
  ow : Nat
  maxb : Nat
  deriving DecidableEq, Repr

/-- A kernel binding (R136). -/
structure Kernel where
  flags : Nat
  codeOffset : Nat
  codeSize : Nat
  entry : Nat
  mask : BitVec 64
  itemsFixed : Nat
  itemsPerRow : Nat
  limit : Nat
  zeroSize : Nat
  window : Nat
  windowStride : Nat
  windowSize : Nat
  bindings : List Nat
  deriving DecidableEq, Repr

/-- A fused-attention record (R164). -/
structure AttnRec where
  paged : Bool
  causal : Bool
  stencil : Bool
  kvFormat : Nat
  qFormat : Nat
  qHeads : Nat
  kvHeads : Nat
  dim : Nat
  layer : Nat
  scale : Nat
  q : Nat
  k : Nat
  v : Nat
  out : Nat
  page : Nat
  deriving DecidableEq, Repr

/-- A format record (R162). -/
structure FormatRec where
  binding : Nat
  format : Nat
  scale : Int
  channels : Nat
  deriving DecidableEq, Repr

/-- A weight reference (R165). -/
structure WeightRef where
  kind : Nat
  format : Nat
  scale : Int
  object : Nat
  offset : Nat
  length : Nat
  elements : Nat
  digest : List Byte
  deriving DecidableEq, Repr

/-- A parsed image. -/
structure Image where
  header : LathHeader
  coats : List Coat := []
  bindings : List Binding := []
  passRecs : List PassRec := []
  programs : List Program := []
  kernels : List Kernel := []
  code : List Byte := []
  attns : List AttnRec := []
  formats : List FormatRec := []
  weights : List WeightRef := []
  deriving DecidableEq, Repr

/-- The state of a model slot (R170). -/
inductive SlotState where
  | empty | loading | ready | unloading
  deriving DecidableEq, Repr

/-- A model slot (R170, R173, R251): its state, image and digest, the image's bytes, the cartridge object, the costs, the
pages of image and weights and of the workspace, and the message whose load or unload is to be answered. -/
structure ModelSlot where
  state : SlotState := .empty
  image : Option Image := none
  digest : List Byte := []
  object : Nat := 0
  passCost : Nat := 1
  promptCost : Nat := 1
  tokenCost : Nat := 1
  pages : List Nat := []
  workPages : List Nat := []
  reply : Option ReplyTo := none
  /-- Index of the journal record of the admission, of the completion, or of the unload. -/
  record : Nat := 0
  /-- Step of R170 that the load has reached: 1 admitted, 2 image read, 3 weights copied, 4 recorded. -/
  step : Nat := 0
  /-- The slot is being reloaded after an uncorrectable granule: its requests are held (R201). -/
  reload : Bool := false
  deriving DecidableEq, Repr

end Sys2Proof.Machine
end

