-- ==== Sys2Proof/Machine/Geometry.lean ====
section
/-! DEFINITION. Geometry.lean: sizes and places of the tensors that an image's bindings hold, and the geometry of an
address-generator program ("Sliding-window feed engine"). -/

namespace Sys2Proof.Machine

/-- A binding that no image holds. -/
def Binding.none : Binding := ⟨0, 0, 0, 0⟩

/-- A binding by its index. -/
def Image.binding (g : Image) (i : Nat) : Binding := listAt Binding.none g.bindings i

/-- The format record of a binding (R162). -/
def Image.formatOf (g : Image) (i : Nat) : Option FormatRec := g.formats.find? fun f => f.binding == i

/-- The largest offset + size over the bindings of a kind (R218, R219, R173). -/
def Image.extent (g : Image) (kind : Nat) : Nat :=
  g.bindings.foldl (fun n b => if b.kind = kind then max n (b.offset + b.size) else n) 0

/-- I and O of R218 and R219. -/
def Image.inputSize (g : Image) : Nat := g.extent 5
def Image.outputSize (g : Image) : Nat := g.extent 6

/-- The pixel stride of C channels of a format (R95). -/
def pixelStride (f : Format) (c : Nat) : Nat := roundUp (f.rowBytes c) 64

/-- The pixel stride of a program's source. -/
def Program.ps (p : Program) : Nat :=
  match Format.ofCode p.format with
  | some f => pixelStride f p.c
  | none => 64

/-- One output dimension (R102). -/
def outDim (n before after dilation taps stride : Nat) : Nat :=
  let span := dilation * (taps - 1) + 1
  if span ≤ n + before + after then (n + before + after - span) / max stride 1 + 1 else 0

/-- Output height and width of a program for an input height (R102). -/
def Program.ho (p : Program) (h : Nat) : Nat := outDim h p.win.pt p.win.pb p.win.dy p.win.kh p.win.sy
def Program.wo (p : Program) : Nat := outDim p.w p.win.pl p.win.pr p.win.dx p.win.kw p.win.sx

/-- Does a binding hold the tensor of one request at its offset, and not one tensor for each batch row (R514)? A binding of kind
0x06 lies within each request's own output (R161, R219), so it holds one as well (log entry 41). -/
def Binding.perRequest (b : Binding) : Bool := b.kind == 5 || b.kind == 6 || b.kind == 7

/-- The rows of pixels that a binding holds for one batch row, at `per` bytes a row (R514). -/
def Binding.rowsFor (b : Binding) (batchRows per : Nat) : Nat :=
  if b.perRequest then b.size / max per 1 else b.size / max (batchRows * per) 1

/-- Hc of a program's source (R514). -/
def Image.srcHeight (g : Image) (p : Program) : Nat :=
  if p.h ≠ 0 then p.h else (g.binding p.src).rowsFor g.header.batchRows (p.w * p.ps)

/-- Bytes of one output pixel of a program: the drain's entry of an array coat, or mask and taps of a window gather
(R106). -/
def Program.outPixel (p : Program) (c : Coat) : Nat :=
  if p.kind = 3 then 8 + p.win.khw * p.win.kww * p.ps
  else
    match Format.ofCode c.format with
    | some f => pixelStride f c.n
    | none => 64

/-- The destination binding of a program: that of its coat for a window feed to the array. -/
def Program.dest (p : Program) (c : Coat) : Nat := if p.kind = 1 then c.dest else p.dst

/-- The programs of a coat. -/
def Image.programsOf (g : Image) (c : Coat) : List Program := (g.programs.drop c.firstProgram).take c.programs

/-- The stripe-load program that fills the buffer a window feed reads (R104). -/
def Image.loaderOf (g : Image) (c : Coat) (src : Nat) : Option Program :=
  (g.programsOf c).find? fun p => p.kind == 2 && p.dst == src

/-- Does a program read its source tensor in place? A window feed behind a stripe load reads the stripe buffer instead, which R104
lays out. -/
def Image.readsTensor (g : Image) (c : Coat) (p : Program) : Bool := p.kind != 1 || (g.loaderOf c p.src).isNone

/-- Rows of a destination tensor of 4-byte pixels, an argmax's indices or values (R111, R514): Hc. -/
def Image.indexHeight (g : Image) (p : Program) (i : Nat) : Nat :=
  if p.h ≠ 0 then p.h else (g.binding i).rowsFor g.header.batchRows (p.w * 4)

/-- Does a program write an argmax's winning values (R97, R111)? -/
def Program.writesValue (p : Program) : Bool := p.kind == 5 && p.flags / 4 % 2 == 1

/-- Does a dynamic height lie within every source and destination binding of a program (R99, R225 step 10)? -/
def Image.heightFits (g : Image) (c : Coat) (p : Program) (h : Nat) : Bool :=
  (!g.readsTensor c p || decide (h ≤ g.srcHeight p)) &&
    (if p.kind = 1 ∨ p.kind = 3 then
      decide (p.ho h ≤ (g.binding (p.dest c)).rowsFor g.header.batchRows (p.wo * p.outPixel c))
     else if p.kind = 5 then
      decide (h ≤ g.indexHeight p p.dst) && (!p.writesValue || decide (h ≤ g.indexHeight p p.aux))
     else true)

/-- Does an image need the array (R73), or the trim cores (R145)? -/
def Image.usesArray (g : Image) : Bool := g.coats.any fun c => c.kind == 1 || c.kind == 4
def Image.usesTrim (g : Image) : Bool := !g.kernels.isEmpty || g.coats.any fun c => c.kind == 4

/-- Does an image hold a program with H = 0? -/
def Image.dynamic (g : Image) : Bool := g.programs.any fun p => p.h == 0

/-- Do a dynamic height's source and destination heights fit for every program with H = 0? -/
def Image.heightOk (g : Image) (h : Nat) : Bool :=
  g.coats.all fun c => (g.programsOf c).all fun p => p.h != 0 || g.heightFits c p h

/-- The bytes of tensor T of one batch row, H rows of pixels (R514). -/
def tensorBytes (h per : Nat) : Nat := roundUp (h * per) 64

/-- Do the QB exponents of every input binding lie in range (R37, R218)? -/
def Image.inputExpsOk (g : Image) (input : List Byte) : Bool :=
  (List.range g.bindings.length).all fun i =>
    let b := g.binding i
    if b.kind ≠ 5 then true
    else
      match g.formatOf i with
      | none => true
      | some r =>
        match Format.ofCode r.format with
        | none => true
        | some f =>
          let ps := pixelStride f r.channels
          !f.isQB || (List.range (b.size / max ps 1)).all fun k =>
            rowExpsOk f r.channels (slice input (b.offset + k * ps) ps)

/-- The number of elements of a request's input, with a dynamic height's rows (R140; log entry 15). -/
def Image.inputElements (g : Image) (h : Nat) : Nat :=
  (List.range g.bindings.length).foldl (fun n i =>
    let b := g.binding i
    if b.kind ≠ 5 then n
    else
      match g.formatOf i with
      | none => n
      | some r =>
        match Format.ofCode r.format with
        | none => n
        | some f =>
          let pixels := match g.programs.find? fun p => p.src == i && p.h == 0 with
            | some p => h * p.w
            | none => b.size / max (pixelStride f r.channels) 1
          n + pixels * r.channels) 0

-- Key-value pages (R257, R264 to R266).

/-- The shape of a generation model's key-value pages. -/
structure KvShape where
  format : Format
  layers : Nat
  heads : Nat
  dim : Nat
  deriving DecidableEq, Repr

/-- The key-value shape of an image: that of its paged attention records; none without one. -/
def Image.kv (g : Image) : Option KvShape :=
  match g.attns.filter (·.paged) with
  | [] => none
  | a :: l => (Format.ofCode a.kvFormat).map fun f => ⟨f, l.length + 1, a.kvHeads, a.dim⟩

/-- The stored size of one key row (R264). -/
def KvShape.krow (k : KvShape) : Nat := k.format.rowBytes k.dim
/-- T, the tokens of a page (R265). -/
def KvShape.cap (k : KvShape) : Nat := 65280 / max (2 * k.krow) 1
/-- The pages of one chunk. -/
def KvShape.perChunk (k : KvShape) : Nat := k.layers * k.heads
/-- The chunks of positions 0 to n − 1. -/
def KvShape.chunks (k : KvShape) (n : Nat) : Nat := ceilDiv n k.cap
/-- Virtual page of a chunk, layer and head (R266). -/
def KvShape.vpage (k : KvShape) (chunk layer head : Nat) : Nat := (chunk * k.layers + layer) * k.heads + head
/-- Byte of a key and of a value in a page (R264). -/
def KvShape.keyAt (k : KvShape) (e : Nat) : Nat := 256 + e * k.krow
def KvShape.valueAt (k : KvShape) (e : Nat) : Nat := 256 + k.cap * k.krow + e * k.krow

/-- A page header (R264). -/
def KvShape.header (k : KvShape) (layer head chunk shares customer owner : Nat) : List Byte :=
  leBytes 2 0x564B ++ leBytes 1 k.format.code ++ [0] ++ leBytes 2 k.dim ++ leBytes 2 layer ++ leBytes 2 head ++
    leBytes 2 k.cap ++ leBytes 4 chunk ++ leBytes 2 0 ++ leBytes 2 0 ++ leBytes 2 shares ++ leBytes 2 customer ++
    leBytes 4 owner ++ zeroBytes 228

end Sys2Proof.Machine
end

