-- ==== Sys2Proof/Machine/Granule.lean ====
section
/-! DEFINITION. Granule.lean: where a granule's bytes lie, and the Reed-Solomon code that protects them (R178 to R181; log entry
42). -/

namespace Sys2Proof.Machine

-- Placement (R178, R180).

/-- The group and the position in it of a module channel. -/
def channelGroup (c : Nat) : Nat := c % 8
def channelPosition (c : Nat) : Nat := c / 8

/-- The channel at a position of a group, and the package and the package's channel that it is. -/
def channelAt (group position : Nat) : Nat := 8 * position + group
def channelPackage (c : Nat) : Nat := c / 4
def packageChannel (p k : Nat) : Nat := 4 * p + k

/-- The granule of a physical byte address, the group that stores a granule, and the offset in each of that group's channels. A
channel holds 4 GiB. -/
def granuleOf (pa : Nat) : Nat := pa / 256
def granuleGroup (g : Nat) : Nat := g % 8
def granuleOffset (g : Nat) : Nat := g / 8 * 32
def channelBytes : Nat := 4294967296

-- The field GF(2^8) with x^8 + x^4 + x^3 + x^2 + 1 (R179).

/-- Times α. -/
def gfDouble (a : Byte) : Byte := (a <<< 1) ^^^ (if a.msb then 0x1D else 0)

/-- The product of a and b over the lowest n bits of b. -/
def gfMulBits : Nat → Byte → Byte → Byte
  | 0, _, _ => 0
  | n + 1, a, b => (if b.getLsbD 0 then a else 0) ^^^ gfMulBits n (gfDouble a) (b >>> 1)

def gfMul (a b : Byte) : Byte := gfMulBits 8 a b

/-- α^n. -/
def gfAlpha : Nat → Byte
  | 0 => 1
  | n + 1 => gfDouble (gfAlpha n)

/-- (α + 1)^-1: the byte whose product with α + 1 is 1. -/
def gfInvThree : Byte := 0xF4

-- Codewords (R179, R181): ten symbols, eight of data and two check symbols, the first symbol with the highest power.

/-- The power of x whose coefficient the symbol at a position is. -/
def symbolPower (p : Nat) : Nat := 9 - p

/-- The codeword's value at the root α^0, and at the root α^1. -/
def syndrome0 (w : List Byte) : Byte := w.foldl (· ^^^ ·) 0
def syndrome1 (w : List Byte) : Byte :=
  (List.range w.length).foldl (fun a p => a ^^^ gfMul (listAt 0 w p) (gfAlpha (symbolPower p))) 0

/-- Eight data symbols with the two check symbols that make both syndromes zero. -/
def rsEncode (d : List Byte) : List Byte :=
  let a := syndrome0 d
  let c8 := gfMul (a ^^^ syndrome1 d) gfInvThree
  d ++ [c8, a ^^^ c8]

/-- The symbols that `e` at a position changes. -/
def putSymbol (w : List Byte) (p : Nat) (e : Byte) : List Byte :=
  (List.range w.length).map fun i => if i = p then listAt 0 w i ^^^ e else listAt 0 w i

/-- A decoded codeword and the position that was corrected; none where an error is detected and not corrected (R181). With no
channel marked, one wrong symbol is corrected. With one, its symbol is an erasure and is rebuilt, and any further error is detected.
With two the group has failed. -/
def rsDecode (marked : List Nat) (w : List Byte) : Option (List Byte × Option Nat) :=
  let s0 := syndrome0 w
  let s1 := syndrome1 w
  match marked with
  | [] =>
    if s0 = 0 ∧ s1 = 0 then some (w, none)
    else ((List.range 10).find? fun p => s0 != 0 && gfMul s0 (gfAlpha (symbolPower p)) == s1).map fun p => (putSymbol w p s0, some p)
  | [m] => if gfMul s0 (gfAlpha (symbolPower m)) = s1 then some (putSymbol w m s0, none) else none
  | _ => none

/-- Codeword j of a granule of 256 stored bytes: its eight data symbols are bytes 8j … 8j + 7 (R179). -/
def granuleWord (d : List Byte) (j : Nat) : List Byte := rsEncode (slice d (8 * j) 8)

/-- The byte that the channel at a position of its group holds for codeword j. -/
def granuleSymbol (d : List Byte) (p j : Nat) : Byte := listAt 0 (granuleWord d j) p

/-- The wrong symbols of codeword j, as a word of errors, from a list of (position, codeword, error). -/
def errorWord (wrong : List (Nat × Nat × Byte)) (j : Nat) : List Byte :=
  (List.range 10).map fun p => ((wrong.find? fun x => x.1 == p && x.2.1 == j).map (·.2.2)).getD 0

/-- How the 32 codewords of a granule decode under a pattern of wrong symbols. The code is linear, so the pattern decides: what is
left of the errors, and the position corrected. -/
def granuleOutcome (marked : List Nat) (wrong : List (Nat × Nat × Byte)) : List (Option (List Byte × Option Nat)) :=
  (List.range 32).map fun j => rsDecode marked (errorWord wrong j)

/-- The codewords that do not decode. -/
def badWords (o : List (Option (List Byte × Option Nat))) : Nat := (o.filter (·.isNone)).length

/-- The positions corrected, one for each corrected byte. -/
def correctedAt (o : List (Option (List Byte × Option Nat))) : List Nat := o.filterMap fun x => x.bind (·.2)

/-- What the errors that the decoder did not see change in the granule's 256 bytes. -/
def leftOver (o : List (Option (List Byte × Option Nat))) : List Byte :=
  (o.map fun x => ((x.map (·.1)).getD []).take 8).flatten

end Sys2Proof.Machine
end

