-- ==== Sys2Proof/Machine/Curve.lean ====
section
/-! DEFINITION. Curve.lean: the elliptic curve brainpoolP384r1, on which the module signs and agrees keys (R317, R368 to R371). The
manual names the curve and does not print its domain parameters: they are those of RFC 5639 (PRESUMED, log entry 3). -/

namespace Sys2Proof.Machine

/-- The field prime p of brainpoolP384r1. -/
def curvePrime : Nat :=
  0x8CB91E82A3386D280F5D6F7E50E641DF152F7109ED5456B412B1DA197FB71123ACD3A729901D1A71874700133107EC53
/-- The coefficients of y² = x³ + a·x + b. -/
def curveA : Nat :=
  0x7BC382C63D8C150C3C72080ACE05AFA0C2BEA28E4FB22787139165EFBA91F90F8AA5814A503AD4EB04A8C7DD22CE2826
def curveB : Nat :=
  0x04A8C7DD22CE28268B39B55416F0447C2FB77DE107DCD2A62E880EA53EEB62D57CB4390295DBC9943AB78696FA504C11
/-- The order n of the base point. -/
def curveOrder : Nat :=
  0x8CB91E82A3386D280F5D6F7E50E641DF152F7109ED5456B31F166E6CAC0425A7CF3AB6AF6B7FC3103B883202E9046565

/-- A point; none is the point at infinity. -/
abbrev CurvePoint := Option (Nat × Nat)

/-- The base point g. -/
def curveBase : CurvePoint :=
  some (0x1D1C64F068CF45FFA2A63A81B7C13F6B8847A3E77EF14FE3DB7FCAFE0CBD10E8E826E03436D646AAEF87B2E247D4AF1E,
    0x8ABE1D7520F9C2A45CB1EB8E95CFD55262B70B29FEEC5864E19C054FF99129280E4646217791811142820341263C5315)

/-- The bits of an exponent or scalar below 2^384, the highest first. -/
def scalarBits (e : Nat) : List Bool := (List.range 384).reverse.map e.testBit

/-- b^e modulo m. -/
def powMod (m b e : Nat) : Nat := (scalarBits e).foldl (fun r t => if t then r * r % m * b % m else r * r % m) 1

/-- The inverse modulo a prime. -/
def invMod (m a : Nat) : Nat := powMod m (a % m) (m - 2)

/-- a − b modulo p. -/
def fieldSub (a b : Nat) : Nat := (a + curvePrime - b % curvePrime) % curvePrime

/-- The third point of a chord or tangent of slope l. -/
def chord (l x1 y1 x2 : Nat) : CurvePoint :=
  let x3 := fieldSub (fieldSub (l * l % curvePrime) x1) x2
  some (x3, fieldSub (l * fieldSub x1 x3 % curvePrime) y1)

/-- The sum of two points. -/
def CurvePoint.add (a b : CurvePoint) : CurvePoint :=
  match a, b with
  | none, _ => b
  | _, none => a
  | some (x1, y1), some (x2, y2) =>
    if x1 ≠ x2 then chord (fieldSub y2 y1 * invMod curvePrime (fieldSub x2 x1) % curvePrime) x1 y1 x2
    else if (y1 + y2) % curvePrime = 0 then none
    else chord ((3 * x1 * x1 + curveA) * invMod curvePrime (2 * y1) % curvePrime) x1 y1 x2

/-- k times a point. -/
def CurvePoint.times (k : Nat) (a : CurvePoint) : CurvePoint :=
  (scalarBits k).foldl (fun r t => if t then CurvePoint.add (CurvePoint.add r r) a else CurvePoint.add r r) none

/-- The negative of a point. -/
def CurvePoint.neg (a : CurvePoint) : CurvePoint := a.map fun x => (x.1, fieldSub 0 x.2)

/-- x³ + a·x + b. -/
def curveRight (x : Nat) : Nat := (x * x * x + curveA * x + curveB) % curvePrime

/-- The point of an x-coordinate whose y has a parity (R371); none where the curve has no such point. As p is 3 modulo 4, a square's
root is its power (p + 1) / 4. -/
def pointAt (x parity : Nat) : Option (Nat × Nat) :=
  let y := powMod curvePrime (curveRight x) ((curvePrime + 1) / 4)
  if y * y % curvePrime ≠ curveRight x then none
  else some (x, if y % 2 = parity then y else fieldSub 0 y)

/-- A point in uncompressed form (SEC 1). -/
def uncompressed (a : CurvePoint) : List Byte :=
  match a with
  | some (x, y) => 4 :: (beBytes 48 x ++ beBytes 48 y)
  | none => zeroBytes 97

/-- The point that an uncompressed form gives; none where it is no point of the curve. -/
def pointOf (b : List Byte) : Option (Nat × Nat) :=
  let x := beNat (slice b 1 48)
  let y := beNat (slice b 49 48)
  if b.length = 97 ∧ u8 b 0 = 4 ∧ x < curvePrime ∧ y < curvePrime ∧ y * y % curvePrime = curveRight x then some (x, y) else none

/-- One candidate of R371 for the key of a signature (r, s) over a hash e: x = r + j × n, with a parity of y. -/
def recoverAt (e r s j parity : Nat) : CurvePoint :=
  let x := r + j * curveOrder
  if curvePrime ≤ x then none
  else
    match pointAt x parity with
    | none => none
    | some rp =>
      let d := CurvePoint.add (CurvePoint.times s (some rp)) (CurvePoint.neg (CurvePoint.times (e % curveOrder) curveBase))
      CurvePoint.times (invMod curveOrder r) d

/-- The candidate keys of R371 in its order, uncompressed; none where r or s is out of range. -/
def recoverKeys (e r s : Nat) : List (List Byte) :=
  if r < 1 ∨ curveOrder - 1 < r ∨ s < 1 ∨ curveOrder - 1 < s then []
  else ([(0, 0), (0, 1), (1, 0), (1, 1)].filterMap fun c => recoverAt e r s c.1 c.2).map fun q => uncompressed (some q)

/-- Ordinary ECDSA verification of (r, s) over a hash e with a public key. -/
def ecdsaOk (e r s : Nat) (key : List Byte) : Bool :=
  match pointOf key with
  | none => false
  | some q =>
    if r < 1 ∨ curveOrder - 1 < r ∨ s < 1 ∨ curveOrder - 1 < s then false
    else
      let w := invMod curveOrder s
      match CurvePoint.add (CurvePoint.times (e * w % curveOrder) curveBase) (CurvePoint.times (r * w % curveOrder) (some q)) with
      | some (x, _) => x % curveOrder == r
      | none => false

/-- The signature (r, s) over a hash e with private scalar d and nonce k; none where r or s is zero. -/
def ecdsaSign (d e k : Nat) : Option (Nat × Nat) :=
  match CurvePoint.times k curveBase with
  | none => none
  | some (x, _) =>
    let r := x % curveOrder
    let s := invMod curveOrder k * ((e + r * d) % curveOrder) % curveOrder
    if r = 0 ∨ s = 0 then none else some (r, s)

end Sys2Proof.Machine
end

