-- ==== Sys2Proof/Machine/SrvTypes.lean ====
section
/-! DEFINITION. SrvTypes.lean: the state of the serving engine, its queues and the running batch ("Request serving",
"Attention, key-value pages and speculative verification"). -/

namespace Sys2Proof.Machine

/-- A budget account (R228 to R231, R235). -/
structure Account where
  isOpen : Bool := false
  weight : Nat := 16
  interval : Nat := 0
  amount : Nat := 0
  cap : Nat := 0
  quota : Nat := 0
  balance : Nat := 0
  grant : Nat := 0
  /-- Deficit round-robin credit (R235). -/
  credit : Nat := 0
  deriving DecidableEq, Repr

/-- A live request (R216 to R227). -/
structure Request where
  /-- Row tag: the low 32 bits of the ADMIT record's index (R216). -/
  row : Nat
  session : Nat
  tag : Nat
  /-- Sequence number of the partner message that submitted it, and the ordinal of its RESULT (R320). -/
  number : Nat
  ordinal : Nat := 0
  gen : Bool
  customer : Nat
  slot : Nat
  priority : Nat
  bucket : Nat
  /-- Serving count at which the batch must have started (R227). -/
  deadline : Nat
  height : Nat := 0
  stamp : Nat := 0
  admitRec : Nat
  debit : Nat := 0
  /-- Pages that hold the input, its length, and the staging pages for the output. -/
  input : List Nat := []
  inputLength : Nat := 0
  staging : List Nat := []
  outSize : Nat := 0
  started : Bool := false
  cancelled : Bool := false
  /-- The session was closed: nothing more is sent (R318). -/
  mute : Bool := false
  flags : NumFlags := 0
  isEmpty : Bool := false
  /-- The first code that ends the request (R219, R238). -/
  code : Code := 0
  /-- Stop and accepted fields of the last coat that delivered them (R237, R238). -/
  stopField : Nat := 0
  accepted : Nat := 0
  /-- Output byte ranges already delivered (R134). -/
  delivered : List (Nat × Nat) := []
  /-- The sequence slot of a generation request. -/
  seq : Option Nat := none
  /-- Context and picture of a submitted picture (R292). -/
  picture : Option (Nat × Nat) := none
  deriving DecidableEq, Repr

/-- A tree of candidates (R272, R273). -/
structure Tree where
  parents : List Nat
  tokens : List Nat
  deriving DecidableEq, Repr

/-- Where a sequence stands (R236, R271, R277). -/
inductive SeqPhase where
  /-- Prompt rows (or rebuild rows) remain to be run. -/
  | prompt
  /-- A decoding unit waits in a queue. -/
  | queued
  /-- Its unit is in the running batch. -/
  | running
  /-- The step's record is written and not yet durable (R277 step 5). -/
  | recorded
  /-- It waits for a CANDIDATES message (R271). -/
  | candidates
  /-- It waits because 256 tokens are unsent (R236). -/
  | unsent
  /-- It waits for its skim sequence's draft. -/
  | draft
  /-- Its pages were released (R254). -/
  | preempted
  /-- Its pages are on the cartridge (R211). -/
  | spilled
  /-- It has stopped and waits for its record. -/
  | stopped
  deriving DecidableEq, Repr

/-- The end of a sequence: reason, stop token and code (R223). -/
structure SeqStop where
  reason : Nat
  token : Nat := 0
  code : Code := 0
  deriving DecidableEq, Repr

/-- A sequence (R221, R231, R236 to R241, R266 to R277). -/
structure Sequence where
  row : Nat
  slot : Nat
  prompt : List Nat := []
  emitted : List Nat := []
  seed : Nat := 0
  temperature : Nat := 0
  skim : Bool := false
  cand : Bool := false
  elapsed : Bool := false
  elapsedLimit : Nat := 0
  /-- Serving count at admission. -/
  admittedAt : Nat := 0
  stopTokens : List Nat := []
  flush : Nat := 1
  tokenLimit : Nat := 1
  /-- Unspent allowance in units (R231). -/
  allowance : Nat := 0
  /-- Index of the newest record that covers the allowance. -/
  allowRecord : Nat := 0
  /-- Tokens already put in TOKENS messages, and the next ordinal (R241, R320). -/
  sent : Nat := 0
  ordinal : Nat := 0
  phase : SeqPhase := .prompt
  /-- Rows already run of the prompt, or of the rebuild (R236, R255). -/
  done : Nat := 0
  rebuild : Bool := false
  /-- Its pages are lost while its step's record waits: it is rebuilt once the step is committed (R277, R350). -/
  lost : Bool := false
  /-- Positions whose key and value are committed (R264). -/
  committed : Nat := 0
  tree : Option Tree := none
  /-- The token sampled at each node of the running step (R276). -/
  sampled : List Nat := []
  /-- The accepted path found (R276), and the emitted depth. -/
  path : List Nat := []
  /-- Tokens emitted by the running step, journalled and not yet committed. -/
  stepTokens : List Nat := []
  stepRecord : Nat := 0
  stop : Option SeqStop := none
  /-- Prefix chunks shared from another sequence (R269). -/
  shared : Nat := 0
  /-- Index of the journal record of the stop and of each TOKENS record (R347). -/
  records : List Nat := []
  /-- The sequence slot of its skim model's sequence, or the target that a skim sequence drafts for (R271). -/
  partner : Option Nat := none
  isSkim : Bool := false
  /-- What the last coat of a skim sequence's step wrote to its request output (R271). -/
  draft : List Byte := []
  deriving DecidableEq, Repr

/-- The kinds of unit (R235). -/
inductive UnitKind where
  | pass | chunk | step
  deriving DecidableEq, Repr

/-- A unit in a queue (R234, R235): its queue, kind, request row tag, sequence slot, rows, customer, ADMIT index and the
serving count at which it entered. -/
structure QUnit where
  key : QueueKey
  kind : UnitKind
  row : Nat
  seq : Nat := 0
  rows : Nat := 1
  customer : Nat
  admitRec : Nat
  entered : Nat
  deriving DecidableEq, Repr

/-- One batch row (R140, R236, R275): request, sequence slot (2^32 − 1 of a pass request), seed, step, length, the token it
feeds, its position, and the node of its tree. -/
structure RowRec where
  tag : Nat
  seq : Nat
  seed : Nat
  step : Nat
  length : Nat
  token : Nat := 0
  position : Nat := 0
  node : Nat := 0
  unit : Nat := 0
  /-- The dynamic height of a pass request (R99). -/
  height : Nat := 0
  deriving DecidableEq, Repr

/-- A delivery held until the coat completes (R135): output bytes of a request, or a row status record, and the core that sent it
(64: the coat's own drain, program or command). -/
structure Delivery where
  row : Nat
  offset : Nat
  status : Bool
  bytes : List Byte
  core : Nat
  deriving DecidableEq, Repr

/-- Flags gathered for a request in the present coat (R53). -/
structure CoatStatus where
  row : Nat
  flags : NumFlags
  deriving DecidableEq, Repr

/-- A bank range spilled for a suspended batch (R210): bank id, offset and the coded bytes, with the unpacked length. -/
structure SpilledRange where
  bank : Nat
  offset : Nat
  length : Nat
  coded : List Byte
  deriving DecidableEq, Repr

/-- Which weight tile a pass uses (R78, R100): model slot, coat, kind 0x01 program, tap of the full filter, channel tile, n-tile
and group. A grouped convolution runs each group's columns of an n-tile as a tile of its own (R101). -/
structure TileKey where
  slot : Nat
  coat : Nat
  prog : Nat
  ky : Nat
  kx : Nat
  ctile : Nat
  ntile : Nat
  group : Nat
  deriving DecidableEq, Repr

/-- A pass (R100, R158): its unit, numbered within the coat in the order of first passes (R159), its stripe (an m-chunk counts as
one) and row stripe, its tile, whether it is the first and the last pass of its unit, and the accumulator bank. -/
structure Pass where
  unit : Nat := 0
  stripe : Nat
  rowStripe : Nat
  key : TileKey
  first : Bool
  last : Bool
  bank : Nat
  deriving DecidableEq, Repr

/-- The progress of one coat of a batch (R80, R82). -/
structure CoatRun where
  /-- Its first pass, program, kernel or command has run. -/
  begun : Bool := false
  complete : Bool := false
  /-- Feed programs that have run (R106, R108, R111). -/
  programsDone : List Nat := []
  /-- Kernels that have started and ended. -/
  kernelsStarted : List Nat := []
  kernelsEnded : List Nat := []
  /-- Its fused attention command has run. -/
  attentionDone : Bool := false
  deliveries : List Delivery := []
  status : List CoatStatus := []
  /-- Rows whose output is empty (R77, R102, R107). -/
  empties : List Nat := []
  /-- Requests that the coat has ended, with their codes. -/
  ended : List (Nat × Code) := []
  /-- The coat has been executed again after an error (R91, R146). -/
  retried : Bool := false
  trimRetried : Bool := false
  /-- Its passes in order; how many have issued and landed. -/
  passes : List Pass := []
  issued : Nat := 0
  landed : Nat := 0
  /-- Its units, and those whose drain has ended. -/
  units : Nat := 0
  drained : Nat := 0
  /-- Stripe buffer halves: the row stripe that each half holds (R104). -/
  stripe0 : Option Nat := none
  stripe1 : Option Nat := none
  deriving DecidableEq, Repr

/-- A batch (R234 to R236): its slot, phase, units and rows, and the progress of each coat of its image, by index. -/
structure Batch where
  slot : Nat
  phase : Nat
  units : List QUnit := []
  rows : List RowRec := []
  runs : List CoatRun := []
  /-- It waits at a coat boundary: a guard or a slot switch holds it (R210, R246). -/
  suspended : Bool := false
  /-- It was taken up again and its spilled ranges are to be restored before its coats go on. -/
  resuming : Bool := false
  /-- The spill area could not hold its ranges: it is not left until it finishes (R210). -/
  stays : Bool := false
  spilled : List SpilledRange := []
  deriving DecidableEq, Repr

/-- The fixed-slot frame's progress (R245 to R249). -/
structure FrameState where
  /-- A change of mode waits for the next batch boundary. -/
  pending : Option Bool := none
  index : Nat := 0
  /-- Serving count at which the present slot started. -/
  start : Nat := 0
  /-- The slot's guard has begun: no new coat begins. -/
  guarded : Bool := false
  /-- The next slot is due, and a coat of this one still runs: the overrun has been counted (R246). -/
  late : Bool := false
  /-- Quotas of the customers in the frame: customer, queue places, sequence slots, pool pages (R249). -/
  quotas : List (Nat × Nat × Nat × Nat) := []
  deriving DecidableEq, Repr

/-- A message that waits for the release grid (R243). -/
structure GridMsg where
  session : Nat
  msg : ModMsg
  deriving DecidableEq, Repr

/-- The state of the serving engine. -/
structure SrvState where
  /-- The serving counter, µs (R245). -/
  count : Nat := 0
  accounts : Dict Account := []
  requests : Dict Request := []
  sequences : Dict Sequence := []
  queue : List QUnit := []
  /-- Units that were their queue's oldest when its hold expired (R234). -/
  held : List QUnit := []
  batch : Option Batch := none
  /-- Batches left unfinished and spilled (R210, R246). -/
  suspended : List Batch := []
  slots : Dict ModelSlot := []
  /-- Slots whose loads are admitted, in order (R171). -/
  loads : List Nat := []
  /-- A block was partially reset while a load was in steps 2 to 4 of R170: the load is carried out again (R172). -/
  loadsLost : Bool := false
  /-- The completion record of the present load, until it is durable and the load has reached step 5 (R170, R177). -/
  loadRecord : Option Nat := none
  grid : List GridMsg := []
  frame : FrameState := {}
  /-- Units whose coat a hardware fault discarded, and whose requests wait for REPLAY (R350). -/
  affected : List QUnit := []
  /-- Activation spill area in use, bytes. -/
  spillUsed : Nat := 0
  /-- The address-generator set of the coat that fed the array last: false A, true B (R94, R113). -/
  lastSet : Bool := false
  deriving DecidableEq, Repr

end Sys2Proof.Machine
end

