-- ==== Sys2Proof/Machine/ArrTypes.lean ====
section
/-! DEFINITION. ArrTypes.lean: the state of the array and the trim cores ("The matrix array", "Trim cores"). -/

namespace Sys2Proof.Machine

/-- A decoded weight tile (R78): the values of each output column, and, where it is the first k-tile of its n-tile, the columns'
bias values from the cartridge and their multipliers, which travel with it; empty where the coat has none. -/
structure Tile where
  key : TileKey
  columns : List (List FpVal)
  bias : List FpVal := []
  scales : List Nat := []
  deriving DecidableEq, Repr

/-- The activations that one feed row presents: the channel tile's elements of the tile's group; an absent element forms no
product (R99). -/
abbrev FeedRow := List (Option FpVal)

/-- A pass in flight: its feed rows and its tile. -/
structure Flight where
  pass : Pass
  rows : List FeedRow
  tile : Tile
  deriving DecidableEq, Repr

/-- What an accumulator bank is doing. -/
inductive BankPhase where
  | free | filling | landed | draining
  deriving DecidableEq, Repr

/-- An accumulator bank (R81, R87): the pass that began its unit, its entries, the column multipliers held beside it (R78), and
the next entry to drain. -/
structure AccBank where
  phase : BankPhase := .free
  pass : Option Pass := none
  entries : List (List AccEntry) := []
  scales : List Nat := []
  next : Nat := 0
  deriving DecidableEq, Repr

/-- The array and its sequencer. -/
structure ArrState where
  /-- Weight buffer halves that hold a tile, in fetch order (R78). -/
  halves : List (Nat × Tile) := []
  shadow : Option Tile := none
  active : Option Tile := none
  flights : List Flight := []
  bank0 : AccBank := {}
  bank1 : AccBank := {}
  /-- The bank that the next unit takes (R159), and whether a unit has taken one since reset. -/
  nextBank : Nat := 0
  begun : Bool := false
  /-- Passes are stopped by F_ARRAY (R91). -/
  stopped : Bool := false
  deriving DecidableEq, Repr

/-- What a logical core is doing (R129, R134, R142). -/
inductive CoreRun where
  | idle
  | run
  /-- Waits in MSEND for a credit. -/
  | credit
  /-- Waits in MWAIT for all four credits. -/
  | allCredits
  | barrier
  | xred
  | done
  deriving DecidableEq, Repr

/-- The operations of XRED (R129). -/
inductive XredOp where
  | fsum | fmax | fmin | isum | imax
  deriving DecidableEq, Repr

/-- A store to the shared scratch or a feed bank that no other core of the kernel sees yet (R120): its core-view address and bytes,
and whether its core has executed FENCE since. -/
structure SharedStore where
  addr : Nat
  bytes : List Byte
  fenced : Bool := false
  deriving DecidableEq, Repr

/-- A logical trim core (R115 to R117, R134, R142). -/
structure Core where
  s : Vector (BitVec 64) 32 := Vector.replicate 32 0
  v : Vector (BitVec 512) 16 := Vector.replicate 16 0
  p : Vector (BitVec 64) 8 := Vector.replicate 8 0
  pc : BitVec 32 := 0
  flags : NumFlags := 0
  state : CoreRun := .idle
  /-- The kernel it runs: its coat and its place in the coat's kernel list. -/
  coat : Nat := 0
  kernel : Nat := 0
  /-- Instructions executed in this kernel, for the watchdog (R142). -/
  executed : Nat := 0
  credits : Nat := 4
  /-- The MSEND that waits for a credit: its first operand register. -/
  send : Option SReg := none
  /-- The XRED it waits in: operation, destination, contribution. -/
  xred : Option (XredOp × SReg × BitVec 64) := none
  /-- First item and number of items of its share (R141). -/
  first : Nat := 0
  count : Nat := 0
  /-- Its write window: core-view base and bytes (R138). -/
  winBase : Nat := 0
  winSize : Nat := 0
  /-- Its stores that other cores do not see yet, in program order (R120). -/
  stores : List SharedStore := []
  /-- The host physical core runs this logical core now (R144). -/
  onHost : Bool := true
  deriving DecidableEq, Repr

/-- A running kernel (R142): its coat and its place in the coat's kernel list, its logical cores, whether its reductions are
unordered (R58), its instruction limit, and the XRED contributions in arrival order. -/
structure KernelRun where
  coat : Nat
  index : Nat
  cores : List Nat
  unordered : Bool
  limit : Nat
  arrivals : List (Nat × BitVec 64) := []
  deriving DecidableEq, Repr

/-- The trim cores. -/
structure TrimState where
  cores : List Core := List.replicate 64 {}
  kernels : List KernelRun := []
  /-- The core whose slot the collector emptied last (R135). -/
  rr : Nat := 63
  deriving DecidableEq, Repr

end Sys2Proof.Machine
end

