-- ==== Sys2Proof/Machine/MemTypes.lean ====
section
/-! DEFINITION. MemTypes.lean: the state of memory, banks, translation and the cartridge ("Memory, banks and translation",
"Connectors, cartridge and electrical data"). -/

namespace Sys2Proof.Machine

/-- A translation descriptor (R195). -/
structure Desc where
  base : Nat := 0
  length : Nat := 0
  kind : Nat := 0
  readOnly : Bool := false
  slot : Nat := 0
  deriving DecidableEq, Repr

/-- The state of a pool page that is not free and clear (R193, R201). -/
inductive PageState where
  | owned | awaiting | retired
  deriving DecidableEq, Repr

/-- The module's cartridge bay and cartridge (R387, R483 to R487). -/
structure Cartridge where
  present : Bool := false
  powered : Bool := false
  /-- The carrier's identity: SHA-384 of its key, and whether its chain and its signature over the challenge verify. -/
  carrier : List Byte := []
  genuine : Bool := false
  /-- Objects by object number (R485). -/
  objects : Dict (List Byte) := []
  flush0 : Option FlushRecord := none
  flush1 : Option FlushRecord := none
  /-- Spill slots in use and their pages' bytes (R211). -/
  spill : Dict (List Byte) := []
  /-- Bytes written in its life. -/
  written : Nat := 0
  matings : Nat := 0
  devicePct : Nat := 0
  readOnly : Bool := false
  deriving DecidableEq, Repr

/-- The state of memory. -/
structure MemState where
  /-- LPDDR4X bytes, decrypted and corrected, by physical byte address (R180). The table region holds the table (R192). -/
  dram : Memory := []
  /-- On-die bank bytes, by bank id × 2^24 + offset (R202). -/
  banks : Memory := []
  /-- Descriptors by number (R195). -/
  descs : Tab Desc := []
  /-- The translation cache: table granules held, by set, most recently used first (R197). -/
  cache : Dict (List Nat) := []
  /-- Pool pages that are not free and clear, by physical page. -/
  pool : Dict PageState := []
  cart : Cartridge := {}
  /-- An access held by a fault that the lease holder resolves: owner and virtual page (R200). -/
  held : List (Nat × Nat) := []
  /-- The last MR4 value read, from which the refresh interval follows (R186). -/
  mr4 : Nat := 0
  /-- The training results stored, by 4 × channel + data rate (R186). -/
  training : Dict (List Byte) := []
  /-- The data rate whose stored results each set point, FSP0 and FSP1, was last loaded with, and which of them is in use (R186,
  R187). -/
  fsp0 : Option Nat := none
  fsp1 : Option Nat := none
  onFsp1 : Bool := false
  /-- Granules that were found uncorrectable (R201). -/
  poisoned : List Nat := []
  /-- Pool pages, and cartridge spill slots, that updates of the table have taken from their owners: they are freed once the
  completion marker has returned (R198). -/
  afterMarker : List Nat := []
  cartAfterMarker : List Nat := []
  /-- The copy of the descriptors that the last checkpoint left in the system area, by number, 16 bytes each (R195). -/
  descCopy : Dict (List Byte) := []
  deriving DecidableEq, Repr

end Sys2Proof.Machine
end

