-- ==== Sys2Proof/Machine/VidTypes.lean ====
section
/-! DEFINITION. VidTypes.lean: the state of the video engine ("Video engine"). -/

namespace Sys2Proof.Machine

/-- Sample planes of a picture, each in raster order: luma, then two chroma planes of half the width and height. -/
structure Planes where
  width : Nat
  height : Nat
  depth : Nat := 8
  luma : List Nat
  cb : List Nat
  cr : List Nat
  deriving DecidableEq, Repr, Inhabited

/-- The profiles that R279 names; every other profile of either standard is `other`. -/
inductive VideoProfile where
  | constrainedBaseline | main | high | main10 | other
  deriving DecidableEq, Repr, Inhabited

/-- Chroma sampling (R279, R280). -/
inductive Sampling where
  | yuv420 | yuv400 | yuv422 | yuv444
  deriving DecidableEq, Repr, Inhabited

/-- The forms of damage (R295), besides a missing reference picture. -/
inductive Damage where
  | elementRange | dataEnds | missingSlice | missingSet
  deriving DecidableEq, Repr, Inhabited

/-- What a stream says of a picture before it is decoded: its profile, its level in tenths, whether it is of the High tier, its
sampling, frame_mbs_only_flag, whether it uses an extension that R280 lists (SVC, MVC, or an H.265 extension), how many pictures its
sequence parameter set requires, its cropped size and depth, its order count, and the numbers that missing reference pictures have. -/
structure DecodeHead where
  profile : VideoProfile
  level : Nat
  highTier : Bool
  sampling : Sampling
  framesOnly : Bool
  extension : Bool
  refs : Nat
  width : Nat
  height : Nat
  depth : Nat
  order : Int
  missing : List Nat
  deriving DecidableEq, Repr, Inhabited

/-- A picture offered to a decoding process as a reference: its number in the context, order count and planes. -/
structure RefPicture where
  number : Nat
  order : Int
  planes : Planes
  deriving DecidableEq, Repr, Inhabited

/-- What a standard's decoding process gives for one picture (R279, R295): its planes, the damage found, each form with the raster
number of a 16 × 16 luma block that it leaves not correctly decoded, the numbers of the pictures used for reference after it, whether it
is ever output, the numbers of the pictures that its output process now outputs, in order, whether its decoded picture hash differs, whether it lies before a recovery
point's completion, whether it is a random access point, and the vectors, in quarter pixels, of the prediction units that
cover the blocks' centres and refer to the previous picture in output order. -/
structure DecodeResult where
  luma : List Nat
  cb : List Nat
  cr : List Nat
  damage : List (Damage × Nat)
  refs : List Nat
  shown : Bool
  outputs : List Nat
  hashMismatch : Bool
  recovering : Bool
  accessPoint : Bool
  vectors : List (Option (Int × Int))
  deriving DecidableEq, Repr, Inhabited

/-- One block's statistics (R299): vector in quarter pixels, SAD and complexity. -/
structure BlockStat where
  mvx : Int
  mvy : Int
  sad : Int
  complexity : Nat
  deriving DecidableEq, Repr, Inhabited

/-- A decoded picture in a unit (R289). -/
structure Picture where
  number : Nat
  /-- Which of the context's units holds it. -/
  unit : Nat := 0
  order : Int := 0
  planes : Planes
  concealed : Nat := 0
  /-- The trailer's flags (R294). -/
  flags : Nat := 0
  /-- The marks of R289. -/
  isRef : Bool := false
  output : Bool := false
  deliver : Bool := false
  source : Bool := false
  /-- Its place in output order. -/
  outNo : Nat := 0
  stamp : Nat := 0
  /-- The VIDEO_DATA that holds its first byte, its tag, and the picture's place among that data's pictures (R320). -/
  message : Nat := 0
  tag : Nat := 0
  place : Nat := 0
  vectors : List (Option (Int × Int)) := []
  stats : List BlockStat := []
  deriving DecidableEq, Repr

/-- A VIDEO_DATA's bytes in a context's stream: its message number, tag, host timestamp and bytes. -/
structure VideoChunk where
  message : Nat
  tag : Nat
  stamp : Nat
  bytes : List Byte
  deriving DecidableEq, Repr

/-- A slot of a video binding in use (R291): the request's row, the model slot, the binding and the slot's number. -/
structure FrameUse where
  row : Nat
  slot : Nat
  binding : Nat
  index : Nat
  deriving DecidableEq, Repr

/-- A stream context (R283 to R301). -/
structure VideoContext where
  session : Nat
  kind : Nat
  slot : Nat
  stats : Bool
  isLuma : Bool
  bt709 : Bool
  fullRange : Bool
  customer : Nat
  priority : Nat
  frameBinding : Nat
  statsBinding : Nat
  maxWidth : Nat
  maxHeight : Nat
  depth : Nat
  references : Nat
  source : Nat
  outWidth : Nat
  outHeight : Nat
  crop : List Int
  frameRate : Nat
  bitRate : Nat
  qp : Nat
  gop : Nat
  /-- Pictures that it may hold, and the first quarter unit (4 × buffer + quarter) of each (R284, R288). -/
  units : List Nat
  full : Bool
  /-- 1 decode; 2 encode; 3 stopped (VID.CSTATE). -/
  state : Nat
  code : Code := 0
  held : Bool := false
  frames : Nat := 0
  concealed : Nat := 0
  data : List VideoChunk := []
  ended : Bool := false
  /-- When each complete access unit was completed, among those of all contexts (R285), and how many have started to be decoded. -/
  completions : List Nat := []
  started : Nat := 0
  /-- A pipe decodes a picture now (R285); the first block that the time limit cut off (R295), and blocks that a memory error
  damaged (R297). -/
  busy : Bool := false
  watchdog : Option Nat := none
  damaged : List Nat := []
  /-- Pictures that hold a mark, in decode order. -/
  pictures : List Picture := []
  nextOut : Nat := 0
  /-- Pictures decoded so far: those that are decoded again after a restart send no second VIDEO_STATUS. -/
  seen : Nat := 0
  /-- Numbers of the pictures already delivered and already coded by an encode context (R297). -/
  delivered : List Nat := []
  sourced : List Nat := []
  /-- Numbers of the random access points decoded so far (R297). -/
  accessPoints : List Nat := []
  /-- The previous picture in output order, 8-bit luma, and its vectors (R298). -/
  lastLuma : Option Planes := none
  lastVectors : List (Int × Int) := []
  /-- Draining (R287 mode 1): the close to answer. -/
  closing : Option ReplyTo := none
  /-- Credit withheld (R293): wire lengths of VIDEO_DATA not yet counted as consumed. -/
  withheld : Nat := 0
  /-- Encoding: pictures coded, sizes of their access units, and the last reconstructed picture. -/
  coded : Nat := 0
  sizes : List Nat := []
  recon : Option Planes := none
  deriving DecidableEq, Repr

/-- What R300 fixes of a coded picture: the level in tenths, slices, coding tree block size, intra or predicted from the previous
reconstructed picture alone, the filters, the hash SEI, the greatest and least prediction unit, and the vectors, in quarter pixels, of
the search of R298 that motion estimation starts from. -/
structure EncodeParams where
  level : Nat
  slices : Nat := 1
  treeBlock : Nat := 32
  intra : Bool
  references : Nat := 1
  deblocking : Bool := true
  offsets : Bool := true
  hashSei : Bool := true
  greatestUnit : Nat := 32
  leastUnit : Nat := 8
  vectors : List (Int × Int) := []
  deriving DecidableEq, Repr

/-- The video engine. -/
structure VidState where
  contexts : Dict VideoContext := []
  /-- Access units completed so far, of all contexts (R285). -/
  completed : Nat := 0
  /-- Decode pipes 0 to 3: the context each works on. -/
  pipes : List (Option Nat) := [none, none, none, none]
  frames : List FrameUse := []
  deriving DecidableEq, Repr

end Sys2Proof.Machine
end

