-- ==== Sys2Proof/Config.lean ====
section
/-! DEFINITION. Config.lean: what this manual leaves to other standards or leaves open. Each constant has no body, so
nothing can be proved about its values (log entries 3 and 4). -/

namespace Sys2Proof.Config

/-- SHA-384 (FIPS 180-4), which the manual names and does not state. -/
opaque sha384Raw : List Byte → List Byte
/-- AES-256-GCM sealing: key, nonce, additional data, plaintext; the ciphertext followed by the tag. -/
opaque gcmSealRaw : List Byte → List Byte → List Byte → List Byte → List Byte
/-- AES-256-GCM opening: none where the tag does not verify. -/
opaque gcmOpenRaw : List Byte → List Byte → List Byte → List Byte → Option (List Byte)
/-- Bytes of the module's random source (R369): the draw's number and the length. -/
opaque randomRaw : Nat → Nat → List Byte
/-- A 64-bit number of the module's random source. -/
opaque randomSeed : Nat → BitVec 64
/-- A free 64-bit value (log entry 4): a number that the manual leaves open. -/
opaque freeWord : Nat → BitVec 64
/-- What VREDMAX and VREDMIN leave of no lanes (log entry 4), a value that the manual does not state: maximum or minimum,
floating-point or integer, lane width. It depends on nothing else, so that every run gives the same bits (R20). -/
opaque reductionOfNone : Bool → Bool → Nat → BitVec 64
/-- The device unique secret of R367, fixed at manufacture. -/
opaque dus : List Byte
/-- The measurement M0 of boot ROM, fixed at manufacture (R376). -/
opaque romDigest : List Byte
/-- The certificates of R370 in boot flash, in DER: the root CA's, the device CA's, and the identity certificate of a serial number,
extension and public key. -/
opaque rootCertificate : List Byte
opaque deviceCertificate : List Byte
opaque identityCertificate : List Byte → List Byte → List Byte → List Byte
/-- The digests of the four firmware-signing keys that boot ROM holds (R395). -/
opaque firmwareKeys : List (List Byte)

-- The thermal model's calibration, and the rounding of its fixed-point products, which the manual does not state (R441; log
-- entry 35).

/-- alpha and beta of a hot spot, 16 fractional bits. -/
opaque thermalAlpha : Nat → BitVec 16
opaque thermalBeta : Nat → BitVec 16
/-- r, 8 fractional bits; c0 in W; c1, 8 fractional bits. -/
opaque thermalR : Nat → BitVec 16
opaque thermalC0 : Nat → BitVec 8
opaque thermalC1 : Nat → BitVec 8
/-- Does a product, to be narrowed by a number of fractional bits, round up? -/
opaque thermalUp : Int → Nat → Bool

-- The video standards, which the manual names and does not state (log entry 28).

/-- The pictures of a stream of kind 1 (H.264) or 2 (H.265) whose first slice has arrived, in order: the offset of the first byte of
each one's access unit. -/
opaque pictureStarts : Nat → List Byte → List Nat
/-- What a stream says of its i-th picture: kind, stream, i, the pictures held for reference. -/
opaque pictureHead : Nat → List Byte → Nat → List Machine.RefPicture → Machine.DecodeHead
/-- Its decoding, with the missing references supplied. -/
opaque pictureBody : Nat → List Byte → Nat → List Machine.RefPicture → Machine.DecodeResult
/-- What a window register of a master reads that the supervisor writes for the front ends, the video engine, the memory DMA or
itself (R204): register, master, index and moment. The manual gives no values (log entry 38). -/
opaque supervisorWindow : Nat → Nat → Nat → Nat → BitVec 32

/-- The 16 × 16 block that a word of the video bank holds, as pipe and raster number. -/
opaque videoBankBlock : Nat → Nat × Nat
/-- AES-256-XTS of a granule under a key pair (R185): key pair, data unit number and 256 bytes; and its inverse. -/
opaque xtsEncrypt : List Byte → Nat → List Byte → List Byte
opaque xtsDecrypt : List Byte → Nat → List Byte → List Byte
/-- The results of training a channel at a data rate (R186): the start-up's number, channel, rate. -/
opaque trainingResult : Nat → Nat → Nat → List Byte

/-- Whether a conversion coefficient that 14 fractional bits do not hold exactly is rounded up (R290): BT.709, full range, depth,
and the coefficient's number; and whether an output half-way between two values is rounded up. -/
opaque colourCoefUp : Bool → Bool → Nat → Nat → Bool
opaque colourTieUp : Bool
/-- The QP of the next picture under a bit rate (R301): the bits that each GOP receives, GOP, first QP, the bytes of the access units
so far. -/
opaque rateQp : Nat → Nat → Nat → List Nat → Nat
/-- The H.265 access unit of a picture, and the picture reconstructed from it: what R300 fixes, QP, previous reconstruction,
picture. -/
opaque encodePicture : Machine.EncodeParams → Nat → Option Machine.Planes → Machine.Planes → List Byte
opaque reconPicture : Machine.EncodeParams → Nat → Option Machine.Planes → Machine.Planes → Machine.Planes

end Sys2Proof.Config

namespace Sys2Proof.Machine

/-- SHA-384 of a byte string: 48 bytes. -/
def sha384 (b : List Byte) : List Byte := slice (Config.sha384Raw b) 0 48
/-- AES-256-GCM: ciphertext and 16-byte tag. -/
def gcmSeal (key nonce aad pt : List Byte) : List Byte := slice (Config.gcmSealRaw key nonce aad pt) 0 (pt.length + 16)
/-- AES-256-GCM opening of a ciphertext with its tag. -/
def gcmOpen (key nonce aad ct : List Byte) : Option (List Byte) :=
  (Config.gcmOpenRaw key nonce aad ct).map fun p => slice p 0 (ct.length - 16)
/-- The public key of a private key, uncompressed: 97 bytes. -/
def ecPublic (priv : List Byte) : List Byte := uncompressed (CurvePoint.times (beNat priv) curveBase)
/-- Is this a valid uncompressed point of brainpoolP384r1? -/
def ecPointOk (b : List Byte) : Bool := (pointOf b).isSome
/-- The 48-byte ECDH secret: the x-coordinate of the shared point. -/
def ecShared (priv pub : List Byte) : List Byte :=
  match CurvePoint.times (beNat priv) (pointOf pub) with
  | some (x, _) => beBytes 48 x
  | none => zeroBytes 48
/-- Random bytes. -/
def randomBytes (n len : Nat) : List Byte := slice (Config.randomRaw n len) 0 len
/-- Exclusive or of a key block with one byte. -/
def xorPad (k : List Byte) (b : Byte) : List Byte := ((k ++ zeroBytes (128 - k.length)).take 128).map (· ^^^ b)
/-- HMAC-SHA-384 (RFC 2104) for keys of at most 128 bytes. -/
def hmac384 (k m : List Byte) : List Byte := sha384 (xorPad k 0x5C ++ sha384 (xorPad k 0x36 ++ m))
/-- HKDF-Extract (RFC 5869). -/
def hkdfExtract (salt ikm : List Byte) : List Byte := hmac384 salt ikm
/-- The blocks T(1), T(2), … of HKDF-Expand. -/
def hkdfBlocks (prk info : List Byte) : Nat → Nat → List Byte → List Byte
  | 0, _, _ => []
  | n + 1, i, prev => let t := hmac384 prk (prev ++ info ++ [BitVec.ofNat 8 i]); t ++ hkdfBlocks prk info n (i + 1) t
/-- HKDF-Expand (RFC 5869). -/
def hkdfExpand (prk info : List Byte) (len : Nat) : List Byte := (hkdfBlocks prk info (len / 48 + 1) 1 []).take len

/-- The bytes of an ASCII text. -/
def ascii (t : String) : List Byte := t.toList.map fun c => BitVec.ofNat 8 c.toNat

/-- The signature that the first nonce of RFC 6979 gives, of at most `fuel` ones (R369): private key, hash, the state K and V of its
generator. No run comes near the bound (log entry 3). -/
def rfcSign (d : Nat) (hash : List Byte) : Nat → List Byte → List Byte → List Byte
  | 0, _, _ => zeroBytes 96
  | fuel + 1, k, v =>
    let v1 := hmac384 k v
    let n := beNat v1
    match (if 1 ≤ n ∧ n < curveOrder then ecdsaSign d (beNat hash) n else none) with
    | some (r, s) => beBytes 48 r ++ beBytes 48 s
    | none =>
      let k1 := hmac384 k (v1 ++ [0])
      rfcSign d hash fuel k1 (hmac384 k1 v1)

/-- A signature's r and s, 48 bytes each, big-endian, one after the other; its nonce is that of RFC 6979 with SHA-384 (R369). -/
def ecSign (priv digest : List Byte) : List Byte :=
  let seed := slice priv 0 48 ++ beBytes 48 (beNat digest % curveOrder)
  let v0 := List.replicate 48 (1 : Byte)
  let k1 := hmac384 (zeroBytes 48) (v0 ++ [0] ++ seed)
  let v1 := hmac384 k1 v0
  let k2 := hmac384 k1 (v1 ++ [1] ++ seed)
  rfcSign (beNat priv) digest 1024 k2 (hmac384 k2 v1)

/-- The device key of R368. -/
def prkDev : List Byte := hkdfExtract (ascii "Quagor Milric") (slice Config.dus 0 32)

/-- The identity key's private scalar (R368). The loop of R368 ends at its first candidate, because every candidate lies
below n. -/
def identityPrivate : List Byte :=
  beBytes 48 (beNat (hkdfExpand prkDev (ascii "QID1" ++ [0]) 56) % (curveOrder - 1) + 1)

/-- The identity digest (R370). -/
def identityDigest : List Byte := sha384 (ecPublic identityPrivate)

/-- The certificate chain of R370: root, device CA and identity, whose extension holds the generation, the variant's code, the
processor stepping and the hardware revision. -/
def certificateChain (serial : List Byte) (variant : Nat) : List Byte :=
  Config.rootCertificate ++ Config.deviceCertificate ++
    Config.identityCertificate serial [0x01, BitVec.ofNat 8 variant, 0xB0, 0x0C] (ecPublic identityPrivate)

/-- The key recovered from a signature against a named digest (R371). -/
def recoverKey (hash r s named : List Byte) : Option (List Byte) :=
  (recoverKeys (beNat hash) (beNat r) (beNat s)).find? fun q => sha384 q == named

/-- Does a signature verify with the key of a named digest (R371)? -/
def signedBy (message r s named : List Byte) : Bool := (recoverKey (sha384 message) r s named).isSome

/-- Does a signature verify with a key that is given? -/
def verifies (message r s key : List Byte) : Bool :=
  ecdsaOk (beNat (sha384 message)) (beNat r) (beNat s) key

end Sys2Proof.Machine
end

