-- ==== Sys2Proof/Machine/PlatTypes.lean ====
section
/-! DEFINITION. PlatTypes.lean: the state of trust, firmware update, clocks and power, the thermal model, start-up and the
module's hardware. -/

namespace Sys2Proof.Machine

/-- An enrolment entry (R375). -/
structure EnrolEntry where
  key : List Byte
  role : Nat
  lath : Bool
  first : Nat
  last : Nat
  deriving DecidableEq, Repr

/-- The accepted enrolment (R384). -/
structure Enrolment where
  rack : List (List Byte)
  cartridges : List (List Byte)
  tenant : List Byte
  isEmpty : Bool
  entries : List EnrolEntry
  /-- SHA-384 of the accepted TENANT_SWITCH payload. -/
  digest : List Byte
  deriving DecidableEq, Repr

/-- A tenant switch under way (R386). -/
structure SwitchRun where
  /-- The step of R386 that is under way: 2 waits for acknowledgements, 6 waits for the reply's. -/
  step : Nat
  reply : ReplyTo
  enrolment : Enrolment
  number : Nat
  newOwner : Option (List Byte)
  firstOwner : Option (List Byte)
  deriving DecidableEq, Repr

/-- A held ATTEST (R382): the message, its nonce and flags. -/
structure HeldAttest where
  msg : ReplyTo
  nonce : List Byte
  flags : Nat
  deriving DecidableEq, Repr

/-- The SEC and ATT blocks, and what boot flash and fuses hold for them. -/
structure SecState where
  /-- Owner fuse slots written (R372). -/
  fuses : List (List Byte) := []
  enrolment : Option Enrolment := none
  switchNumber : Nat := 0
  boots : Nat := 0
  jobSalt : List Byte := []
  /-- Key slots (R367). -/
  keys : Dict (List Byte) := []
  /-- Measurement slots M0 to M7 (R376). -/
  meas : List (List Byte) := List.replicate 8 (zeroBytes 48)
  held : List HeldAttest := []
  /-- Reports signed since this boot (R379). -/
  reports : Nat := 0
  switch : Option SwitchRun := none
  deriving DecidableEq, Repr

/-- A component image (R394) as stored: component, version, security version, minimum peers, settings format, binding, and
the measurement of its signed bytes. -/
structure FwImage where
  component : Nat
  version : Nat
  security : Nat := 0
  peers : List Nat := []
  settingsMajor : Nat := 0
  settingsMinor : Nat := 0
  measurement : List Byte := []
  deriving DecidableEq, Repr

/-- A package staged (R400). -/
structure FwPackage where
  digest : List Byte
  security : Nat
  images : List FwImage
  deriving DecidableEq, Repr

/-- The boot settings record (R404). -/
structure BootSettings where
  major : Nat := 1
  minor : Nat := 0
  spillGib : Nat := 0
  prefer : Nat := 0
  flushS : Nat := 60
  udp : Nat := 47100
  ports : List PortApplied := []
  deriving DecidableEq, Repr

/-- The firmware-update engine and the boot-flash banks. -/
structure FwuState where
  /-- The package in reception: its length, block size, digest and the blocks held by offset (R397, R398). -/
  length : Nat := 0
  blockSize : Nat := 0
  digest : List Byte := []
  blocks : Dict (List Byte) := []
  /-- The package has passed steps 1 to 8 of R400 and is being written to the inactive bank. -/
  writing : Option FwPackage := none
  staged : Option FwPackage := none
  /-- The images that run, components 1 to 6, and those of the confirmed bank. -/
  running : List FwImage := []
  confirmed : List FwImage := []
  /-- The try-once mark of the staged bank, and a full reset that waits for its reply (R403). -/
  tryOnce : Bool := false
  resetDue : Bool := false
  /-- The component that has stopped and awaits its commit (R402). -/
  stopped : Option Nat := none
  /-- The components that have committed their new image in this activation. -/
  committed : List Nat := []
  settings : Option BootSettings := none
  deriving DecidableEq, Repr

/-- A cap that waits to settle (R430). -/
structure CapReply where
  reply : ReplyTo
  stamp : Nat
  clamped : Bool
  deriving DecidableEq, Repr

/-- Clocks and power. -/
structure PwrState where
  /-- The rack's cap in mW, after clamping (R429). -/
  rackCap : Nat := 480000
  /-- The point and pacer that R431 chose for the cap in force. -/
  chosenPoint : Nat := 0
  chosenPace : Nat := 1
  /-- The reply of a cap that is being approached (R430). -/
  reply : Option CapReply := none
  /-- The closed loop's own limit on the cap value of the pacer (R433); 64 when it limits nothing. -/
  loop : Nat := 64
  /-- The core voltage, mV. -/
  millivolt : Nat := 550
  /-- The present cap has overrun (R432), the overrun is running, its length in µs and its peak excess in µW. -/
  overran : Bool := false
  overrun : Bool := false
  overrunUs : Nat := 0
  excess : Nat := 0
  /-- Consecutive intervals of R433. -/
  lowIntervals : Nat := 0
  unmetIntervals : Nat := 0
  /-- No further up-step until reset (R425). -/
  noUp : Bool := false
  /-- Consecutive bad counts of fast A, fast B, slow A, slow B (R418). -/
  badCounts : List Nat := [0, 0, 0, 0]
  measuring : Bool := false
  deriving DecidableEq, Repr

/-- A hot spot (R437 to R444). Temperatures are in 1/16 °C, the model's estimates have 16 fractional bits. -/
structure HotSpot where
  /-- Estimate x and prediction, 16 fractional bits; whether x has started. -/
  x : Int := 0
  pred : Int := 0
  started : Bool := false
  used : Int := 0
  /-- Previous readings. -/
  prevA : Option Int := none
  prevB : Option Int := none
  faultA : Bool := false
  faultB : Bool := false
  /-- Pair state: 0 Agree, 1 Suspect, 2 One faulted, 3 Blind. -/
  pair : Nat := 0
  suspect : Nat := 0
  agree : Nat := 0
  /-- Band: 0 Normal to 4 Trip; intervals in the Hot band since the point limit was last lowered. -/
  band : Nat := 0
  hotFor : Nat := 0
  /-- The highest used value since it was cleared. -/
  max : Option Int := none
  deriving DecidableEq, Repr

/-- The thermal block. -/
structure ThmState where
  spots : List HotSpot := List.replicate 24 {}
  /-- Intervals in Normal since the point limit last rose. -/
  normalFor : Nat := 0
  /-- The flow sensor is faulted (R445). -/
  flowFaulted : Bool := false
  /-- Flow of the present 100 ms in mL/min: sum and count. -/
  flowSum : Nat := 0
  flowCount : Nat := 0
  /-- Consecutive readings, and consecutive averages, below 0.25 L/min (R448). -/
  lowReadings : Nat := 0
  lowAverages : Nat := 0
  /-- Outlet temperature and power (mW) at the start of the present 100 ms (R448). -/
  windowOutlet : Option Int := none
  windowPower : Nat := 0
  /-- The last outlet temperature. -/
  outlet : Option Int := none
  /-- Consecutive averages below the flow band in force and the mildest band among them; consecutive averages at least
  0.05 L/min above the edge of a higher band, and the lowest of those (R446). -/
  lowerRun : Nat := 0
  lowerBand : Nat := 0
  higherRun : Nat := 0
  higherBand : Nat := 0
  /-- The flow band in force (R446). -/
  band : Nat := 0
  /-- Consecutive intervals with the inlet above 50 °C (R447). -/
  inletHot : Nat := 0
  /-- The part of the cap that the inlet sets, mW; 0 none (R447, R451). -/
  inletCap : Nat := 0
  /-- A sudden stop, and the used values of the die hot spots at its declaration (R449). -/
  stopped : Bool := false
  stopUsed : List Int := []
  /-- The watch of step 3 of R449 has ended: step 5. -/
  watchEnded : Bool := false
  /-- QM-512A: consecutive intervals of fast rise of H15, its estimate at the last interval, and the power when the run began
  (R451). -/
  riseFor : Nat := 0
  riseX : Option Int := none
  risePower : Nat := 0
  airLost : Bool := false
  deriving DecidableEq, Repr

/-- Start-up and self-test. -/
structure BootState where
  /-- The step of R453 that runs, 1 to 10; 0 none, 11 service. -/
  step : Nat := 2
  /-- The slices, with their units, that the present step of R453 or a fault still has to end (R453, R91, R146, R335, R342). -/
  due : List (Nat × Nat) := []
  /-- The raw slice that runs, and its unit (R465). -/
  raw : Option (Nat × Nat) := none
  /-- How the present run ended, once it has (SYS.RESET.CAUSE). -/
  ended : Option Nat := none
  /-- The module is held in reset, its rails are off, or it cannot serve (R450, R458, R471, R474, R476). -/
  down : Bool := false
  /-- The last HEALTH_EVENT: its code, source bit and counter (R459). -/
  eventCode : Code := 0
  eventSource : Nat := 255
  eventCounter : Nat := 0
  /-- Shared slow counter, ms (R420). -/
  slowMs : Nat := 0
  /-- An event waits for the end of the thermal interval, and the health, flags, mask and slice results that the last
  HEALTH_EVENT reported (R461). -/
  eventPending : Bool := false
  reported : List Byte := []
  /-- The health log: the code, source and counter of the latest health events, oldest first (R358, R359; log entry 34). -/
  log : List (List Byte) := []
  /-- Feed and shared-scratch banks that self-test marked unusable (R457), by bank id. -/
  badBanks : List Nat := []
  /-- Trim local banks beyond repair, by logical core (R145, R457). -/
  badLocals : List Nat := []
  fixedLeft : Bool := false
  /-- The standby starts no new piece, since its lease count has not changed for 60 ms (R464). -/
  testStopped : Bool := false
  /-- Spares that failed their run-time test: 0 row group, 1 column group, 2 and 3 substitute banks (R462). -/
  badSpares : List Nat := []
  deriving DecidableEq, Repr

/-- What the power controller, the identity EEPROM and the pins hold (R467 to R489). -/
structure HwState where
  /-- Power controller: status, cause, start cap (W), panel (R479). -/
  status : BitVec 8 := 1
  cause : Nat := 0
  startCap : Nat := 0
  serial : List Byte := zeroBytes 16
  macBase : Nat := 0
  /-- EEPROM status page (R480). -/
  statusPage : List Byte := []
  couplings : Nat := 0
  /-- EEPROM tamper mark (R480). -/
  tamper : Nat := 4294967295
  /-- VIN is below 38 V. -/
  vinLow : Bool := false
  /-- Power controller: the input voltage in 0.1 V, and the input power in W over the last 100 ms, with the intervals of the present
  100 ms: their sum in mW and their number (R479). -/
  inputVolts : Nat := 480
  inputWatts : Nat := 0
  powerSum : Nat := 0
  powerCount : Nat := 0
  /-- The rise of AUX found worn couplings, and no HEALTH_EVENT has said so yet (R482). -/
  wearEvent : Bool := false
  alert : Bool := false
  deriving DecidableEq, Repr

end Sys2Proof.Machine
end

