-- ==== Sys2Proof/Machine/RegMap.lean ====
section
/-! DEFINITION. RegMap.lean: the management registers (R494, R511, R512): every register with its address, its access
masks and its reset value, and every field with its place, as the register tables of the chapters give them. A register
that stands once per selected port, master, hot spot or frame entry has one stored copy per selector value. -/

namespace Sys2Proof.Machine

/-- A field of a register: the register's address, its lowest bit and its width. -/
structure Field where
  addr : Nat
  lo : Nat
  width : Nat
  deriving DecidableEq, Repr

/-- A register: its address, the masks of its RW, W1C, WO and LK bits and of all its named bits, and its reset value. -/
structure RegDesc where
  addr : Nat
  rw : Nat
  w1c : Nat
  wo : Nat
  lk : Nat
  named : Nat
  reset : Nat
  deriving DecidableEq, Repr

/-- The registers of block SYS (R493, R512). -/
def regsSYS : List RegDesc := [
  ⟨0x0, 0x0, 0x0, 0x0, 0x0, 0xffffffff, 0xcb05701⟩ /- ID -/,
  ⟨0x4, 0x0, 0x0, 0x0, 0x0, 0xff07ffff, 0x107ffff⟩ /- MAP -/,
  ⟨0x8, 0x0, 0x0, 0x0, 0x0, 0xffff000f, 0x0⟩ /- RESET -/,
  ⟨0xc, 0x0, 0x0, 0x0, 0x0, 0xffffffff, 0x0⟩ /- MGMT -/,
  ⟨0x10, 0x7fff, 0x0, 0x0, 0xffff0000, 0xffff7fff, 0x3⟩ /- GATE -/,
  ⟨0x40, 0x0, 0x0, 0x0, 0x0, 0xffff00ff, 0x13⟩ /- J1 -/,
  ⟨0x44, 0x0, 0x0, 0x0, 0x0, 0x3ff, 0x200⟩ /- STRAPS -/,
  ⟨0x48, 0x0, 0x0, 0x0, 0x0, 0xff03, 0x0⟩ /- HOLDUP -/,
  ⟨0x4c, 0x0, 0x0, 0x0, 0x0, 0xffffffff, 0x0⟩ /- CART_WRITTEN -/,
  ⟨0x50, 0x0, 0x0, 0x0, 0x0, 0xffff1fff, 0x0⟩ /- CART_LIFE -/,
  ⟨0x54, 0x0, 0x0, 0x0, 0x0, 0x1ffff, 0x0⟩ /- COUPLING -/,
  ⟨0x58, 0x1, 0x0, 0x0, 0x0, 0x1, 0x0⟩ /- PANEL -/]

/-- The registers of block CLK (R435, R512). -/
def regsCLK : List RegDesc := [
  ⟨0x10000, 0x0, 0x0, 0x0, 0x0, 0xff, 0x44⟩ /- ID -/,
  ⟨0x10004, 0x0, 0x0, 0x0, 0x0, 0x3fff, 0x0⟩ /- STATUS -/,
  ⟨0x10008, 0x0, 0x0, 0x0, 0x0, 0xffffffff, 0x0⟩ /- TEMPO_COUNT -/,
  ⟨0x1000c, 0x0, 0x0, 0x0, 0x0, 0xffffffff, 0x0⟩ /- TEMPO_PACED -/,
  ⟨0x10010, 0xffffff, 0x0, 0x1000000, 0x0, 0x3ffffff, 0x960005⟩ /- MEAS_CFG -/,
  ⟨0x10014, 0x0, 0x0, 0x0, 0x0, 0xffffffff, 0x0⟩ /- MEAS_COUNT -/,
  ⟨0x10018, 0x0, 0x0, 0x0, 0x0, 0xffffffff, 0x0⟩ /- SWITCHES -/]

/-- The registers of block PWR (R436, R512). -/
def regsPWR : List RegDesc := [
  ⟨0x20000, 0x0, 0x0, 0x0, 0x0, 0x3fffff, 0x119e08⟩ /- ID -/,
  ⟨0x20004, 0x0, 0x0, 0x0, 0x0, 0x3ff, 0x0⟩ /- STATUS -/,
  ⟨0x20008, 0x0, 0x0, 0x0, 0x0, 0x7f7f7f7f, 0x40404001⟩ /- PACE -/,
  ⟨0x2000c, 0x0, 0x0, 0x0, 0x0, 0x7ffff, 0x75300⟩ /- CAP -/,
  ⟨0x20010, 0x0, 0x0, 0x0, 0x0, 0x7ffff, 0x0⟩ /- POWER -/,
  ⟨0x20014, 0x1fffff, 0x0, 0x0, 0x0, 0x1fffff, 0x40e⟩ /- MANUAL -/,
  ⟨0x20018, 0x0, 0x0, 0x0, 0x0, 0xffffffff, 0x0⟩ /- OVERRUN -/,
  ⟨0x2001c, 0x0, 0x0, 0x0, 0x0, 0xffffffff, 0x0⟩ /- COUNTS -/,
  ⟨0x20020, 0x0, 0xf, 0x0, 0x0, 0xf, 0x0⟩ /- FAULT -/,
  ⟨0x20040, 0x0, 0x0, 0x0, 0x0, 0x7ffff, 0x20226⟩ /- OP0 -/,
  ⟨0x20044, 0x0, 0x0, 0x0, 0x0, 0x7ffff, 0x28258⟩ /- OP1 -/,
  ⟨0x20048, 0x0, 0x0, 0x0, 0x0, 0x7ffff, 0x30680⟩ /- OP2 -/,
  ⟨0x2004c, 0x0, 0x0, 0x0, 0x0, 0x7ffff, 0x3869e⟩ /- OP3 -/,
  ⟨0x20050, 0x0, 0x0, 0x0, 0x0, 0x7ffff, 0x40abc⟩ /- OP4 -/,
  ⟨0x20054, 0x0, 0x0, 0x0, 0x0, 0x7ffff, 0x40ada⟩ /- OP5 -/,
  ⟨0x20058, 0x0, 0x0, 0x0, 0x0, 0x7ffff, 0x40efd⟩ /- OP6 -/,
  ⟨0x2005c, 0x0, 0x0, 0x0, 0x0, 0x7ffff, 0x40f20⟩ /- OP7 -/,
  ⟨0x20060, 0x0, 0x0, 0x0, 0x1ffff, 0x1ffff, 0x2e87⟩ /- MODEL0 -/,
  ⟨0x20064, 0x0, 0x0, 0x0, 0x1ffff, 0x1ffff, 0x6096⟩ /- MODEL1 -/,
  ⟨0x20068, 0x0, 0x0, 0x0, 0x1ffff, 0x1ffff, 0x8ca8⟩ /- MODEL2 -/,
  ⟨0x2006c, 0x0, 0x0, 0x0, 0x1ffff, 0x1ffff, 0xb0ba⟩ /- MODEL3 -/,
  ⟨0x20070, 0x0, 0x0, 0x0, 0x1ffff, 0x1ffff, 0xdad2⟩ /- MODEL4 -/,
  ⟨0x20074, 0x0, 0x0, 0x0, 0x1ffff, 0x1ffff, 0x10ae2⟩ /- MODEL5 -/,
  ⟨0x20078, 0x0, 0x0, 0x0, 0x1ffff, 0x1ffff, 0x14b06⟩ /- MODEL6 -/,
  ⟨0x2007c, 0x0, 0x0, 0x0, 0x1ffff, 0x1ffff, 0x19118⟩ /- MODEL7 -/]

/-- The registers of block THM (R452, R512). -/
def regsTHM : List RegDesc := [
  ⟨0x30000, 0x0, 0x0, 0x0, 0x0, 0xffffffff, 0x57d3018⟩ /- ID -/,
  ⟨0x30004, 0x0, 0x0, 0x0, 0x0, 0xfffff, 0xf000⟩ /- STATUS -/,
  ⟨0x30008, 0x1f, 0x0, 0x0, 0x0, 0x1f, 0x0⟩ /- SEL -/,
  ⟨0x3000c, 0x0, 0x0, 0x0, 0x0, 0xffffffff, 0x0⟩ /- HS_AB -/,
  ⟨0x30010, 0x0, 0x0, 0x0, 0x0, 0xffffffff, 0x0⟩ /- HS_USED -/,
  ⟨0x30014, 0x0, 0x0, 0x0, 0x0, 0xffff007f, 0x0⟩ /- HS_STATE -/,
  ⟨0x30018, 0x0, 0x0, 0x0, 0x0, 0xffffffff, 0x7369645f⟩ /- LIMITS -/,
  ⟨0x3001c, 0xf, 0x0, 0x0, 0x0, 0xf, 0x0⟩ /- DERATE -/,
  ⟨0x30020, 0x0, 0x0, 0x0, 0x0, 0xfff0fff, 0x0⟩ /- FLOW -/,
  ⟨0x30024, 0x0, 0x0, 0x0, 0x0, 0xffffffff, 0x0⟩ /- COOLANT -/,
  ⟨0x30028, 0x0, 0x0, 0x0, 0x0, 0x7ffff, 0x0⟩ /- CAP -/,
  ⟨0x3002c, 0x1, 0x0, 0x2, 0x0, 0x3, 0x0⟩ /- CTRL -/,
  ⟨0x30030, 0x0, 0x0, 0x0, 0x0, 0xffffffff, 0x0⟩ /- COUNTS -/,
  ⟨0x30034, 0x0, 0x1ff, 0x0, 0x0, 0x1ff, 0x0⟩ /- FAULT -/,
  ⟨0x30038, 0x0, 0x0, 0x0, 0xffffffff, 0xffffffff, 0x0⟩ /- COEF_A -/,
  ⟨0x3003c, 0x0, 0x0, 0x0, 0xffffffff, 0xffffffff, 0x0⟩ /- COEF_R -/]

/-- The registers of block BIST (R466, R512). -/
def regsBIST : List RegDesc := [
  ⟨0x40000, 0x0, 0x0, 0x0, 0x0, 0xffff, 0xc0e⟩ /- ID -/,
  ⟨0x40004, 0x0, 0x0, 0x0, 0x0, 0x7f, 0x0⟩ /- STATUS -/,
  ⟨0x40008, 0x0, 0x0, 0x0, 0x0, 0xffff, 0x0⟩ /- BOOT_MS -/,
  ⟨0x4000c, 0x0, 0x0, 0x0, 0x1ffff, 0x1ffff, 0x0⟩ /- UNUSABLE -/,
  ⟨0x40010, 0x0, 0x0, 0x0, 0x0, 0x7070707, 0x3030303⟩ /- RESULT0 -/,
  ⟨0x40014, 0x0, 0x0, 0x0, 0x0, 0x7070707, 0x3030303⟩ /- RESULT1 -/,
  ⟨0x40018, 0x0, 0x0, 0x0, 0x0, 0x7070707, 0x3030303⟩ /- RESULT2 -/,
  ⟨0x4001c, 0x0, 0x0, 0x0, 0x0, 0x707, 0x303⟩ /- RESULT3 -/,
  ⟨0x40020, 0x7f, 0x0, 0x100, 0x0, 0x17f, 0x0⟩ /- RUN -/,
  ⟨0x40024, 0x0, 0x0, 0x0, 0x0, 0x1ffff, 0x0⟩ /- RUN_RES -/,
  ⟨0x40028, 0x1, 0x0, 0x0, 0x0, 0xffff0001, 0x1⟩ /- RT -/,
  ⟨0x4002c, 0x0, 0x0, 0x0, 0x0, 0xf, 0x0⟩ /- SPARE -/,
  ⟨0x40030, 0x0, 0xf, 0x0, 0x0, 0xf, 0x0⟩ /- FAULT -/]

/-- The registers of block ARR (R93, R512). -/
def regsARR : List RegDesc := [
  ⟨0x100000, 0x0, 0x0, 0x0, 0x0, 0xffffffff, 0x11200200⟩ /- GEOM -/,
  ⟨0x100004, 0x0, 0x0, 0x0, 0x0, 0xffffffff, 0x28001001⟩ /- ID -/,
  ⟨0x100008, 0x0, 0x0, 0x0, 0x33f3f, 0x33f3f, 0x22020⟩ /- REMAP -/,
  ⟨0x10000c, 0x0, 0x0, 0x0, 0x0, 0x7f, 0x0⟩ /- STATUS -/,
  ⟨0x100010, 0x0, 0x0, 0x0, 0x0, 0xfffff, 0x0⟩ /- COAT_NOW -/,
  ⟨0x100014, 0x0, 0x3f, 0x0, 0x0, 0x3f, 0x0⟩ /- FLAGS -/,
  ⟨0x100018, 0x0, 0xf, 0x0, 0x0, 0xf, 0x0⟩ /- FAULT -/,
  ⟨0x10001c, 0x0, 0x0, 0x0, 0x0, 0xffff3f3f, 0x3f3f⟩ /- FAULT_LOC -/,
  ⟨0x100020, 0x0, 0x0, 0x0, 0x0, 0xffffffff, 0x0⟩ /- ACC_CORR -/,
  ⟨0x100024, 0x1, 0x0, 0x2, 0x0, 0x3, 0x0⟩ /- CTRL -/,
  ⟨0x100030, 0x0, 0x0, 0x0, 0x0, 0xffffffff, 0x0⟩ /- PASS_COUNT -/,
  ⟨0x100034, 0x0, 0x0, 0x0, 0x0, 0xffffffff, 0x0⟩ /- BUSY_LO -/,
  ⟨0x100038, 0x0, 0x0, 0x0, 0x0, 0xffffffff, 0x0⟩ /- BUSY_HI -/,
  ⟨0x10003c, 0x0, 0x0, 0x0, 0x0, 0xffffffff, 0x0⟩ /- STALL_WEIGHT -/,
  ⟨0x100040, 0x0, 0x0, 0x0, 0x0, 0xffffffff, 0x0⟩ /- STALL_FEED -/,
  ⟨0x100044, 0x0, 0x0, 0x0, 0x0, 0xffffffff, 0x0⟩ /- STALL_BANK -/,
  ⟨0x100048, 0x0, 0x0, 0x0, 0x0, 0xffffffff, 0x0⟩ /- STALL_DRAIN -/,
  ⟨0x10004c, 0x0, 0x0, 0x0, 0x0, 0xffffffff, 0x0⟩ /- STALL_DEP -/]

/-- The registers of block FEED (R113, R512). -/
def regsFEED : List RegDesc := [
  ⟨0x110000, 0x0, 0x0, 0x0, 0x0, 0xffffffff, 0x40102008⟩ /- ID -/,
  ⟨0x110004, 0x0, 0x0, 0x0, 0x0, 0xffffff, 0x801000⟩ /- LIMITS -/,
  ⟨0x110008, 0x0, 0x0, 0x0, 0x0, 0x7ff, 0x0⟩ /- STATUS -/,
  ⟨0x11000c, 0x0, 0x3, 0x0, 0x0, 0x3, 0x0⟩ /- FAULT -/,
  ⟨0x110010, 0x0, 0x0, 0x0, 0x0, 0xffffff0f, 0xf⟩ /- FAULT_LOC -/,
  ⟨0x110014, 0x1, 0x0, 0x2, 0x0, 0x3, 0x0⟩ /- CTRL -/,
  ⟨0x110018, 0x0, 0x0, 0x0, 0x0, 0xffffffff, 0x0⟩ /- ROWS_LO -/,
  ⟨0x11001c, 0x0, 0x0, 0x0, 0x0, 0xffffffff, 0x0⟩ /- ROWS_HI -/,
  ⟨0x110020, 0x0, 0x0, 0x0, 0x0, 0xffffffff, 0x0⟩ /- PAD_ROWS -/,
  ⟨0x110024, 0x0, 0x0, 0x0, 0x0, 0xffffffff, 0x0⟩ /- LOAD_LO -/,
  ⟨0x110028, 0x0, 0x0, 0x0, 0x0, 0xffffffff, 0x0⟩ /- LOAD_HI -/,
  ⟨0x11002c, 0x0, 0x0, 0x0, 0x0, 0xffffffff, 0x0⟩ /- STALL_PROC -/,
  ⟨0x110030, 0x0, 0x0, 0x0, 0x0, 0xffffffff, 0x0⟩ /- STALL_LOAD -/,
  ⟨0x110034, 0x0, 0x0, 0x0, 0x0, 0xffffffff, 0x0⟩ /- BOXES -/,
  ⟨0x110040, 0x0, 0x0, 0x0, 0x0, 0x1ffffff, 0x0⟩ /- AG0 -/,
  ⟨0x110044, 0x0, 0x0, 0x0, 0x0, 0x1ffffff, 0x0⟩ /- AG1 -/,
  ⟨0x110048, 0x0, 0x0, 0x0, 0x0, 0x1ffffff, 0x0⟩ /- AG2 -/,
  ⟨0x11004c, 0x0, 0x0, 0x0, 0x0, 0x1ffffff, 0x0⟩ /- AG3 -/,
  ⟨0x110050, 0x0, 0x0, 0x0, 0x0, 0x1ffffff, 0x0⟩ /- AG4 -/,
  ⟨0x110054, 0x0, 0x0, 0x0, 0x0, 0x1ffffff, 0x0⟩ /- AG5 -/,
  ⟨0x110058, 0x0, 0x0, 0x0, 0x0, 0x1ffffff, 0x0⟩ /- AG6 -/,
  ⟨0x11005c, 0x0, 0x0, 0x0, 0x0, 0x1ffffff, 0x0⟩ /- AG7 -/]

/-- The registers of block TRIM (R147, R512). -/
def regsTRIM : List RegDesc := [
  ⟨0x120000, 0x0, 0x0, 0x0, 0x0, 0xffffffff, 0x1484040⟩ /- ID -/,
  ⟨0x120004, 0x0, 0x0, 0x0, 0x3ff, 0x3ff, 0x40⟩ /- STATUS -/,
  ⟨0x120008, 0x0, 0x0, 0x0, 0x0, 0xffffffff, 0x0⟩ /- BUSY_LO -/,
  ⟨0x12000c, 0x0, 0x0, 0x0, 0x0, 0xffffffff, 0x0⟩ /- BUSY_HI -/,
  ⟨0x120010, 0x0, 0x0, 0x0, 0xffffffff, 0xffffffff, 0x0⟩ /- DEAD_LO -/,
  ⟨0x120014, 0x0, 0x0, 0x0, 0xffffffff, 0xffffffff, 0x0⟩ /- DEAD_HI -/,
  ⟨0x120018, 0x0, 0x7f, 0x0, 0x0, 0x7f, 0x0⟩ /- FAULT -/,
  ⟨0x12001c, 0x0, 0x0, 0x0, 0x0, 0xffff3f3f, 0x3f3f⟩ /- FAULT_LOC -/,
  ⟨0x120020, 0x0, 0x0, 0x0, 0x0, 0xffffffff, 0x0⟩ /- FAULT_PC -/,
  ⟨0x120024, 0x1, 0x0, 0x2, 0x0, 0x3, 0x0⟩ /- CTRL -/,
  ⟨0x120030, 0x0, 0x0, 0x0, 0x0, 0xffffffff, 0x0⟩ /- INSTR_LO -/,
  ⟨0x120034, 0x0, 0x0, 0x0, 0x0, 0xffffffff, 0x0⟩ /- INSTR_HI -/,
  ⟨0x120038, 0x0, 0x0, 0x0, 0x0, 0xffffffff, 0x0⟩ /- STALL_MEM -/,
  ⟨0x12003c, 0x0, 0x0, 0x0, 0x0, 0xffffffff, 0x0⟩ /- STALL_CRED -/,
  ⟨0x120040, 0x0, 0x0, 0x0, 0x0, 0xffffffff, 0x0⟩ /- STALL_SYNC -/,
  ⟨0x120044, 0x0, 0x0, 0x0, 0x0, 0xffffffff, 0x0⟩ /- KERNELS -/,
  ⟨0x120080, 0x0, 0x0, 0x0, 0xffffffff, 0xffffffff, 0x3020100⟩ /- MAP0 -/,
  ⟨0x120084, 0x0, 0x0, 0x0, 0xffffffff, 0xffffffff, 0x7060504⟩ /- MAP1 -/,
  ⟨0x120088, 0x0, 0x0, 0x0, 0xffffffff, 0xffffffff, 0xb0a0908⟩ /- MAP2 -/,
  ⟨0x12008c, 0x0, 0x0, 0x0, 0xffffffff, 0xffffffff, 0xf0e0d0c⟩ /- MAP3 -/,
  ⟨0x120090, 0x0, 0x0, 0x0, 0xffffffff, 0xffffffff, 0x13121110⟩ /- MAP4 -/,
  ⟨0x120094, 0x0, 0x0, 0x0, 0xffffffff, 0xffffffff, 0x17161514⟩ /- MAP5 -/,
  ⟨0x120098, 0x0, 0x0, 0x0, 0xffffffff, 0xffffffff, 0x1b1a1918⟩ /- MAP6 -/,
  ⟨0x12009c, 0x0, 0x0, 0x0, 0xffffffff, 0xffffffff, 0x1f1e1d1c⟩ /- MAP7 -/,
  ⟨0x1200a0, 0x0, 0x0, 0x0, 0xffffffff, 0xffffffff, 0x23222120⟩ /- MAP8 -/,
  ⟨0x1200a4, 0x0, 0x0, 0x0, 0xffffffff, 0xffffffff, 0x27262524⟩ /- MAP9 -/,
  ⟨0x1200a8, 0x0, 0x0, 0x0, 0xffffffff, 0xffffffff, 0x2b2a2928⟩ /- MAP10 -/,
  ⟨0x1200ac, 0x0, 0x0, 0x0, 0xffffffff, 0xffffffff, 0x2f2e2d2c⟩ /- MAP11 -/,
  ⟨0x1200b0, 0x0, 0x0, 0x0, 0xffffffff, 0xffffffff, 0x33323130⟩ /- MAP12 -/,
  ⟨0x1200b4, 0x0, 0x0, 0x0, 0xffffffff, 0xffffffff, 0x37363534⟩ /- MAP13 -/,
  ⟨0x1200b8, 0x0, 0x0, 0x0, 0xffffffff, 0xffffffff, 0x3b3a3938⟩ /- MAP14 -/,
  ⟨0x1200bc, 0x0, 0x0, 0x0, 0xffffffff, 0xffffffff, 0x3f3e3d3c⟩ /- MAP15 -/]

/-- The registers of block LATH (R177, R512). -/
def regsLATH : List RegDesc := [
  ⟨0x130000, 0x0, 0x0, 0x0, 0x0, 0x1fffffff, 0x10010201⟩ /- ID -/,
  ⟨0x130004, 0x0, 0x0, 0x0, 0x0, 0xffff1fff, 0x88ff1000⟩ /- LIMITS -/,
  ⟨0x130008, 0x0, 0x0, 0x0, 0x0, 0xffffffff, 0x0⟩ /- SLOT_STATE -/,
  ⟨0x13000c, 0x0, 0x0, 0x0, 0x0, 0xffffff, 0x0⟩ /- LOAD -/,
  ⟨0x130010, 0x0, 0x0, 0x0, 0x0, 0xffffffff, 0x0⟩ /- ERR_LOC -/,
  ⟨0x130014, 0x0, 0x0, 0x0, 0x0, 0xffffffff, 0x0⟩ /- ERR_OFFSET -/,
  ⟨0x130018, 0xf, 0x0, 0x0, 0x0, 0xf, 0x0⟩ /- DIGEST_SEL -/,
  ⟨0x130020, 0x0, 0x0, 0x0, 0x0, 0xffffffff, 0x0⟩ /- DIGEST0 -/,
  ⟨0x130024, 0x0, 0x0, 0x0, 0x0, 0xffffffff, 0x0⟩ /- DIGEST1 -/,
  ⟨0x130028, 0x0, 0x0, 0x0, 0x0, 0xffffffff, 0x0⟩ /- DIGEST2 -/,
  ⟨0x13002c, 0x0, 0x0, 0x0, 0x0, 0xffffffff, 0x0⟩ /- DIGEST3 -/,
  ⟨0x130030, 0x0, 0x0, 0x0, 0x0, 0xffffffff, 0x0⟩ /- DIGEST4 -/,
  ⟨0x130034, 0x0, 0x0, 0x0, 0x0, 0xffffffff, 0x0⟩ /- DIGEST5 -/,
  ⟨0x130038, 0x0, 0x0, 0x0, 0x0, 0xffffffff, 0x0⟩ /- DIGEST6 -/,
  ⟨0x13003c, 0x0, 0x0, 0x0, 0x0, 0xffffffff, 0x0⟩ /- DIGEST7 -/,
  ⟨0x130040, 0x0, 0x0, 0x0, 0x0, 0xffffffff, 0x0⟩ /- DIGEST8 -/,
  ⟨0x130044, 0x0, 0x0, 0x0, 0x0, 0xffffffff, 0x0⟩ /- DIGEST9 -/,
  ⟨0x130048, 0x0, 0x0, 0x0, 0x0, 0xffffffff, 0x0⟩ /- DIGEST10 -/,
  ⟨0x13004c, 0x0, 0x0, 0x0, 0x0, 0xffffffff, 0x0⟩ /- DIGEST11 -/,
  ⟨0x130050, 0x0, 0x0, 0x0, 0x0, 0xffffffff, 0x0⟩ /- LOADS -/,
  ⟨0x130054, 0x0, 0x0, 0x0, 0x0, 0xffffffff, 0x0⟩ /- REJECTS -/]

/-- The registers of block MEM (R212, R512). -/
def regsMEM : List RegDesc := [
  ⟨0x200000, 0x0, 0x0, 0x0, 0x0, 0xffffffff, 0x10028850⟩ /- ID -/,
  ⟨0x200004, 0x0, 0x0, 0x0, 0x0, 0x1ffff07, 0x0⟩ /- STATUS -/,
  ⟨0x200008, 0x0, 0x0, 0x0, 0x0, 0xffffffff, 0x0⟩ /- CH_FAIL0 -/,
  ⟨0x20000c, 0x0, 0x0, 0x0, 0x0, 0xffffffff, 0x0⟩ /- CH_FAIL1 -/,
  ⟨0x200010, 0x0, 0x0, 0x0, 0x0, 0xffff, 0x0⟩ /- CH_FAIL2 -/,
  ⟨0x200014, 0xd, 0x0, 0x2, 0x0, 0xf, 0x8⟩ /- CTRL -/,
  ⟨0x200018, 0xff, 0x0, 0x0, 0x0, 0xffffff, 0x8⟩ /- PATROL -/,
  ⟨0x20001c, 0xffff, 0x0, 0x0, 0x0, 0xffff, 0x1000⟩ /- CE_THRESH -/,
  ⟨0x200020, 0x7f, 0x0, 0x0, 0x0, 0x7f, 0x0⟩ /- CE_SEL -/,
  ⟨0x200024, 0x0, 0x0, 0x0, 0x0, 0xffffffff, 0x0⟩ /- CE_COUNT -/,
  ⟨0x200028, 0x0, 0x0, 0x0, 0x0, 0xffffffff, 0x0⟩ /- UE_COUNT -/,
  ⟨0x20002c, 0x0, 0x0, 0x0, 0x1f, 0x3fffff1f, 0x4000008⟩ /- LAYOUT -/,
  ⟨0x200030, 0x0, 0x0, 0x0, 0x0, 0x7fffff, 0x3c0000⟩ /- POOL -/,
  ⟨0x200034, 0x0, 0x0, 0x0, 0x0, 0x7fffff, 0x0⟩ /- FREE -/,
  ⟨0x200038, 0x7fffff, 0x0, 0x0, 0x0, 0x7fffff, 0x10000⟩ /- KV_RESERVE -/,
  ⟨0x20003c, 0x0, 0x0, 0x0, 0x0, 0x7fff7fff, 0x0⟩ /- READS -/,
  ⟨0x200040, 0x0, 0x0, 0x0, 0x0, 0x807fffff, 0x0⟩ /- CART_PAGES -/,
  ⟨0x200044, 0x0, 0xf, 0x0, 0x0, 0xf, 0x0⟩ /- FAULT -/,
  ⟨0x200048, 0x0, 0x0, 0x0, 0x0, 0x3fffff7f, 0x7f⟩ /- FAULT_LOC -/]

/-- The registers of block XLT (R213, R512). -/
def regsXLT : List RegDesc := [
  ⟨0x210000, 0x0, 0x0, 0x0, 0x0, 0xfffff, 0x842d0⟩ /- ID -/,
  ⟨0x210004, 0x0, 0x0, 0x0, 0x0, 0x3ff1fff, 0x2101000⟩ /- OWNERS -/,
  ⟨0x210008, 0x1fff, 0x0, 0x0, 0x0, 0x1fff, 0x0⟩ /- DESC_SEL -/,
  ⟨0x21000c, 0x0, 0x0, 0x0, 0x0, 0x3fffff, 0x0⟩ /- DESC_BASE -/,
  ⟨0x210010, 0x0, 0x0, 0x0, 0x0, 0x7fffff, 0x0⟩ /- DESC_LEN -/,
  ⟨0x210014, 0x0, 0x0, 0x0, 0x0, 0xf01ff, 0x0⟩ /- DESC_FLAGS -/,
  ⟨0x210018, 0x0, 0x0, 0x0, 0x0, 0x7fffff, 0x400000⟩ /- FREE_RUN -/,
  ⟨0x21001c, 0x1, 0x0, 0x2, 0x0, 0x3, 0x0⟩ /- CTRL -/,
  ⟨0x210020, 0x0, 0x0, 0x0, 0x0, 0xffffffff, 0x0⟩ /- HITS_LO -/,
  ⟨0x210024, 0x0, 0x0, 0x0, 0x0, 0xffffffff, 0x0⟩ /- HITS_HI -/,
  ⟨0x210028, 0x0, 0x0, 0x0, 0x0, 0xffffffff, 0x0⟩ /- MISSES -/,
  ⟨0x21002c, 0x0, 0x0, 0x0, 0x0, 0xffffffff, 0x0⟩ /- MOVES -/,
  ⟨0x210030, 0x0, 0xf, 0x0, 0x0, 0xf, 0x0⟩ /- FAULT -/,
  ⟨0x210034, 0x0, 0x0, 0x0, 0x0, 0x7f1fff, 0x0⟩ /- FAULT_LOC -/,
  ⟨0x210038, 0x0, 0x0, 0x0, 0x0, 0x7fffff, 0x0⟩ /- FAULT_VPN -/]

/-- The registers of block BANK (R214, R512). -/
def regsBANK : List RegDesc := [
  ⟨0x220000, 0x0, 0x0, 0x0, 0x0, 0xfffff, 0x86152⟩ /- ID -/,
  ⟨0x220004, 0x77f, 0x0, 0x0, 0x0, 0x77f, 0x0⟩ /- SEL -/,
  ⟨0x220008, 0x0, 0x0, 0x0, 0x7ffff, 0x7ffff, 0x0⟩ /- ENV_CFG -/,
  ⟨0x22000c, 0x0, 0x0, 0x0, 0x3ffff, 0x3ffff, 0x0⟩ /- ENV_BASE -/,
  ⟨0x220010, 0x0, 0x0, 0x0, 0x3ffff, 0x3ffff, 0x0⟩ /- ENV_LIMIT -/,
  ⟨0x220014, 0x0, 0x0, 0x0, 0x0, 0x7ff, 0x0⟩ /- WIN_CFG -/,
  ⟨0x220018, 0x0, 0x0, 0x0, 0x0, 0x3ffff, 0x0⟩ /- WIN_BASE -/,
  ⟨0x22001c, 0x0, 0x0, 0x0, 0x0, 0x3ffff, 0x0⟩ /- WIN_LIMIT -/,
  ⟨0x220020, 0x1, 0x0, 0x2, 0x0, 0x3, 0x0⟩ /- CTRL -/,
  ⟨0x220024, 0x0, 0x0, 0x0, 0x0, 0xffffffff, 0x0⟩ /- CE_COUNT -/,
  ⟨0x220028, 0x0, 0x0, 0x0, 0x0, 0xffffffff, 0x0⟩ /- UE_COUNT -/,
  ⟨0x22002c, 0x0, 0x0, 0x0, 0x0, 0xffffffff, 0x0⟩ /- COLLISIONS -/,
  ⟨0x220030, 0x0, 0x0, 0x0, 0x0, 0xffffffff, 0x0⟩ /- DMA_WAIT -/,
  ⟨0x220034, 0x0, 0x7, 0x0, 0x0, 0x7, 0x0⟩ /- FAULT -/,
  ⟨0x220038, 0x0, 0x0, 0x0, 0x0, 0xffffff7f, 0xff7f⟩ /- FAULT_LOC -/,
  ⟨0x22003c, 0x0, 0x0, 0x0, 0x0, 0x3ffff, 0x0⟩ /- FAULT_ADDR -/,
  ⟨0x220040, 0x0, 0x0, 0x0, 0x0, 0x1, 0x0⟩ /- CLEARED -/]

/-- The registers of block SRV (R256, R512). -/
def regsSRV : List RegDesc := [
  ⟨0x300000, 0x0, 0x0, 0x0, 0x0, 0x1fffffff, 0x10801000⟩ /- ID -/,
  ⟨0x300004, 0x0, 0x0, 0x0, 0x0, 0x3fffffff, 0x20004000⟩ /- ID2 -/,
  ⟨0x300008, 0x1, 0x2, 0x0, 0x0, 0xf3, 0x0⟩ /- MODE -/,
  ⟨0x30000c, 0xffffff, 0x0, 0x0, 0x0, 0xffffff, 0x1000c8⟩ /- HOLD -/,
  ⟨0x300010, 0xffffffff, 0x0, 0x0, 0x0, 0xffffffff, 0x400100⟩ /- ALLOW -/,
  ⟨0x300014, 0xffff3f, 0x0, 0x0, 0x0, 0xffff3f, 0x7d000⟩ /- FRAME -/,
  ⟨0x300018, 0x7ffff, 0x0, 0x0, 0x0, 0x7ffff, 0x501f4⟩ /- GUARD -/,
  ⟨0x30001c, 0x3f, 0x0, 0x0, 0x0, 0x3f, 0x0⟩ /- FSEL -/,
  ⟨0x300020, 0x7ff, 0x0, 0x0, 0x0, 0x7ff, 0x0⟩ /- FENTRY -/,
  ⟨0x300024, 0x3ff, 0x0, 0x0, 0x0, 0x3ff, 0x0⟩ /- CSEL -/,
  ⟨0x300028, 0x0, 0x0, 0x0, 0x0, 0xffffffff, 0x0⟩ /- CBAL_LO -/,
  ⟨0x30002c, 0x0, 0x0, 0x0, 0x0, 0xffff, 0x0⟩ /- CBAL_HI -/,
  ⟨0x300030, 0x0, 0x0, 0x0, 0x0, 0x3fffff, 0x10⟩ /- CCFG -/,
  ⟨0x300034, 0x0, 0x0, 0x0, 0x0, 0xffffffff, 0x0⟩ /- COUNT_LO -/,
  ⟨0x300038, 0x0, 0x0, 0x0, 0x0, 0xffffffff, 0x0⟩ /- COUNT_HI -/,
  ⟨0x30003c, 0x0, 0x0, 0x0, 0x0, 0x7fff1fff, 0x0⟩ /- LIVE -/,
  ⟨0x300040, 0x1, 0x0, 0x2, 0x0, 0x3, 0x0⟩ /- CTRL -/,
  ⟨0x300044, 0x0, 0x0, 0x0, 0x0, 0xffffffff, 0x0⟩ /- ADMITTED -/,
  ⟨0x300048, 0x0, 0x0, 0x0, 0x0, 0xffffffff, 0x0⟩ /- REFUSED -/,
  ⟨0x30004c, 0x0, 0x0, 0x0, 0x0, 0xffffffff, 0x0⟩ /- BATCHES -/,
  ⟨0x300050, 0x0, 0x0, 0x0, 0x0, 0xffffffff, 0x0⟩ /- PREEMPTS -/,
  ⟨0x300054, 0x0, 0x0, 0x0, 0x0, 0xffffffff, 0x0⟩ /- OVERRUN -/,
  ⟨0x300058, 0x0, 0x3, 0x0, 0x0, 0x3, 0x0⟩ /- FAULT -/]

/-- The registers of block ATT (R392, R512). -/
def regsATT : List RegDesc := [
  ⟨0x310000, 0x0, 0x0, 0x0, 0x0, 0xffffff, 0x0⟩ /- STATE -/,
  ⟨0x310004, 0x0, 0x0, 0x0, 0x0, 0xffffffff, 0x0⟩ /- REPORTS -/,
  ⟨0x310008, 0x0, 0x0, 0x0, 0x0, 0xffffffff, 0x0⟩ /- HELD -/,
  ⟨0x31000c, 0x7, 0x0, 0x0, 0x0, 0x7, 0x0⟩ /- MSEL -/,
  ⟨0x310010, 0x0, 0x0, 0x0, 0x0, 0xffffffff, 0x0⟩ /- MEAS0 -/,
  ⟨0x310014, 0x0, 0x0, 0x0, 0x0, 0xffffffff, 0x0⟩ /- MEAS1 -/,
  ⟨0x310018, 0x0, 0x0, 0x0, 0x0, 0xffffffff, 0x0⟩ /- MEAS2 -/,
  ⟨0x31001c, 0x0, 0x0, 0x0, 0x0, 0xffffffff, 0x0⟩ /- MEAS3 -/,
  ⟨0x310020, 0x0, 0x0, 0x0, 0x0, 0xffffffff, 0x0⟩ /- MEAS4 -/,
  ⟨0x310024, 0x0, 0x0, 0x0, 0x0, 0xffffffff, 0x0⟩ /- MEAS5 -/,
  ⟨0x310028, 0x0, 0x0, 0x0, 0x0, 0xffffffff, 0x0⟩ /- MEAS6 -/,
  ⟨0x31002c, 0x0, 0x0, 0x0, 0x0, 0xffffffff, 0x0⟩ /- MEAS7 -/,
  ⟨0x310030, 0x0, 0x0, 0x0, 0x0, 0xffffffff, 0x0⟩ /- MEAS8 -/,
  ⟨0x310034, 0x0, 0x0, 0x0, 0x0, 0xffffffff, 0x0⟩ /- MEAS9 -/,
  ⟨0x310038, 0x0, 0x0, 0x0, 0x0, 0xffffffff, 0x0⟩ /- MEAS10 -/,
  ⟨0x31003c, 0x0, 0x0, 0x0, 0x0, 0xffffffff, 0x0⟩ /- MEAS11 -/,
  ⟨0x310040, 0x0, 0x0, 0x0, 0x0, 0xffffffff, 0x0⟩ /- TENANT0 -/,
  ⟨0x310044, 0x0, 0x0, 0x0, 0x0, 0xffffffff, 0x0⟩ /- TENANT1 -/,
  ⟨0x310048, 0x0, 0x0, 0x0, 0x0, 0xffffffff, 0x0⟩ /- TENANT2 -/,
  ⟨0x31004c, 0x0, 0x0, 0x0, 0x0, 0xffffffff, 0x0⟩ /- TENANT3 -/]

/-- The registers of block VID (R302, R512). -/
def regsVID : List RegDesc := [
  ⟨0x320000, 0x0, 0x0, 0x0, 0x0, 0xffffff, 0x148040⟩ /- ID -/,
  ⟨0x320004, 0x0, 0x0, 0x0, 0x0, 0xffff, 0x820⟩ /- CAP -/,
  ⟨0x320008, 0x0, 0x0, 0x0, 0x0, 0x1f, 0x0⟩ /- STATUS -/,
  ⟨0x32000c, 0x0, 0x0, 0x0, 0x0, 0x3ff, 0x200⟩ /- POOL -/,
  ⟨0x320010, 0x0, 0x0, 0x0, 0x0, 0xffffffff, 0x0⟩ /- LOAD_DEC -/,
  ⟨0x320014, 0x0, 0x0, 0x0, 0x0, 0xffffffff, 0x0⟩ /- LOAD_ENC -/,
  ⟨0x320018, 0x3f, 0x0, 0x0, 0x0, 0x3f, 0x0⟩ /- CSEL -/,
  ⟨0x32001c, 0x0, 0x0, 0x0, 0x0, 0xffff3ff7, 0x0⟩ /- CSTATE -/,
  ⟨0x320020, 0x0, 0x0, 0x0, 0x0, 0xffffffff, 0x0⟩ /- CFRAMES -/,
  ⟨0x320024, 0x0, 0x0, 0x0, 0x0, 0xffffffff, 0x0⟩ /- CCONCEAL -/,
  ⟨0x320028, 0x1, 0x0, 0x2, 0x0, 0x3, 0x0⟩ /- CTRL -/,
  ⟨0x32002c, 0x0, 0x7, 0x0, 0x0, 0x7, 0x0⟩ /- FAULT -/,
  ⟨0x320030, 0x0, 0x0, 0x0, 0x0, 0xffffff3f, 0x3f⟩ /- FAULT_LOC -/]

/-- The registers of block NET (R332, R512). -/
def regsNET : List RegDesc := [
  ⟨0x400000, 0x0, 0x0, 0x0, 0x0, 0x7fffff3f, 0x9c00026⟩ /- ID -/,
  ⟨0x400004, 0x1, 0x0, 0x6, 0x0, 0x7, 0x0⟩ /- CTRL -/,
  ⟨0x400008, 0xffff, 0x0, 0x0, 0x0, 0xffff, 0xb7fc⟩ /- UDP -/,
  ⟨0x40000c, 0x1ff01ff, 0x0, 0x0, 0x0, 0x1ff01ff, 0x1100004⟩ /- WINDOW -/,
  ⟨0x400010, 0xffffffff, 0x0, 0x0, 0x0, 0xffffffff, 0xc3500064⟩ /- RTO -/,
  ⟨0x400014, 0xffffffff, 0x0, 0x0, 0x0, 0xffffffff, 0x3c1388⟩ /- PROBE -/,
  ⟨0x400018, 0x0, 0x0, 0x0, 0x0, 0xf, 0x0⟩ /- FE -/,
  ⟨0x40001c, 0x7, 0x0, 0x0, 0x0, 0x7, 0x0⟩ /- PSEL -/,
  ⟨0x400020, 0x0, 0x0, 0x0, 0x0, 0xf, 0x0⟩ /- PSTAT -/,
  ⟨0x400024, 0x7fffff, 0x0, 0x0, 0x0, 0x7fffff, 0x26000⟩ /- PCFG -/,
  ⟨0x400028, 0xffffffff, 0x0, 0x0, 0x0, 0xffffffff, 0x0⟩ /- IPV4 -/,
  ⟨0x40002c, 0x3f, 0x0, 0x0, 0x0, 0x3f, 0x18⟩ /- IPV4_CFG -/,
  ⟨0x400030, 0xffffffff, 0x0, 0x0, 0x0, 0xffffffff, 0x0⟩ /- GW4 -/,
  ⟨0x400034, 0xffffffff, 0x0, 0x0, 0x0, 0xffffffff, 0x0⟩ /- IPV6_0 -/,
  ⟨0x400038, 0xffffffff, 0x0, 0x0, 0x0, 0xffffffff, 0x0⟩ /- IPV6_1 -/,
  ⟨0x40003c, 0xffffffff, 0x0, 0x0, 0x0, 0xffffffff, 0x0⟩ /- IPV6_2 -/,
  ⟨0x400040, 0xffffffff, 0x0, 0x0, 0x0, 0xffffffff, 0x0⟩ /- IPV6_3 -/,
  ⟨0x400044, 0xff, 0x0, 0x0, 0x0, 0xff, 0x40⟩ /- IPV6_CFG -/,
  ⟨0x400048, 0x0, 0x0, 0x0, 0x0, 0xffffffff, 0x0⟩ /- MAC_LO -/,
  ⟨0x40004c, 0x0, 0x0, 0x0, 0x0, 0xffff, 0x0⟩ /- MAC_HI -/,
  ⟨0x400050, 0x0, 0x0, 0x0, 0x0, 0xffffffff, 0x0⟩ /- RX_FRAMES -/,
  ⟨0x400054, 0x0, 0x0, 0x0, 0x0, 0xffffffff, 0x0⟩ /- TX_FRAMES -/,
  ⟨0x400058, 0x0, 0x0, 0x0, 0x0, 0xffffffff, 0x0⟩ /- RETX -/,
  ⟨0x40005c, 0x0, 0x0, 0x0, 0x0, 0xffffffff, 0x0⟩ /- DUP_MSG -/,
  ⟨0x400060, 0x0, 0x0, 0x0, 0x0, 0xffffffff, 0x0⟩ /- AUTH_FAIL -/,
  ⟨0x400064, 0x0, 0x0, 0x0, 0x0, 0xffffffff, 0x0⟩ /- LEN_ERR -/,
  ⟨0x400068, 0x0, 0x0, 0x0, 0x0, 0xffffffff, 0x0⟩ /- CREDIT_VIOL -/,
  ⟨0x40006c, 0x0, 0x0, 0x0, 0x0, 0xffffffff, 0x0⟩ /- PATH_DOWN -/,
  ⟨0x400070, 0x0, 0x0, 0x0, 0x0, 0x7fff7fff, 0x0⟩ /- SESSIONS -/,
  ⟨0x400074, 0x0, 0x1f, 0x0, 0x0, 0x1f, 0x0⟩ /- FAULT -/]

/-- The registers of block CONT (R365, R512). -/
def regsCONT : List RegDesc := [
  ⟨0x410000, 0x0, 0x0, 0x0, 0x0, 0xffffffff, 0x140a3204⟩ /- ID -/,
  ⟨0x410004, 0x0, 0x0, 0x0, 0x0, 0x1ff, 0x0⟩ /- STATUS -/,
  ⟨0x410008, 0x0, 0x0, 0x0, 0x0, 0xffffffff, 0x0⟩ /- LEASE -/,
  ⟨0x41000c, 0x0, 0x0, 0x0, 0x0, 0xffffffff, 0x0⟩ /- RENEWALS -/,
  ⟨0x410010, 0x0, 0x0, 0x0, 0x0, 0xffffffff, 0x0⟩ /- TWIN_LEASE -/,
  ⟨0x410014, 0x5, 0x0, 0xa, 0x0, 0xf, 0x0⟩ /- CTRL -/,
  ⟨0x410018, 0xffffffff, 0x0, 0x0, 0x0, 0xffffffff, 0x3c0064⟩ /- HB -/,
  ⟨0x41001c, 0x0, 0x0, 0x0, 0x0, 0xffffffff, 0x0⟩ /- INDEX_LO -/,
  ⟨0x410020, 0x0, 0x0, 0x0, 0x0, 0xffffffff, 0x0⟩ /- INDEX_HI -/,
  ⟨0x410024, 0x0, 0x0, 0x0, 0x0, 0x1ffff, 0x0⟩ /- JOURNAL_USED -/,
  ⟨0x410028, 0x0, 0x0, 0x0, 0x0, 0xffffffff, 0x0⟩ /- EPOCH_LO -/,
  ⟨0x41002c, 0x0, 0x0, 0x0, 0x0, 0xffffffff, 0x0⟩ /- EPOCH_HI -/,
  ⟨0x410030, 0x0, 0x0, 0x0, 0x0, 0x1, 0x0⟩ /- STAGED -/,
  ⟨0x410034, 0x0, 0x0, 0x0, 0x0, 0xffffffff, 0x0⟩ /- TAKEOVERS -/,
  ⟨0x410038, 0x0, 0x0, 0x0, 0x0, 0xffffffff, 0x0⟩ /- REPLAYS -/,
  ⟨0x41003c, 0x0, 0x0, 0x0, 0x0, 0xffffffff, 0x0⟩ /- TWIN_LOSSES -/,
  ⟨0x410040, 0x0, 0x3f, 0x0, 0x0, 0x3f, 0x0⟩ /- FAULT -/,
  ⟨0x410050, 0x0, 0x0, 0x0, 0x0, 0xffffffff, 0x0⟩ /- DIGEST0 -/,
  ⟨0x410054, 0x0, 0x0, 0x0, 0x0, 0xffffffff, 0x0⟩ /- DIGEST1 -/,
  ⟨0x410058, 0x0, 0x0, 0x0, 0x0, 0xffffffff, 0x0⟩ /- DIGEST2 -/,
  ⟨0x41005c, 0x0, 0x0, 0x0, 0x0, 0xffffffff, 0x0⟩ /- DIGEST3 -/,
  ⟨0x410060, 0x0, 0x0, 0x0, 0x0, 0xffffffff, 0x0⟩ /- DIGEST4 -/,
  ⟨0x410064, 0x0, 0x0, 0x0, 0x0, 0xffffffff, 0x0⟩ /- DIGEST5 -/,
  ⟨0x410068, 0x0, 0x0, 0x0, 0x0, 0xffffffff, 0x0⟩ /- DIGEST6 -/,
  ⟨0x41006c, 0x0, 0x0, 0x0, 0x0, 0xffffffff, 0x0⟩ /- DIGEST7 -/,
  ⟨0x410070, 0x0, 0x0, 0x0, 0x0, 0xffffffff, 0x0⟩ /- DIGEST8 -/,
  ⟨0x410074, 0x0, 0x0, 0x0, 0x0, 0xffffffff, 0x0⟩ /- DIGEST9 -/,
  ⟨0x410078, 0x0, 0x0, 0x0, 0x0, 0xffffffff, 0x0⟩ /- DIGEST10 -/,
  ⟨0x41007c, 0x0, 0x0, 0x0, 0x0, 0xffffffff, 0x0⟩ /- DIGEST11 -/]

/-- The registers of block SEC (R391, R512). -/
def regsSEC : List RegDesc := [
  ⟨0x500000, 0x0, 0x0, 0x0, 0x0, 0xffffff, 0x10188⟩ /- ID -/,
  ⟨0x500004, 0x0, 0x0, 0x0, 0x1, 0x1, 0x0⟩ /- LOCK -/,
  ⟨0x500008, 0x0, 0x0, 0x0, 0x3, 0x7, 0x0⟩ /- DEBUG -/,
  ⟨0x50000c, 0x0, 0x0, 0x0, 0x0, 0x1f, 0x10⟩ /- OWNER -/,
  ⟨0x500010, 0x0, 0x0, 0x0, 0x0, 0xffff, 0x0⟩ /- SECVER -/,
  ⟨0x500014, 0x0, 0x0, 0x0, 0x0, 0xffffffff, 0x0⟩ /- SWITCH_LO -/,
  ⟨0x500018, 0x0, 0x0, 0x0, 0x0, 0xffffffff, 0x0⟩ /- SWITCH_HI -/,
  ⟨0x50001c, 0x0, 0x0, 0x0, 0x0, 0xffffffff, 0x0⟩ /- BOOTS_LO -/,
  ⟨0x500020, 0x0, 0x0, 0x0, 0x0, 0xffffffff, 0x0⟩ /- BOOTS_HI -/,
  ⟨0x500024, 0x0, 0x0, 0x0, 0x0, 0xff, 0x0⟩ /- KEYS -/,
  ⟨0x500028, 0x0, 0x2, 0x0, 0x0, 0x3, 0x0⟩ /- TRNG -/,
  ⟨0x50002c, 0x0, 0x0, 0x0, 0x0, 0x3, 0x0⟩ /- CART -/,
  ⟨0x500030, 0x0, 0x7, 0x0, 0x0, 0x7, 0x0⟩ /- FAULT -/]

/-- The registers of block FWU (R409, R512). -/
def regsFWU : List RegDesc := [
  ⟨0x510000, 0x0, 0x0, 0x0, 0x0, 0xffffff0f, 0x1024006⟩ /- ID -/,
  ⟨0x510004, 0x0, 0x0, 0x0, 0x0, 0xffff00ff, 0x0⟩ /- STATE -/,
  ⟨0x510008, 0xffff, 0x0, 0x0, 0x0, 0xffff, 0x3c⟩ /- CFG -/,
  ⟨0x51000c, 0x0, 0x0, 0x0, 0x0, 0xffffffff, 0x0⟩ /- RECV_LO -/,
  ⟨0x510010, 0x0, 0x0, 0x0, 0x0, 0xffffffff, 0x0⟩ /- RECV_HI -/,
  ⟨0x510014, 0x7, 0x0, 0x0, 0x0, 0x7, 0x1⟩ /- VSEL -/,
  ⟨0x510018, 0x0, 0x0, 0x0, 0x0, 0xffffffff, 0x0⟩ /- RUNNING -/,
  ⟨0x51001c, 0x0, 0x0, 0x0, 0x0, 0xffffffff, 0x0⟩ /- STAGED -/,
  ⟨0x510020, 0x0, 0x0, 0x0, 0x0, 0xffffffff, 0x0⟩ /- TRIAL -/,
  ⟨0x510024, 0x0, 0x0, 0x0, 0x0, 0xffffffff, 0x0⟩ /- COUNTS -/,
  ⟨0x510028, 0x0, 0x1f, 0x0, 0x0, 0x1f, 0x0⟩ /- FAULT -/]

/-- The registers of the block whose base is `base` (address bits [31:16]). -/
def regsOfBlock (block : Nat) : List RegDesc :=
  match block with
  | 0x0 => regsSYS
  | 0x1 => regsCLK
  | 0x2 => regsPWR
  | 0x3 => regsTHM
  | 0x4 => regsBIST
  | 0x10 => regsARR
  | 0x11 => regsFEED
  | 0x12 => regsTRIM
  | 0x13 => regsLATH
  | 0x20 => regsMEM
  | 0x21 => regsXLT
  | 0x22 => regsBANK
  | 0x30 => regsSRV
  | 0x31 => regsATT
  | 0x32 => regsVID
  | 0x40 => regsNET
  | 0x41 => regsCONT
  | 0x50 => regsSEC
  | 0x51 => regsFWU
  | _ => []

/-- Is there a block at this address (R494)? -/
def blockMapped (addr : Nat) : Bool := !(regsOfBlock (addr / 65536)).isEmpty

/-- The descriptor of a register address. -/
def regDesc (addr : Nat) : Option RegDesc := (regsOfBlock (addr / 65536)).find? (fun d => d.addr = addr)

/-- The reset value of a register. -/
def regReset (addr : Nat) : Word :=
  match regDesc addr with
  | some d => BitVec.ofNat 32 d.reset
  | none => 0

/-- The stored registers: by register address plus 2^32 times the selector of a banked copy; a register that is not
listed holds its reset value, and none is listed at its reset value. -/
abbrev Regs := Dict Word

/-- The key of a stored register copy. -/
def regKey (addr sel : Nat) : Nat := addr + 4294967296 * sel

/-- A stored register's word. -/
def Regs.word (r : Regs) (addr sel : Nat) : Word := (Dict.fetch r (regKey addr sel)).getD (regReset addr)

/-- Store a register's word, keeping the canonical form. -/
def Regs.setWord (r : Regs) (addr sel : Nat) (v : Word) : Regs :=
  if v = regReset addr then Dict.remove r (regKey addr sel) else Dict.store r (regKey addr sel) v

/-- A field's value in a word. -/
def Field.of (f : Field) (w : Word) : Nat := natBits w.toNat f.lo f.width

/-- A field's mask. -/
def Field.mask (f : Field) : Word := BitVec.ofNat 32 ((2 ^ f.width - 1) * 2 ^ f.lo)

/-- A word with one field changed. -/
def Field.put (f : Field) (w : Word) (v : Nat) : Word :=
  (w &&& ~~~f.mask) ||| BitVec.ofNat 32 (v % 2 ^ f.width * 2 ^ f.lo)

/-- A field's value in the stored registers. -/
def Regs.get (r : Regs) (f : Field) (sel : Nat := 0) : Nat := f.of (Regs.word r f.addr sel)

/-- Change a field in the stored registers. -/
def Regs.set (r : Regs) (f : Field) (v : Nat) (sel : Nat := 0) : Regs :=
  Regs.setWord r f.addr sel (f.put (Regs.word r f.addr sel) v)

-- Fields of block SYS.
def Fld.SYS_ID_GEN : Field := ⟨0x0, 0, 8⟩
def Fld.SYS_ID_VARIANT : Field := ⟨0x0, 8, 8⟩
def Fld.SYS_ID_STEPPING : Field := ⟨0x0, 16, 8⟩
def Fld.SYS_ID_REVISION : Field := ⟨0x0, 24, 8⟩
def Fld.SYS_MAP_BLOCKS : Field := ⟨0x4, 0, 19⟩
def Fld.SYS_MAP_VERSION : Field := ⟨0x4, 24, 8⟩
def Fld.SYS_RESET_CAUSE : Field := ⟨0x8, 0, 4⟩
def Fld.SYS_RESET_PARTIAL : Field := ⟨0x8, 16, 16⟩
def Fld.SYS_MGMT_LAST_CODE : Field := ⟨0xc, 0, 16⟩
def Fld.SYS_MGMT_REFUSED : Field := ⟨0xc, 16, 16⟩
def Fld.SYS_GATE_FLASH : Field := ⟨0x10, 0, 1⟩
def Fld.SYS_GATE_SIDEBAND : Field := ⟨0x10, 1, 1⟩
def Fld.SYS_GATE_MEM : Field := ⟨0x10, 2, 1⟩
def Fld.SYS_GATE_PCIE : Field := ⟨0x10, 3, 1⟩
def Fld.SYS_GATE_VID : Field := ⟨0x10, 4, 1⟩
def Fld.SYS_GATE_PORT : Field := ⟨0x10, 5, 6⟩
def Fld.SYS_GATE_ARR : Field := ⟨0x10, 11, 1⟩
def Fld.SYS_GATE_FEED : Field := ⟨0x10, 12, 1⟩
def Fld.SYS_GATE_TRIM : Field := ⟨0x10, 13, 1⟩
def Fld.SYS_GATE_DEBUG : Field := ⟨0x10, 14, 1⟩
def Fld.SYS_GATE_LOCK : Field := ⟨0x10, 16, 16⟩
def Fld.SYS_J1_PS1 : Field := ⟨0x40, 0, 1⟩
def Fld.SYS_J1_PS2 : Field := ⟨0x40, 1, 1⟩
def Fld.SYS_J1_PS1_FAULT : Field := ⟨0x40, 2, 1⟩
def Fld.SYS_J1_PS2_FAULT : Field := ⟨0x40, 3, 1⟩
def Fld.SYS_J1_PWR_EN : Field := ⟨0x40, 4, 1⟩
def Fld.SYS_J1_THROTTLE : Field := ⟨0x40, 5, 1⟩
def Fld.SYS_J1_FAULT_OUT : Field := ⟨0x40, 6, 1⟩
def Fld.SYS_J1_TAMPER : Field := ⟨0x40, 7, 1⟩
def Fld.SYS_J1_DIPS : Field := ⟨0x40, 16, 16⟩
def Fld.SYS_STRAPS_SLOT : Field := ⟨0x44, 0, 8⟩
def Fld.SYS_STRAPS_LEADER : Field := ⟨0x44, 8, 1⟩
def Fld.SYS_STRAPS_PARITY_OK : Field := ⟨0x44, 9, 1⟩
def Fld.SYS_HOLDUP_READY : Field := ⟨0x48, 0, 1⟩
def Fld.SYS_HOLDUP_CHARGING : Field := ⟨0x48, 1, 1⟩
def Fld.SYS_HOLDUP_VOLTS : Field := ⟨0x48, 8, 8⟩
def Fld.SYS_CART_WRITTEN_GB : Field := ⟨0x4c, 0, 32⟩
def Fld.SYS_CART_LIFE_USED_PCT : Field := ⟨0x50, 0, 8⟩
def Fld.SYS_CART_LIFE_BASIS : Field := ⟨0x50, 8, 2⟩
def Fld.SYS_CART_LIFE_WARN : Field := ⟨0x50, 10, 1⟩
def Fld.SYS_CART_LIFE_EOL : Field := ⟨0x50, 11, 1⟩
def Fld.SYS_CART_LIFE_READ_ONLY : Field := ⟨0x50, 12, 1⟩
def Fld.SYS_CART_LIFE_CYCLES : Field := ⟨0x50, 16, 16⟩
def Fld.SYS_COUPLING_CYCLES : Field := ⟨0x54, 0, 16⟩
def Fld.SYS_COUPLING_WORN : Field := ⟨0x54, 16, 1⟩
def Fld.SYS_PANEL_IDENTIFY : Field := ⟨0x58, 0, 1⟩
-- Fields of block CLK.
def Fld.CLK_ID_PLLS : Field := ⟨0x10000, 0, 4⟩
def Fld.CLK_ID_OSCS : Field := ⟨0x10000, 4, 4⟩
def Fld.CLK_STATUS_XA_OK : Field := ⟨0x10004, 0, 1⟩
def Fld.CLK_STATUS_XB_OK : Field := ⟨0x10004, 1, 1⟩
def Fld.CLK_STATUS_XA_FAIL : Field := ⟨0x10004, 2, 1⟩
def Fld.CLK_STATUS_XB_FAIL : Field := ⟨0x10004, 3, 1⟩
def Fld.CLK_STATUS_LOCK : Field := ⟨0x10004, 4, 4⟩
def Fld.CLK_STATUS_OSC_FAIL : Field := ⟨0x10004, 8, 4⟩
def Fld.CLK_STATUS_FAST_SIDE : Field := ⟨0x10004, 12, 1⟩
def Fld.CLK_STATUS_SLOW_SIDE : Field := ⟨0x10004, 13, 1⟩
def Fld.CLK_TEMPO_COUNT_COUNT : Field := ⟨0x10008, 0, 32⟩
def Fld.CLK_TEMPO_PACED_COUNT : Field := ⟨0x1000c, 0, 32⟩
def Fld.CLK_MEAS_CFG_REF : Field := ⟨0x10010, 0, 4⟩
def Fld.CLK_MEAS_CFG_TARGET : Field := ⟨0x10010, 4, 4⟩
def Fld.CLK_MEAS_CFG_WINDOW : Field := ⟨0x10010, 8, 16⟩
def Fld.CLK_MEAS_CFG_START : Field := ⟨0x10010, 24, 1⟩
def Fld.CLK_MEAS_CFG_DONE : Field := ⟨0x10010, 25, 1⟩
def Fld.CLK_MEAS_COUNT_COUNT : Field := ⟨0x10014, 0, 32⟩
def Fld.CLK_SWITCHES_COUNT : Field := ⟨0x10018, 0, 32⟩
-- Fields of block PWR.
def Fld.PWR_ID_POINTS : Field := ⟨0x20000, 0, 4⟩
def Fld.PWR_ID_MAX_W : Field := ⟨0x20000, 4, 9⟩
def Fld.PWR_ID_MIN_CAP_W : Field := ⟨0x20000, 13, 9⟩
def Fld.PWR_STATUS_POINT : Field := ⟨0x20004, 0, 3⟩
def Fld.PWR_STATUS_TARGET : Field := ⟨0x20004, 3, 3⟩
def Fld.PWR_STATUS_STEPPING : Field := ⟨0x20004, 6, 1⟩
def Fld.PWR_STATUS_EMERG : Field := ⟨0x20004, 7, 1⟩
def Fld.PWR_STATUS_MANUAL_LIMITED : Field := ⟨0x20004, 8, 1⟩
def Fld.PWR_STATUS_CLAMPED : Field := ⟨0x20004, 9, 1⟩
def Fld.PWR_PACE_EFFECTIVE : Field := ⟨0x20008, 0, 7⟩
def Fld.PWR_PACE_CAP : Field := ⟨0x20008, 8, 7⟩
def Fld.PWR_PACE_THERMAL : Field := ⟨0x20008, 16, 7⟩
def Fld.PWR_PACE_EMERG : Field := ⟨0x20008, 24, 7⟩
def Fld.PWR_CAP_MW : Field := ⟨0x2000c, 0, 19⟩
def Fld.PWR_POWER_MW : Field := ⟨0x20010, 0, 19⟩
def Fld.PWR_MANUAL_EN : Field := ⟨0x20014, 0, 1⟩
def Fld.PWR_MANUAL_POINT : Field := ⟨0x20014, 1, 3⟩
def Fld.PWR_MANUAL_PACE : Field := ⟨0x20014, 4, 7⟩
def Fld.PWR_MANUAL_MV : Field := ⟨0x20014, 11, 10⟩
def Fld.PWR_OVERRUN_US : Field := ⟨0x20018, 0, 16⟩
def Fld.PWR_OVERRUN_EXCESS_W : Field := ⟨0x20018, 16, 16⟩
def Fld.PWR_COUNTS_CAPS : Field := ⟨0x2001c, 0, 16⟩
def Fld.PWR_COUNTS_EMERG : Field := ⟨0x2001c, 16, 16⟩
def Fld.PWR_FAULT_OVERRUN : Field := ⟨0x20020, 0, 1⟩
def Fld.PWR_FAULT_EMERG : Field := ⟨0x20020, 1, 1⟩
def Fld.PWR_FAULT_CAP_UNMET : Field := ⟨0x20020, 2, 1⟩
def Fld.PWR_FAULT_VREG : Field := ⟨0x20020, 3, 1⟩
-- Fields of block THM.
def Fld.THM_ID_HOTSPOTS : Field := ⟨0x30000, 0, 8⟩
def Fld.THM_ID_SENSORS : Field := ⟨0x30000, 8, 8⟩
def Fld.THM_ID_INTERVAL_US : Field := ⟨0x30000, 16, 8⟩
def Fld.THM_ID_HORIZON_MS : Field := ⟨0x30000, 24, 8⟩
def Fld.THM_STATUS_BAND : Field := ⟨0x30004, 0, 3⟩
def Fld.THM_STATUS_COOLANT : Field := ⟨0x30004, 3, 3⟩
def Fld.THM_STATUS_LIMIT : Field := ⟨0x30004, 6, 7⟩
def Fld.THM_STATUS_POINT : Field := ⟨0x30004, 13, 3⟩
def Fld.THM_STATUS_SUSPECT : Field := ⟨0x30004, 16, 1⟩
def Fld.THM_STATUS_FAULTED : Field := ⟨0x30004, 17, 1⟩
def Fld.THM_STATUS_BLIND : Field := ⟨0x30004, 18, 1⟩
def Fld.THM_STATUS_HALTED : Field := ⟨0x30004, 19, 1⟩
def Fld.THM_SEL_HS : Field := ⟨0x30008, 0, 5⟩
def Fld.THM_HS_AB_A : Field := ⟨0x3000c, 0, 16⟩
def Fld.THM_HS_AB_B : Field := ⟨0x3000c, 16, 16⟩
def Fld.THM_HS_USED_USED : Field := ⟨0x30010, 0, 16⟩
def Fld.THM_HS_USED_PRED : Field := ⟨0x30010, 16, 16⟩
def Fld.THM_HS_STATE_STATE : Field := ⟨0x30014, 0, 2⟩
def Fld.THM_HS_STATE_FAULT_A : Field := ⟨0x30014, 2, 1⟩
def Fld.THM_HS_STATE_FAULT_B : Field := ⟨0x30014, 3, 1⟩
def Fld.THM_HS_STATE_KIND : Field := ⟨0x30014, 4, 3⟩
def Fld.THM_HS_STATE_MAX : Field := ⟨0x30014, 16, 16⟩
def Fld.THM_LIMITS_WARM : Field := ⟨0x30018, 0, 8⟩
def Fld.THM_LIMITS_HOT : Field := ⟨0x30018, 8, 8⟩
def Fld.THM_LIMITS_CRIT : Field := ⟨0x30018, 16, 8⟩
def Fld.THM_LIMITS_TRIP : Field := ⟨0x30018, 24, 8⟩
def Fld.THM_DERATE_OFFSET : Field := ⟨0x3001c, 0, 4⟩
def Fld.THM_FLOW_FLOW : Field := ⟨0x30020, 0, 12⟩
def Fld.THM_FLOW_IMPLIED : Field := ⟨0x30020, 16, 12⟩
def Fld.THM_COOLANT_INLET : Field := ⟨0x30024, 0, 16⟩
def Fld.THM_COOLANT_OUTLET : Field := ⟨0x30024, 16, 16⟩
def Fld.THM_CAP_MW : Field := ⟨0x30028, 0, 19⟩
def Fld.THM_CTRL_FREEZE : Field := ⟨0x3002c, 0, 1⟩
def Fld.THM_CTRL_CLEAR : Field := ⟨0x3002c, 1, 1⟩
def Fld.THM_COUNTS_WARM : Field := ⟨0x30030, 0, 16⟩
def Fld.THM_COUNTS_CRIT : Field := ⟨0x30030, 16, 16⟩
def Fld.THM_FAULT_SENSOR : Field := ⟨0x30034, 0, 1⟩
def Fld.THM_FAULT_CRIT : Field := ⟨0x30034, 1, 1⟩
def Fld.THM_FAULT_FLOW_LOW : Field := ⟨0x30034, 2, 1⟩
def Fld.THM_FAULT_FLOW_HIGH : Field := ⟨0x30034, 3, 1⟩
def Fld.THM_FAULT_FLOW_SENSOR : Field := ⟨0x30034, 4, 1⟩
def Fld.THM_FAULT_STOP : Field := ⟨0x30034, 5, 1⟩
def Fld.THM_FAULT_INLET : Field := ⟨0x30034, 6, 1⟩
def Fld.THM_FAULT_AIRFLOW : Field := ⟨0x30034, 7, 1⟩
def Fld.THM_FAULT_HALT : Field := ⟨0x30034, 8, 1⟩
def Fld.THM_COEF_A_ALPHA : Field := ⟨0x30038, 0, 16⟩
def Fld.THM_COEF_A_BETA : Field := ⟨0x30038, 16, 16⟩
def Fld.THM_COEF_R_R : Field := ⟨0x3003c, 0, 16⟩
def Fld.THM_COEF_R_C0 : Field := ⟨0x3003c, 16, 8⟩
def Fld.THM_COEF_R_C1 : Field := ⟨0x3003c, 24, 8⟩
-- Fields of block BIST.
def Fld.BIST_ID_SLICES : Field := ⟨0x40000, 0, 8⟩
def Fld.BIST_ID_BUDGET_S : Field := ⟨0x40000, 8, 8⟩
def Fld.BIST_STATUS_DONE : Field := ⟨0x40004, 0, 1⟩
def Fld.BIST_STATUS_BUSY : Field := ⟨0x40004, 1, 1⟩
def Fld.BIST_STATUS_SLICE : Field := ⟨0x40004, 2, 4⟩
def Fld.BIST_STATUS_HALTED : Field := ⟨0x40004, 6, 1⟩
def Fld.BIST_BOOT_MS_MS : Field := ⟨0x40008, 0, 16⟩
def Fld.BIST_UNUSABLE_BLOCKS : Field := ⟨0x4000c, 0, 17⟩
def Fld.BIST_RUN_SLICE : Field := ⟨0x40020, 0, 4⟩
def Fld.BIST_RUN_UNIT : Field := ⟨0x40020, 4, 3⟩
def Fld.BIST_RUN_GO : Field := ⟨0x40020, 8, 1⟩
def Fld.BIST_RUN_RES_CODE : Field := ⟨0x40024, 0, 16⟩
def Fld.BIST_RUN_RES_DONE : Field := ⟨0x40024, 16, 1⟩
def Fld.BIST_RT_EN : Field := ⟨0x40028, 0, 1⟩
def Fld.BIST_RT_PIECES : Field := ⟨0x40028, 16, 16⟩
def Fld.BIST_SPARE_ROW_OK : Field := ⟨0x4002c, 0, 1⟩
def Fld.BIST_SPARE_COL_OK : Field := ⟨0x4002c, 1, 1⟩
def Fld.BIST_SPARE_SUB0_OK : Field := ⟨0x4002c, 2, 1⟩
def Fld.BIST_SPARE_SUB1_OK : Field := ⟨0x4002c, 3, 1⟩
def Fld.BIST_FAULT_SLICE : Field := ⟨0x40030, 0, 1⟩
def Fld.BIST_FAULT_OVERTIME : Field := ⟨0x40030, 1, 1⟩
def Fld.BIST_FAULT_RUNTIME : Field := ⟨0x40030, 2, 1⟩
def Fld.BIST_FAULT_RESTORE : Field := ⟨0x40030, 3, 1⟩
-- Fields of block ARR.
def Fld.ARR_GEOM_ROWS : Field := ⟨0x100000, 0, 12⟩
def Fld.ARR_GEOM_COLS : Field := ⟨0x100000, 12, 12⟩
def Fld.ARR_GEOM_SPARE_ROW_GROUPS : Field := ⟨0x100000, 24, 4⟩
def Fld.ARR_GEOM_SPARE_COL_GROUPS : Field := ⟨0x100000, 28, 4⟩
def Fld.ARR_ID_GEN : Field := ⟨0x100004, 0, 8⟩
def Fld.ARR_ID_GROUP : Field := ⟨0x100004, 8, 8⟩
def Fld.ARR_ID_ENTRIES : Field := ⟨0x100004, 16, 12⟩
def Fld.ARR_ID_BANKS : Field := ⟨0x100004, 28, 4⟩
def Fld.ARR_REMAP_ROW_GROUP : Field := ⟨0x100008, 0, 6⟩
def Fld.ARR_REMAP_COL_GROUP : Field := ⟨0x100008, 8, 6⟩
def Fld.ARR_REMAP_UNUSABLE : Field := ⟨0x100008, 16, 1⟩
def Fld.ARR_REMAP_RESIDUE_EN : Field := ⟨0x100008, 17, 1⟩
def Fld.ARR_STATUS_BUSY : Field := ⟨0x10000c, 0, 1⟩
def Fld.ARR_STATUS_BANK : Field := ⟨0x10000c, 1, 1⟩
def Fld.ARR_STATUS_DRAIN0 : Field := ⟨0x10000c, 2, 1⟩
def Fld.ARR_STATUS_DRAIN1 : Field := ⟨0x10000c, 3, 1⟩
def Fld.ARR_STATUS_HALF0 : Field := ⟨0x10000c, 4, 1⟩
def Fld.ARR_STATUS_HALF1 : Field := ⟨0x10000c, 5, 1⟩
def Fld.ARR_STATUS_SHADOW : Field := ⟨0x10000c, 6, 1⟩
def Fld.ARR_COAT_NOW_COAT : Field := ⟨0x100010, 0, 16⟩
def Fld.ARR_COAT_NOW_SLOT : Field := ⟨0x100010, 16, 4⟩
def Fld.ARR_FLAGS_FLAGS : Field := ⟨0x100014, 0, 6⟩
def Fld.ARR_FAULT_RESIDUE : Field := ⟨0x100018, 0, 1⟩
def Fld.ARR_FAULT_UNCORR : Field := ⟨0x100018, 1, 1⟩
def Fld.ARR_FAULT_WPARITY : Field := ⟨0x100018, 2, 1⟩
def Fld.ARR_FAULT_REPEAT : Field := ⟨0x100018, 3, 1⟩
def Fld.ARR_FAULT_LOC_ROW_GROUP : Field := ⟨0x10001c, 0, 6⟩
def Fld.ARR_FAULT_LOC_COL_GROUP : Field := ⟨0x10001c, 8, 6⟩
def Fld.ARR_FAULT_LOC_COAT : Field := ⟨0x10001c, 16, 16⟩
def Fld.ARR_ACC_CORR_COUNT : Field := ⟨0x100020, 0, 32⟩
def Fld.ARR_CTRL_FREEZE : Field := ⟨0x100024, 0, 1⟩
def Fld.ARR_CTRL_CLEAR : Field := ⟨0x100024, 1, 1⟩
def Fld.ARR_PASS_COUNT_COUNT : Field := ⟨0x100030, 0, 32⟩
def Fld.ARR_BUSY_LO_COUNT : Field := ⟨0x100034, 0, 32⟩
def Fld.ARR_BUSY_HI_COUNT : Field := ⟨0x100038, 0, 32⟩
def Fld.ARR_STALL_WEIGHT_COUNT : Field := ⟨0x10003c, 0, 32⟩
def Fld.ARR_STALL_FEED_COUNT : Field := ⟨0x100040, 0, 32⟩
def Fld.ARR_STALL_BANK_COUNT : Field := ⟨0x100044, 0, 32⟩
def Fld.ARR_STALL_DRAIN_COUNT : Field := ⟨0x100048, 0, 32⟩
def Fld.ARR_STALL_DEP_COUNT : Field := ⟨0x10004c, 0, 32⟩
-- Fields of block FEED.
def Fld.FEED_ID_GENERATORS : Field := ⟨0x110000, 0, 8⟩
def Fld.FEED_ID_WINDOW : Field := ⟨0x110000, 8, 8⟩
def Fld.FEED_ID_PROGRAMS : Field := ⟨0x110000, 16, 8⟩
def Fld.FEED_ID_CROP_MAX : Field := ⟨0x110000, 24, 8⟩
def Fld.FEED_LIMITS_MAX_BOXES : Field := ⟨0x110004, 0, 16⟩
def Fld.FEED_LIMITS_MAX_FILTER : Field := ⟨0x110004, 16, 8⟩
def Fld.FEED_STATUS_AG_BUSY : Field := ⟨0x110008, 0, 8⟩
def Fld.FEED_STATUS_CROP : Field := ⟨0x110008, 8, 1⟩
def Fld.FEED_STATUS_ARGMAX : Field := ⟨0x110008, 9, 1⟩
def Fld.FEED_STATUS_SET : Field := ⟨0x110008, 10, 1⟩
def Fld.FEED_FAULT_BANK_UNCORR : Field := ⟨0x11000c, 0, 1⟩
def Fld.FEED_FAULT_COUNT : Field := ⟨0x11000c, 1, 1⟩
def Fld.FEED_FAULT_LOC_GENERATOR : Field := ⟨0x110010, 0, 4⟩
def Fld.FEED_FAULT_LOC_BINDING : Field := ⟨0x110010, 8, 8⟩
def Fld.FEED_FAULT_LOC_COAT : Field := ⟨0x110010, 16, 16⟩
def Fld.FEED_CTRL_FREEZE : Field := ⟨0x110014, 0, 1⟩
def Fld.FEED_CTRL_CLEAR : Field := ⟨0x110014, 1, 1⟩
def Fld.FEED_ROWS_LO_COUNT : Field := ⟨0x110018, 0, 32⟩
def Fld.FEED_ROWS_HI_COUNT : Field := ⟨0x11001c, 0, 32⟩
def Fld.FEED_PAD_ROWS_COUNT : Field := ⟨0x110020, 0, 32⟩
def Fld.FEED_LOAD_LO_COUNT : Field := ⟨0x110024, 0, 32⟩
def Fld.FEED_LOAD_HI_COUNT : Field := ⟨0x110028, 0, 32⟩
def Fld.FEED_STALL_PROC_COUNT : Field := ⟨0x11002c, 0, 32⟩
def Fld.FEED_STALL_LOAD_COUNT : Field := ⟨0x110030, 0, 32⟩
def Fld.FEED_BOXES_COUNT : Field := ⟨0x110034, 0, 32⟩
-- Fields of block TRIM.
def Fld.TRIM_ID_CORES : Field := ⟨0x120000, 0, 8⟩
def Fld.TRIM_ID_VBYTES : Field := ⟨0x120000, 8, 8⟩
def Fld.TRIM_ID_PREDS : Field := ⟨0x120000, 16, 4⟩
def Fld.TRIM_ID_CREDITS : Field := ⟨0x120000, 20, 4⟩
def Fld.TRIM_ID_GEN : Field := ⟨0x120000, 24, 8⟩
def Fld.TRIM_STATUS_USABLE : Field := ⟨0x120004, 0, 7⟩
def Fld.TRIM_STATUS_UNUSABLE : Field := ⟨0x120004, 7, 1⟩
def Fld.TRIM_STATUS_SUBBANKS : Field := ⟨0x120004, 8, 2⟩
def Fld.TRIM_BUSY_LO_CORES : Field := ⟨0x120008, 0, 32⟩
def Fld.TRIM_BUSY_HI_CORES : Field := ⟨0x12000c, 0, 32⟩
def Fld.TRIM_DEAD_LO_CORES : Field := ⟨0x120010, 0, 32⟩
def Fld.TRIM_DEAD_HI_CORES : Field := ⟨0x120014, 0, 32⟩
def Fld.TRIM_FAULT_WINDOW : Field := ⟨0x120018, 0, 1⟩
def Fld.TRIM_FAULT_ALIGN : Field := ⟨0x120018, 1, 1⟩
def Fld.TRIM_FAULT_SYNC : Field := ⟨0x120018, 2, 1⟩
def Fld.TRIM_FAULT_DELIVERY : Field := ⟨0x120018, 3, 1⟩
def Fld.TRIM_FAULT_WATCHDOG : Field := ⟨0x120018, 4, 1⟩
def Fld.TRIM_FAULT_BANK : Field := ⟨0x120018, 5, 1⟩
def Fld.TRIM_FAULT_REPEAT : Field := ⟨0x120018, 6, 1⟩
def Fld.TRIM_FAULT_LOC_LOGICAL : Field := ⟨0x12001c, 0, 6⟩
def Fld.TRIM_FAULT_LOC_PHYSICAL : Field := ⟨0x12001c, 8, 6⟩
def Fld.TRIM_FAULT_LOC_COAT : Field := ⟨0x12001c, 16, 16⟩
def Fld.TRIM_FAULT_PC_PC : Field := ⟨0x120020, 0, 32⟩
def Fld.TRIM_CTRL_FREEZE : Field := ⟨0x120024, 0, 1⟩
def Fld.TRIM_CTRL_CLEAR : Field := ⟨0x120024, 1, 1⟩
def Fld.TRIM_INSTR_LO_COUNT : Field := ⟨0x120030, 0, 32⟩
def Fld.TRIM_INSTR_HI_COUNT : Field := ⟨0x120034, 0, 32⟩
def Fld.TRIM_STALL_MEM_COUNT : Field := ⟨0x120038, 0, 32⟩
def Fld.TRIM_STALL_CRED_COUNT : Field := ⟨0x12003c, 0, 32⟩
def Fld.TRIM_STALL_SYNC_COUNT : Field := ⟨0x120040, 0, 32⟩
def Fld.TRIM_KERNELS_COUNT : Field := ⟨0x120044, 0, 32⟩
-- Fields of block LATH.
def Fld.LATH_ID_MAJOR : Field := ⟨0x130000, 0, 8⟩
def Fld.LATH_ID_MINOR_MAX : Field := ⟨0x130000, 8, 8⟩
def Fld.LATH_ID_GEN : Field := ⟨0x130000, 16, 8⟩
def Fld.LATH_ID_SLOTS : Field := ⟨0x130000, 24, 5⟩
def Fld.LATH_LIMITS_COATS : Field := ⟨0x130004, 0, 13⟩
def Fld.LATH_LIMITS_BINDINGS : Field := ⟨0x130004, 16, 8⟩
def Fld.LATH_LIMITS_DEPS : Field := ⟨0x130004, 24, 4⟩
def Fld.LATH_LIMITS_KERNELS : Field := ⟨0x130004, 28, 4⟩
def Fld.LATH_SLOT_STATE_STATE : Field := ⟨0x130008, 0, 32⟩
def Fld.LATH_LOAD_SLOT : Field := ⟨0x13000c, 0, 4⟩
def Fld.LATH_LOAD_BUSY : Field := ⟨0x13000c, 4, 1⟩
def Fld.LATH_LOAD_STEP : Field := ⟨0x13000c, 5, 3⟩
def Fld.LATH_LOAD_RESULT : Field := ⟨0x13000c, 8, 16⟩
def Fld.LATH_ERR_LOC_SECTION : Field := ⟨0x130010, 0, 8⟩
def Fld.LATH_ERR_LOC_RECORD : Field := ⟨0x130010, 8, 24⟩
def Fld.LATH_ERR_OFFSET_OFFSET : Field := ⟨0x130014, 0, 32⟩
def Fld.LATH_DIGEST_SEL_SLOT : Field := ⟨0x130018, 0, 4⟩
def Fld.LATH_LOADS_COUNT : Field := ⟨0x130050, 0, 32⟩
def Fld.LATH_REJECTS_COUNT : Field := ⟨0x130054, 0, 32⟩
-- Fields of block MEM.
def Fld.MEM_ID_CHANNELS : Field := ⟨0x200000, 0, 8⟩
def Fld.MEM_ID_GROUPS : Field := ⟨0x200000, 8, 4⟩
def Fld.MEM_ID_DATA : Field := ⟨0x200000, 12, 4⟩
def Fld.MEM_ID_CHECK : Field := ⟨0x200000, 16, 4⟩
def Fld.MEM_ID_USABLE_GIB : Field := ⟨0x200000, 20, 12⟩
def Fld.MEM_STATUS_RATE : Field := ⟨0x200004, 0, 2⟩
def Fld.MEM_STATUS_TRAINED : Field := ⟨0x200004, 2, 1⟩
def Fld.MEM_STATUS_GROUPS : Field := ⟨0x200004, 8, 16⟩
def Fld.MEM_STATUS_OUT : Field := ⟨0x200004, 24, 1⟩
def Fld.MEM_CH_FAIL0_CH : Field := ⟨0x200008, 0, 32⟩
def Fld.MEM_CH_FAIL1_CH : Field := ⟨0x20000c, 0, 32⟩
def Fld.MEM_CH_FAIL2_CH : Field := ⟨0x200010, 0, 16⟩
def Fld.MEM_CTRL_FREEZE : Field := ⟨0x200014, 0, 1⟩
def Fld.MEM_CTRL_CLEAR : Field := ⟨0x200014, 1, 1⟩
def Fld.MEM_CTRL_CART_SPILL : Field := ⟨0x200014, 2, 1⟩
def Fld.MEM_CTRL_PATROL_EN : Field := ⟨0x200014, 3, 1⟩
def Fld.MEM_PATROL_HOURS : Field := ⟨0x200018, 0, 8⟩
def Fld.MEM_PATROL_PASSES : Field := ⟨0x200018, 8, 16⟩
def Fld.MEM_CE_THRESH_THRESH : Field := ⟨0x20001c, 0, 16⟩
def Fld.MEM_CE_SEL_CHANNEL : Field := ⟨0x200020, 0, 7⟩
def Fld.MEM_CE_COUNT_COUNT : Field := ⟨0x200024, 0, 32⟩
def Fld.MEM_UE_COUNT_COUNT : Field := ⟨0x200028, 0, 32⟩
def Fld.MEM_LAYOUT_SPILL_GIB : Field := ⟨0x20002c, 0, 5⟩
def Fld.MEM_LAYOUT_POOL_FIRST : Field := ⟨0x20002c, 8, 22⟩
def Fld.MEM_POOL_PAGES : Field := ⟨0x200030, 0, 23⟩
def Fld.MEM_FREE_CLEAR : Field := ⟨0x200034, 0, 23⟩
def Fld.MEM_KV_RESERVE_PAGES : Field := ⟨0x200038, 0, 23⟩
def Fld.MEM_READS_NOW : Field := ⟨0x20003c, 0, 15⟩
def Fld.MEM_READS_PEAK : Field := ⟨0x20003c, 16, 15⟩
def Fld.MEM_CART_PAGES_PAGES : Field := ⟨0x200040, 0, 23⟩
def Fld.MEM_CART_PAGES_EOL : Field := ⟨0x200040, 31, 1⟩
def Fld.MEM_FAULT_MARKED : Field := ⟨0x200044, 0, 1⟩
def Fld.MEM_FAULT_UE : Field := ⟨0x200044, 1, 1⟩
def Fld.MEM_FAULT_TRAIN : Field := ⟨0x200044, 2, 1⟩
def Fld.MEM_FAULT_OUT : Field := ⟨0x200044, 3, 1⟩
def Fld.MEM_FAULT_LOC_CHANNEL : Field := ⟨0x200048, 0, 7⟩
def Fld.MEM_FAULT_LOC_PAGE : Field := ⟨0x200048, 8, 22⟩
-- Fields of block XLT.
def Fld.XLT_ID_CACHE_LOG2 : Field := ⟨0x210000, 0, 5⟩
def Fld.XLT_ID_TABLE_LOG2 : Field := ⟨0x210000, 5, 5⟩
def Fld.XLT_ID_PAGE_LOG2 : Field := ⟨0x210000, 10, 5⟩
def Fld.XLT_ID_WAYS : Field := ⟨0x210000, 15, 5⟩
def Fld.XLT_OWNERS_SEQUENCES : Field := ⟨0x210004, 0, 13⟩
def Fld.XLT_OWNERS_SLOTS : Field := ⟨0x210004, 16, 5⟩
def Fld.XLT_OWNERS_WORKSPACES : Field := ⟨0x210004, 21, 5⟩
def Fld.XLT_DESC_SEL_OWNER : Field := ⟨0x210008, 0, 13⟩
def Fld.XLT_DESC_BASE_BASE : Field := ⟨0x21000c, 0, 22⟩
def Fld.XLT_DESC_LEN_LENGTH : Field := ⟨0x210010, 0, 23⟩
def Fld.XLT_DESC_FLAGS_KIND : Field := ⟨0x210014, 0, 8⟩
def Fld.XLT_DESC_FLAGS_READ_ONLY : Field := ⟨0x210014, 8, 1⟩
def Fld.XLT_DESC_FLAGS_SLOT : Field := ⟨0x210014, 16, 4⟩
def Fld.XLT_FREE_RUN_ENTRIES : Field := ⟨0x210018, 0, 23⟩
def Fld.XLT_CTRL_FREEZE : Field := ⟨0x21001c, 0, 1⟩
def Fld.XLT_CTRL_CLEAR : Field := ⟨0x21001c, 1, 1⟩
def Fld.XLT_HITS_LO_COUNT : Field := ⟨0x210020, 0, 32⟩
def Fld.XLT_HITS_HI_COUNT : Field := ⟨0x210024, 0, 32⟩
def Fld.XLT_MISSES_COUNT : Field := ⟨0x210028, 0, 32⟩
def Fld.XLT_MOVES_COUNT : Field := ⟨0x21002c, 0, 32⟩
def Fld.XLT_FAULT_RANGE : Field := ⟨0x210030, 0, 1⟩
def Fld.XLT_FAULT_INVALID : Field := ⟨0x210030, 1, 1⟩
def Fld.XLT_FAULT_WRITE : Field := ⟨0x210030, 2, 1⟩
def Fld.XLT_FAULT_UPDATE : Field := ⟨0x210030, 3, 1⟩
def Fld.XLT_FAULT_LOC_OWNER : Field := ⟨0x210034, 0, 13⟩
def Fld.XLT_FAULT_LOC_MASTER : Field := ⟨0x210034, 16, 7⟩
def Fld.XLT_FAULT_VPN_VPN : Field := ⟨0x210038, 0, 23⟩
-- Fields of block BANK.
def Fld.BANK_ID_MASTERS : Field := ⟨0x220000, 0, 8⟩
def Fld.BANK_ID_BANKS : Field := ⟨0x220000, 8, 8⟩
def Fld.BANK_ID_WINDOWS : Field := ⟨0x220000, 16, 4⟩
def Fld.BANK_SEL_MASTER : Field := ⟨0x220004, 0, 7⟩
def Fld.BANK_SEL_INDEX : Field := ⟨0x220004, 8, 3⟩
def Fld.BANK_ENV_CFG_BANK : Field := ⟨0x220008, 0, 8⟩
def Fld.BANK_ENV_CFG_READ : Field := ⟨0x220008, 8, 1⟩
def Fld.BANK_ENV_CFG_WRITE : Field := ⟨0x220008, 9, 1⟩
def Fld.BANK_ENV_CFG_VALID : Field := ⟨0x220008, 10, 1⟩
def Fld.BANK_ENV_CFG_LAST : Field := ⟨0x220008, 11, 8⟩
def Fld.BANK_ENV_BASE_UNIT : Field := ⟨0x22000c, 0, 18⟩
def Fld.BANK_ENV_LIMIT_UNIT : Field := ⟨0x220010, 0, 18⟩
def Fld.BANK_WIN_CFG_BANK : Field := ⟨0x220014, 0, 8⟩
def Fld.BANK_WIN_CFG_READ : Field := ⟨0x220014, 8, 1⟩
def Fld.BANK_WIN_CFG_WRITE : Field := ⟨0x220014, 9, 1⟩
def Fld.BANK_WIN_CFG_VALID : Field := ⟨0x220014, 10, 1⟩
def Fld.BANK_WIN_BASE_UNIT : Field := ⟨0x220018, 0, 18⟩
def Fld.BANK_WIN_LIMIT_UNIT : Field := ⟨0x22001c, 0, 18⟩
def Fld.BANK_CTRL_FREEZE : Field := ⟨0x220020, 0, 1⟩
def Fld.BANK_CTRL_CLEAR : Field := ⟨0x220020, 1, 1⟩
def Fld.BANK_CE_COUNT_COUNT : Field := ⟨0x220024, 0, 32⟩
def Fld.BANK_UE_COUNT_COUNT : Field := ⟨0x220028, 0, 32⟩
def Fld.BANK_COLLISIONS_COUNT : Field := ⟨0x22002c, 0, 32⟩
def Fld.BANK_DMA_WAIT_COUNT : Field := ⟨0x220030, 0, 32⟩
def Fld.BANK_FAULT_UE : Field := ⟨0x220034, 0, 1⟩
def Fld.BANK_FAULT_WINDOW : Field := ⟨0x220034, 1, 1⟩
def Fld.BANK_FAULT_COLLISION : Field := ⟨0x220034, 2, 1⟩
def Fld.BANK_FAULT_LOC_MASTER : Field := ⟨0x220038, 0, 7⟩
def Fld.BANK_FAULT_LOC_BANK : Field := ⟨0x220038, 8, 8⟩
def Fld.BANK_FAULT_LOC_COAT : Field := ⟨0x220038, 16, 16⟩
def Fld.BANK_FAULT_ADDR_UNIT : Field := ⟨0x22003c, 0, 18⟩
def Fld.BANK_CLEARED_DONE : Field := ⟨0x220040, 0, 1⟩
-- Fields of block SRV.
def Fld.SRV_ID_SEQUENCES : Field := ⟨0x300000, 0, 13⟩
def Fld.SRV_ID_CUSTOMERS : Field := ⟨0x300000, 13, 11⟩
def Fld.SRV_ID_SLOTS : Field := ⟨0x300000, 24, 5⟩
def Fld.SRV_ID2_QUEUE : Field := ⟨0x300004, 0, 15⟩
def Fld.SRV_ID2_SESSIONS : Field := ⟨0x300004, 15, 15⟩
def Fld.SRV_MODE_FIXED : Field := ⟨0x300008, 0, 1⟩
def Fld.SRV_MODE_LEFT : Field := ⟨0x300008, 1, 1⟩
def Fld.SRV_MODE_CAUSE : Field := ⟨0x300008, 4, 4⟩
def Fld.SRV_HOLD_HOLD_US : Field := ⟨0x30000c, 0, 16⟩
def Fld.SRV_HOLD_GRID_US : Field := ⟨0x30000c, 16, 8⟩
def Fld.SRV_ALLOW_BLOCK : Field := ⟨0x300010, 0, 16⟩
def Fld.SRV_ALLOW_LOW : Field := ⟨0x300010, 16, 16⟩
def Fld.SRV_FRAME_SLOTS_M1 : Field := ⟨0x300014, 0, 6⟩
def Fld.SRV_FRAME_SLOT_US : Field := ⟨0x300014, 8, 16⟩
def Fld.SRV_GUARD_GUARD_US : Field := ⟨0x300018, 0, 16⟩
def Fld.SRV_GUARD_OP : Field := ⟨0x300018, 16, 3⟩
def Fld.SRV_FSEL_ENTRY : Field := ⟨0x30001c, 0, 6⟩
def Fld.SRV_FENTRY_CUSTOMER : Field := ⟨0x300020, 0, 10⟩
def Fld.SRV_FENTRY_VALID : Field := ⟨0x300020, 10, 1⟩
def Fld.SRV_CSEL_CUSTOMER : Field := ⟨0x300024, 0, 10⟩
def Fld.SRV_CBAL_LO_BAL : Field := ⟨0x300028, 0, 32⟩
def Fld.SRV_CBAL_HI_BAL : Field := ⟨0x30002c, 0, 16⟩
def Fld.SRV_CCFG_WEIGHT : Field := ⟨0x300030, 0, 8⟩
def Fld.SRV_CCFG_OPEN : Field := ⟨0x300030, 8, 1⟩
def Fld.SRV_CCFG_SEQUENCES : Field := ⟨0x300030, 9, 13⟩
def Fld.SRV_COUNT_LO_US : Field := ⟨0x300034, 0, 32⟩
def Fld.SRV_COUNT_HI_US : Field := ⟨0x300038, 0, 32⟩
def Fld.SRV_LIVE_SEQUENCES : Field := ⟨0x30003c, 0, 13⟩
def Fld.SRV_LIVE_QUEUED : Field := ⟨0x30003c, 16, 15⟩
def Fld.SRV_CTRL_FREEZE : Field := ⟨0x300040, 0, 1⟩
def Fld.SRV_CTRL_CLEAR : Field := ⟨0x300040, 1, 1⟩
def Fld.SRV_ADMITTED_COUNT : Field := ⟨0x300044, 0, 32⟩
def Fld.SRV_REFUSED_COUNT : Field := ⟨0x300048, 0, 32⟩
def Fld.SRV_BATCHES_COUNT : Field := ⟨0x30004c, 0, 32⟩
def Fld.SRV_PREEMPTS_COUNT : Field := ⟨0x300050, 0, 32⟩
def Fld.SRV_OVERRUN_COUNT : Field := ⟨0x300054, 0, 32⟩
def Fld.SRV_FAULT_OVERRUN : Field := ⟨0x300058, 0, 1⟩
def Fld.SRV_FAULT_REBUILD : Field := ⟨0x300058, 1, 1⟩
-- Fields of block ATT.
def Fld.ATT_STATE_STATE : Field := ⟨0x310000, 0, 8⟩
def Fld.ATT_STATE_BLOCKS : Field := ⟨0x310000, 8, 16⟩
def Fld.ATT_REPORTS_COUNT : Field := ⟨0x310004, 0, 32⟩
def Fld.ATT_HELD_COUNT : Field := ⟨0x310008, 0, 32⟩
def Fld.ATT_MSEL_SLOT : Field := ⟨0x31000c, 0, 3⟩
-- Fields of block VID.
def Fld.VID_ID_CONTEXTS : Field := ⟨0x320000, 0, 8⟩
def Fld.VID_ID_BUFFERS : Field := ⟨0x320000, 8, 8⟩
def Fld.VID_ID_DEC_PIPES : Field := ⟨0x320000, 16, 4⟩
def Fld.VID_ID_ENC_PIPES : Field := ⟨0x320000, 20, 4⟩
def Fld.VID_CAP_DEC_UNITS : Field := ⟨0x320004, 0, 8⟩
def Fld.VID_CAP_ENC_UNITS : Field := ⟨0x320004, 8, 8⟩
def Fld.VID_STATUS_DEC_BUSY : Field := ⟨0x320008, 0, 4⟩
def Fld.VID_STATUS_ENC_BUSY : Field := ⟨0x320008, 4, 1⟩
def Fld.VID_POOL_FREE : Field := ⟨0x32000c, 0, 10⟩
def Fld.VID_LOAD_DEC_SAMPLES : Field := ⟨0x320010, 0, 32⟩
def Fld.VID_LOAD_ENC_SAMPLES : Field := ⟨0x320014, 0, 32⟩
def Fld.VID_CSEL_CONTEXT : Field := ⟨0x320018, 0, 6⟩
def Fld.VID_CSTATE_STATE : Field := ⟨0x32001c, 0, 2⟩
def Fld.VID_CSTATE_HELD : Field := ⟨0x32001c, 2, 1⟩
def Fld.VID_CSTATE_UNITS : Field := ⟨0x32001c, 4, 10⟩
def Fld.VID_CSTATE_CODE : Field := ⟨0x32001c, 16, 16⟩
def Fld.VID_CFRAMES_COUNT : Field := ⟨0x320020, 0, 32⟩
def Fld.VID_CCONCEAL_COUNT : Field := ⟨0x320024, 0, 32⟩
def Fld.VID_CTRL_FREEZE : Field := ⟨0x320028, 0, 1⟩
def Fld.VID_CTRL_CLEAR : Field := ⟨0x320028, 1, 1⟩
def Fld.VID_FAULT_ECC : Field := ⟨0x32002c, 0, 1⟩
def Fld.VID_FAULT_WATCHDOG : Field := ⟨0x32002c, 1, 1⟩
def Fld.VID_FAULT_WINDOW : Field := ⟨0x32002c, 2, 1⟩
def Fld.VID_FAULT_LOC_CONTEXT : Field := ⟨0x320030, 0, 6⟩
def Fld.VID_FAULT_LOC_PICTURE : Field := ⟨0x320030, 8, 24⟩
-- Fields of block NET.
def Fld.NET_ID_PORTS : Field := ⟨0x400000, 0, 4⟩
def Fld.NET_ID_FRONT_ENDS : Field := ⟨0x400000, 4, 2⟩
def Fld.NET_ID_SESSIONS : Field := ⟨0x400000, 8, 15⟩
def Fld.NET_ID_MINOR : Field := ⟨0x400000, 23, 4⟩
def Fld.NET_ID_MAJOR : Field := ⟨0x400000, 27, 4⟩
def Fld.NET_CTRL_FREEZE : Field := ⟨0x400004, 0, 1⟩
def Fld.NET_CTRL_CLEAR : Field := ⟨0x400004, 1, 1⟩
def Fld.NET_CTRL_APPLY : Field := ⟨0x400004, 2, 1⟩
def Fld.NET_UDP_PORT : Field := ⟨0x400008, 0, 16⟩
def Fld.NET_WINDOW_DEFAULT_PAGES : Field := ⟨0x40000c, 0, 9⟩
def Fld.NET_WINDOW_MAX_PAGES : Field := ⟨0x40000c, 16, 9⟩
def Fld.NET_RTO_MIN_US : Field := ⟨0x400010, 0, 16⟩
def Fld.NET_RTO_MAX_US : Field := ⟨0x400010, 16, 16⟩
def Fld.NET_PROBE_PROBE_US : Field := ⟨0x400014, 0, 16⟩
def Fld.NET_PROBE_IDLE_S : Field := ⟨0x400014, 16, 16⟩
def Fld.NET_FE_A : Field := ⟨0x400018, 0, 2⟩
def Fld.NET_FE_B : Field := ⟨0x400018, 2, 2⟩
def Fld.NET_PSEL_PORT : Field := ⟨0x40001c, 0, 3⟩
def Fld.NET_PSTAT_LINK : Field := ⟨0x400020, 0, 1⟩
def Fld.NET_PSTAT_LEADER : Field := ⟨0x400020, 1, 1⟩
def Fld.NET_PSTAT_AN_DONE : Field := ⟨0x400020, 2, 1⟩
def Fld.NET_PSTAT_MACSEC : Field := ⟨0x400020, 3, 1⟩
def Fld.NET_PCFG_VLAN : Field := ⟨0x400024, 0, 12⟩
def Fld.NET_PCFG_PRIO_CTRL : Field := ⟨0x400024, 12, 3⟩
def Fld.NET_PCFG_PRIO_DATA : Field := ⟨0x400024, 15, 3⟩
def Fld.NET_PCFG_AN : Field := ⟨0x400024, 18, 1⟩
def Fld.NET_PCFG_MACSEC : Field := ⟨0x400024, 19, 1⟩
def Fld.NET_PCFG_XPN : Field := ⟨0x400024, 20, 1⟩
def Fld.NET_PCFG_V4 : Field := ⟨0x400024, 21, 1⟩
def Fld.NET_PCFG_V6 : Field := ⟨0x400024, 22, 1⟩
def Fld.NET_IPV4_ADDR : Field := ⟨0x400028, 0, 32⟩
def Fld.NET_IPV4_CFG_PREFIX : Field := ⟨0x40002c, 0, 6⟩
def Fld.NET_GW4_ADDR : Field := ⟨0x400030, 0, 32⟩
def Fld.NET_IPV6_CFG_PREFIX : Field := ⟨0x400044, 0, 8⟩
def Fld.NET_MAC_LO_MAC : Field := ⟨0x400048, 0, 32⟩
def Fld.NET_MAC_HI_MAC : Field := ⟨0x40004c, 0, 16⟩
def Fld.NET_RX_FRAMES_COUNT : Field := ⟨0x400050, 0, 32⟩
def Fld.NET_TX_FRAMES_COUNT : Field := ⟨0x400054, 0, 32⟩
def Fld.NET_RETX_COUNT : Field := ⟨0x400058, 0, 32⟩
def Fld.NET_DUP_MSG_COUNT : Field := ⟨0x40005c, 0, 32⟩
def Fld.NET_AUTH_FAIL_COUNT : Field := ⟨0x400060, 0, 32⟩
def Fld.NET_LEN_ERR_COUNT : Field := ⟨0x400064, 0, 32⟩
def Fld.NET_CREDIT_VIOL_COUNT : Field := ⟨0x400068, 0, 32⟩
def Fld.NET_PATH_DOWN_COUNT : Field := ⟨0x40006c, 0, 32⟩
def Fld.NET_SESSIONS_OPEN : Field := ⟨0x400070, 0, 15⟩
def Fld.NET_SESSIONS_DEGRADED : Field := ⟨0x400070, 16, 15⟩
def Fld.NET_FAULT_FE_A : Field := ⟨0x400074, 0, 1⟩
def Fld.NET_FAULT_FE_B : Field := ⟨0x400074, 1, 1⟩
def Fld.NET_FAULT_LINK : Field := ⟨0x400074, 2, 1⟩
def Fld.NET_FAULT_AUTH : Field := ⟨0x400074, 3, 1⟩
def Fld.NET_FAULT_MACSEC : Field := ⟨0x400074, 4, 1⟩
-- Fields of block CONT.
def Fld.CONT_ID_JOURNAL_GIB : Field := ⟨0x410000, 0, 8⟩
def Fld.CONT_ID_LEASE_MS : Field := ⟨0x410000, 8, 8⟩
def Fld.CONT_ID_RENEW_MS : Field := ⟨0x410000, 16, 8⟩
def Fld.CONT_ID_GUARD_MS : Field := ⟨0x410000, 24, 8⟩
def Fld.CONT_STATUS_ACTIVE : Field := ⟨0x410004, 0, 1⟩
def Fld.CONT_STATUS_STANDBY : Field := ⟨0x410004, 1, 2⟩
def Fld.CONT_STATUS_TWIN : Field := ⟨0x410004, 3, 3⟩
def Fld.CONT_STATUS_FULL : Field := ⟨0x410004, 6, 1⟩
def Fld.CONT_STATUS_PULL : Field := ⟨0x410004, 7, 1⟩
def Fld.CONT_STATUS_RESTORED : Field := ⟨0x410004, 8, 1⟩
def Fld.CONT_LEASE_EPOCH : Field := ⟨0x410008, 0, 32⟩
def Fld.CONT_RENEWALS_COUNT : Field := ⟨0x41000c, 0, 32⟩
def Fld.CONT_TWIN_LEASE_EPOCH : Field := ⟨0x410010, 0, 32⟩
def Fld.CONT_CTRL_PREFER : Field := ⟨0x410014, 0, 1⟩
def Fld.CONT_CTRL_HANDOVER : Field := ⟨0x410014, 1, 1⟩
def Fld.CONT_CTRL_FREEZE : Field := ⟨0x410014, 2, 1⟩
def Fld.CONT_CTRL_CLEAR : Field := ⟨0x410014, 3, 1⟩
def Fld.CONT_HB_PERIOD_MS : Field := ⟨0x410018, 0, 16⟩
def Fld.CONT_HB_FLUSH_S : Field := ⟨0x410018, 16, 16⟩
def Fld.CONT_INDEX_LO_INDEX : Field := ⟨0x41001c, 0, 32⟩
def Fld.CONT_INDEX_HI_INDEX : Field := ⟨0x410020, 0, 32⟩
def Fld.CONT_JOURNAL_USED_PAGES : Field := ⟨0x410024, 0, 17⟩
def Fld.CONT_EPOCH_LO_EPOCH : Field := ⟨0x410028, 0, 32⟩
def Fld.CONT_EPOCH_HI_EPOCH : Field := ⟨0x41002c, 0, 32⟩
def Fld.CONT_STAGED_VALID : Field := ⟨0x410030, 0, 1⟩
def Fld.CONT_TAKEOVERS_COUNT : Field := ⟨0x410034, 0, 32⟩
def Fld.CONT_REPLAYS_COUNT : Field := ⟨0x410038, 0, 32⟩
def Fld.CONT_TWIN_LOSSES_COUNT : Field := ⟨0x41003c, 0, 32⟩
def Fld.CONT_FAULT_TAKEOVER : Field := ⟨0x410040, 0, 1⟩
def Fld.CONT_FAULT_TWIN_LOST : Field := ⟨0x410040, 1, 1⟩
def Fld.CONT_FAULT_JOURNAL_FULL : Field := ⟨0x410040, 2, 1⟩
def Fld.CONT_FAULT_PULL : Field := ⟨0x410040, 3, 1⟩
def Fld.CONT_FAULT_FLUSH : Field := ⟨0x410040, 4, 1⟩
def Fld.CONT_FAULT_CONFIG : Field := ⟨0x410040, 5, 1⟩
-- Fields of block SEC.
def Fld.SEC_ID_KEY_SLOTS : Field := ⟨0x500000, 0, 4⟩
def Fld.SEC_ID_OWNER_SLOTS : Field := ⟨0x500000, 4, 4⟩
def Fld.SEC_ID_CURVE : Field := ⟨0x500000, 8, 8⟩
def Fld.SEC_ID_GEN : Field := ⟨0x500000, 16, 8⟩
def Fld.SEC_LOCK_DONE : Field := ⟨0x500004, 0, 1⟩
def Fld.SEC_DEBUG_LEVEL : Field := ⟨0x500008, 0, 2⟩
def Fld.SEC_DEBUG_EVER : Field := ⟨0x500008, 2, 1⟩
def Fld.SEC_OWNER_USED : Field := ⟨0x50000c, 0, 4⟩
def Fld.SEC_OWNER_EMPTY_TENANT : Field := ⟨0x50000c, 4, 1⟩
def Fld.SEC_SECVER_VERSION : Field := ⟨0x500010, 0, 16⟩
def Fld.SEC_SWITCH_LO_NUM : Field := ⟨0x500014, 0, 32⟩
def Fld.SEC_SWITCH_HI_NUM : Field := ⟨0x500018, 0, 32⟩
def Fld.SEC_BOOTS_LO_NUM : Field := ⟨0x50001c, 0, 32⟩
def Fld.SEC_BOOTS_HI_NUM : Field := ⟨0x500020, 0, 32⟩
def Fld.SEC_KEYS_VALID : Field := ⟨0x500024, 0, 8⟩
def Fld.SEC_TRNG_HEALTH_OK : Field := ⟨0x500028, 0, 1⟩
def Fld.SEC_TRNG_FAIL : Field := ⟨0x500028, 1, 1⟩
def Fld.SEC_CART_STATE : Field := ⟨0x50002c, 0, 2⟩
def Fld.SEC_FAULT_SIGNATURE : Field := ⟨0x500030, 0, 1⟩
def Fld.SEC_FAULT_DEBUG : Field := ⟨0x500030, 1, 1⟩
def Fld.SEC_FAULT_FLASH : Field := ⟨0x500030, 2, 1⟩
-- Fields of block FWU.
def Fld.FWU_ID_COMPONENTS : Field := ⟨0x510000, 0, 4⟩
def Fld.FWU_ID_MAX_MIB : Field := ⟨0x510000, 8, 8⟩
def Fld.FWU_ID_FW_MAJOR : Field := ⟨0x510000, 16, 8⟩
def Fld.FWU_ID_PKG_FORMAT : Field := ⟨0x510000, 24, 8⟩
def Fld.FWU_STATE_STATE : Field := ⟨0x510004, 0, 3⟩
def Fld.FWU_STATE_STEP : Field := ⟨0x510004, 3, 3⟩
def Fld.FWU_STATE_FELL_BACK : Field := ⟨0x510004, 6, 1⟩
def Fld.FWU_STATE_SETTINGS_RESET : Field := ⟨0x510004, 7, 1⟩
def Fld.FWU_STATE_RESULT : Field := ⟨0x510004, 16, 16⟩
def Fld.FWU_CFG_TRIAL_S : Field := ⟨0x510008, 0, 16⟩
def Fld.FWU_RECV_LO_BYTES : Field := ⟨0x51000c, 0, 32⟩
def Fld.FWU_RECV_HI_BYTES : Field := ⟨0x510010, 0, 32⟩
def Fld.FWU_VSEL_COMPONENT : Field := ⟨0x510014, 0, 3⟩
def Fld.FWU_RUNNING_VERSION : Field := ⟨0x510018, 0, 32⟩
def Fld.FWU_STAGED_VERSION : Field := ⟨0x51001c, 0, 32⟩
def Fld.FWU_TRIAL_MS : Field := ⟨0x510020, 0, 32⟩
def Fld.FWU_COUNTS_ACTIVATIONS : Field := ⟨0x510024, 0, 16⟩
def Fld.FWU_COUNTS_FALLBACKS : Field := ⟨0x510024, 16, 16⟩
def Fld.FWU_FAULT_SIGNATURE : Field := ⟨0x510028, 0, 1⟩
def Fld.FWU_FAULT_BINDING : Field := ⟨0x510028, 1, 1⟩
def Fld.FWU_FAULT_COMPAT : Field := ⟨0x510028, 2, 1⟩
def Fld.FWU_FAULT_FLASH : Field := ⟨0x510028, 3, 1⟩
def Fld.FWU_FAULT_FALLBACK : Field := ⟨0x510028, 4, 1⟩

/-- BIST.RESULT byte of slice k: the result. -/
def Fld.BIST_RESULT (k : Nat) : Field := ⟨0x40010 + k / 4 * 4, k % 4 * 8 + 0, 2⟩
/-- BIST.RESULT byte of slice k: OVERTIME. -/
def Fld.BIST_OVERTIME (k : Nat) : Field := ⟨0x40010 + k / 4 * 4, k % 4 * 8 + 2, 1⟩
/-- TRIM.MAP byte of logical core k: CORE. -/
def Fld.TRIM_MAP_CORE (k : Nat) : Field := ⟨0x120080 + k / 4 * 4, k % 4 * 8 + 0, 6⟩
/-- TRIM.MAP byte of logical core k: SUBSEL. -/
def Fld.TRIM_MAP_SUBSEL (k : Nat) : Field := ⟨0x120080 + k / 4 * 4, k % 4 * 8 + 6, 1⟩
/-- TRIM.MAP byte of logical core k: SUBBANK. -/
def Fld.TRIM_MAP_SUBBANK (k : Nat) : Field := ⟨0x120080 + k / 4 * 4, k % 4 * 8 + 7, 1⟩
/-- LATH.DIGESTn. -/
def Fld.LATH_DIGEST (k : Nat) : Field := ⟨0x130020 + 4 * k, 0, 32⟩
/-- CONT.DIGESTn. -/
def Fld.CONT_DIGEST (k : Nat) : Field := ⟨0x410050 + 4 * k, 0, 32⟩
/-- ATT.MEASn. -/
def Fld.ATT_MEAS (k : Nat) : Field := ⟨0x310010 + 4 * k, 0, 32⟩
/-- ATT.TENANTn. -/
def Fld.ATT_TENANT (k : Nat) : Field := ⟨0x310040 + 4 * k, 0, 32⟩
/-- PWR.OPn.MV. -/
def Fld.PWR_OP_MV (k : Nat) : Field := ⟨0x20040 + 4 * k, 0, 10⟩
/-- PWR.OPn.RATE. -/
def Fld.PWR_OP_RATE (k : Nat) : Field := ⟨0x20040 + 4 * k, 10, 2⟩
/-- PWR.OPn.CEIL. -/
def Fld.PWR_OP_CEIL (k : Nat) : Field := ⟨0x20040 + 4 * k, 12, 7⟩
/-- PWR.MODELn.BASE_W. -/
def Fld.PWR_MODEL_BASE_W (k : Nat) : Field := ⟨0x20060 + 4 * k, 0, 9⟩
/-- PWR.MODELn.ARRAY_W. -/
def Fld.PWR_MODEL_ARRAY_W (k : Nat) : Field := ⟨0x20060 + 4 * k, 9, 8⟩
/-- FEED.AGn.COAT. -/
def Fld.FEED_AG_COAT (k : Nat) : Field := ⟨0x110040 + 4 * k, 0, 16⟩
/-- FEED.AGn.SLOT. -/
def Fld.FEED_AG_SLOT (k : Nat) : Field := ⟨0x110040 + 4 * k, 16, 4⟩
/-- FEED.AGn.PROGRAMS. -/
def Fld.FEED_AG_PROGRAMS (k : Nat) : Field := ⟨0x110040 + 4 * k, 20, 4⟩
/-- FEED.AGn.BUSY. -/
def Fld.FEED_AG_BUSY (k : Nat) : Field := ⟨0x110040 + 4 * k, 24, 1⟩
/-- NET.IPV6_n.ADDR. -/
def Fld.NET_IPV6_ADDR (k : Nat) : Field := ⟨0x400034 + 4 * k, 0, 32⟩

end Sys2Proof.Machine
end

