-- ==== Sys2Proof/Machine/State.lean ====
section
/-! DEFINITION. State.lean: the state of the module, its reset, and the reasons for which a step can stop. -/

namespace Sys2Proof.Machine

/-- The module's variant (R2). -/
inductive Variant where
  | w | a
  deriving DecidableEq, Repr

/-- The reasons for which a command stops the machine: none; every command of this manual has an effect it states. The one
constructor keeps the type inhabited and is raised by nobody: safe. -/
inductive Fault where
  /-- Raised by nobody. Safe. -/
  | stuck
  deriving DecidableEq, Repr

/-- The reasons for which a command has no meaning. -/
inductive Refusal where
  /-- Raised by Dispatch.lean for a command that is not modelled yet. Safe: nothing can be proved of it. -/
  | notModelled (mnemonic : String)
  deriving DecidableEq, Repr

/-- The state of the module. -/
structure State where
  /-- The commands that wait, first in, first out. -/
  pending : List Instr := []
  /-- The model's own: number of the next free value. -/
  free : Nat := 0
  variant : Variant := .w
  /-- The registers of the management space (R494, R512). -/
  regs : Regs := []
  net : NetState := {}
  cont : ContState := {}
  srv : SrvState := {}
  arr : ArrState := {}
  trim : TrimState := {}
  mem : MemState := {}
  vid : VidState := {}
  sec : SecState := {}
  fwu : FwuState := {}
  pwr : PwrState := {}
  thm : ThmState := {}
  boot : BootState := {}
  hw : HwState := {}
  deriving DecidableEq, Repr

/-- The state right after reset. -/
def State.reset : State := {}

end Sys2Proof.Machine
end

