-- ==== Sys2Proof/Machine/Ops.lean ====
section
/-! DEFINITION. Ops.lean: the named operations over registers, the journal, sessions and their messages that every meaning
uses. -/

namespace Sys2Proof.Machine

-- Registers.

/-- The value of a register field; `sel` names the copy of a banked register. -/
def State.rget (s : State) (f : Field) (sel : Nat := 0) : Nat := Regs.get s.regs f sel

/-- Set a register field, as hardware does. -/
def State.rset (s : State) (f : Field) (v : Nat) (sel : Nat := 0) : State := { s with regs := Regs.set s.regs f v sel }

/-- Is a one-bit field set? -/
def State.rbit (s : State) (f : Field) (sel : Nat := 0) : Bool := s.rget f sel == 1

/-- Set a one-bit field when a condition holds. -/
def State.rsetIf (s : State) (b : Bool) (f : Field) (v : Nat) (sel : Nat := 0) : State := if b then s.rset f v sel else s

/-- The FREEZE field of the block that an address lies in: while it is 1 the block's counters hold (R93, R113, R147, R212
to R214, R256, R302, R332, R365, R452). -/
def freezeField (block : Nat) : Option Field :=
  match block with
  | 0x10 => some Fld.ARR_CTRL_FREEZE
  | 0x11 => some Fld.FEED_CTRL_FREEZE
  | 0x12 => some Fld.TRIM_CTRL_FREEZE
  | 0x20 => some Fld.MEM_CTRL_FREEZE
  | 0x21 => some Fld.XLT_CTRL_FREEZE
  | 0x22 => some Fld.BANK_CTRL_FREEZE
  | 0x30 => some Fld.SRV_CTRL_FREEZE
  | 0x32 => some Fld.VID_CTRL_FREEZE
  | 0x40 => some Fld.NET_CTRL_FREEZE
  | 0x41 => some Fld.CONT_CTRL_FREEZE
  | 0x03 => some Fld.THM_CTRL_FREEZE
  | _ => none

/-- Are the counters of a field's block frozen? -/
def State.frozen (s : State) (f : Field) : Bool :=
  match freezeField (f.addr / 65536) with
  | some z => s.rbit z
  | none => false

/-- Add to a counter that wraps, unless its block is frozen. -/
def State.count (s : State) (f : Field) (n : Nat := 1) (sel : Nat := 0) : State :=
  if s.frozen f then s else s.rset f (wrapAdd f.width (s.rget f sel) n) sel

/-- Add to a counter that holds at its greatest value, unless its block is frozen. -/
def State.countHold (s : State) (f : Field) (n : Nat := 1) (sel : Nat := 0) : State :=
  if s.frozen f then s else s.rset f (holdAdd f.width (s.rget f sel) n) sel

/-- The 64-bit value of a pair of registers. -/
def State.rget64 (s : State) (lo hi : Field) : Nat := s.rget lo + 4294967296 * s.rget hi

/-- Set a pair of registers. -/
def State.rset64 (s : State) (lo hi : Field) (v : Nat) : State := (s.rset lo v).rset hi (v / 4294967296)

/-- Add to a 64-bit counter held in two registers. -/
def State.count64 (s : State) (lo hi : Field) (n : Nat) : State :=
  if s.frozen lo then s else s.rset64 lo hi (s.rget64 lo hi + n)

/-- The number of the next free value (log entry 4). -/
def State.draw (s : State) : Nat × State := (s.free, { s with free := s.free + 1 })

/-- THM.COEF_A and THM.COEF_R of a hot spot: calibrated at manufacture and locked (R441, R452). -/
def coefA (h : Nat) : Word := Config.thermalBeta h ++ Config.thermalAlpha h
def coefR (h : Nat) : Word := Config.thermalC1 h ++ Config.thermalC0 h ++ Config.thermalR h

-- The journal (R344 to R349).

/-- Is it a bound record (R345)? -/
def isBound : RecBody → Bool
  | .preempt _ | .complete _ _ _ | .tokens _ _ _ | .stop _ _ _ _ _ | .video _ _ | .checkpoint _ _ _ | .lease _ => false
  | _ => true

/-- The record type code (R345). -/
def recType : RecBody → Nat
  | .admitted .. => 0x01 | .refuse .. => 0x02 | .allow .. => 0x03 | .refund .. => 0x04 | .budget .. => 0x05 | .cancel .. => 0x06
  | .candidates .. => 0x07 | .session .. => 0x08 | .model .. => 0x09 | .config .. => 0x0A | .preempt .. => 0x0B
  | .complete .. => 0x0C | .tokens .. => 0x0D | .stop .. => 0x0E | .video .. => 0x0F | .checkpoint .. => 0x10
  | .lease .. => 0x11

/-- The bytes of a record's body: the contents that R345 lists, in its order (log entry 12: the packing is the model's). -/
def recBytes : RecBody → List Byte
  | .admitted d cu sl pr bu de al se pg =>
    d ++ leBytes 2 cu ++ leBytes 1 sl ++ leBytes 1 pr ++ leBytes 4 bu ++ leBytes 8 de ++ leBytes 8 al ++ leBytes 8 se ++
      leBytes 8 (pg.headD 0)
  | .refuse d c => d ++ leBytes 2 c.toNat
  | .allow q t => leBytes 4 q ++ leBytes 8 t
  | .refund a => leBytes 8 a
  | .budget cu b g o => leBytes 2 cu ++ leBytes 2 (if o then 1 else 0) ++ leBytes 8 b ++ leBytes 4 g
  | .cancel t => leBytes 4 t
  | .candidates b => b
  | .session e c => leBytes 1 (match e with | .opened => 1 | .path => 2 | .closed => 3) ++ leBytes 8 c
  | .model e sl d => leBytes 1 (match e with | .loadAdmitted => 1 | .loadCompleted => 2 | .unload => 3) ++ leBytes 1 sl ++ d
  | .config e d => leBytes 8 e ++ d
  | .preempt q => leBytes 4 q
  | .complete d f c => d ++ leBytes 2 f.toNat ++ leBytes 2 c.toNat
  | .tokens q st ts => leBytes 4 q ++ leBytes 4 st ++ (ts.map (leBytes 4)).flatten
  | .stop r n t f c => leBytes 4 r ++ leBytes 4 n ++ leBytes 4 t ++ leBytes 2 f.toNat ++ leBytes 2 c.toNat
  | .video c b => leBytes 4 c ++ b
  | .checkpoint sl d i => leBytes 4 sl ++ d ++ leBytes 8 i
  | .lease e => leBytes 4 e

/-- One bit of the CRC-32C register. -/
def crcStep (c : BitVec 32) : BitVec 32 := if c.getLsbD 0 then (c >>> 1) ^^^ 0x82F63B78 else c >>> 1

/-- CRC-32C of a byte string (R344). -/
def crc32c (p : List Byte) : Nat :=
  let c := p.foldl (fun c b =>
    crcStep (crcStep (crcStep (crcStep (crcStep (crcStep (crcStep (crcStep (c ^^^ b.setWidth 32))))))))) (0xFFFFFFFF : BitVec 32)
  (c ^^^ 0xFFFFFFFF).toNat

/-- A record's wire form: the header of R344 with its check, then the body. -/
def recordBytes (r : JRecord) : List Byte :=
  let body := recBytes r.body
  let head := leBytes 8 r.index ++ leBytes 1 (recType r.body) ++ leBytes 1 r.origin ++ leBytes 2 body.length ++
    leBytes 4 r.epoch ++ leBytes 4 r.session ++ leBytes 4 r.subject ++ leBytes 4 0
  head ++ leBytes 4 (crc32c (head ++ zeroBytes 4 ++ body)) ++ body

/-- The ring space of a record: header and body, aligned to 64 bytes (R344). -/
def recordSpace (b : RecBody) : Nat := roundUp (32 + (recBytes b).length) 64

/-- Bytes of the ring in use. -/
def State.journalUsed (s : State) : Nat := s.cont.journal.foldl (fun n r => n + recordSpace r.body) 0

/-- Would a record that is neither local nor a REFUND reach the last 64 MiB of the 4 GiB ring (R349)? -/
def State.journalFull (s : State) (extra : Nat) : Bool := decide (s.journalUsed + extra > 4227858432)

/-- The origin byte of a record this module writes (R344): bit 1 where the serving engine wrote it, else bit 0 where
supervisor B did. -/
def State.origin (s : State) (engine : Bool) : Nat :=
  if engine then 2 else if s.rbit Fld.CONT_STATUS_ACTIVE then 1 else 0

/-- Append a record to the journal: its index is the next one (R344). -/
def State.journal (s : State) (session subject : Nat) (body : RecBody) (engine : Bool := false) : State :=
  let r : JRecord := { index := s.cont.nextIndex, origin := s.origin engine, epoch := s.rget Fld.CONT_LEASE_EPOCH,
                       session := session, subject := subject, body := body }
  { s with cont := { s.cont with journal := s.cont.journal ++ [r], nextIndex := s.cont.nextIndex + 1 } }

/-- The index of the record appended last. -/
def State.lastIndex (s : State) : Nat := s.cont.nextIndex - 1

/-- Does the module hold the twin lease, or stand alone (R339, R354)? -/
def State.boundHolder (s : State) : Bool := !(s.rget Fld.CONT_STATUS_TWIN == 2)

/-- Is one record durable (R346)? -/
def recDurable (c : ContState) (r : JRecord) : Bool :=
  r.written && (!isBound r.body || !c.twinHealthy || decide (r.index ≤ c.twinAck) || decide (128 ≤ r.origin))

/-- Is the record of an index durable? A record whose space was freed was durable. -/
def State.durable (s : State) (i : Nat) : Bool :=
  decide (i < s.cont.nextIndex) && (s.cont.journal.filter (·.index == i)).all (recDurable s.cont)

/-- The highest index up to which every record is durable (CONT.INDEX, R353). -/
def State.durableIndex (s : State) : Nat :=
  match s.cont.journal.find? (fun r => !recDurable s.cont r) with
  | some r => r.index - 1
  | none => s.cont.nextIndex - 1

-- Sessions and messages.

/-- The session of a number (R312: index in bits [13:0]). -/
def State.session (s : State) (n : Nat) : Option Session :=
  match Dict.fetch s.net.sessions (n % 16384) with
  | some x => if x.number = n then some x else none
  | none => none

/-- Store a session. -/
def State.putSession (s : State) (x : Session) : State :=
  { s with net := { s.net with sessions := Dict.store s.net.sessions (x.number % 16384) x } }

/-- Change a session, if it is open. -/
def State.onSession (s : State) (n : Nat) (f : Session → Session) : State :=
  match s.session n with
  | some x => s.putSession (f x)
  | none => s

/-- Queue a message that is ready but for its records (R347). -/
def State.pushMsg (s : State) (session : Nat) (msg : ModMsg) : State :=
  s.onSession session fun x => { x with ready := x.ready ++ [msg] }

/-- The number of the reply to partner message p (R320). -/
def replyNumber (p k : Nat) : Nat := p * 1048576 + k

/-- Reply to a partner message (R320, ordinal 0). -/
def State.reply (s : State) (m : Msg) (type : Nat) (code : Code) (payload : List Byte := []) (needs : List Nat := []) : State :=
  s.pushMsg m.session { number := replyNumber m.number 0, type := type, code := code, tag := m.tag, payload := payload,
                        needs := needs }

/-- Reply later to a message noted by its session, number and tag. -/
def State.replyTo (s : State) (r : ReplyTo) (type : Nat) (code : Code) (payload : List Byte := []) (needs : List Nat := []) :
    State :=
  s.pushMsg r.session { number := replyNumber r.number 0, type := type, code := code, tag := r.tag, payload := payload,
                        needs := needs }

/-- Send a message that answers no partner message: bit 63 and the session's counter (R321). -/
def State.pushOwn (s : State) (session type : Nat) (code : Code) (payload : List Byte := []) (needs : List Nat := []) : State :=
  match s.session session with
  | none => s
  | some x =>
    s.putSession { x with counter := x.counter + 1,
                          ready := x.ready ++ [{ number := 9223372036854775808 + x.counter, type := type, code := code,
                                                 payload := payload, needs := needs }] }

/-- Queue a RESULT, TOKENS or STOP: in shared mode with the grid on it waits for the grid (R243). -/
def State.pushGrid (s : State) (session : Nat) (msg : ModMsg) : State :=
  if s.rget Fld.SRV_HOLD_GRID_US = 0 ∨ s.rbit Fld.SRV_MODE_FIXED then s.pushMsg session msg
  else { s with srv := { s.srv with grid := s.srv.grid ++ [⟨session, msg⟩] } }

/-- The wire length of a partner message: header, payload and tag (R310). -/
def wireLength (m : Msg) : Nat := 32 + m.payload.length + 16

/-- A partner message is consumed (R325): its wire length joins the consumed count, and it leaves the inbox. -/
def State.consume (s : State) (m : Msg) : State :=
  let s1 := s.onSession m.session fun x => { x with rxConsumed := x.rxConsumed + wireLength m }
  let mine := fun (d : Delivered) => d.session == m.session && d.number == m.number
  let kept := if (s.session m.session).any (·.wantsProtected) then s1.net.inbox.filter mine else []
  { s1 with net := { s1.net with inbox := s1.net.inbox.filter fun d => !mine d, copies := s1.net.copies ++ kept } }

/-- The sessions of a role, by number. -/
def State.sessionsOfRole (s : State) (p : Nat → Bool) : List Nat :=
  (s.net.sessions.filter fun x => p x.2.role).map (·.2.number)

/-- Send a message that answers none on every session of a list. -/
def State.pushOwnAll (s : State) (l : List Nat) (type : Nat) (code : Code) (payload : List Byte) : State :=
  l.foldl (fun s n => s.pushOwn n type code payload) s

end Sys2Proof.Machine
end

