-- ==== Sys2Proof/Machine/Health.lean ====
section
/-! DEFINITION. Health.lean: the pool of pages, the health report and health events, and the conditions under which the
module may act. -/

namespace Sys2Proof.Machine

-- The page pool (R192, R193).

/-- The spill size S in GiB (R192). -/
def State.spillGib (s : State) : Nat := s.rget Fld.MEM_LAYOUT_SPILL_GIB
/-- The first pool page (R192). -/
def State.poolFirst (s : State) : Nat := (8 + s.spillGib) * 16384
/-- The number of pool pages of the layout (R192). -/
def State.poolLayout (s : State) : Nat := (248 - s.spillGib) * 16384

/-- The least `n` pages from `page` that no entry names, at most `fuel` pages further on. -/
def freePages (d : Dict PageState) (last : Nat) : Nat → Nat → Nat → List Nat
  | 0, _, _ => []
  | _, _, 0 => []
  | fuel + 1, page, n + 1 =>
    if last ≤ page then []
    else if Dict.has d page then freePages d last fuel (page + 1) (n + 1)
    else page :: freePages d last fuel (page + 1) n

/-- Take `n` clear pages from the pool: the lowest ones (log entry 7); none where fewer are clear. -/
def State.takePages (s : State) (n : Nat) : Option (List Nat × State) :=
  let last := s.poolFirst + s.poolLayout
  let l := if s.rbit Fld.MEM_STATUS_TRAINED then freePages s.mem.pool last (n + s.mem.pool.length) s.poolFirst n else []
  if l.length = n then
    some (l, { s with mem := { s.mem with pool := l.foldl (fun d p => Dict.store d p .owned) s.mem.pool } })
  else none

/-- A page returns to the pool: it awaits clearing (R193). A retired page stays retired (R201). -/
def poolFree (d : Dict PageState) (p : Nat) : Dict PageState :=
  match Dict.fetch d p with
  | some .owned => Dict.store d p .awaiting
  | _ => d

/-- Return pages to the pool. -/
def State.freePool (s : State) (l : List Nat) : State :=
  { s with mem := { s.mem with pool := l.foldl poolFree s.mem.pool } }

/-- Pool pages that are free and clear (MEM.FREE). -/
def State.clearCount (s : State) : Nat :=
  if s.rbit Fld.MEM_STATUS_TRAINED then s.poolLayout - s.mem.pool.length else 0

/-- Retired pool pages. -/
def State.retiredCount (s : State) : Nat := (s.mem.pool.filter fun x => x.2 == .retired).length

/-- Pool pages not owned and not retired. A page that the table no longer names has no owner. -/
def State.unownedCount (s : State) : Nat :=
  s.poolLayout - (s.mem.pool.filter fun x => x.2 != .awaiting && !(x.2 == .owned && s.mem.afterMarker.contains x.1)).length

/-- The bytes of a pool page range in physical memory. -/
def pageAddr (p : Nat) : Nat := p * 65536

/-- The bytes that a list of pages holds, `n` of them. -/
def State.pagesBytes (s : State) (l : List Nat) (n : Nat) : List Byte :=
  (l.map fun p => Memory.bytes s.mem.dram (pageAddr p) 65536).flatten.take n

/-- Write bytes from an offset into a list of pages. -/
def State.putPages (s : State) (l : List Nat) (off : Nat) (b : List Byte) : State :=
  let rec go (m : Memory) (o : Nat) : List Byte → Memory
    | [] => m
    | x :: xs => go (match l[o / 65536]? with
      | some p => Memory.put m (pageAddr p + o % 65536) x
      | none => m) (o + 1) xs
  { s with mem := { s.mem with dram := go s.mem.dram off b } }

-- Who may act.

/-- The twin states of CONT.STATUS.TWIN. -/
def State.twinState (s : State) : Nat := s.rget Fld.CONT_STATUS_TWIN

/-- May the supervisor that holds the lease take bound actions (R339, R340)? -/
def State.supActs (s : State) : Bool := s.cont.acting && !s.boot.down

/-- May this module take bound actions for protected sessions (R352, R354): it is no follower, joins nobody, and holds a twin
lease whose renewals are acknowledged. -/
def State.twinActs (s : State) : Bool :=
  (s.twinState != 2) && (s.twinState != 4) && (s.twinState != 1 || s.cont.twin.acting)

/-- May this module take a bound action that a protected session may depend on? -/
def State.mayAct (s : State) : Bool := s.supActs && s.twinActs

/-- May this module take a bound action for a session (R339, R352)? A follower takes those of its unprotected sessions. -/
def State.mayActFor (s : State) (n : Nat) : Bool := s.supActs && (s.twinActs || !(s.session n).any (·.wantsProtected))

-- Partner messages.

/-- Is the module unowned (R372)? -/
def State.unowned (s : State) : Bool := s.sec.fuses.isEmpty

/-- The messages that a role permits, besides SESSION_CLOSE and PATH_ADD (R373). -/
def roleTypes (role : Nat) : List Nat :=
  let user := [0x0100, 0x0101, 0x0102, 0x0103, 0x0200, 0x0201, 0x0202, 0x0302, 0x0600]
  let operator := user ++ [0x0120, 0x0121, 0x0130, 0x0131, 0x0300]
  match role with
  | 1 => user
  | 2 => operator
  | 3 => operator ++ [0x0301]
  | 4 => [0x0400, 0x0410, 0x0411, 0x0120, 0x0121, 0x0005, 0x0602, 0x0700, 0x0701, 0x0702, 0x0703, 0x0300, 0x0302, 0x0600]
  | 5 => [0x0500, 0x0501]
  | 6 => [0x0600, 0x0302]
  | _ => []

/-- Does a role permit a message (R373, R374)? -/
def State.roleAllows (s : State) (role type : Nat) : Bool :=
  type == 3 || type == 4 ||
    (if s.unowned && role == 4 then [0x0602, 0x0600, 0x0302].contains type else (roleTypes role).contains type)

/-- What every partner message goes through: its session is open, its role permits the message (R373, else E_ROLE), its
payload has the length this manual fixes (R516, else E_INPUT_SIZE); then its own rule; then it is consumed (R325). `more` is
a further condition on the session that its rule answers with E_ROLE; `refuse` is how the module answers a refusal. -/
def State.withMsg (s : State) (m : Msg) (type : Nat) (len : Option Nat) (body : State → Session → State)
    (more : Session → Bool := fun _ => true)
    (refuse : State → Session → Code → State := fun s _ c => s.reply m type c) : State :=
  match s.session m.session with
  | none => s
  | some x =>
    if x.closing then s
    else if !(s.roleAllows x.role type && more x) then (refuse s x Code.E_ROLE).consume m
    else if (len.getD m.payload.length) != m.payload.length then (refuse s x Code.E_INPUT_SIZE).consume m
    else (body s x).consume m

/-- A message of a protected session that only the holder of the twin lease answers (R352, R508): a follower or a joiner does not
answer it. -/
def State.leftToTwin (s : State) (m : Msg) : Bool :=
  s.supActs && (s.twinState == 2 || s.twinState == 4) && (s.session m.session).any (·.wantsProtected)

-- Views that several chapters read.

/-- Is the cartridge carrier, H22, in the Hot band or above, so that MODEL_LOAD and cartridge spill writes are refused (R444)? -/
def State.cartHot (s : State) : Bool := (s.thm.spots[22]?).any fun h => decide (2 ≤ h.band)

/-- The code of a slot state (R177). -/
def slotCode : SlotState → Nat
  | .empty => 0 | .loading => 1 | .ready => 2 | .unloading => 3

/-- A model slot; one that is not listed is EMPTY. -/
def State.slot (s : State) (k : Nat) : ModelSlot := (Dict.fetch s.srv.slots k).getD {}

/-- Store a model slot. -/
def State.putSlot (s : State) (k : Nat) (x : ModelSlot) : State :=
  { s with srv := { s.srv with slots := Dict.store s.srv.slots k x } }

/-- LATH.SLOT_STATE: two bits per slot (R177). -/
def State.slotWord (s : State) : Nat :=
  (List.range 16).foldl (fun n k => n + slotCode (s.slot k).state * 4 ^ k) 0

/-- The state byte of HEARTBEAT (R363). -/
def State.stateByte (s : State) : Nat :=
  s.rget Fld.CONT_STATUS_ACTIVE + 2 * (if s.rget Fld.CONT_STATUS_STANDBY = 1 then 1 else 0) + 4 * s.twinState +
    32 * s.rget Fld.CONT_STATUS_FULL

/-- The health byte (R363, R459). -/
def State.health (s : State) : Nat :=
  if s.rbit Fld.MEM_STATUS_OUT ∨ s.rbit Fld.ARR_REMAP_UNUSABLE then 2
  else if s.rget Fld.BIST_UNUSABLE_BLOCKS ≠ 0 ∨ s.rget Fld.MEM_CH_FAIL0_CH ≠ 0 ∨ s.rget Fld.MEM_CH_FAIL1_CH ≠ 0 ∨
      s.rget Fld.MEM_CH_FAIL2_CH ≠ 0 ∨ s.rget Fld.ARR_REMAP_ROW_GROUP ≠ 32 ∨ s.rget Fld.ARR_REMAP_COL_GROUP ≠ 32 then 1
  else 0

/-- The flags byte of the health report (R459). -/
def State.healthFlags (s : State) : Nat :=
  s.rget Fld.PWR_STATUS_CLAMPED + 2 * s.rget Fld.CONT_STATUS_RESTORED + 4 * (if s.boot.fixedLeft then 1 else 0) +
    8 * s.rget Fld.FWU_STATE_SETTINGS_RESET + 16 * (if s.twinState = 3 then 1 else 0)

/-- A one-bit register field as a number, per port, packed. -/
def State.linkByte (s : State) : Nat :=
  (List.range 6).foldl (fun n p =>
    n + (if s.rbit Fld.NET_PSTAT_LINK p ∧ (listAt {} s.net.ports p).oam = 0 then 2 ^ p else 0)) 0

/-- The slice results: byte i of slice i (R466). -/
def State.sliceBytes (s : State) : List Byte :=
  (List.range 16).map fun k => BitVec.ofNat 8 (s.rget (Fld.BIST_RESULT k) + 4 * s.rget (Fld.BIST_OVERTIME k))

/-- The variant's code, as SYS.ID.VARIANT and byte 1 of the health report show it (R2, R459, R511): ASCII W or A. -/
def State.variantCode (s : State) : Nat :=
  match s.variant with
  | .w => 0x57
  | .a => 0x41

/-- The rails' greatest cap of the variant, mW (R24, R429). -/
def State.maxCap (s : State) : Nat :=
  match s.variant with
  | .w => 480000
  | .a => 220000

/-- The health report (R459). -/
def State.healthReport (s : State) (stamp : Nat) : List Byte :=
  leBytes 1 1 ++ leBytes 1 s.variantCode ++ leBytes 1 s.health ++ leBytes 1 s.healthFlags ++
  leBytes 4 (s.rget Fld.BIST_BOOT_MS_MS) ++ leBytes 8 stamp ++ leBytes 4 s.boot.slowMs ++
  leBytes 4 (s.rget Fld.BIST_UNUSABLE_BLOCKS) ++ leBytes 4 (Regs.word s.regs 0x100008 0).toNat ++
  leBytes 4 (s.rget Fld.TRIM_DEAD_LO_CORES) ++ leBytes 4 (s.rget Fld.TRIM_DEAD_HI_CORES) ++
  leBytes 4 (s.rget Fld.MEM_CH_FAIL0_CH) ++ leBytes 4 (s.rget Fld.MEM_CH_FAIL1_CH) ++ leBytes 4 (s.rget Fld.MEM_CH_FAIL2_CH) ++
  leBytes 4 (Regs.word s.regs 0x200004 0).toNat ++ leBytes 1 (s.rget Fld.MEM_ID_CHANNELS) ++
  leBytes 1 (s.rget Fld.MEM_ID_GROUPS) ++ leBytes 1 (s.rget Fld.SRV_ID_SLOTS) ++ leBytes 1 s.stateByte ++
  leBytes 2 (s.rget Fld.SRV_ID_SEQUENCES) ++ leBytes 2 (s.rget Fld.SRV_ID2_SESSIONS) ++
  leBytes 2 (s.rget Fld.SRV_ID_CUSTOMERS) ++ leBytes 1 (s.rget Fld.THM_STATUS_BAND) ++
  leBytes 1 (s.rget Fld.THM_STATUS_COOLANT) ++ leBytes 4 s.slotWord ++ leBytes 4 (s.rget Fld.PWR_CAP_MW) ++
  leBytes 4 (s.rget Fld.PWR_POWER_MW) ++ leBytes 1 (s.rget Fld.PWR_STATUS_POINT) ++
  leBytes 1 (s.rget Fld.PWR_PACE_EFFECTIVE) ++ leBytes 1 (s.rget Fld.SEC_CART_STATE) ++ leBytes 1 s.linkByte ++
  leBytes 4 (s.rget Fld.SYS_CART_WRITTEN_GB) ++ leBytes 2 (s.rget Fld.SYS_CART_LIFE_CYCLES) ++
  leBytes 2 (s.rget Fld.SYS_COUPLING_CYCLES) ++ s.sliceBytes ++ leBytes 2 s.boot.eventCode.toNat ++
  leBytes 1 s.boot.eventSource ++ leBytes 1 (s.rget Fld.SYS_STRAPS_SLOT) ++ leBytes 4 s.boot.eventCounter ++ zeroBytes 16

/-- Zero the bytes of a list whose index satisfies a test. -/
def blankBytes (p : Nat → Bool) : Nat → List Byte → List Byte
  | _, [] => []
  | i, b :: bs => (if p i then 0 else b) :: blankBytes p (i + 1) bs

/-- What a session of role User sees of the report (R460). -/
def userReport (r : List Byte) : List Byte :=
  blankBytes (fun i => (68 ≤ i && i ≤ 77) || (104 ≤ i && i ≤ 106) || (108 ≤ i && i ≤ 111)) 0 r

/-- A trigger of R407 in ACTIVATING or TRIAL: the update falls back. -/
def State.enterFallback (s : State) : State :=
  if s.rget Fld.FWU_STATE_STATE = 3 ∨ s.rget Fld.FWU_STATE_STATE = 4 then
    ((s.rset Fld.FWU_STATE_STATE 5).rset Fld.FWU_FAULT_FALLBACK 1).rset Fld.FWU_TRIAL_MS 0
  else s

/-- The component (R393) whose fault a fault-class code reports (log entry 31). -/
def codeComponent (c : Code) : Option Nat :=
  if c = Code.F_MEM then some 4 else if c = Code.F_ARRAY ∨ c = Code.F_TRIM then some 6 else none

/-- Note a health event (R461): its code and the bit of the unusable mask that it concerns (255: none). It leaves in the
HEALTH_EVENT of the present thermal interval. A fault of a component that the present update has replaced makes the update
fall back (R407). -/
def State.healthEvent (s : State) (code : Code) (source : Nat := 255) : State :=
  let s1 := if (codeComponent code).any s.fwu.committed.contains then s.enterFallback else s
  { s1 with boot := { s1.boot with eventPending := true, eventCode := code, eventSource := source,
                                   eventCounter := s1.boot.slowMs } }

/-- A slice begins after a fault or a repair: its block is partially reset (R456, R511). -/
def State.startSlice (s : State) (k unit : Nat) : State :=
  if s.boot.due.contains (k, unit) then s
  else
    let s1 : State := { s with boot := { s.boot with due := s.boot.due ++ [(k, unit)] },
                               srv := { s.srv with loadsLost := s.srv.loadsLost || !s.srv.loads.isEmpty } }
    (((s1.countHold Fld.SYS_RESET_PARTIAL).rset Fld.BIST_STATUS_BUSY 1).rset Fld.BIST_STATUS_SLICE k).rsetIf (k == 7)
      Fld.ARR_REMAP_RESIDUE_EN 0

/-- Does a slice run that a fault or a repair started? -/
def State.sliceRuns (s : State) (k unit : Nat) : Bool := s.boot.due.contains (k, unit)

/-- What a change of which sends a HEALTH_EVENT (R461): health, flags, unusable mask, slice results. -/
def State.healthKey (s : State) : List Byte :=
  leBytes 1 s.health ++ leBytes 1 s.healthFlags ++ leBytes 4 (s.rget Fld.BIST_UNUSABLE_BLOCKS) ++ s.sliceBytes

/-- One HEALTH_EVENT on every rack-controller session, with the report of this moment, and its entry in the health log (R358, R461). -/
def State.postHealth (s : State) : State :=
  let s1 := s.pushOwnAll (s.sessionsOfRole (· == 4)) 0x0310 s.boot.eventCode (s.healthReport 0)
  let entry := leBytes 2 s.boot.eventCode.toNat ++ leBytes 1 s.boot.eventSource ++ [0] ++ leBytes 4 s.boot.eventCounter
  let log := s.boot.log ++ [entry]
  { s1 with boot := { s1.boot with eventPending := false, reported := s1.healthKey, log := log.drop (log.length - 64) } }

/-- The end of a thermal interval: its HEALTH_EVENT, if anything calls for one (R461). A change that no event goes with is an event of
its own, with the code OK (log entry 36). -/
def State.sendHealth (s : State) : State :=
  if s.boot.eventPending then s.postHealth
  else if s.boot.reported ≠ [] ∧ s.boot.reported ≠ s.healthKey then (s.healthEvent Code.OK).postHealth
  else { s with boot := { s.boot with reported := s.healthKey } }

end Sys2Proof.Machine
end

