-- ==== Sys2Proof/Machine/MemOps.lean ====
section
/-! DEFINITION. MemOps.lean: translation, page ownership, banks and the regions of memory ("Memory, banks and translation"). -/

namespace Sys2Proof.Machine

-- Banks (R202).

/-- A bank byte's place in the state's bank memory. -/
def bankAddr (bank off : Nat) : Nat := bank * 16777216 + off

/-- The bytes of a bank, 0 for an id that is reserved (R202). -/
def bankSize (b : Nat) : Nat :=
  if b ≤ 0x0F then 4194304
  else if b ≤ 0x17 then 8388608
  else if b ≤ 0x19 then 12582912
  else if b ≤ 0x1B then 524288
  else if b ≤ 0x1F then 0
  else if b ≤ 0x5F then 524288
  else if b ≤ 0x61 then 2097152
  else if b ≤ 0x63 then 4194304
  else if b = 0x64 then 16777216
  else 0

/-- Where a byte of a bank lies: in the bank itself or, of a trim core's local bank that could not be repaired, in the substitute bank
at the top of shared scratch bank 7 that TRIM.MAP names (R145). -/
def State.bankPlace (s : State) (bank off : Nat) : Nat :=
  let c := bank - 0x20
  if 0x20 ≤ bank ∧ bank < 0x60 ∧ s.rbit (Fld.TRIM_MAP_SUBBANK c) then
    bankAddr 0x17 (7340032 + 524288 * s.rget (Fld.TRIM_MAP_SUBSEL c) + off)
  else bankAddr bank off

/-- `n` bytes of a bank. -/
def State.bankBytes (s : State) (bank off n : Nat) : List Byte := Memory.bytes s.mem.banks (s.bankPlace bank off) n

/-- Write bytes into a bank. -/
def State.putBank (s : State) (bank off : Nat) (b : List Byte) : State :=
  { s with mem := { s.mem with banks := Memory.putBytes s.mem.banks (s.bankPlace bank off) b } }

/-- Zero a range of a bank. -/
def State.clearBank (s : State) (bank off n : Nat) : State :=
  { s with mem := { s.mem with banks := Memory.clear s.mem.banks (s.bankPlace bank off) n } }

/-- The bytes of LPDDR4X at a physical address. -/
def State.dramBytes (s : State) (a n : Nat) : List Byte := Memory.bytes s.mem.dram a n

/-- Write LPDDR4X. -/
def State.putDram (s : State) (a : Nat) (b : List Byte) : State :=
  { s with mem := { s.mem with dram := Memory.putBytes s.mem.dram a b } }

-- What LPDDR4X holds of a granule (R179, R180, R185).

/-- The key pair of inline encryption: key slot 1 (R185, R368). -/
def State.memoryKey (s : State) : List Byte := (Dict.fetch s.sec.keys 1).getD []

/-- The 256 bytes of a granule as they are stored: encrypted, before Reed-Solomon encoding. -/
def State.storedGranule (s : State) (g : Nat) : List Byte :=
  Config.xtsEncrypt s.memoryKey g (s.dramBytes (256 * g) 256)

/-- The byte that a channel holds at an offset. -/
def State.channelByte (s : State) (c off : Nat) : Byte :=
  granuleSymbol (s.storedGranule (off / 32 * 8 + channelGroup c)) (channelPosition c) (off % 32)

/-- A granule's bytes become those that a read delivers with `e` left in it. -/
def State.deliverGranule (s : State) (g : Nat) (e : List Byte) : State :=
  if e.all (· == 0) then s
  else s.putDram (256 * g) (slice (Config.xtsDecrypt s.memoryKey g (List.zipWith (· ^^^ ·) (s.storedGranule g) e)) 0 256)

-- Translation-table entries (R194): bits of a 64-bit word.

def entryV (e : Nat) : Bool := e.testBit 0
def entryW (e : Nat) : Bool := e.testBit 1
def entryC (e : Nat) : Bool := e.testBit 2
def entryPage (e : Nat) : Nat := natBits e 8 22
def entryCart (e : Nat) : Nat := natBits e 32 32

/-- An entry that names a pool page. -/
def mkEntry (page : Nat) (w : Bool) : Nat := 1 + (if w then 2 else 0) + page * 256

/-- An entry of a page on the cartridge. -/
def mkCartEntry (slot : Nat) : Nat := 4 + slot * 4294967296

/-- A table entry, from the table region of LPDDR4X (R192). -/
def State.entry (s : State) (i : Nat) : Nat := leNat (s.dramBytes (8 * i) 8)

/-- Is an update permitted (R194): not V and C together, a page of the pool, no reserved bit? -/
def State.entryOk (s : State) (e : Nat) : Bool :=
  !(entryV e && entryC e) && natBits e 3 5 == 0 && natBits e 30 2 == 0 &&
    (!entryV e || decide (s.poolFirst ≤ entryPage e ∧ entryPage e < s.poolFirst + s.poolLayout)) &&
    (entryC e || entryCart e == 0)

/-- Remember the first translation fault (R200). -/
def State.xltFault (s : State) (f : Field) (owner vpn master : Nat) : State :=
  let first := s.rget Fld.XLT_FAULT_RANGE + s.rget Fld.XLT_FAULT_INVALID + s.rget Fld.XLT_FAULT_WRITE +
    s.rget Fld.XLT_FAULT_UPDATE = 0
  let s1 := if first then
      ((s.rset Fld.XLT_FAULT_LOC_OWNER owner).rset Fld.XLT_FAULT_LOC_MASTER master).rset Fld.XLT_FAULT_VPN_VPN vpn
    else s
  s1.rset f 1

/-- Drop a table index from the translation cache (R198). -/
def State.cacheDrop (s : State) (i : Nat) : State :=
  { s with mem := { s.mem with cache := (Dict.modify s.mem.cache (i % 4096) fun l => l.filter (· != i)).filter fun x => x.2 != [] } }

/-- The update path (R198): a permitted update writes the entry and invalidates its cache line; a refused one sets
XLT.FAULT.UPDATE, leaves the entry and raises F_XLT (R194, R200). The supervisor that holds the lease is the master. -/
def State.updateEntry (s : State) (owner vpn i e : Nat) : State :=
  if s.entryOk e ∧ i < 4194304 then ((s.putDram (8 * i) (leBytes 8 e)).cacheDrop i)
  else (s.xltFault Fld.XLT_FAULT_UPDATE owner vpn (if s.rbit Fld.CONT_STATUS_ACTIVE then 1 else 0)).healthEvent Code.F_XLT

/-- A lookup through the translation cache (R197): a hit moves the entry to the front of its set, a miss fills the 32
entries of its granule. The cache changes only time and its counters. -/
def State.lookup (s : State) (i : Nat) : State :=
  let touch := fun (c : Dict (List Nat)) (j : Nat) =>
    Dict.store c (j % 4096) ((j :: (((Dict.fetch c (j % 4096)).getD []).filter (· != j))).take 16)
  if ((Dict.fetch s.mem.cache (i % 4096)).getD []).contains i then
    ({ s with mem := { s.mem with cache := touch s.mem.cache i } } : State).count64 Fld.XLT_HITS_LO_COUNT Fld.XLT_HITS_HI_COUNT 1
  else
    let g := i / 32 * 32
    let c := (List.range 32).foldl (fun c k => touch c (g + k)) s.mem.cache
    ({ s with mem := { s.mem with cache := touch c i } } : State).count Fld.XLT_MISSES_COUNT

-- Descriptors (R195).

/-- A descriptor. -/
def State.desc (s : State) (d : Nat) : Desc := Tab.read {} s.mem.descs d

/-- The 16 bytes of a descriptor (R195). -/
def Desc.bytes (x : Desc) : List Byte :=
  leBytes 4 x.base ++ leBytes 4 x.length ++ leBytes 1 x.kind ++ leBytes 1 (if x.readOnly then 1 else 0) ++ leBytes 1 x.slot ++ zeroBytes 5

/-- Set a descriptor. -/
def State.putDesc (s : State) (d : Nat) (x : Desc) : State :=
  { s with mem := { s.mem with descs := Tab.write {} s.mem.descs d x } }

/-- Descriptor numbers of a model slot and of its workspace. -/
def slotDesc (k : Nat) : Nat := 4096 + k
def workDesc (k : Nat) : Nat := 4112 + k

/-- Put a range into a list of ranges rising by base. -/
def insertRange (r : Nat × Nat) : List (Nat × Nat) → List (Nat × Nat)
  | [] => [r]
  | q :: l => if r.1 < q.1 then r :: q :: l else q :: insertRange r l

/-- The ranges that descriptors hold, rising. -/
def State.ranges (s : State) : List (Nat × Nat) :=
  ((s.mem.descs.filter fun x => x.2.length != 0).map fun x => (x.2.base, x.2.length)).foldl (fun l r => insertRange r l) []

/-- The free runs (base, length) of a table of `size` entries below and between rising ranges. -/
def freeRuns (size : Nat) : Nat → List (Nat × Nat) → List (Nat × Nat)
  | at_, [] => [(at_, size - at_)]
  | at_, (b, n) :: l => (at_, b - at_) :: freeRuns size (b + n) l

/-- The longest run of free table entries (XLT.FREE_RUN). -/
def State.freeRun (s : State) : Nat := (freeRuns 4194304 0 s.ranges).foldl (fun m r => max m r.2) 0

/-- The lowest free run of at least `n` entries (log entry 7). -/
def State.findRun (s : State) (n : Nat) : Option Nat := ((freeRuns 4194304 0 s.ranges).find? fun r => decide (n ≤ r.2)).map (·.1)

/-- Copy `n` table entries (R199). -/
def State.copyEntries (s : State) (src dst : Nat) : Nat → State
  | 0 => s
  | n + 1 =>
    let s1 := ((s.putDram (8 * dst) (s.dramBytes (8 * src) 8)).putDram (8 * src) (zeroBytes 8)).cacheDrop src
    State.copyEntries (s1.cacheDrop dst) (src + 1) (dst + 1) n

/-- Move an owner's entries to a free run of sufficient length (R199). -/
def State.moveRange (s : State) (d len : Nat) : Option State :=
  let x := s.desc d
  match s.findRun len with
  | none => none
  | some b =>
    let s1 := s.copyEntries x.base b x.length
    some ((s1.putDesc d { x with base := b }).count Fld.XLT_MOVES_COUNT)

/-- Make room for an owner's range to grow to `len` entries: at its end where free, otherwise by a move (R199). -/
def State.roomFor (s : State) (d len : Nat) : Option State :=
  let x := s.desc d
  if len ≤ x.length then some s
  else if x.length = 0 then (s.findRun len).map fun b => s.putDesc d { x with base := b }
  else
    let limit := (s.ranges.find? fun r => decide (x.base < r.1)).elim 4194304 (·.1)
    if x.base + len ≤ limit then some s else s.moveRange d len

/-- Write entries from a table index on for a list of pages. -/
def State.mapPages (s : State) (d vpn : Nat) (w : Bool) : List Nat → State
  | [] => s
  | p :: ps => State.mapPages (s.updateEntry d vpn ((s.desc d).base + vpn) (mkEntry p w)) d (vpn + 1) w ps

/-- Grow an owner's range by `n` fresh pages (R199, R266); none where pages or table entries are lacking. -/
def State.grow (s : State) (d n : Nat) : Option State :=
  let x := s.desc d
  match s.roomFor d (x.length + n) with
  | none => none
  | some s1 =>
    match s1.takePages n with
    | none => none
    | some (l, s2) =>
      let s3 := s2.putDesc d { (s2.desc d) with length := x.length + n }
      some (s3.mapPages d x.length true l)

/-- Give an owner a range that maps a list of pages (R173, R195). -/
def State.mapRange (s : State) (d kind slot : Nat) (ro : Bool) (l : List Nat) : Option State :=
  match s.findRun l.length with
  | none => none
  | some b =>
    some ((s.putDesc d { base := b, length := l.length, kind := kind, readOnly := ro, slot := slot }).mapPages d 0 true l)

/-- The table entries of an owner. -/
def State.entries (s : State) (d : Nat) : List Nat :=
  let x := s.desc d
  (List.range x.length).map fun k => s.entry (x.base + k)

/-- The physical pages of an owner that lie in LPDDR4X. -/
def State.ownerPages (s : State) (d : Nat) : List Nat := (((s.entries d).filter entryV).map entryPage)

/-- Pages that the table no longer names: they return to the pool once the marker has returned (R198). -/
def State.freeMapped (s : State) (l : List Nat) : State := { s with mem := { s.mem with afterMarker := s.mem.afterMarker ++ l } }

/-- A cartridge slot that the table no longer names: it may be used again once the marker has returned (R198). -/
def State.freeCartSlot (s : State) (c : Nat) : State := { s with mem := { s.mem with cartAfterMarker := s.mem.cartAfterMarker ++ [c] } }

/-- Release a page that sequences may share: its shares count falls, and at zero it returns to the pool (R264, R270). -/
def State.releaseKvPage (s : State) (p : Nat) : State :=
  let n := leNat (s.dramBytes (pageAddr p + 20) 2)
  if n ≤ 1 then s.freeMapped [p] else s.putDram (pageAddr p + 20) (leBytes 2 (n - 1))

/-- Show the number of key-value pages on the cartridge: of the slots that the table names. -/
def State.showCartPages (s : State) : State :=
  s.rset Fld.MEM_CART_PAGES_PAGES (s.mem.cart.spill.filter fun x => !s.mem.cartAfterMarker.contains x.1).length

/-- Release the entries of an owner from a virtual page on (R198, R211, R266). -/
def State.shrink (s : State) (d keep : Nat) : State :=
  let x := s.desc d
  let idx := (List.range x.length).filter fun k => decide (keep ≤ k)
  let s1 := idx.foldl (fun s k =>
    let e := s.entry (x.base + k)
    let s := if entryV e then s.releaseKvPage (entryPage e) else s
    let s := if entryC e then s.freeCartSlot (entryCart e) else s
    (s.putDram (8 * (x.base + k)) (zeroBytes 8)).cacheDrop (x.base + k)) s
  let s2 : State := { s1 with mem := { s1.mem with held := s1.mem.held.filter fun a => a.1 != d || decide (a.2 < keep) } }
  (s2.putDesc d (if keep = 0 then {} else { x with length := min x.length keep })).showCartPages

/-- Release a model slot's or a workspace's range and its pages. -/
def State.releaseSlotRange (s : State) (d : Nat) : State :=
  let x := s.desc d
  let s1 := s.freeMapped (s.ownerPages d)
  let s2 := (List.range x.length).foldl (fun s k => (s.putDram (8 * (x.base + k)) (zeroBytes 8)).cacheDrop (x.base + k)) s1
  s2.putDesc d {}

/-- What a translation gives (R196). -/
inductive Translated where
  | pa (a : Nat)
  | range
  | invalid
  | write
  | spilled
  deriving DecidableEq, Repr

/-- Translate a virtual address of an owner (R196). -/
def State.translate (s : State) (d va : Nat) (write : Bool) : Translated :=
  let x := s.desc d
  let vpn := va / 65536
  if x.length ≤ vpn then .range
  else
    let e := s.entry (x.base + vpn)
    if entryC e then .spilled
    else if !entryV e then .invalid
    else if write && (!entryW e || x.readOnly) then .write
    else .pa (entryPage e * 65536 + va % 65536)

/-- Bytes at a virtual address of an owner; a byte that does not translate reads zero. -/
def State.ownerBytes (s : State) (d va : Nat) : Nat → List Byte
  | 0 => []
  | n + 1 =>
    (match s.translate d va false with
      | .pa a => Memory.byte s.mem.dram a
      | _ => 0) :: State.ownerBytes s d (va + 1) n

/-- Write bytes at a virtual address of an owner. -/
def State.putOwner (s : State) (d va : Nat) : List Byte → State
  | [] => s
  | b :: bs =>
    let s1 := match s.translate d va true with
      | .pa a => { s with mem := { s.mem with dram := Memory.put s.mem.dram a b } }
      | _ => s
    State.putOwner s1 d (va + 1) bs

end Sys2Proof.Machine
end

