-- ==== Sys2Proof/Machine/SrvOps.lean ====
section
/-! DEFINITION. SrvOps.lean: accounts, and how requests and sequences end ("Request serving"). -/

namespace Sys2Proof.Machine

-- Accounts (R228 to R231).

/-- An account; one that was never opened is closed. -/
def State.account (s : State) (cu : Nat) : Account := (Dict.fetch s.srv.accounts cu).getD {}

/-- Store an account. -/
def State.putAccount (s : State) (cu : Nat) (a : Account) : State :=
  { s with srv := { s.srv with accounts := Dict.store s.srv.accounts cu a } }

/-- The greatest balance (R228). -/
def balanceMax : Nat := 281474976710655

/-- Take units from an account. -/
def State.debit (s : State) (cu n : Nat) : State :=
  s.putAccount cu { s.account cu with balance := (s.account cu).balance - n }

/-- Refund units to an account with a REFUND record, and give the record's index (R231, R345). Only the module that takes
bound actions writes it. -/
def State.refund (s : State) (session row cu n : Nat) : State × List Nat :=
  if n = 0 ∨ !s.mayActFor session then (s, [])
  else
    let a := s.account cu
    let s1 := (s.putAccount cu { a with balance := min balanceMax (a.balance + n) }).journal session row (.refund n)
    (s1, [s1.lastIndex])

-- Buckets and units (R233, R235).

/-- The least b with 2^b ≥ n, at most 16. -/
def ceilLog2 (n : Nat) : Nat := ((List.range 17).find? fun b => decide (n ≤ 2 ^ b)).getD 16

/-- The bucket of a length, or the forced one (R233). -/
def bucketOf (forced len : Nat) : Nat := if forced = 255 then ceilLog2 len else forced

/-- Put a unit into its queue. -/
def State.enqueue (s : State) (u : QUnit) : State := { s with srv := { s.srv with queue := s.srv.queue ++ [u] } }

/-- Take the units of a request, or of a sequence, out of the queues. -/
def State.dequeueRow (s : State) (row : Nat) : State :=
  { s with srv := { s.srv with queue := s.srv.queue.filter fun u => u.row != row } }

-- Requests.

/-- A live request by row tag. -/
def State.request (s : State) (row : Nat) : Option Request := Dict.fetch s.srv.requests row

/-- Store a request. -/
def State.putRequest (s : State) (r : Request) : State :=
  { s with srv := { s.srv with requests := Dict.store s.srv.requests r.row r } }

/-- Change a live request. -/
def State.onRequest (s : State) (row : Nat) (f : Request → Request) : State :=
  match s.request row with
  | some r => s.putRequest (f r)
  | none => s

/-- A request leaves the engine: its queue places and input pages are free. -/
def State.dropRequest (s : State) (r : Request) : State :=
  let s1 := (s.dequeueRow r.row).freePool r.input
  { s1 with srv := { s1.srv with requests := Dict.remove s1.srv.requests r.row } }

/-- The header code of a RESULT or STOP (R53, R219): an error that ended the request, else W_NUMERIC, else W_EMPTY_OUTPUT,
else OK. -/
def outcomeCode (code : Code) (flags : NumFlags) (isEmpty : Bool) : Code :=
  if 0x2000 ≤ code.toNat then code
  else if flagsWarn flags then Code.W_NUMERIC
  else if isEmpty then Code.W_EMPTY_OUTPUT
  else Code.OK

/-- A RESULT payload (R219). -/
def resultPayload (flags : NumFlags) (isEmpty : Bool) (stamp : Nat) (out : List Byte) : List Byte :=
  leBytes 2 flags.toNat ++ leBytes 1 (if isEmpty then 1 else 0) ++ leBytes 1 0 ++ leBytes 4 out.length ++ leBytes 8 stamp ++
    zeroBytes 16 ++ out

/-- A pass request ends (R219, R224, R227, R240): its REFUND where it is refunded, its COMPLETE record, and its RESULT, which
waits for its records. A muted request (R318) sends nothing. -/
def State.endPass (s : State) (row : Nat) (code : Code) (refunded : Bool) : State :=
  match s.request row with
  | none => s
  | some r =>
    let p := if refunded then s.refund r.session row r.customer r.debit else (s, [])
    let fin := outcomeCode code r.flags r.isEmpty
    let out := if fin.toNat < 0x2000 then s.pagesBytes r.staging r.outSize else []
    let payload := resultPayload r.flags r.isEmpty r.stamp out
    let s2 := p.1.journal r.session row (.complete (sha384 payload) r.flags fin) true
    let s3 := s2.dropRequest r
    if r.mute then s3.freePool r.staging
    else
      s3.pushGrid r.session { number := replyNumber r.number r.ordinal, type := 0x0110, code := fin, tag := r.tag,
                              payload := payload, needs := [r.admitRec, s2.lastIndex] ++ p.2, pages := r.staging }

-- Sequences.

/-- A sequence by its slot. -/
def State.seq (s : State) (q : Nat) : Option Sequence := Dict.fetch s.srv.sequences q

/-- Store a sequence. -/
def State.putSeq (s : State) (q : Nat) (x : Sequence) : State :=
  { s with srv := { s.srv with sequences := Dict.store s.srv.sequences q x } }

/-- Change a sequence. -/
def State.onSeq (s : State) (q : Nat) (f : Sequence → Sequence) : State :=
  match s.seq q with
  | some x => s.putSeq q (f x)
  | none => s

/-- A TOKENS payload (R222). -/
def tokensPayload (first stamp : Nat) (toks : List Nat) : List Byte :=
  leBytes 4 first ++ leBytes 2 toks.length ++ [0, 0] ++ leBytes 8 stamp ++ zeroBytes 16 ++ (toks.map (leBytes 4)).flatten

/-- A STOP payload (R223). -/
def stopPayload (flags : NumFlags) (reason emitted stamp token : Nat) : List Byte :=
  leBytes 2 flags.toNat ++ leBytes 1 reason ++ [0] ++ leBytes 4 emitted ++ leBytes 8 stamp ++ leBytes 4 token ++ zeroBytes 12

/-- Send every unsent token of a sequence in one TOKENS message (R241, R347). -/
def State.sendTokens (s : State) (q : Nat) : State :=
  match s.seq q with
  | none => s
  | some x =>
    match s.request x.row with
    | none => s
    | some r =>
      let toks := x.emitted.drop x.sent
      if toks = [] then s
      else
        let s1 := s.putSeq q { x with sent := x.emitted.length, ordinal := x.ordinal + 1 }
        if r.mute then s1
        else
          s1.pushGrid r.session { number := replyNumber r.number x.ordinal, type := 0x0111, code := Code.OK, tag := r.tag,
                                  payload := tokensPayload x.sent r.stamp toks,
                                  needs := [r.admitRec, x.allowRecord] ++ x.records }

/-- Tokens of a request that have not begun to leave (R236): unsent ones, and those of TOKENS messages still waiting. -/
def State.unsentTokens (s : State) (x : Sequence) : Nat :=
  let own := x.emitted.length - x.sent
  match s.request x.row with
  | none => own
  | some r =>
    let mine := fun (m : ModMsg) => m.type == 0x0111 && m.number / 1048576 == r.number
    let ready := match s.session r.session with
      | some y => y.ready.filter mine
      | none => []
    let grid := (s.srv.grid.filter fun g => g.session == r.session && mine g.msg).map (·.msg)
    (ready ++ grid).foldl (fun n m => n + u16 m.payload 4) own

/-- Take a sequence slot out of use: its pages and range are released (R266). -/
def State.dropSeq (s : State) (q : Nat) : State :=
  let s1 := s.shrink q 0
  { s1 with srv := { s1.srv with sequences := Dict.remove s1.srv.sequences q } }

/-- The header code of a STOP (R223). -/
def stopCode (stop : SeqStop) (flags : NumFlags) : Code :=
  if stop.code.toNat < 0x2000 then outcomeCode Code.OK flags false else stop.code

/-- The records of a sequence's end (R231, R240): the refund of `back` units and the STOP record. -/
def State.recordStop (s : State) (q : Nat) (stop : SeqStop) (back : Nat) : State :=
  match s.seq q with
  | none => s
  | some x =>
    match s.request x.row with
    | none => s
    | some r =>
      let p := s.refund r.session x.row r.customer back
      let n := x.emitted.length + x.stepTokens.length
      let s2 := p.1.journal r.session q (.stop stop.reason n stop.token r.flags (stopCode stop r.flags)) true
      s2.putSeq q { x with stop := some stop, allowance := 0, records := x.records ++ [s2.lastIndex] ++ p.2 }

/-- A sequence whose end is recorded leaves (R223, R239 to R241, R266): its last TOKENS, then its STOP. Its skim sequence
ends with it (R271). -/
def State.finishSeq (s : State) (q : Nat) : State :=
  match s.seq q with
  | none => s
  | some x =>
    match s.request x.row, x.stop with
    | none, _ => s.dropSeq q
    | _, none => s
    | some r, some stop =>
      let s3 := s.sendTokens q
      let ordinal := ((s3.seq q).map (·.ordinal)).getD x.ordinal
      let s4 := ((match x.partner with
        | some k => s3.dropSeq k
        | none => s3).dropSeq q).dropRequest r
      if r.mute then s4.freePool r.staging
      else
        s4.pushGrid r.session { number := replyNumber r.number ordinal, type := 0x0112, code := stopCode stop r.flags,
                                tag := r.tag, needs := [r.admitRec] ++ x.records, pages := r.staging,
                                payload := stopPayload r.flags stop.reason x.emitted.length r.stamp stop.token }

/-- A sequence ends at a step boundary, or wherever an error or fault strikes it: the tokens of a step whose record is written are
emitted (R240, R241), and what a step has not recorded is discarded. -/
def State.endSeq (s : State) (q : Nat) (stop : SeqStop) : State :=
  match s.seq q with
  | none => s
  | some x =>
    if x.isSkim then s
    else
      match x.stop with
      | some _ => s
      | none =>
        let out := if x.phase = .recorded then x.stepTokens else []
        ((s.putSeq q { x with emitted := x.emitted ++ out, stepTokens := [] }).recordStop q stop x.allowance).finishSeq q

/-- Is a sequence at a step boundary: is none of its units in the running batch and no step of it uncommitted? -/
def atBoundary : SeqPhase → Bool
  | .running | .recorded => false
  | _ => true

/-- Are rows of a sequence in the running or in a suspended batch? -/
def State.seqInBatch (s : State) (q : Nat) : Bool :=
  let has := fun (b : Batch) => b.rows.any fun r => r.seq == q
  (match s.srv.batch with
    | some b => has b
    | none => false) || s.srv.suspended.any has

/-- Ask a sequence to stop with reason 5: at once at a step boundary, otherwise at its next one (R224, R318). -/
def State.cancelSeq (s : State) (q : Nat) : State :=
  match s.seq q with
  | none => s
  | some x =>
    if atBoundary x.phase ∧ !s.seqInBatch q then s.endSeq q ⟨5, 0, Code.E_CANCELLED⟩
    else s.onRequest x.row fun r => { r with cancelled := true }

/-- Cancel a live request (R224, R318): a pass request whose batch has not started ends with E_CANCELLED and is refunded; one
whose batch has started runs on; a sequence stops. -/
def State.cancelRequest (s : State) (row : Nat) : State :=
  match s.request row with
  | none => s
  | some r =>
    match r.seq with
    | some q => s.cancelSeq q
    | none => if r.started then s else s.endPass row Code.E_CANCELLED true

/-- End a live request with an error, wherever it stands (R200, R201, R252, R386). -/
def State.failRequest (s : State) (row : Nat) (code : Code) (reason : Nat := 9) : State :=
  match s.request row with
  | none => s
  | some r =>
    match r.seq with
    | some q => s.endSeq q ⟨reason, 0, code⟩
    | none => s.endPass row code false

-- Video contexts that close (R287).

/-- A video context by number. -/
def State.video (s : State) (c : Nat) : Option VideoContext := Dict.fetch s.vid.contexts c

/-- Store a video context. -/
def State.putVideo (s : State) (c : Nat) (x : VideoContext) : State :=
  { s with vid := { s.vid with contexts := Dict.store s.vid.contexts c x } }

/-- Free a context: its units, pipes and waiting access units. -/
def State.dropVideo (s : State) (c : Nat) : State :=
  let pipes := s.vid.pipes.map fun p => if p = some c then none else p
  { s with vid := { s.vid with contexts := Dict.remove s.vid.contexts c, pipes := pipes } }

/-- Close a context as abort (R287): undecoded data is discarded, undelivered pictures' requests end with E_CANCELLED. -/
def State.abortVideo (s : State) (c : Nat) : State :=
  match s.video c with
  | none => s
  | some x =>
    let mine := s.srv.requests.filter fun r => r.2.session == x.session && (r.2.picture.map (·.1)) == some c
    (mine.foldl (fun s r => s.cancelRequest r.1) s).dropVideo c

-- Sessions that end (R318, R322).

/-- The live work of a session ends as R318 states. -/
def State.endSessionWork (s : State) (n : Nat) : State :=
  let mine := (s.srv.requests.filter fun x => x.2.session == n).map (·.1)
  let s1 := mine.foldl (fun s row => s.onRequest row fun r => { r with mute := true }) s
  let s2 := mine.foldl (fun s row => s.cancelRequest row) s1
  (s2.vid.contexts.filter fun x => x.2.session == n).foldl (fun s x => s.abortVideo x.1) s2

/-- The module closes a session with a SESSION_CLOSE of its own (R318). -/
def State.closeSession (s : State) (n : Nat) (code : Code) : State :=
  match s.session n with
  | none => s
  | some x =>
    if x.closing then s
    else
      let s1 := s.journal n 0 (.session .closed x.counter)
      let s2 := (s1.endSessionWork n).pushOwn n 3 code (zeroBytes 32) [s1.lastIndex]
      s2.onSession n fun x => { x with closing := true }

/-- Close a session whose sequence numbers have reached a limit, once its last reply has left (R322). -/
def State.seqLimit (s : State) (n : Nat) : State :=
  match s.session n with
  | none => s
  | some x =>
    let waits := s.net.inbox.any fun d => d.session == n
    if !x.closing ∧ ((2 ^ 43 ≤ x.nextDeliver ∧ x.ready = [] ∧ !waits) ∨ 2 ^ 63 - 2 ≤ x.counter) then
      s.closeSession n Code.E_SEQ_LIMIT
    else s

-- The pair table (R351, R360).

/-- This module's slot, if its straps are valid (R468). -/
def State.mySlot (s : State) : Option Nat := if s.rbit Fld.SYS_STRAPS_PARITY_OK then some (s.rget Fld.SYS_STRAPS_SLOT) else none

/-- The slot that a pair table names as a slot's twin. -/
def pairOf (pairs : List Nat) (k : Nat) : Option Nat :=
  match pairs[k]? with
  | some t => if t < 32 then some t else none
  | none => none

/-- The slot of this module's twin under the active pair table. -/
def State.twinSlot (s : State) : Option Nat := s.mySlot.bind (pairOf s.cont.config.pairs)

/-- The twin's identity digest. -/
def State.twinIdentity (s : State) : Option (List Byte) := s.twinSlot.bind fun t => s.cont.config.identities[t]?

-- The journal's space (R349).

/-- Has what a record is about ended: its request, sequence, session or video context? -/
def State.recEnded (s : State) (r : JRecord) : Bool :=
  match r.body with
  | .admitted .. => !Dict.has s.srv.requests (r.index % 4294967296)
  | .complete .. => !Dict.has s.srv.requests r.subject
  | .refund _ => !Dict.has s.srv.requests r.subject
  | .allow q _ => !Dict.has s.srv.sequences q
  | .tokens q _ _ => !Dict.has s.srv.sequences q
  | .stop .. => !Dict.has s.srv.sequences r.subject
  | .preempt q => !Dict.has s.srv.sequences q
  | .candidates _ => !Dict.has s.srv.sequences r.subject
  | .session .. => (s.session r.session).isNone
  | .video c _ => !Dict.has s.vid.contexts c
  | _ => true

/-- Does a message that has not been acknowledged whole depend on a record? -/
def State.recNeeded (s : State) (i : Nat) : Bool :=
  (s.net.sessions.any fun x =>
    (x.2.ready.any fun m => m.needs.contains i) || x.2.sending.any fun m => m.2.needs.contains i) ||
  s.srv.grid.any fun g => g.msg.needs.contains i

/-- The highest index that a checkpoint covers. -/
def State.covered (s : State) : Nat := s.cont.checkpoints.foldl (fun n c => max n ((c.map (·.covers)).getD 0)) 0

/-- Free the space of the oldest records for which all of R349 holds. -/
def State.trimJournal (s : State) : State :=
  let c := s.covered
  let free := fun (r : JRecord) => decide (r.index ≤ c) && recDurable s.cont r && s.recEnded r && !s.recNeeded r.index
  let left := s.cont.journal.dropWhile free
  let n := (s.cont.journal.takeWhile free).foldl (fun n r => n + recordSpace r.body) 0
  { s with cont := { s.cont with journal := left, ringStart := (s.cont.ringStart + n) % 4294967296 } }

-- Model loads (R170, R177).

/-- Show the present load's step (R177). -/
def State.showLoad (s : State) (k step : Nat) (busy : Bool) : State :=
  ((s.rset Fld.LATH_LOAD_SLOT k).rset Fld.LATH_LOAD_STEP step).rset Fld.LATH_LOAD_BUSY (if busy then 1 else 0)

/-- Step 5 of R170: once the completion record of the present load is durable, LATH.LOAD shows it completed with OK (R177). -/
def State.settleLoad (s : State) : State :=
  match s.srv.loadRecord with
  | none => s
  | some i =>
    if !s.durable i then s
    else
      let s1 := (s.showLoad (s.rget Fld.LATH_LOAD_SLOT) 5 false).rset Fld.LATH_LOAD_RESULT 0
      { s1 with srv := { s1.srv with loadRecord := none } }

/-- An admitted load with no other before it is the present load, at step 1 (R177). -/
def State.showFirst (s : State) (k : Nat) : State := if s.srv.loadRecord.isSome then s else s.showLoad k 1 false

/-- A slot enters LOADING (R170, R195): both its descriptors are set, and name no page yet. -/
def State.enterLoading (s : State) (k : Nat) (x : ModelSlot) : State :=
  ((s.putSlot k { x with state := .loading, step := 1 }).putDesc (slotDesc k)
      { base := 0, length := 0, kind := 2, readOnly := false, slot := k }).putDesc (workDesc k)
    { base := 0, length := 0, kind := 3, readOnly := false, slot := k }

end Sys2Proof.Machine
end

