-- ==== Sys2Proof/Machine/Admit.lean ====
section
/-! DEFINITION. Admit.lean: admission of requests (R216 to R226, R231, R268, R269, R271) and the units and pages of
sequences. -/

namespace Sys2Proof.Machine

-- What a request is checked against.

/-- The image of a READY slot. -/
def State.readyImage (s : State) (k : Nat) : Option Image :=
  if (s.slot k).state = .ready ∧ k < 16 then (s.slot k).image else none

/-- Does a session's role admit a customer (R225 step 4, R373, R375)? -/
def State.customerAllowed (s : State) (x : Session) (cu : Nat) : Bool :=
  x.role != 1 || (match s.sec.enrolment with
    | some e => e.entries.any fun t => t.key == x.partnerKey && t.role == 1 && decide (t.first ≤ cu ∧ cu ≤ t.last)
    | none => false)

/-- Is a partner tag live in a session (R216, R292)? -/
def State.tagLive (s : State) (session tag : Nat) : Bool :=
  (s.srv.requests.any fun r => r.2.session == session && r.2.tag == tag) ||
    (decide (2147483648 ≤ tag) && s.vid.contexts.any fun c => c.2.session == session)

/-- The slot that holds the skim model of an image, READY and with SKIM set (R225 step 2). -/
def State.skimSlot (s : State) (g : Image) : Option Nat :=
  if g.header.skimPair.all (· == 0) then none
  else (List.range 16).find? fun k =>
    match s.readyImage k with
    | some h => h.header.skim && h.header.ident == g.header.skimPair
    | none => false

/-- Requests that wait in the queues. -/
def State.queuedCount (s : State) : Nat := (s.srv.requests.filter fun r => !r.2.started).length

/-- The quota of a customer in fixed-slot mode (R249): queue places, sequence slots, pool pages. DEDUCED (log entry 44): a customer
that is not in the frame receives no quota, so it has no place. -/
def State.quota (s : State) (cu : Nat) : Option (Nat × Nat × Nat) :=
  if s.rbit Fld.SRV_MODE_FIXED then some (((s.srv.frame.quotas.find? fun q => q.1 == cu).map (·.2)).getD (0, 0, 0)) else none

/-- The pages that a customer's sequences hold. -/
def State.customerPages (s : State) (cu : Nat) : Nat :=
  s.srv.sequences.foldl (fun n x =>
    match s.request x.2.row with
    | some r => if r.customer = cu then n + (s.desc x.1).length else n
    | none => n) 0

/-- Live sequences of a customer, or of all. -/
def State.liveSequences (s : State) (cu : Option Nat) : Nat :=
  (s.srv.sequences.filter fun x =>
    match cu, s.request x.2.row with
    | none, _ => true
    | some c, some r => r.customer == c
    | some _, none => false).length

/-- Is there a queue place (R226, R249)? -/
def State.placeFree (s : State) (cu : Nat) : Bool :=
  match s.quota cu with
  | some (n, _, _) => decide ((s.srv.requests.filter fun r => !r.2.started && r.2.customer == cu).length < n)
  | none => decide (s.queuedCount < 16384)

/-- Are `n` sequence slots free for a customer (R226, R228, R249)? -/
def State.slotsFree (s : State) (cu n : Nat) : Bool :=
  let own := (s.account cu).quota
  (own == 0 || decide (s.liveSequences (some cu) + n ≤ own)) &&
    (match s.quota cu with
      | some (_, k, _) => decide (s.liveSequences (some cu) + n ≤ k)
      | none => decide (s.liveSequences none + n ≤ 4096))

/-- The staging pages of a customer's live requests. -/
def State.customerStaging (s : State) (cu : Nat) : Nat :=
  s.srv.requests.foldl (fun n r => if r.2.customer = cu then n + r.2.staging.length else n) 0

/-- May a customer take `n` more pages (R226, R249)? In fixed-slot mode its quota of pool pages covers its key-value and its staging
pages. -/
def State.pagesAllowed (s : State) (cu n : Nat) : Bool :=
  match s.quota cu with
  | some (_, _, k) => decide (s.customerPages cu + s.customerStaging cu + n ≤ k)
  | none => true

-- Key-value pages (R264 to R270).

/-- Write the header of each page of a sequence from virtual page `from_` on (R264). -/
def State.writeHeaders (s : State) (q : Nat) (k : KvShape) (customer from_ : Nat) : State :=
  let d := s.desc q
  ((List.range d.length).drop from_).foldl (fun s n =>
    let e := s.entry (d.base + n)
    s.putDram (pageAddr (entryPage e))
      (k.header (n / k.heads % k.layers) (n % k.heads) (n / k.perChunk) 1 customer q)) s

/-- Give a sequence pages up to `chunks` chunks (R266); none where pages, table entries or the customer's quota (R249) are lacking. -/
def State.ensureChunks (s : State) (q : Nat) (k : KvShape) (customer chunks : Nat) : Option State :=
  let have_ := (s.desc q).length
  let want := chunks * k.perChunk
  if want ≤ have_ then some s
  else if !s.pagesAllowed customer (want - have_) then none
  else (s.grow q (want - have_)).map fun t => t.writeHeaders q k customer have_

/-- The chained SHA-384 digests of the full chunks of some tokens, `n` of them (R269): each is over the one before it and the chunk's
tokens, 4 bytes each (log entry 16). -/
def chainDigests (cap : Nat) : Nat → List Byte → List Nat → List (List Byte)
  | 0, _, _ => []
  | n + 1, prev, tokens =>
    let d := sha384 (prev ++ ((tokens.take cap).map (leBytes 4)).flatten)
    d :: chainDigests cap n d (tokens.drop cap)

/-- The leading chunks of a prompt that a live sequence of the same customer and slot holds (R269): whole, committed, in
LPDDR4X, and ending before the prompt's last position. -/
def State.sharedWith (s : State) (k : KvShape) (prompt : List Nat) (o : Nat) (x : Sequence) : Nat :=
  let tokens := x.prompt ++ x.emitted
  let whole := min (x.committed / k.cap) ((prompt.length - 1) / k.cap)
  let mine := chainDigests k.cap whole [] prompt
  let theirs := chainDigests k.cap whole [] tokens
  let same := (List.range whole).takeWhile fun c => listAt [] mine c == listAt [] theirs c
  let d := s.desc o
  (same.takeWhile fun c => (List.range k.perChunk).all fun i =>
    decide (c * k.perChunk + i < d.length) && entryV (s.entry (d.base + c * k.perChunk + i))).length

/-- The live sequence that shares most chunks with a prompt, and how many. -/
def State.bestShare (s : State) (k : KvShape) (slot customer : Nat) (prompt : List Nat) : Option (Nat × Nat) :=
  s.srv.sequences.foldl (fun best x =>
    match s.request x.2.row with
    | none => best
    | some r =>
      if r.customer = customer ∧ x.2.slot = slot then
        let n := s.sharedWith k prompt x.1 x.2
        match best with
        | some (_, m) => if m < n then some (x.1, n) else best
        | none => if 0 < n then some (x.1, n) else none
      else best) none

/-- Map the first `n` pages of a sequence into a new sequence with W = 0, and count the share (R269). -/
def State.sharePages (s : State) (q o n : Nat) : Option State :=
  match s.roomFor q n with
  | none => none
  | some s1 =>
    let base := (s1.desc q).base
    let src := (s1.desc o).base
    let s2 := (List.range n).foldl (fun s i =>
      let p := entryPage (s.entry (src + i))
      let s := s.updateEntry q i (base + i) (mkEntry p false)
      s.putDram (pageAddr p + 20) (leBytes 2 (leNat (s.dramBytes (pageAddr p + 20) 2) + 1))) s1
    some (s2.putDesc q { s2.desc q with length := n })

-- Trees and steps (R271 to R275).

/-- The number of ancestors of a node (R274). -/
def Tree.depthFrom (t : Tree) : Nat → Nat → Nat
  | 0, _ => 0
  | fuel + 1, i => if i = 0 then 0 else t.depthFrom fuel (listAt 0 t.parents i) + 1

/-- The depth of a node. -/
def Tree.depth (t : Tree) (i : Nat) : Nat := t.depthFrom 64 i

/-- Is node j node i or an ancestor of it (R274)? -/
def Tree.sees (t : Tree) : Nat → Nat → Nat → Bool
  | 0, i, j => i == j
  | fuel + 1, i, j => i == j || (i != 0 && t.sees fuel (listAt 0 t.parents i) j)

/-- Is a tree valid (R273)? Node 0's parent is written 0xFF. -/
def Tree.valid (t : Tree) (root : Nat) : Bool :=
  let n := t.tokens.length
  root == 255 && decide (1 ≤ n ∧ n ≤ 64) &&
    ((List.range n).drop 1).all fun i =>
      decide (listAt 0 t.parents i < i) && decide (t.depth i ≤ 15) &&
        ((List.range i).drop 1).all fun j =>
          !(listAt 0 t.parents i == listAt 0 t.parents j && listAt 0 t.tokens i == listAt 0 t.tokens j)

/-- The plain step's tree: the root alone. -/
def Tree.root : Tree := ⟨[0], [0]⟩

/-- Does a node lie beyond the limits of R275? -/
def Tree.beyond (t : Tree) (root n context limit i : Nat) : Bool :=
  i != 0 && (decide (context ≤ root + t.depth i + 1) || decide (limit ≤ n + t.depth i))

/-- Trim nodes at the limits, their descendants with them (R275): a node's depth exceeds its ancestors', so a node whose
ancestor is trimmed is trimmed too. -/
def Tree.trim (t : Tree) (root n context limit : Nat) : Tree :=
  let keep := (List.range t.tokens.length).filter fun i => !t.beyond root n context limit i
  let place := fun (i : Nat) => (keep.findIdx? (· == i)).getD 0
  ⟨keep.map fun i => place (listAt 0 t.parents i), keep.map fun i => listAt 0 t.tokens i⟩

/-- The tree that a sequence's next step feeds. -/
def Sequence.stepTree (x : Sequence) : Tree := x.tree.getD Tree.root

/-- P, n and the root position of a sequence's next step (R275). -/
def Sequence.pLen (x : Sequence) : Nat := x.prompt.length
def Sequence.nEmitted (x : Sequence) : Nat := x.emitted.length
def Sequence.rootPos (x : Sequence) : Nat := x.pLen + x.nEmitted - 1

/-- Rows of a prompt, or of a rebuild (R236, R255): every prompt token, then every emitted token but the last. -/
def Sequence.promptRows (x : Sequence) : List Nat :=
  if x.rebuild then x.prompt ++ x.emitted.dropLast else x.prompt

/-- The queue of a sequence's units: prompt 1, decoding 2. -/
def seqKey (x : Sequence) (r : Request) (phase : Nat) : QueueKey :=
  { slot := x.slot, phase := phase, priority := r.priority,
    bucket := bucketOf r.bucket (if phase = 1 then x.pLen else x.pLen + x.nEmitted) }

/-- Queue the next prompt chunk of a sequence: at most the slot's batch rows (R236). -/
def State.queueChunk (s : State) (q : Nat) : State :=
  match s.seq q with
  | none => s
  | some x =>
    match s.request x.row, (s.slot x.slot).image with
    | some r, some g =>
      let left := x.promptRows.length - x.done
      (s.putSeq q { x with phase := .prompt }).enqueue
        { key := seqKey x r 1, kind := .chunk, row := x.row, seq := q, rows := min left g.header.batchRows,
          customer := r.customer, admitRec := r.admitRec, entered := s.srv.count }
    | _, _ => s

/-- May a target's skim model draft for its next step: has it a skim sequence whose image's positions reach the root? -/
def State.canDraft (s : State) (x : Sequence) : Bool :=
  match x.partner.bind s.seq with
  | none => false
  | some y => (s.slot y.slot).image.any fun g => decide (x.rootPos < g.header.context)

/-- The skim sequence of a target that waits for a draft takes its next step (R271, R277; log entry 18): its tree is the chain of the
target's accepted path, the tokens from the first that it has not fed to the new root. A chain that no batch of the skim slot holds is
cut: all but its root run as prompt rows first. -/
def State.queueDraft (s : State) (main : Nat) : State :=
  match s.seq main with
  | none => s
  | some y =>
    match y.partner.bind fun q => (s.seq q).map fun x => (q, x) with
    | none => s
    | some (q, x) =>
      match s.request y.row, (s.slot x.slot).image with
      | some r, some g =>
        let start := min x.committed y.rootPos
        let k := y.rootPos - start
        if x.phase ≠ .draft ∨ y.phase ≠ .draft then s
        else if g.header.batchRows ≤ k ∨ 64 ≤ k then
          (s.putSeq q { x with emitted := y.emitted, rebuild := true, done := start }).queueChunk q
        else
          let toks := y.prompt ++ y.emitted
          let t : Tree := ⟨(List.range (k + 1)).map (· - 1), (List.range (k + 1)).map fun i => listAt 0 toks (start + i)⟩
          let x1 : Sequence := { x with phase := .queued, emitted := y.emitted.take (y.nEmitted - k), tree := some t }
          (s.putSeq q x1).enqueue
            { key := seqKey x1 r 2, kind := .step, row := x.row, seq := q, rows := k + 1, customer := r.customer,
              admitRec := r.admitRec, entered := s.srv.count }
      | _, _ => s

/-- A sequence is ready for its next step: it waits for candidates (R271), for its draft, or for unsent tokens to leave
(R236); otherwise its unit enters its queue. -/
def State.queueStep (s : State) (q : Nat) : State :=
  match s.seq q with
  | none => s
  | some x =>
    match s.request x.row, (s.slot x.slot).image with
    | some r, some g =>
      if 256 ≤ s.unsentTokens x then s.putSeq q { x with phase := .unsent }
      else if x.cand ∧ x.tree.isNone then s.putSeq q { x with phase := .candidates }
      else if x.skim ∧ x.tree.isNone ∧ s.canDraft x then (s.putSeq q { x with phase := .draft }).queueDraft q
      else
        let t := x.stepTree.trim x.rootPos x.nEmitted g.header.context x.tokenLimit
        (s.putSeq q { x with phase := .queued, tree := if x.tree.isSome then some t else none }).enqueue
          { key := seqKey x r 2, kind := .step, row := x.row, seq := q, rows := t.tokens.length, customer := r.customer,
            admitRec := r.admitRec, entered := s.srv.count }
    | _, _ => s

/-- Sequences whose unsent tokens have left enter their queues (R236). -/
def State.wakeUnsent (s : State) : State :=
  s.srv.sequences.foldl (fun s x => if x.2.phase = .unsent then s.queueStep x.1 else s) s

-- The queue that comes next (R234).

/-- The queue's units. -/
def State.unitsOf (s : State) (k : QueueKey) : List QUnit := s.srv.queue.filter fun u => u.key == k

/-- Units that may be taken: their slot holds its image and is not being reloaded, and what the image needs is in service (R73, R91,
R145: the requests of a protected session that an unusable array or trim block leaves are the twin's). -/
def State.slotRuns (s : State) (k : Nat) : Bool :=
  ((s.slot k).state == .ready || (s.slot k).state == .unloading) && !(s.slot k).reload &&
    (s.slot k).image.any fun g => !(s.rbit Fld.ARR_REMAP_UNUSABLE && g.usesArray) && !(s.rbit Fld.TRIM_STATUS_UNUSABLE && g.usesTrim)

/-- Is a queue ready (R234): its rows fill the slot's batch rows, its hold has expired, or its oldest row has waited
SRV.HOLD.HOLD_US? -/
def State.queueReady (s : State) (k : QueueKey) : Bool :=
  let us := s.unitsOf k
  let rows := us.foldl (fun n u => n + u.rows) 0
  let b : Nat := match (s.slot k.slot).image with
    | some g => g.header.batchRows
    | none => 1
  !us.isEmpty && s.slotRuns k.slot &&
    (decide (b ≤ rows) || us.any s.srv.held.contains ||
      us.any fun u => decide (u.entered + s.rget Fld.SRV_HOLD_HOLD_US ≤ s.srv.count))

/-- The keys of the queues that hold units, each once. -/
def State.queueKeys (s : State) : List QueueKey :=
  s.srv.queue.foldl (fun l u => if l.contains u.key then l else l ++ [u.key]) []

/-- The admission index of the oldest of a list of units. -/
def unitsAge : List QUnit → Nat
  | [] => 0
  | u :: us => us.foldl (fun n v => min n v.admitRec) u.admitRec

/-- Of a list of queues, each with the units of it that count, the one of the highest priority whose oldest row was admitted
first. -/
def bestQueue (l : List (QueueKey × List QUnit)) : Option (QueueKey × List QUnit) :=
  l.foldl (fun best k =>
    match best with
    | none => some k
    | some b =>
      if b.1.priority < k.1.priority ∨ (k.1.priority = b.1.priority ∧ unitsAge k.2 < unitsAge b.2) then some k else best) none

/-- The queue that shared mode takes next (R234). -/
def State.chosenQueue (s : State) : Option QueueKey :=
  (bestQueue ((s.queueKeys.filter s.queueReady).map fun k => (k, s.unitsOf k))).map (·.1)

/-- Does a batch run its last coat: have all the coats before it completed? -/
def Batch.lastCoat (b : Batch) : Bool := b.runs.dropLast.all (·.complete)

/-- The slot that is named to the sequencer: while a batch's last coat runs, that of the queue which would be chosen as things then
stand (R234); none in fixed-slot mode (R247). -/
def State.named (s : State) : Option Nat :=
  match s.srv.batch with
  | none => none
  | some b => if b.lastCoat ∧ !s.rbit Fld.SRV_MODE_FIXED then s.chosenQueue.map (·.slot) else none

-- Admission (R225).

/-- The plaintext header of a partner message (R312), for its digest. -/
def partnerHeader (x : Session) (m : Msg) (type : Nat) : List Byte :=
  leBytes 2 0x5451 ++ leBytes 1 x.minor ++ leBytes 1 1 ++ leBytes 2 type ++ leBytes 2 0 ++ leBytes 4 x.number ++
    leBytes 4 m.payload.length ++ leBytes 8 m.number ++ leBytes 4 m.tag ++ leBytes 2 0 ++ [0, 0]

/-- The digest of a message's plaintext header and payload (R345). -/
def msgDigest (x : Session) (m : Msg) (type : Nat) : List Byte := sha384 (partnerHeader x m type ++ m.payload)

/-- Is the journal too full, or the module quiesced, for new work (R349, R357)? -/
def State.workRefused (s : State) : Bool := s.journalFull 128 || s.cont.quiesced

/-- The state of a refusal of new work for lack of journal space (R349). -/
def State.noteFull (s : State) : State :=
  if s.journalFull 128 then (s.rset Fld.CONT_FAULT_JOURNAL_FULL 1).rset Fld.CONT_STATUS_FULL 1 else s

/-- The parameters of a submission to admission. -/
structure Submission where
  session : Session
  number : Nat
  ordinal : Nat := 0
  tag : Nat
  customer : Nat
  slot : Nat
  priority : Nat
  bucket : Nat
  deadline : Option Nat
  stamp : Nat
  digest : List Byte
  input : List Byte
  /-- Context and picture of a submitted picture (R292). -/
  picture : Option (Nat × Nat) := none
  deriving Repr

/-- Steps 1 to 5 of R225 and the fields that both messages share of step 6. -/
def State.admitCommon (s : State) (u : Submission) (kind : Nat) (skim : Bool) : Except Code Image :=
  match s.readyImage u.slot with
  | none => .error (if s.rbit Fld.MEM_STATUS_OUT then Code.F_MEM else Code.E_SLOT_STATE)
  | some g =>
    if s.rbit Fld.MEM_STATUS_OUT then .error Code.F_MEM
    else if g.header.kind ≠ kind ∨ (skim ∧ (s.skimSlot g).isNone) then .error Code.E_MODEL_KIND
    else if !(s.account u.customer).isOpen then .error Code.E_CUSTOMER
    else if !s.customerAllowed u.session u.customer then .error Code.E_ROLE
    else if u.picture.isNone ∧ s.tagLive u.session.number u.tag then .error Code.E_TAG_BUSY
    else if 3 < u.priority ∨ !(u.bucket ≤ 16 ∨ u.bucket = 255) then .error Code.E_PARAM
    else .ok g

/-- Refill a session's window with clear pages, as many as there are (R325). -/
def State.refillWindow (s : State) (n : Nat) : State :=
  match s.session n with
  | none => s
  | some x =>
    match s.takePages (min (x.window / 65536 - x.pages.length) s.clearCount) with
    | none => s
    | some (l, s1) => s1.onSession n fun x => { x with pages := x.pages ++ l }

/-- Refill every window that waits for clear pages (R325). -/
def State.refillWindows (s : State) : State := s.net.sessions.foldl (fun (s : State) x => s.refillWindow x.2.number) s

/-- Pages for a request: those of its input pass to it from its session's window, which is refilled with clear pages (R325); its
staging pages are taken from the pool (R226), or under the customer's quota (R249). A window that still waits for its refill holds too
few pages for an input, and the pool supplies the rest. -/
def State.takeRequestPages (s : State) (session cu input staging : Nat) : Option (List Nat × List Nat × State) :=
  if !s.pagesAllowed cu staging then none
  else
    match s.takePages staging with
    | none => none
    | some (stg, s1) =>
      let give := ((s1.session session).map fun x => x.pages.take input).getD []
      match s1.takePages (input - give.length) with
      | none => none
      | some (more, s2) =>
        some (give ++ more, stg, (s2.onSession session fun x => { x with pages := x.pages.drop input }).refillWindow session)

/-- Admit a pass request, or the first failure of R225. `height` is the dynamic height; the input of a picture lies in the
video engine's slots and is not checked in step 8 and 11 (R292). -/
def State.admitPass (s : State) (u : Submission) (height : Nat) : Except Code State :=
  match s.admitCommon u 1 false with
  | .error c => .error c
  | .ok g =>
    let cost := (s.slot u.slot).passCost
    let own := u.picture.isNone
    if height ≠ 0 ∧ !g.dynamic then .error Code.E_PARAM
    else if g.header.nondet ∧ u.session.wantsProtected then .error Code.E_NONDET
    else if own ∧ u.input.length ≠ g.inputSize then .error Code.E_INPUT_SIZE
    else if u.session.partnerWindow < g.outputSize + 80 then .error Code.E_WINDOW
    else if !g.heightOk height then .error Code.E_COUNT_RANGE
    else if own ∧ !g.inputExpsOk u.input then .error Code.E_FORMAT
    else if (s.account u.customer).balance < cost then .error Code.E_BUDGET
    else if !s.placeFree u.customer ∨ s.workRefused then .error Code.B_RETRY
    else
      match s.takeRequestPages u.session.number u.customer (ceilDiv u.input.length 65536) (ceilDiv g.outputSize 65536) with
      | none => .error Code.B_RETRY
      | some (inp, stg, s1) =>
        let s2 := (s1.putPages inp 0 u.input).debit u.customer cost
        let s3 := s2.journal u.session.number 0
          (.admitted u.digest u.customer u.slot u.priority u.bucket cost 0 0 inp)
        let idx := s3.lastIndex
        let row := idx % 4294967296
        let len := if g.dynamic then height else 1
        let r : Request :=
          { row := row, session := u.session.number, tag := u.tag, number := u.number, ordinal := u.ordinal, gen := false,
            customer := u.customer, slot := u.slot, priority := u.priority, bucket := u.bucket,
            deadline := u.deadline.elim (2 ^ 64) (s.srv.count + ·), height := height, stamp := u.stamp, admitRec := idx,
            debit := cost, input := inp, inputLength := u.input.length, staging := stg, outSize := g.outputSize,
            picture := u.picture }
        let s4 := (s3.putRequest r).enqueue
          { key := { slot := u.slot, phase := 0, priority := u.priority, bucket := bucketOf u.bucket len }, kind := .pass,
            row := row, seq := 4294967295, rows := 1, customer := u.customer, admitRec := idx, entered := s.srv.count }
        .ok (s4.count Fld.SRV_ADMITTED_COUNT)

/-- Note a count that a request's coat cannot take (R99, R107, R113): the event, and the place of the first feed fault. -/
def State.noteCount (s : State) (generator binding coat : Nat) : State :=
  let first := s.rget Fld.FEED_FAULT_COUNT + s.rget Fld.FEED_FAULT_BANK_UNCORR = 0
  let s1 := if first then
      ((s.rset Fld.FEED_FAULT_LOC_GENERATOR generator).rset Fld.FEED_FAULT_LOC_BINDING binding).rset Fld.FEED_FAULT_LOC_COAT coat
    else s
  s1.rset Fld.FEED_FAULT_COUNT 1

/-- The first program, of all coats, that a dynamic height does not fit: its coat, and the binding it breaks (R99). -/
def Image.heightBreak (g : Image) (h : Nat) : Option (Nat × Nat) :=
  g.coats.zipIdx.findSome? fun (c, i) =>
    ((g.programsOf c).find? fun p => p.h == 0 && !g.heightFits c p h).map fun p =>
      (i, if g.readsTensor c p && decide (g.srcHeight p < h) then p.src
          else if p.kind = 5 ∧ h ≤ g.indexHeight p p.dst then p.aux else p.dest c)

/-- Note in FEED.FAULT that admission ends a request with E_COUNT_RANGE (R99, R113): no generator is in question (15), and the
binding and the coat are those of the first program whose height does not fit. -/
def State.noteHeight (s : State) (slot h : Nat) (c : Code) : State :=
  if c ≠ Code.E_COUNT_RANGE then s
  else match (s.slot slot).image.bind fun g => g.heightBreak h with
    | some (coat, binding) => s.noteCount 15 binding coat
    | none => s.rset Fld.FEED_FAULT_COUNT 1

/-- A refusal of new work: its REFUSE record, and the RESULT or STOP that waits for it (R347) and leaves on the grid (R243). -/
def State.refuseWork (s : State) (m : Msg) (x : Session) (type replyType : Nat) (c : Code) (payload : List Byte) : State :=
  let msg : ModMsg := { number := replyNumber m.number 0, type := replyType, code := c, tag := m.tag, payload := payload }
  if s.journalFull 128 then (s.noteFull.pushGrid m.session { msg with code := Code.B_RETRY }).count Fld.SRV_REFUSED_COUNT
  else
    let s1 := s.journal x.number 0 (.refuse (msgDigest x m type) c)
    (s1.pushGrid m.session { msg with needs := [s1.lastIndex] }).count Fld.SRV_REFUSED_COUNT

/-- A record received from the twin (R344: origin bit 7). -/
def fromTwin (r : JRecord) : JRecord := { r with origin := r.origin % 128 + 128, written := false }

/-- Append a record of the holder to the follower's journal at the holder's index, once (R352). -/
def State.mirrorIn (s : State) (r : JRecord) : State :=
  if s.cont.journal.any fun x => x.index == r.index && 128 ≤ x.origin then s
  else { s with cont := { s.cont with journal := s.cont.journal ++ [fromTwin r], nextIndex := max s.cont.nextIndex (r.index + 1) } }

/-- Do as the holder did at a record (R352): `f` runs with the rights and the journal index of the holder; the bound records it
writes are the holder's. -/
def State.follow (s : State) (r : JRecord) (f : State → State) : State :=
  let t := s.twinState
  let n := s.cont.nextIndex
  let s0 := s.rset Fld.CONT_STATUS_TWIN 0
  let s1 := f { s0 with cont := { s0.cont with nextIndex := r.index } }
  let old := s.cont.journal
  let new := s1.cont.journal.drop old.length
  let kept := (new.filter fun x => !(isBound x.body && old.any fun y => y.index == x.index && 128 ≤ y.origin)).map fun x =>
    if isBound x.body then fromTwin x else x
  let s2 : State := { s1 with cont := { s1.cont with journal := old ++ kept, nextIndex := max n s1.cont.nextIndex } }
  s2.rset Fld.CONT_STATUS_TWIN t

/-- The refusing RESULT (R219) and STOP (R223). -/
def refusedResult (stamp : Nat) : List Byte := resultPayload 0 false stamp []
def refusedStop (stamp : Nat) : List Byte := stopPayload 0 9 0 stamp 0

/-- Every refusal of a SUBMIT_PASS is a RESULT (R215, R219). -/
def passRefusal (m : Msg) (s : State) (x : Session) (c : Code) : State :=
  (s.noteHeight (u8 m.payload 2) (u32 m.payload 12) c).refuseWork m x 0x0100 0x0110 c (refusedResult (u64 m.payload 16))

/-- Every refusal of a SUBMIT_GEN is a STOP (R215, R223). -/
def genRefusal (m : Msg) (s : State) (x : Session) (c : Code) : State :=
  s.refuseWork m x 0x0101 0x0112 c (refusedStop (u64 m.payload 16))

/-- SUBMIT_PASS (R217, R225). -/
def submitPassEffect (m : Msg) (s : State) : State :=
  if !s.mayActFor m.session then s
  else s.withMsg m 0x0100 none (refuse := passRefusal m) fun s x =>
    let p := m.payload
    if p.length ≠ 32 + u32 p 24 then passRefusal m s x Code.E_INPUT_SIZE
    else if !allZero p 5 3 ∨ !allZero p 28 4 then passRefusal m s x Code.E_RESERVED
    else
      let sub : Submission :=
        { session := x, number := m.number, tag := m.tag, customer := u16 p 0, slot := u8 p 2, priority := u8 p 3,
          bucket := u8 p 4, deadline := some (if u32 p 8 = 0 then 1000000 else u32 p 8), stamp := u64 p 16,
          digest := msgDigest x m 0x0100, input := p.drop 32 }
      match s.admitPass sub (u32 p 12) with
      | .error c => passRefusal m s x c
      | .ok s1 => s1

/-- The refusal of a SUBMIT_PASS with a code that the holder gave (R352). -/
def refusePass (m : Msg) (c : Code) (s : State) : State :=
  s.withMsg m 0x0100 none (refuse := passRefusal m) fun s x => passRefusal m s x c

/-- The fields of SUBMIT_GEN within their ranges (R221, R271). -/
def genFieldsOk (p : List Byte) : Bool :=
  let flags := u8 p 5
  let t := u32 p 32
  !(flags.testBit 0 && flags.testBit 1) && decide (u8 p 6 ≤ 8 ∧ u8 p 7 ≤ 64) &&
    decide (1 ≤ u32 p 12 ∧ u32 p 12 ≤ 65536) && decide (t < 0x7F800000) &&
    (flags.testBit 3 || u32 p 36 == 0) && decide (1 ≤ u32 p 40 ∧ u32 p 40 ≤ 65535) &&
    allZero p (48 + 4 * u8 p 6) (32 - 4 * u8 p 6)

/-- The first allowance (R231). -/
def firstAllowance (left block limit cost : Nat) : Nat := min left (min (block * cost) (limit * cost))

/-- A free sequence slot from `lo` on. -/
def State.freeSlot (s : State) (lo : Nat) : Option Nat := Dict.firstFree s.srv.sequences lo (4096 - lo)

/-- Give a new sequence its descriptor and the chunks that R269 lets it share; gives their number. -/
def State.sharedPages (s : State) (q slot customer : Nat) (g : Image) (prompt : List Nat) : Option (Nat × State) :=
  let s0 := s.putDesc q { base := 0, length := 0, kind := 1, readOnly := false, slot := slot }
  match g.kv.bind fun k => (s.bestShare k slot customer prompt).map fun b => (k, b) with
  | none => some (0, s0)
  | some (k, o, n) => (s0.sharePages q o (n * k.perChunk)).map fun t => (n, t)

/-- Give a new sequence the pages of its first prompt chunk, those it shares among them; gives the chunks shared. -/
def State.firstPages (s : State) (q slot customer : Nat) (g : Image) (prompt : List Nat) : Option (Nat × State) :=
  match s.sharedPages q slot customer g prompt, g.kv with
  | none, _ => none
  | some r, none => some r
  | some (n, s1), some k =>
      let rows := min (prompt.length - n * k.cap) g.header.batchRows
      (s1.ensureChunks q k customer (k.chunks (n * k.cap + rows))).map fun t => (n, t)

/-- Admit a generation request, or the first failure of R225. -/
def State.admitGen (s : State) (u : Submission) (p : List Byte) : Except Code State :=
  let flags := u8 p 5
  let skim := flags.testBit 0
  match s.admitCommon u 2 skim with
  | .error c => .error c
  | .ok g =>
    let slot := s.slot u.slot
    let plen := u32 p 40
    let limit := u32 p 12
    let bal := (s.account u.customer).balance
    let skimNondet : Bool := match (s.skimSlot g).bind s.readyImage with
      | some h => skim && h.header.nondet
      | none => false
    let prompt := (List.range plen).map fun i => u32 p (80 + 4 * i)
    if !genFieldsOk p then .error Code.E_PARAM
    else if ((flags.testBit 2 ∨ flags.testBit 3) ∧ (!g.header.nondet ∨ u.session.wantsProtected)) ∨
        (g.header.nondet ∧ u.session.wantsProtected) ∨ skimNondet then .error Code.E_NONDET
    else if p.length ≠ 80 + 4 * plen then .error Code.E_INPUT_SIZE
    else if g.header.context - 1 < plen then .error Code.E_CONTEXT_LIMIT
    else if bal < plen * slot.promptCost + slot.tokenCost then .error Code.E_BUDGET
    else if !s.placeFree u.customer ∨ s.workRefused ∨ !s.slotsFree u.customer (if skim then 2 else 1) then
      .error Code.B_RETRY
    else
      match s.freeSlot 0 with
      | none => .error Code.B_RETRY
      | some q =>
        match s.firstPages q u.slot u.customer g prompt with
        | none => .error Code.B_RETRY
        | some (shared, s1) =>
          match s1.takeRequestPages u.session.number u.customer (ceilDiv p.length 65536) 1 with
          | none => .error Code.B_RETRY
          | some (inp, stg, s2) =>
            let allow := firstAllowance (bal - plen * slot.promptCost) (s.rget Fld.SRV_ALLOW_BLOCK) limit slot.tokenCost
            let debit := plen * slot.promptCost + allow
            let d := s2.draw
            let s3 := if flags.testBit 2 then d.2 else s2
            let seed := if flags.testBit 2 then (Config.randomSeed d.1).toNat else u64 p 24
            let s4 := (s3.putPages inp 0 p).debit u.customer debit
            let s5 := s4.journal u.session.number q
              (.admitted u.digest u.customer u.slot u.priority u.bucket debit allow seed inp)
            let idx := s5.lastIndex
            let row := idx % 4294967296
            let r : Request :=
              { row := row, session := u.session.number, tag := u.tag, number := u.number, gen := true,
                customer := u.customer, slot := u.slot, priority := u.priority, bucket := u.bucket,
                deadline := u.deadline.elim (2 ^ 64) (s.srv.count + ·), stamp := u.stamp, admitRec := idx, debit := debit,
                input := inp, inputLength := p.length, staging := stg, outSize := g.outputSize, seq := some q }
            let cap := match g.kv with
              | some k => k.cap
              | none => 0
            let x : Sequence :=
              { row := row, slot := u.slot, prompt := prompt, seed := seed, temperature := u32 p 32, skim := skim,
                cand := flags.testBit 1, elapsed := flags.testBit 3, elapsedLimit := u32 p 36, admittedAt := s.srv.count,
                stopTokens := (List.range (u8 p 6)).map fun i => u32 p (48 + 4 * i), flush := max 1 (u8 p 7),
                tokenLimit := limit, allowance := allow, allowRecord := idx, done := shared * cap, shared := shared,
                committed := shared * cap }
            let s6 := ((s5.putRequest r).putSeq q x).queueChunk q
            let s7 := if !skim then s6
              else
                match s6.freeSlot 0, (s.skimSlot g).bind fun k2 => (s.readyImage k2).map fun h => (k2, h) with
                | some q2, some (k2, h) =>
                  let t := (s6.sharedPages q2 k2 u.customer h prompt).getD
                    (0, s6.putDesc q2 { base := 0, length := 0, kind := 1, readOnly := false, slot := k2 })
                  let from_ := t.1 * (h.kv.map (·.cap)).getD 0
                  let y : Sequence :=
                    { row := row, slot := k2, prompt := prompt, seed := seed, temperature := u32 p 32, done := from_,
                      committed := from_, shared := t.1, tokenLimit := limit, partner := some q, isSkim := true }
                  ((t.2.putSeq q2 y).onSeq q fun x => { x with partner := some q2 }).queueChunk q2
                | _, _ => s6
            .ok (s7.count Fld.SRV_ADMITTED_COUNT)

/-- SUBMIT_GEN (R221, R225, R231). -/
def submitGenEffect (m : Msg) (s : State) : State :=
  if !s.mayActFor m.session then s
  else s.withMsg m 0x0101 none (refuse := genRefusal m) fun s x =>
    let p := m.payload
    if p.length ≠ 80 + 4 * u32 p 40 then genRefusal m s x Code.E_INPUT_SIZE
    else if 16 ≤ u8 p 5 ∨ !allZero p 44 4 then genRefusal m s x Code.E_RESERVED
    else
      let sub : Submission :=
        { session := x, number := m.number, tag := m.tag, customer := u16 p 0, slot := u8 p 2, priority := u8 p 3,
          bucket := u8 p 4, deadline := some (if u32 p 8 = 0 then 1000000 else u32 p 8), stamp := u64 p 16,
          digest := msgDigest x m 0x0101, input := p }
      match s.admitGen sub p with
      | .error c => genRefusal m s x c
      | .ok s1 => s1

/-- The refusal of a SUBMIT_GEN with a code that the holder gave (R352). -/
def refuseGen (m : Msg) (c : Code) (s : State) : State :=
  s.withMsg m 0x0101 none (refuse := genRefusal m) fun s x => genRefusal m s x c

end Sys2Proof.Machine
end

