-- ==== Sys2Proof/Machine/Steps.lean ====
section
/-! DEFINITION. Steps.lean: decoding steps, their pages, preemption and rebuild (R231, R236, R239 to R241, R254, R255, R266,
R276, R277). -/

namespace Sys2Proof.Machine

-- Preemption (R254).

/-- Pages that will be clear once the freed ones are cleared (R193). -/
def State.pagesSoon (s : State) : Nat :=
  s.clearCount + (s.mem.pool.filter fun x => x.2 == .awaiting).length + s.mem.afterMarker.length

/-- Release a sequence's pages and keep its slot and journalled state (R254). -/
def State.preempt (s : State) (q : Nat) : State :=
  match s.seq q with
  | none => s
  | some x =>
    match s.request x.row with
    | none => s
    | some r =>
      let s1 := (s.journal r.session q (.preempt q)).count Fld.SRV_PREEMPTS_COUNT
      let s2 := s1.shrink q 0
      let s3 : State := { s2 with srv := { s2.srv with queue := s2.srv.queue.filter fun u => u.seq != q } }
      (s3.putDesc q { base := 0, length := 0, kind := 1, readOnly := false, slot := x.slot }).putSeq q
        { x with phase := .preempted, done := 0, committed := 0, shared := 0 }

/-- Is victim a preferred to victim b (R254)? -/
def State.preferVictim (s : State) (a b : Nat × Sequence) : Bool :=
  match s.request a.2.row, s.request b.2.row with
  | some ra, some rb =>
    let idle := fun (x : Sequence) => x.phase == .candidates || x.phase == .unsent
    let wa := max (s.account ra.customer).weight 1
    let wb := max (s.account rb.customer).weight 1
    let ca := s.customerPages ra.customer * wb
    let cb := s.customerPages rb.customer * wa
    if idle a.2 != idle b.2 then idle a.2
    else if ra.priority ≠ rb.priority then decide (ra.priority < rb.priority)
    else if ca ≠ cb then decide (cb < ca)
    else decide (rb.row < ra.row)
  | some _, none => true
  | none, _ => false

/-- The next sequence to preempt for sequence q: none in the running batch, and in fixed-slot mode only one of q's own
customer (R247). -/
def State.victim (s : State) (q customer : Nat) : Option Nat :=
  (s.srv.sequences.foldl (fun best x =>
    let own : Bool := match s.request x.2.row with
      | some r => !s.rbit Fld.SRV_MODE_FIXED || r.customer == customer
      | none => false
    if x.1 = q ∨ (s.desc x.1).length = 0 ∨ s.seqInBatch x.1 ∨ !atBoundary x.2.phase ∨ !own then best
    else
      match best with
      | some b => if s.preferVictim x b then some x else best
      | none => some x) none).map (·.1)

/-- Preempt until the pages and table entries that sequence q needs are free or being cleared. -/
def State.preemptFor (s : State) (q customer want : Nat) : Nat → State
  | 0 => s
  | fuel + 1 =>
    let need := want - (s.desc q).length
    if need ≤ s.pagesSoon ∧ (s.roomFor q want).isSome ∧ s.pagesAllowed customer need then s
    else
      match s.victim q customer with
      | none => s
      | some v => (s.preempt v).preemptFor q customer want fuel

/-- The pages that a unit needs are given to its sequence, preempting others where they are lacking (R254, R266). Gives
whether the unit can run now; the only live sequence stops with E_FOOTPRINT, in fixed-slot mode the only one of its customer (R248). A
skim sequence ends with its target (R271). -/
def State.unitPages (s : State) (q : Nat) (positions : Nat) : State × Bool :=
  match s.seq q with
  | none => (s, false)
  | some x =>
    match s.request x.row, (s.slot x.slot).image.bind (·.kv) with
    | some r, some k =>
      let chunks := k.chunks positions
      match s.ensureChunks q k r.customer chunks with
      | some t => (t, true)
      | none =>
        if !s.mayActFor r.session then (s, false)
        else
          let s1 := s.preemptFor q r.customer (chunks * k.perChunk) (s.srv.sequences.length + 1)
          match s1.ensureChunks q k r.customer chunks with
          | some t => (t, true)
          | none =>
            let others := s1.srv.sequences.any fun y => y.1 != q && y.2.partner != some q &&
              (!s.rbit Fld.SRV_MODE_FIXED || (s1.request y.2.row).any (·.customer == r.customer))
            let need := chunks * k.perChunk - (s1.desc q).length
            if others ∨ (need ≤ s1.pagesSoon ∧ s1.pagesAllowed r.customer need) then (s1, false)
            else ((s1.endSeq (if x.isSkim then x.partner.getD q else q) ⟨9, 0, Code.E_FOOTPRINT⟩).rset Fld.SRV_FAULT_REBUILD 1, false)
    | some _, none => (s, true)
    | none, _ => (s, false)

/-- Set the committed and tree counts of a sequence's pages from the chunk of position `from_` on (R264). -/
def State.setCounts (s : State) (q from_ committed tree : Nat) : State :=
  match s.seq q with
  | none => s
  | some x =>
    match (s.slot x.slot).image.bind (·.kv) with
    | none => s
    | some k =>
      let d := s.desc q
      ((List.range d.length).drop (from_ / max k.cap 1 * k.perChunk)).foldl (fun s n =>
        let c := n / max k.perChunk 1
        let done := min k.cap (committed - c * k.cap)
        let upTo := min k.cap (committed + tree - c * k.cap)
        let e := s.entry (d.base + n)
        if entryV e ∧ entryW e then
          s.putDram (pageAddr (entryPage e) + 16) (leBytes 2 done ++ leBytes 2 (upTo - done))
        else s) s

/-- The place of a key or value entry of a position: the physical address of byte `off` of its page. -/
def State.kvAddr (s : State) (q : Nat) (k : KvShape) (layer head pos off : Nat) : Option Nat :=
  let d := s.desc q
  let n := k.vpage (pos / max k.cap 1) layer head
  if d.length ≤ n then none
  else
    let e := s.entry (d.base + n)
    if entryV e then some (pageAddr (entryPage e) + off) else none

/-- Copy the key and value of every layer and head from one position to another (R277 step 4). -/
def State.copyEntry (s : State) (q : Nat) (k : KvShape) (src dst : Nat) : State :=
  if src = dst then s
  else
    (List.range k.perChunk).foldl (fun s i =>
      let l := i / max k.heads 1
      let h := i % max k.heads 1
      match s.kvAddr q k l h src 0, s.kvAddr q k l h dst 0 with
      | some a, some b =>
        let key := s.dramBytes (a + k.keyAt (src % k.cap)) k.krow
        let val := s.dramBytes (a + k.valueAt (src % k.cap)) k.krow
        (s.putDram (b + k.keyAt (dst % k.cap)) key).putDram (b + k.valueAt (dst % k.cap)) val
      | _, _ => s) s

-- The stop walk (R231, R239).

/-- Debit a further allowance where the unspent one is below SRV.ALLOW.LOW tokens (R231): a bound action. -/
def State.topUp (s : State) (q cost : Nat) : State :=
  match s.seq q with
  | none => s
  | some x =>
    match s.request x.row with
    | none => s
    | some r =>
      if !s.mayActFor r.session ∨ s.rget Fld.SRV_ALLOW_LOW * cost ≤ x.allowance then s
      else
        let add := firstAllowance (s.account r.customer).balance (s.rget Fld.SRV_ALLOW_BLOCK) x.tokenLimit cost
        let s1 := (s.debit r.customer add).journal r.session q (.allow q add)
        s1.putSeq q { x with allowance := x.allowance + add, allowRecord := s1.lastIndex }

/-- Walk the accepted tokens of a step (R239). -/
def State.stopWalk (s : State) (q cost context : Nat) : List Nat → State × Option SeqStop
  | [] => (s, none)
  | t :: ts =>
    match s.seq q with
    | none => (s, none)
    | some x =>
      if x.stopTokens.contains t then (s, some ⟨1, t, 0⟩)
      else if x.allowance < cost then (s, some ⟨4, 0, Code.E_BUDGET⟩)
      else
        let n := x.emitted.length + x.stepTokens.length + 1
        let s1 := s.putSeq q { x with allowance := x.allowance - cost, stepTokens := x.stepTokens ++ [t] }
        if n = x.tokenLimit then (s1, some ⟨2, 0, 0⟩)
        else if x.prompt.length + n = context then (s1, some ⟨3, 0, 0⟩)
        else (s1.topUp q cost).stopWalk q cost context ts

/-- The accepted path (R276): the nodes after the root whose tokens the target chose, in order. -/
def Tree.accept (t : Tree) (sampled : List Nat) : Nat → Nat → List Nat
  | 0, _ => []
  | fuel + 1, x =>
    match (List.range t.tokens.length).find? fun c =>
      c != 0 && listAt 0 t.parents c == x && listAt 0 t.tokens c == listAt 0 sampled x with
    | none => []
    | some c => c :: t.accept sampled fuel c

/-- The accepted tokens of a step (R276): those of the path, then the target's choice at its end. -/
def Tree.acceptedTokens (t : Tree) (sampled : List Nat) (path : List Nat) : List Nat :=
  path.map (fun c => listAt 0 t.tokens c) ++ [listAt 0 sampled (path.getLast?.getD 0)]

/-- Compact an accepted path (R277 step 4): for δ from 1 to `depth`, in ascending order, from slot root + path[δ] to slot root + δ. -/
def State.compact (s : State) (q root depth : Nat) (path : List Nat) : State :=
  match ((s.seq q).bind fun x => (s.slot x.slot).image).bind (·.kv) with
  | none => s
  | some k => (List.range depth).foldl (fun (s : State) (d : Nat) => s.copyEntry q k (root + listAt 0 path d) (root + d + 1)) s

/-- Step 6 of R277: committed and tree counts from the chunk of position `root` on, and the release of the chunks that lie wholly
beyond the next root (R266). -/
def State.commitPages (s : State) (q root next : Nat) : State :=
  let s1 := s.setCounts q root next 0
  match ((s.seq q).bind fun x => (s.slot x.slot).image).bind (·.kv) with
  | none => s1
  | some k => s1.shrink q ((next / max k.cap 1 + 1) * k.perChunk)

/-- A skim sequence's step has ended: steps 4 and 6 of R277 with its own chain, which is the target's accepted path; then its draft
is taken as a CANDIDATES message is (R271); an invalid draft is no tree. The node count is one more than the last node with a parent or
a token (log entry 18). -/
def State.takeDraft (s : State) (q : Nat) (x : Sequence) : State :=
  match x.partner with
  | none => s
  | some main =>
    match s.seq main with
    | none => s
    | some y =>
      let nodes := ((List.range 64).filter fun i => i == 0 || u8 x.draft i != 0 || u32 x.draft (64 + 4 * i) != 0).getLast?.getD 0 + 1
      let t : Tree := ⟨(List.range nodes).map fun i => if i = 0 then 0 else u8 x.draft i,
        (List.range nodes).map fun i => u32 x.draft (64 + 4 * i)⟩
      let stencil : Bool := match (s.slot y.slot).image with
        | some g => g.attns.all (·.stencil)
        | none => false
      let t1 := if t.valid (u8 x.draft 0) && (stencil || nodes == 1) then t else Tree.root
      let depth := x.stepTree.tokens.length - 1
      let next := x.rootPos + depth + 1
      let s0 := s.compact q x.rootPos depth ((List.range depth).map (· + 1))
      let s1 := (s0.putSeq q { x with phase := .draft, draft := [], tree := none, emitted := y.emitted, committed := next }).commitPages
        q x.rootPos next
      let s2 := s1.putSeq main { y with tree := some t1 }
      if y.phase = .draft then s2.queueStep main else s2

/-- A decoding step's coats have completed (R277 steps 3 to 5): the accepted path, the stop walk, compaction, and the records
of the step. A module that may take no bound action waits where the allowance it knows does not cover the tokens (R232). -/
def stepEndEffect (q : Nat) (s : State) : State :=
  match s.seq q with
  | none => s
  | some x =>
    if x.phase ≠ .running ∨ s.seqInBatch q then s
    else if x.isSkim then s.takeDraft q x
    else
      match s.request x.row, (s.slot x.slot).image with
      | some r, some g =>
        let cost := (s.slot x.slot).tokenCost
        let t := x.stepTree
        let failed := r.code ≠ 0
        let path := if failed then [] else t.accept x.sampled t.tokens.length 0
        let toks := if failed then [] else t.acceptedTokens x.sampled path
        let s0 := if x.allowance < cost ∧ !failed then s.topUp q cost else s
        let w := s0.stopWalk q cost g.header.context toks
        let held : Bool := match w.2 with
          | some st => st.reason == 4 && !s.mayActFor r.session
          | none => false
        if held then s
        else
          match w.1.seq q with
          | none => s
          | some y =>
            let stop : Option SeqStop :=
              if failed then some ⟨if r.code = Code.E_NUMERIC then 7 else 8, 0, r.code⟩
              else
                match w.2 with
                | some st => some st
                | none =>
                  if r.cancelled then some ⟨5, 0, Code.E_CANCELLED⟩
                  else if y.elapsed ∧ y.elapsedLimit < s.srv.count - y.admittedAt then some ⟨6, 0, 0⟩
                  else none
            let depth := min path.length y.stepTokens.length
            let s1 := w.1.compact q x.rootPos depth path
            let s2 := s1.journal r.session q (.tokens q x.emitted.length y.stepTokens) true
            let s3 := s2.putSeq q { y with phase := .recorded, path := path, stepRecord := s2.lastIndex,
                                           records := y.records ++ [s2.lastIndex] }
            match stop with
            | none => s3
            | some st => s3.recordStop q st y.allowance
      | _, _ => s

def execDecodingStepEnd (seq : Nat) (s : State) : Host.Outcome State Fault Refusal := .next (stepEndEffect seq s)

/-- The step's record is durable (R277 steps 6 and 7): committed and tree counts, release of what lies beyond the next root,
TOKENS and STOP under R241, the end of a cancelled sequence (R224), and the next step's unit. -/
def stepCommitEffect (q : Nat) (s : State) : State :=
  match s.seq q with
  | none => s
  | some x =>
    if x.phase ≠ .recorded ∨ !s.durable x.stepRecord then s
    else
      let y : Sequence := { x with emitted := x.emitted ++ x.stepTokens, stepTokens := [], tree := none, sampled := [],
                                   path := [], phase := .stopped, lost := false }
      let y1 : Sequence := { y with committed := y.rootPos }
      let s2 := (s.putSeq q y1).commitPages q x.rootPos y.rootPos
      match y1.stop with
      | some _ => s2.finishSeq q
      | none =>
        let s3 := if y1.flush ≤ y1.emitted.length - y1.sent then s2.sendTokens q else s2
        if (s.request x.row).any (·.cancelled) then s3.endSeq q ⟨5, 0, Code.E_CANCELLED⟩
        else if x.lost then s3.onSeq q fun z => { z with phase := .preempted, done := 0, committed := 0 }
        else s3.queueStep q

def execStepCommit (seq : Nat) (s : State) : Host.Outcome State Fault Refusal := .next (stepCommitEffect seq s)

/-- A preempted sequence is rebuilt (R255): its prompt and all its emitted tokens but the last run again as prompt
chunks. -/
def rebuildEffect (q : Nat) (s : State) : State :=
  match s.seq q with
  | none => s
  | some x =>
    if x.phase ≠ .preempted then s
    else
      let emitted := if x.isSkim then ((x.partner.bind s.seq).map (·.emitted)).getD x.emitted else x.emitted
      (s.putSeq q { x with emitted := emitted, rebuild := true, done := 0, committed := 0 }).queueChunk q

def execSequenceRebuild (seq : Nat) (s : State) : Host.Outcome State Fault Refusal := .next (rebuildEffect seq s)

end Sys2Proof.Machine
end

