-- ==== Sys2Proof/Machine/ServeCmds.lean ====
section
/-! DEFINITION. ServeCmds.lean: candidates, cancellation, budgets, model loads and unloads, deadlines, the release grid and the
fixed-slot frame (R224, R227 to R230, R234, R243, R245 to R252, R271 to R273). -/

namespace Sys2Proof.Machine

/-- The tree of a CANDIDATES payload (R272). -/
def candTree (p : List Byte) : Tree :=
  let n := u8 p 8
  ⟨(List.range n).map fun i => if i = 0 then 0 else u8 p (32 + i), (List.range n).map fun i => u32 p (96 + 4 * i)⟩

/-- Are the entries that R272 fixes zero: token[0], and parents and tokens from N onward? -/
def candPadding (p : List Byte) : Bool :=
  let n := u8 p 8
  u32 p 96 == 0 && allZero p (32 + n) (64 - n) && allZero p (96 + 4 * n) (256 - 4 * n)

/-- The live CAND sequence of a session and tag that waits for candidates for a step. -/
def State.waitingSeq (s : State) (session tag step : Nat) : Option Nat :=
  (s.srv.sequences.find? fun x =>
    x.2.cand && x.2.phase == .candidates && x.2.emitted.length == step &&
      match s.request x.2.row with
      | some r => r.session == session && r.tag == tag
      | none => false).map (·.1)

/-- CANDIDATES (R271 to R274): a valid tree is journalled, answered OK, and its step enters its queue. -/
def candidatesEffect (m : Msg) (s : State) : State :=
  if !s.mayActFor m.session then s
  else s.withMsg m 0x0102 (some 352) fun s x =>
    let p := m.payload
    if !allZero p 9 23 then s.reply m 0x0102 Code.E_RESERVED
    else
      match s.waitingSeq x.number (u32 p 0) (u32 p 4) with
      | none => s.reply m 0x0102 Code.E_STENCIL
      | some q =>
        let t := candTree p
        let stencil : Bool := match (s.seq q).bind fun y => (s.slot y.slot).image with
          | some g => g.attns.all (·.stencil)
          | none => false
        if !t.valid (u8 p 32) ∨ !candPadding p ∨ (1 < u8 p 8 ∧ !stencil) then s.reply m 0x0102 Code.E_STENCIL
        else
          let s1 := s.journal x.number q (.candidates p)
          let s2 := s1.reply m 0x0102 Code.OK [] [s1.lastIndex]
          (s2.onSeq q fun y => { y with tree := some t }).queueStep q

/-- CANCEL (R224): journalled before it acts, answered OK whether the tag is live or not. -/
def cancelEffect (m : Msg) (s : State) : State :=
  if !s.mayActFor m.session then s
  else s.withMsg m 0x0103 (some 32) fun s x =>
    let p := m.payload
    if !allZero p 4 28 then s.reply m 0x0103 Code.E_RESERVED
    else
      let s1 := s.journal x.number 0 (.cancel (u32 p 0))
      let s2 := s1.reply m 0x0103 Code.OK [] [s1.lastIndex]
      match s.srv.requests.find? fun r => r.2.session == x.number && r.2.tag == u32 p 0 with
      | some r => s2.cancelRequest r.1
      | none => s2

-- Budgets (R228 to R230).

/-- A BUDGET_SET payload with an account's values (R228). -/
def budgetPayload (cu op : Nat) (a : Account) : List Byte :=
  leBytes 2 cu ++ leBytes 1 op ++ leBytes 1 a.weight ++ leBytes 4 a.interval ++ leBytes 8 a.amount ++ leBytes 8 a.cap ++
    leBytes 2 a.quota ++ zeroBytes 6 ++ leBytes 8 a.balance

/-- Journal an account's values and reply with them (R228, R345, R347). -/
def State.budgetDone (s : State) (m : Msg) (cu op : Nat) (a : Account) : State :=
  let s1 := (s.putAccount cu a).journal m.session cu (.budget cu a.balance a.grant a.isOpen)
  s1.reply m 0x0120 Code.OK (budgetPayload cu op a) [s1.lastIndex]

/-- What the three operations of BUDGET_SET share: `op` is the operation of the row; a message of another operation is not
this event, one of a reserved operation is refused. -/
def State.budgetSet (s : State) (m : Msg) (op : Nat) (body : State → Nat → Account → State) : State :=
  let given := u8 m.payload 2
  if !s.mayActFor m.session ∨ (given ≠ op ∧ 1 ≤ given ∧ given ≤ 3 ∧ m.payload.length = 40) then s
  else s.withMsg m 0x0120 (some 40) fun s _ =>
    let p := m.payload
    if given ≠ op ∨ !allZero p 26 6 then s.reply m 0x0120 Code.E_RESERVED
    else if 1023 < u16 p 0 ∨ (op = 1 ∧ balanceMax < u64 p 16) then s.reply m 0x0120 Code.E_PARAM
    else body s (u16 p 0) (s.account (u16 p 0))

/-- BUDGET_SET, operation 1: open or reconfigure; the last grant number is kept (R228). -/
def budgetOpenEffect (m : Msg) (s : State) : State :=
  s.budgetSet m 1 fun s cu a =>
    let p := m.payload
    s.budgetDone m cu 1
      { a with isOpen := true, weight := if u8 p 3 = 0 then 16 else u8 p 3, interval := u32 p 4, amount := u64 p 8,
               cap := u64 p 16, quota := u16 p 24, balance := min balanceMax (u64 p 32) }

/-- BUDGET_SET, operation 2: close; live requests finish (R228). -/
def budgetCloseEffect (m : Msg) (s : State) : State :=
  s.budgetSet m 2 fun s cu a => s.budgetDone m cu 2 { a with isOpen := false }

/-- BUDGET_SET, operation 3: read (R228). -/
def budgetReadEffect (m : Msg) (s : State) : State :=
  s.budgetSet m 3 fun s cu a => s.reply m 0x0120 Code.OK (budgetPayload cu 3 a)

def execBudgetRead (m : Msg) (s : State) : Host.Outcome State Fault Refusal := .next (budgetReadEffect m s)

/-- BUDGET_GRANT (R230): applied only if its number is greater than the last one applied. -/
def budgetGrantEffect (m : Msg) (s : State) : State :=
  if !s.mayActFor m.session then s
  else s.withMsg m 0x0121 (some 32) fun s _ =>
    let p := m.payload
    let cu := u16 p 0
    let a := s.account cu
    let answer := fun (g : Nat) => leBytes 2 cu ++ [0, 0] ++ leBytes 4 g ++ leBytes 8 (u64 p 8) ++ zeroBytes 16
    if !allZero p 2 2 ∨ !allZero p 16 16 then s.reply m 0x0121 Code.E_RESERVED
    else if 1023 < cu then s.reply m 0x0121 Code.E_PARAM
    else if !a.isOpen then s.reply m 0x0121 Code.E_CUSTOMER
    else if u32 p 4 ≤ a.grant then s.reply m 0x0121 Code.OK (answer a.grant)
    else
      let b := { a with balance := min balanceMax (a.balance + u64 p 8), grant := u32 p 4 }
      let s1 := (s.putAccount cu b).journal m.session cu (.budget cu b.balance b.grant true)
      s1.reply m 0x0121 Code.OK (answer b.grant) [s1.lastIndex]

/-- A refill interval of an account has passed: the lease holder refills it, on a twin pair the holder of the twin lease, whose record
the other module takes (R229, R232). -/
def refillEffect (cu : Nat) (s : State) : State :=
  let a := s.account cu
  if !s.mayAct ∨ !a.isOpen ∨ a.interval = 0 then s
  else
    let b := { a with balance := if a.cap < a.balance then a.balance else min a.cap (a.balance + a.amount) }
    (s.putAccount cu b).journal 0 cu (.budget cu b.balance b.grant true)

def execRefillInterval (customer : Nat) (s : State) : Host.Outcome State Fault Refusal := .next (refillEffect customer s)

-- Model loads and unloads (R170, R171, R195, R251, R252).

/-- MODEL_LOAD (R251): step 1 of R170. Loads run in the order of their admission (R171). -/
def modelLoadEffect (m : Msg) (s : State) : State :=
  if !s.mayActFor m.session then s
  else s.withMsg m 0x0130 (some 32) fun s x =>
    let p := m.payload
    let k := u8 p 0
    let one := fun (n : Nat) => if n = 0 then 1 else n
    if !allZero p 1 3 ∨ !allZero p 20 12 then s.reply m 0x0130 Code.E_RESERVED
    else if 15 < k then s.reply m 0x0130 Code.E_PARAM
    else if (s.slot k).state ≠ .empty ∨ s.srv.loads.contains k then s.reply m 0x0130 Code.E_SLOT_BUSY
    else if s.workRefused ∨ s.cartHot then s.noteFull.reply m 0x0130 Code.B_RETRY
    else
      let s1 := s.journal x.number k (.model .loadAdmitted k [])
      let s2 := s1.enterLoading k
        { object := u32 p 4, passCost := one (u32 p 8), promptCost := one (u32 p 12),
          tokenCost := one (u32 p 16), reply := some ⟨x.number, m.number, m.tag⟩, record := s1.lastIndex }
      let s3 := if s.srv.loads.isEmpty then s2.settleLoad.showFirst k else s2
      { s3 with srv := { s3.srv with loads := s3.srv.loads ++ [k] } }

/-- What both modes of MODEL_UNLOAD share (R252): `mode` is the mode of the row. -/
def State.modelUnload (s : State) (m : Msg) (mode : Nat) (body : State → Nat → State) : State :=
  let given := u8 m.payload 1
  if !s.mayActFor m.session ∨ (given ≠ mode ∧ 1 ≤ given ∧ given ≤ 2 ∧ m.payload.length = 32) then s
  else s.withMsg m 0x0131 (some 32) fun s x =>
    let p := m.payload
    let k := u8 p 0
    if given ≠ mode ∨ !allZero p 2 30 then s.reply m 0x0131 Code.E_RESERVED
    else if 15 < k then s.reply m 0x0131 Code.E_PARAM
    else if (s.slot k).state ≠ .ready then s.reply m 0x0131 Code.E_SLOT_STATE
    else
      let s1 := s.journal x.number k (.model .unload k (s.slot k).digest)
      let y := s.slot k
      body (s1.putSlot k { y with state := .unloading, reply := some ⟨x.number, m.number, m.tag⟩, record := s1.lastIndex }) k

/-- MODEL_UNLOAD, drain: admitted requests run to their end. -/
def unloadDrainEffect (m : Msg) (s : State) : State := s.modelUnload m 1 fun s _ => s

/-- MODEL_UNLOAD, abort: every unfinished request of the slot ends with E_CANCELLED; a sequence that drafted with the slot
goes on without drafts. -/
def unloadAbortEffect (m : Msg) (s : State) : State :=
  s.modelUnload m 2 fun s k =>
    let mine := (s.srv.requests.filter fun r => r.2.slot == k).map (·.1)
    let s1 := mine.foldl (fun s row => s.failRequest row Code.E_CANCELLED 5) s
    let drafts := (s1.srv.sequences.filter fun x => x.2.isSkim && x.2.slot == k)
    drafts.foldl (fun s x =>
      match x.2.partner with
      | none => s.dropSeq x.1
      | some q =>
        let s1 := (s.dropSeq x.1).onSeq q fun y => { y with skim := false, partner := none }
        match s1.seq q with
        | some y => if y.phase = .draft then s1.queueStep q else s1
        | none => s1) s1

/-- Does a request, a drafting sequence or a batch still use a slot? -/
def State.slotInUse (s : State) (k : Nat) : Bool :=
  (s.srv.requests.any fun r => r.2.slot == k) || (s.srv.sequences.any fun x => x.2.slot == k) ||
    (match s.srv.batch with
      | some b => b.slot == k
      | none => false) || s.srv.suspended.any fun b => b.slot == k

/-- The last request of an UNLOADING slot has ended: the slot is EMPTY, its pages pass to clearing, and the unload is
answered OK (R195, R252). -/
def slotEmptiedEffect (k : Nat) (s : State) : State :=
  let x := s.slot k
  if x.state ≠ .unloading ∨ x.reload ∨ s.slotInUse k then s
  else
    let s1 := (s.releaseSlotRange (slotDesc k)).releaseSlotRange (workDesc k)
    let s2 := s1.putSlot k {}
    match x.reply with
    | some r => s2.replyTo r 0x0131 Code.OK [] [x.record]
    | none => s2

def execSlotEmptied (slot : Nat) (s : State) : Host.Outcome State Fault Refusal := .next (slotEmptiedEffect slot s)

-- Queues and deadlines.

/-- A queue's oldest row has waited the hold: the queue is ready while that row stays in it (R234). -/
def holdExpiryEffect (k : QueueKey) (s : State) : State :=
  match (s.unitsOf k).head? with
  | none => s
  | some u => if s.srv.held.contains u then s else { s with srv := { s.srv with held := s.srv.held ++ [u] } }

def execQueueHoldExpiry (q : QueueKey) (s : State) : Host.Outcome State Fault Refusal := .next (holdExpiryEffect q s)

/-- A request's deadline has passed before its batch started: it ends with B_DEADLINE, its debit refunded (R227). -/
def deadlineEffect (row : Nat) (s : State) : State :=
  match s.request row with
  | none => s
  | some r =>
    if !s.mayActFor r.session ∨ r.started ∨ 2 ^ 64 ≤ r.deadline then s
    else
      match r.seq with
      | none => s.endPass row Code.B_DEADLINE true
      | some q => (s.recordStop q ⟨9, 0, Code.B_DEADLINE⟩ r.debit).finishSeq q

def execRequestDeadline (row : Nat) (s : State) : Host.Outcome State Fault Refusal := .next (deadlineEffect row s)

/-- A tick of the release grid: the messages that are ready leave for their sessions (R243). -/
def gridTickEffect (s : State) : State :=
  let ready := fun (g : GridMsg) => g.msg.needs.all fun i => s.durable i
  let s1 : State := { s with srv := { s.srv with grid := s.srv.grid.filter fun g => !ready g } }
  (s.srv.grid.filter ready).foldl (fun s g => s.pushMsg g.session g.msg) s1

def execReleaseGridTick (s : State) : Host.Outcome State Fault Refusal := .next (gridTickEffect s)

-- Fixed-slot mode (R245 to R250).

/-- Full-load power of an operating point in mW: BASE + ARRAY × ceiling / 64 (R423, R436). -/
def State.fullPower (s : State) (op : Nat) : Nat :=
  (64 * s.rget (Fld.PWR_MODEL_BASE_W op) + s.rget (Fld.PWR_MODEL_ARRAY_W op) * s.rget (Fld.PWR_OP_CEIL op)) * 1000 / 64

/-- May a write of 1 to SRV.MODE.FIXED be accepted (R245, R428)? -/
def State.fixedRefusal (s : State) : Option Code :=
  if s.spillGib = 0 then some Code.E_RESERVED
  else if s.rget Fld.PWR_CAP_MW < s.fullPower (s.rget Fld.SRV_GUARD_OP) then some Code.B_RETRY
  else none

/-- A write of SRV.MODE.FIXED: 1 takes effect at the next batch boundary, 0 at once. -/
def State.writeFixed (s : State) (on : Bool) : State :=
  if on then
    if s.fixedRefusal.isSome ∨ s.rbit Fld.SRV_MODE_FIXED then s
    else { s with srv := { s.srv with frame := { s.srv.frame with pending := some true } } }
  else
    ({ s with srv := { s.srv with frame := {} } } : State).rset Fld.SRV_MODE_FIXED 0

def execFixedModeWrite (on : Bool) (s : State) : Host.Outcome State Fault Refusal := .next (s.writeFixed on)

/-- The customer of a frame slot (R245): none where the entry is not VALID. -/
def State.frameCustomer (s : State) (i : Nat) : Option Nat :=
  if s.rbit Fld.SRV_FENTRY_VALID i then some (s.rget Fld.SRV_FENTRY_CUSTOMER i) else none

/-- The customers of the frame, each once. -/
def State.frameCustomers (s : State) : List Nat :=
  ((List.range (s.rget Fld.SRV_FRAME_SLOTS_M1 + 1)).filterMap s.frameCustomer).foldl
    (fun l c => if l.contains c then l else l ++ [c]) []

/-- Fixed-slot mode takes effect at a batch boundary: quotas are equal shares, rounded down (R245, R249), and its first slot starts
with the translation cache invalidated (R247). -/
def fixedTakesEffect (s : State) : State :=
  if s.srv.frame.pending ≠ some true ∨ s.srv.batch.isSome then s
  else
    let cs := s.frameCustomers
    let n := max cs.length 1
    let pages := s.clearCount + s.srv.sequences.foldl (fun n x => n + (s.desc x.1).length) 0
    let quota := fun (c : Nat) => (c, 16384 / n, 4096 / n, pages / n)
    let f : FrameState := { start := s.srv.count, quotas := cs.map quota }
    ({ s with srv := { s.srv with frame := f }, mem := { s.mem with cache := [] } } : State).rset Fld.SRV_MODE_FIXED 1

def execFixedModeTakesEffect (s : State) : Host.Outcome State Fault Refusal := .next (fixedTakesEffect s)

/-- Is a batch at a coat boundary: no coat of it is under way? -/
def Batch.atBoundary (b : Batch) : Bool := b.runs.all fun r => r.complete || !r.begun

/-- Where a fixed slot's guard has begun and the batch has reached a coat boundary, it waits there (R246). -/
def State.haltBatch (s : State) : State :=
  match s.srv.batch with
  | none => s
  | some b =>
    if s.rbit Fld.SRV_MODE_FIXED ∧ s.srv.frame.guarded ∧ b.atBoundary ∧ !b.stays then
      { s with srv := { s.srv with batch := some { b with suspended := true } } }
    else s

/-- The next slot of the frame starts (R245 to R247): the translation cache is invalidated. A coat that still runs makes the slot
start late, which is counted once in SRV.OVERRUN; the slot then starts when the coat has ended and its batch is left. -/
def fixedSlotStart (s : State) : State :=
  let f := s.srv.frame
  if !s.rbit Fld.SRV_MODE_FIXED then s
  else match s.srv.batch with
  | some b =>
    let s1 : State := { s with srv := { s.srv with frame := { f with guarded := true, late := f.late || !b.atBoundary || b.stays } } }
    if f.late ∨ (b.atBoundary ∧ !b.stays) then s1.haltBatch
    else (s1.countHold Fld.SRV_OVERRUN_COUNT).rset Fld.SRV_FAULT_OVERRUN 1
  | none =>
    let i := (f.index + 1) % (s.rget Fld.SRV_FRAME_SLOTS_M1 + 1)
    let f1 : FrameState := { f with index := i, start := s.srv.count, guarded := false, late := false }
    { s with srv := { s.srv with frame := f1 }, mem := { s.mem with cache := [] } }

def execFixedSlotStart (s : State) : Host.Outcome State Fault Refusal := .next (fixedSlotStart s)

/-- Less than the guard remains in the slot: no new coat begins (R246). -/
def fixedSlotGuard (s : State) : State :=
  if !s.rbit Fld.SRV_MODE_FIXED then s
  else ({ s with srv := { s.srv with frame := { s.srv.frame with guarded := true } } } : State).haltBatch

def execFixedSlotGuard (s : State) : Host.Outcome State Fault Refusal := .next (fixedSlotGuard s)

/-- Leave fixed-slot mode at once (R250): cause 1 power cap, 2 thermal model, 3 emergency throttle. -/
def State.leaveFixed (s : State) (cause : Nat) : State :=
  if !s.rbit Fld.SRV_MODE_FIXED then s
  else
    let s1 := ((s.rset Fld.SRV_MODE_FIXED 0).rset Fld.SRV_MODE_LEFT 1).rset Fld.SRV_MODE_CAUSE cause
    { s1 with srv := { s1.srv with frame := {} }, boot := { s1.boot with fixedLeft := true } }

end Sys2Proof.Machine
end

