-- ==== Sys2Proof/Machine/Coat.lean ====
section
/-! DEFINITION. Coat.lean: what a coat of the running batch reads and writes through its bindings, its stripes and passes, and
its weights ("The matrix array", "Sliding-window operators", "Lath images"). -/

namespace Sys2Proof.Machine

-- Bindings of the running batch (R161, R514).

/-- Bytes of a list of pool pages from a byte offset on; beyond the pages, zero. -/
def State.listBytes (s : State) (l : List Nat) (off n : Nat) : List Byte :=
  (List.range n).map fun i =>
    match l[(off + i) / 65536]? with
    | some p => Memory.byte s.mem.dram (pageAddr p + (off + i) % 65536)
    | none => 0

/-- A batch row's input (kind 0x05): the request's own bytes; for a sequence's row, the token it feeds (log entry 14). -/
def State.rowInput (s : State) (r : RowRec) (off n : Nat) : List Byte :=
  if r.seq ≠ 4294967295 then slice (leBytes 4 r.token) off n
  else
    match s.request r.tag with
    | some q => slice (s.listBytes q.input off (min n (q.inputLength - off))) 0 n
    | none => zeroBytes n

/-- The slot of a video binding that holds a row's picture (R291). -/
def State.frameSlot (s : State) (r : RowRec) (i : Nat) : Nat :=
  ((s.vid.frames.find? fun f => f.row == r.tag && f.binding == i).map (·.index)).getD 0

/-- The bank of a binding of kind 0x01, 0x02, 0x03 or 0x07 (R161, R202). -/
def Binding.bankId (b : Binding) : Nat :=
  match b.kind with
  | 2 => 0x10 + b.bank
  | 3 => 0x20 + b.bank
  | _ => b.bank

/-- Where batch row k's tensor starts, for tensors of `t` bytes (R514). -/
def Binding.rowOff (b : Binding) (k t : Nat) : Nat := if b.perRequest then 0 else k * t

/-- Read through a binding, for a batch row. -/
def State.bindRead (s : State) (slot : Nat) (g : Image) (i : Nat) (r : RowRec) (off n : Nat) : List Byte :=
  let b := g.binding i
  match b.kind with
  | 1 | 2 | 3 => s.bankBytes b.bankId (b.offset + off) n
  | 4 => s.ownerBytes (workDesc slot) (b.offset + off) n
  | 5 => s.rowInput r (b.offset + off) n
  | 7 => s.bankBytes b.bankId (b.offset + s.frameSlot r i * b.size + off) n
  | _ => zeroBytes n

/-- Change the running batch. -/
def State.onBatch (s : State) (f : Batch → Batch) : State := { s with srv := { s.srv with batch := s.srv.batch.map f } }

-- One coat of the running batch (R80, R82, R94).

/-- A coat that no image holds. -/
def Coat.none : Coat := ⟨0, false, 0, 0, 0, 0, 0, 0, 0, 0, 0, 0, 0, 0, 0, 0, 0, 0, 0, 0, []⟩

/-- The work on one coat: its batch and image, its index and record, and its progress. -/
structure Work where
  b : Batch
  g : Image
  i : Nat
  c : Coat
  run : CoatRun
  deriving DecidableEq, Repr

/-- The work on coat i of the running batch. -/
def State.coatAt (s : State) (i : Nat) : Option Work :=
  match s.srv.batch with
  | none => none
  | some b =>
    match (s.slot b.slot).image with
    | none => none
    | some g =>
      match g.coats[i]?, b.runs[i]? with
      | some c, some r => some ⟨b, g, i, c, r⟩
      | _, _ => none

/-- The work on every coat of the running batch, in list order. -/
def State.works (s : State) : List Work :=
  match s.srv.batch with
  | none => []
  | some b => (List.range b.runs.length).filterMap s.coatAt

/-- Change the progress of coat i of the running batch. -/
def State.onRun (s : State) (i : Nat) (f : CoatRun → CoatRun) : State :=
  s.onBatch fun b => { b with runs := listModify b.runs i f }

/-- Has coat i of a batch completed? -/
def Batch.completed (b : Batch) (i : Nat) : Bool := ((b.runs[i]?).map (·.complete)).getD false

/-- Have the coats that a coat depends on completed (R80 (b))? -/
def Work.ready (w : Work) : Bool := w.c.depList.all w.b.completed

/-- The address-generator set of coat i (R94): the coats that use the feed engine take the sets in turn, the first one set A.
False is set A. -/
def Image.feedSet (g : Image) (i : Nat) : Bool := ((g.coats.take i).filter (·.programs != 0)).length % 2 == 1

/-- The coats of an image before i that use the feed engine with the set of coat i. -/
def Image.sameSet (g : Image) (i : Nat) : List Nat :=
  (List.range i).filter fun j => ((g.coats[j]?).map (·.programs)).getD 0 != 0 && g.feedSet j == g.feedSet i

/-- May a coat's address generators work: has the coat before it that used the same set completed (R94)? -/
def Work.setFree (w : Work) : Bool := (w.g.sameSet w.i).all w.b.completed

/-- May a coat be worked on: its batch runs, the coats it depends on have completed, it has not completed itself, and it has
begun, or may begin: in a fixed slot whose guard has begun no new coat does (R80, R246), unless its batch cannot be left (R210). -/
def State.mayWork (s : State) (w : Work) : Bool :=
  !w.b.suspended && w.ready && !w.run.complete &&
    (w.run.begun || w.b.stays || !(s.rbit Fld.SRV_MODE_FIXED && s.srv.frame.guarded))

/-- Write through a binding, for a batch row; a request output is held until the coat completes (R135, R242). -/
def State.bindWrite (s : State) (w : Work) (i : Nat) (r : RowRec) (off : Nat) (p : List Byte) : State :=
  let b := w.g.binding i
  match b.kind with
  | 1 | 2 | 3 => s.putBank b.bankId (b.offset + off) p
  | 4 => s.putOwner (workDesc w.b.slot) (b.offset + off) p
  | 6 => s.onRun w.i fun x => { x with deliveries := x.deliveries ++ [⟨r.tag, b.offset + off, false, p, 64⟩] }
  | _ => s

/-- Gather flags for a request in a coat (R53). -/
def CoatRun.raise (x : CoatRun) (row : Nat) (f : NumFlags) : CoatRun :=
  if x.status.any fun y => y.row == row then
    { x with status := x.status.map fun y => if y.row = row then { y with flags := y.flags ||| f } else y }
  else { x with status := x.status ++ [⟨row, f⟩] }

/-- Record numeric flags of a request's rows in coat i (R53) and in ARR.FLAGS where they are a column entry's. -/
def State.raiseFlags (s : State) (i row : Nat) (f : NumFlags) (array : Bool) : State :=
  if f = 0 then s
  else (s.onRun i fun x => x.raise row f).rsetIf array Fld.ARR_FLAGS_FLAGS (s.rget Fld.ARR_FLAGS_FLAGS ||| (f.toNat % 64))

/-- A row of coat i ends its request with a code (R238: the first code stays). -/
def State.endRow (s : State) (i row : Nat) (c : Code) : State :=
  s.onRun i fun x => if x.ended.any fun y => y.1 == row then x else { x with ended := x.ended ++ [(row, c)] }

/-- A row's output is empty in coat i (R77, R102, R107). -/
def State.emptyRow (s : State) (i row : Nat) : State :=
  s.onRun i fun x => if x.empties.contains row then x else { x with empties := x.empties ++ [row] }

-- Geometry of a batch row (R99, R102).

/-- A program's source height for a batch row. -/
def Program.height (p : Program) (r : RowRec) : Nat := if p.h ≠ 0 then p.h else r.height

/-- The output pixels of one stripe in one batch row, in raster order (R103). -/
def Program.stripeOf (p : Program) (rs cs ho : Nat) : List (Nat × Nat) :=
  let wo := p.wo
  let rows := (List.range p.win.sr).filterMap fun k => if rs * p.win.sr + k < ho then some (rs * p.win.sr + k) else none
  let cols := (List.range p.win.sc).filterMap fun k => if cs * p.win.sc + k < wo then some (cs * p.win.sc + k) else none
  (rows.map fun y => cols.map fun x => (y, x)).flatten

/-- Cut a list into pieces of n. -/
def cutList {α : Type} (n : Nat) : Nat → List α → List (List α)
  | 0, _ => []
  | k + 1, l => if l.isEmpty then [] else l.take n :: cutList n k (l.drop n)

/-- The stripes of a coat (R103), m-chunks counted as stripes: the row stripe, and the feed rows as batch row index and
output pixel. -/
def Program.stripes (p : Program) (rows : List RowRec) : List (Nat × List (Nat × Nat × Nat)) :=
  let ho := rows.foldl (fun n r => max n (p.ho (p.height r))) 0
  let nr := ceilDiv ho (max p.win.sr 1)
  let nc := ceilDiv p.wo (max p.win.sc 1)
  if ho = 0 ∨ p.wo = 0 then []
  else
    ((List.range nr).map fun rs => ((List.range nc).map fun cs =>
      let pixels := ((List.range rows.length).map fun k =>
        let r := listAt ⟨0, 0, 0, 0, 0, 0, 0, 0, 0, 0⟩ rows k
        (p.stripeOf rs cs (p.ho (p.height r))).map fun yx => (k, yx.1, yx.2)).flatten
      (cutList 2048 (pixels.length / 2048 + 1) pixels).map fun l => (rs, l)).flatten).flatten

/-- The input position of a tap for an output pixel: none where it is absent padding (R99). An image of height 0 has no pixel, so
each of its taps is absent, and clear in the validity mask of a window gather whatever PAD holds (DESIGN CHOICE, log entry 41). -/
def Program.tapPixel (p : Program) (h oy ox ky kx : Nat) : Option (Nat × Nat) :=
  let y : Int := (oy * p.win.sy + ky * p.win.dy : Nat) - (p.win.pt : Int)
  let x : Int := (ox * p.win.sx + kx * p.win.dx : Nat) - (p.win.pl : Int)
  if h = 0 then none
  else if 0 ≤ y ∧ y < h ∧ 0 ≤ x ∧ x < p.w then some (y.toNat, x.toNat)
  else if p.flags % 2 = 0 then none
  else some (min y.toNat (h - 1), min x.toNat (p.w - 1))

-- Tiles of an array coat (R70, R76, R99, R100).

/-- The kind 0x01 programs of a coat. -/
def Image.feeds (g : Image) (c : Coat) : List Program := (g.programsOf c).filter (·.kind == 1)
/-- The weight reference of an index. -/
def Image.weight (g : Image) (i : Nat) : Option WeightRef := g.weights[i]?
/-- The scale of a binding's INT elements (R36). -/
def Image.scaleOf (g : Image) (i : Nat) : Int := ((g.formatOf i).map (·.scale)).getD 0

/-- The shape of a coat's tiles (R70): reduction length and output width. -/
def tileShape (a w : Format) : Nat × Nat :=
  if a.isFp then (256, 256) else if a.ebits = 4 ∧ w.ebits = 4 then (1024, 512) else (512, 512)

/-- An array coat's operation: its feed programs' common geometry, formats, groups and tile shape. -/
structure Op where
  feed : Program
  feeds : List Program
  act : Format
  wt : WeightRef
  wf : Format
  red : Nat
  tw : Nat
  deriving DecidableEq, Repr

/-- The operation of a coat; none for a coat that is no array coat. -/
def Image.op (g : Image) (c : Coat) : Option Op :=
  match g.feeds c, g.weight c.weights with
  | f :: fs, some w =>
    match Format.ofCode f.format, Format.ofCode w.format with
    | some a, some x => if c.kind = 1 then some ⟨f, f :: fs, a, w, x, (tileShape a x).1, (tileShape a x).2⟩ else none
    | _, _ => none
  | _, _ => none

/-- Columns of an n-tile: first and number (R77). -/
def Op.cols (o : Op) (c : Coat) (t : Nat) : Nat × Nat := (t * o.tw, min o.tw (c.n - t * o.tw))
/-- Output columns of a group (R99). -/
def Op.perGroup (o : Op) (c : Coat) : Nat := max (c.n / max o.feed.g 1) 1
/-- The groups that an n-tile meets, ascending. -/
def Op.groups (o : Op) (c : Coat) (t : Nat) : List Nat :=
  let (n0, n) := o.cols c t
  let first := n0 / o.perGroup c
  (List.range ((n0 + n - 1) / o.perGroup c - first + 1)).map (first + ·)
/-- The columns of an n-tile that belong to a group: first and number. A grouped convolution runs each group as its own set of
channel tiles and n-tiles (R101), so these columns have tiles and passes of their own (log entry 19). -/
def Op.part (o : Op) (c : Coat) (t g : Nat) : Nat × Nat :=
  let (n0, n) := o.cols c t
  let lo := max n0 (g * o.perGroup c)
  (lo, min (n0 + n) ((g + 1) * o.perGroup c) - lo)
/-- Channel tiles of a coat. -/
def Op.ctiles (o : Op) (c : Coat) : Nat := ceilDiv c.k o.red

/-- Taps of a coat's programs, in program order and ky-major (R158): program index, tap of the full filter. -/
def Op.taps (o : Op) : List (Nat × Nat × Nat) :=
  ((List.range o.feeds.length).map fun i =>
    let p := listAt o.feed o.feeds i
    ((List.range p.win.khw).map fun y => (List.range p.win.kww).map fun x => (i, p.win.ky0 + y, p.win.kx0 + x)).flatten).flatten

/-- The reduction's steps in the order that COUTER names: tap and channel tile. -/
def Op.reduction (o : Op) (c : Coat) (couter : Bool) : List ((Nat × Nat × Nat) × Nat) :=
  let ct := List.range (o.ctiles c)
  if couter then (ct.map fun k => o.taps.map fun t => (t, k)).flatten
  else (o.taps.map fun t => ct.map fun k => (t, k)).flatten

/-- Stripe groups: one stripe each, or two under PAIR (R158). -/
def stripeGroups (pair : Bool) (n : Nat) : List (List Nat) := cutList (if pair then 2 else 1) n (List.range n)

/-- The steps of an n-tile's reduction: the groups that it meets in order, and in each the taps and channel tiles as COUTER
says. -/
def Op.steps (o : Op) (c : Coat) (couter : Bool) (t : Nat) : List (Nat × (Nat × Nat × Nat) × Nat) :=
  ((o.groups c t).map fun g => (o.reduction c couter).map fun x => (g, x)).flatten

/-- The passes of a coat in order (R158), without their units and banks: `stripes` gives each stripe's row stripe. -/
def Op.passOrder (o : Op) (c : Coat) (slot coat : Nat) (recs : List PassRec) (stripes : List Nat) : List Pass :=
  (recs.map fun r =>
    let nts := (List.range r.count).map (· + r.firstN)
    let gs := stripeGroups r.pair stripes.length
    let pairs := if r.nouter then (nts.map fun n => gs.map fun k => (n, k)).flatten
                 else (gs.map fun k => nts.map fun n => (n, k)).flatten
    (pairs.map fun nk =>
      let red := o.steps c r.couter nk.1
      ((List.range red.length).map fun i =>
        let st := listAt (0, (0, 0, 0), 0) red i
        nk.2.map fun sx =>
          { stripe := sx, rowStripe := listAt 0 stripes sx,
            key := ⟨slot, coat, st.2.1.1, st.2.1.2.1, st.2.1.2.2, st.2.2, nk.1, st.1⟩, first := i == 0,
            last := i + 1 == red.length, bank := 0 : Pass }).flatten).flatten).flatten

/-- Number the units of a coat's passes in the order of their first passes, and give each the bank after the one before it
(R159). `n` units have begun; `seen` are the last of them, as stripe, n-tile, unit and bank. Gives the passes, the number of units
and the bank after the last. -/
def assignBanks (n next : Nat) (seen : List (Nat × Nat × Nat × Nat)) : List Pass → List Pass × Nat × Nat
  | [] => ([], n, next)
  | p :: ps =>
    match seen.find? fun u => u.1 == p.stripe && u.2.1 == p.key.ntile with
    | some u => let r := assignBanks n next seen ps; ({ p with unit := u.2.2.1, bank := u.2.2.2 } :: r.1, r.2)
    | none =>
      let r := assignBanks (n + 1) (1 - next) ((p.stripe, p.key.ntile, n, next) :: seen.take 3) ps
      ({ p with unit := n, bank := next } :: r.1, r.2)

/-- The tiles of a list of passes in order, one for each run of passes that share it (R78). -/
def tileRuns : List Pass → List TileKey
  | [] => []
  | [p] => [p.key]
  | p :: q :: ps => if p.key = q.key then tileRuns (q :: ps) else p.key :: tileRuns (q :: ps)

/-- Page of a model slot at which a weight reference starts (R173): after the image and the references before it. -/
def Image.weightPage (g : Image) (i : Nat) : Nat :=
  (g.weights.take i).foldl (fun n w => n + ceilDiv w.length 65536) (ceilDiv g.header.length 65536)

/-- The bytes of a weight reference in a model slot's pages (R174). -/
def State.weightBytes (s : State) (slot : Nat) (g : Image) (i : Nat) (off n : Nat) : List Byte :=
  s.ownerBytes (slotDesc slot) (g.weightPage i * 65536 + off) n

/-- The bias contribution of column n from the cartridge (R46): none where the coat has no such bias. -/
def State.biasOf (s : State) (slot : Nat) (g : Image) (c : Coat) (n : Nat) : Option FpVal :=
  if c.bias = 65535 ∨ c.biasBinding then none
  else
    match g.weight c.bias with
    | none => none
    | some w =>
      match Format.ofCode w.format with
      | some .int32 => some (intVal (sInt 32 (leNat (s.weightBytes slot g c.bias (4 * n) 4))) w.scale)
      | some .fp32 => some (fp32.val (leNat (s.weightBytes slot g c.bias (4 * n) 4)))
      | some .acc96 => some (intVal (sInt 96 (leNat (s.weightBytes slot g c.bias (12 * n) 12))) (c.anchor - 48))
      | _ => none

/-- The column multiplier c of column n (R49), from the cartridge. -/
def State.scaleOf (s : State) (slot : Nat) (g : Image) (c : Coat) (n : Nat) : Nat :=
  leNat (s.weightBytes slot g c.scales (2 * n) 2)

/-- Is a tile the first k-tile of its n-tile, with which the bias vector and the column multipliers are fetched (R78)? -/
def Op.firstTile (o : Op) (c : Coat) (key : TileKey) : Bool :=
  ((o.steps c false key.ntile)[0]?).any fun st =>
    st == (key.group, (key.prog, key.ky, key.kx), key.ctile)

/-- The tile of a key (R78, R166): for each column of its group in the n-tile, the weights of its channel tile; with the n-tile's
first one come its bias values and multipliers. -/
def State.loadTile (s : State) (key : TileKey) : Option Tile :=
  match (s.slot key.slot).image with
  | none => none
  | some g =>
    match g.coats[key.coat]? with
    | none => none
    | some c =>
      match g.op c with
      | none => none
      | some o =>
        let bytes := s.weightBytes key.slot g c.weights 0 o.wt.length
        match decodeStream o.wf (ceilDiv o.wt.elements 1024) o.wt.elements bytes with
        | none => none
        | some t =>
          let kp := if o.wf.isQB then roundUp c.k 32 else c.k
          let (p0, pn) := o.part c key.ntile key.group
          let (n0, n) := o.cols c key.ntile
          let k0 := key.ctile * o.red
          let len := min o.red (c.k - k0)
          let own := fun (b : Bool) => if b && o.firstTile c key then List.range n else []
          some { key := key,
                 columns := (List.range pn).map fun j => (List.range len).map fun k =>
                   t.val o.wf o.wt.scale (((key.ky * o.feed.win.kw + key.kx) * c.n + p0 + j) * kp + k0 + k),
                 bias := (own true).filterMap fun j => s.biasOf key.slot g c (n0 + j),
                 scales := (own (c.scales != 65535)).map fun j => s.scaleOf key.slot g c (n0 + j) }

-- Feed rows (R96, R100, R104).

/-- Bytes of one batch row's part of a stripe buffer half, and the first input row it holds (R104). -/
def Program.halfRow (p : Program) : Nat :=
  ((p.win.sr - 1) * p.win.sy + (p.win.kh - 1) * p.win.dy + 1) * p.w * p.ps
def Program.stripeLo (p : Program) (rs : Nat) : Nat := rs * p.win.sr * p.win.sy - p.win.pt

/-- One stored source pixel of a window feed. -/
def State.sourcePixel (s : State) (w : Work) (p : Program) (rs k : Nat) (r : RowRec) (y x : Nat) : List Byte :=
  match w.g.loaderOf w.c p.src with
  | some _ =>
    let half := (w.g.binding p.src).size / 2
    s.bindRead w.b.slot w.g p.src r (rs % 2 * half + k * p.halfRow + ((y - p.stripeLo rs) * p.w + x) * p.ps) p.ps
  | none =>
    let t := tensorBytes (w.g.srcHeight p) (p.w * p.ps)
    s.bindRead w.b.slot w.g p.src r ((w.g.binding p.src).rowOff k t + (y * p.w + x) * p.ps) p.ps

/-- The feed row of one output pixel for a tile (R96, R100): the channel tile of the tile's group. -/
def State.feedRow (s : State) (w : Work) (o : Op) (key : TileKey) (rs : Nat) (px : Nat × Nat × Nat) : FeedRow :=
  let p := listAt o.feed o.feeds key.prog
  let k0 := key.ctile * o.red
  let len := min o.red (w.c.k - k0)
  match w.b.rows[px.1]? with
  | none => List.replicate len none
  | some r =>
    match p.tapPixel (p.height r) px.2.1 px.2.2 key.ky key.kx with
    | none => List.replicate len none
    | some (y, x) =>
      let bytes := s.sourcePixel w p rs px.1 r y x
      let sc := w.g.scaleOf p.src
      (List.range len).map fun j => some (rowVal o.act sc p.c bytes (key.group * w.c.k + k0 + j))

/-- Was a feed row wholly absent? -/
def FeedRow.absent (r : FeedRow) : Bool := r.all (·.isNone)

-- Accumulation (R44, R46, R74).

/-- The products of a column (R44): an absent element forms none. -/
def addColumn (a : Int) (x : AccEntry) : List (Option FpVal) → List FpVal → AccEntry
  | some u :: us, w :: ws => addColumn a (accAdd a x (fpMulVal u w)) us ws
  | none :: us, _ :: ws => addColumn a x us ws
  | _, _ => x

/-- The coats that a coat depends on, directly or through others. -/
def Image.depClosure (g : Image) : Nat → List Nat → List Nat
  | 0, l => l
  | fuel + 1, l =>
    let more := (l.map fun i => ((g.coats[i]?).map (·.depList)).getD []).flatten.filter fun i => !l.contains i
    if more.isEmpty then l else g.depClosure fuel (l ++ more.eraseDups)

/-- The coat that wrote a bias binding (R155). -/
def Image.biasWriter (g : Image) (c : Coat) : Option Coat :=
  ((g.depClosure g.coats.length c.depList).filterMap fun i => g.coats[i]?).find? fun d =>
    d.kind == 1 && d.dest == c.bias && d.format == 9

/-- The bias contribution of column n of batch row k's entries from a bias binding (R155). -/
def State.boundBias (s : State) (w : Work) (k : Nat) (r : RowRec) (n : Nat) : Option FpVal :=
  (w.g.biasWriter w.c).map fun d =>
    let at_ := (w.g.binding w.c.bias).rowOff k (roundUp (12 * w.c.n) 64) + 12 * n
    intVal (sInt 96 (leNat (s.bindRead w.b.slot w.g w.c.bias r at_ 12))) (d.anchor - 48)

/-- The columns of an n-tile that batch row k's entries start from (R46, R76): the bias contributions, which came with the first
tile or lie in the bias binding, or zero. A NaN or an infinity in an FP32 bias vector is recorded in its column as one among the
products is, which R42 names alone (DESIGN CHOICE, log entry 40). -/
def State.startEntry (s : State) (w : Work) (o : Op) (t : Tile) (k : Nat) (r : RowRec) : List AccEntry :=
  let (n0, n) := o.cols w.c t.key.ntile
  (List.range n).map fun j =>
    let v := if w.c.bias ≠ 65535 ∧ w.c.biasBinding then s.boundBias w k r (n0 + j) else t.bias[j]?
    match v with
    | some v => accAdd w.c.anchor {} v
    | none => {}

/-- One feed row's contributions to its entry (R74): `lo` is the place in the entry of the tile's first column. -/
def addRow (a : Int) (lo : Nat) (entry : List AccEntry) (row : FeedRow) (columns : List (List FpVal)) : List AccEntry :=
  (List.range entry.length).map fun j =>
    if lo ≤ j then addColumn a (listAt {} entry j) row (listAt [] columns (j - lo)) else listAt {} entry j

-- Hazards and spill (R169, R210).

/-- A byte range of a bank: kind, bank, first byte and end. -/
structure BankRange where
  kind : Nat
  bank : Nat
  lo : Nat
  hi : Nat
  deriving DecidableEq, Repr

/-- The range of a binding; the kinds that take no part in the hazard rule have none (R169). -/
def Image.rangeOf (g : Image) (i : Nat) : List BankRange :=
  match g.bindings[i]? with
  | some b => if b.kind = 5 ∨ b.kind = 6 ∨ b.kind = 8 then [] else [⟨b.kind, b.bank, b.offset, b.offset + b.size⟩]
  | none => []

/-- The kernels of a coat. -/
def Image.kernelsOf (g : Image) (c : Coat) : List Kernel := (g.kernels.drop c.firstKernel).take c.kernels
/-- The attention record of a coat. -/
def Image.attnOf (g : Image) (c : Coat) : Option AttnRec := if c.kind = 4 then g.attns[c.attention]? else none

/-- The read set of a coat (R169). -/
def Image.readSet (g : Image) (c : Coat) : List BankRange :=
  let progs := (g.programsOf c).map fun p => g.rangeOf p.src ++ (if p.kind = 4 then g.rangeOf p.aux else [])
  let kers := (g.kernelsOf c).map fun k => ((k.bindings.filter (· != 255)).map g.rangeOf).flatten
  let att := match g.attnOf c with
    | some a => g.rangeOf a.q ++ g.rangeOf a.k ++ g.rangeOf a.v
    | none => []
  progs.flatten ++ (if c.kind = 1 ∧ c.biasBinding ∧ c.bias ≠ 65535 then g.rangeOf c.bias else []) ++ kers.flatten ++ att

/-- The write set of a coat (R169). -/
def Image.writeSet (g : Image) (c : Coat) : List BankRange :=
  let progs := (g.programsOf c).map fun p =>
    (if p.kind = 1 then [] else g.rangeOf p.dst) ++ (if p.kind = 5 ∧ p.flags / 4 % 2 = 1 then g.rangeOf p.aux else [])
  let kers := (g.kernelsOf c).map fun k => if k.window = 255 then [] else g.rangeOf k.window
  let att := match g.attnOf c with
    | some a => g.rangeOf a.out
    | none => []
  (if c.kind = 1 ∨ c.kind = 2 then g.rangeOf c.dest else []) ++ progs.flatten ++ kers.flatten ++ att

/-- Do two ranges overlap in the same bank of the same kind? -/
def BankRange.meets (a b : BankRange) : Bool :=
  a.kind == b.kind && a.bank == b.bank && decide (a.lo < b.hi) && decide (b.lo < a.hi)

end Sys2Proof.Machine
end

