-- ==== Sys2Proof/Machine/Sequencer.lean ====
section
/-! DEFINITION. Sequencer.lean: how the running batch goes from coat to coat, ends, and is left and taken up again (R53, R54,
R80, R82, R91, R210, R219, R236, R238). -/

namespace Sys2Proof.Machine

-- Kernels stop.

/-- A core that runs nothing, its registers as they are. -/
def Core.halt (x : Core) : Core := { x with state := .idle, xred := none, credits := 4, stores := [] }

/-- Stop the running kernels that a test names and idle their cores (R146). -/
def State.stopKernels (s : State) (p : KernelRun → Bool) : State :=
  let gone := ((s.trim.kernels.filter p).map (·.cores)).flatten
  { s with trim := { s.trim with cores := (List.range s.trim.cores.length).map fun c =>
                                   if gone.contains c then (listAt {} s.trim.cores c).halt else listAt {} s.trim.cores c,
                                 kernels := s.trim.kernels.filter fun k => !p k } }

-- The passes of a batch.

/-- The passes of an array coat for a batch's rows, banks assigned from `next` on, with their units and the bank after the last. -/
def Image.planPasses (g : Image) (slot i : Nat) (c : Coat) (rows : List RowRec) (next : Nat) : List Pass × Nat × Nat :=
  match g.op c with
  | none => ([], 0, next)
  | some o =>
    let st := (o.feed.stripes rows).map (·.1)
    assignBanks 0 next [] (o.passOrder c slot i ((g.passRecs.drop c.firstPass).take c.passes) st)

/-- The rows of a coat whose output is empty (R77, R102). -/
def Image.emptyRows (g : Image) (c : Coat) (rows : List RowRec) : List Nat :=
  match g.op c with
  | none => []
  | some o => ((rows.filter fun r => o.feed.ho (o.feed.height r) == 0 || o.feed.wo == 0).map (·.tag)).eraseDups

/-- Plan a batch's coats from index i on: one that has completed stays so, and of the others nothing is done yet. Each array coat's
first unit takes the bank after the last of the coat before it (R159). -/
def Image.planCoats (g : Image) (slot : Nat) (rows : List RowRec) (next : Nat) : List (Nat × CoatRun) → List CoatRun
  | [] => []
  | (i, r) :: l =>
    match r.complete, g.coats[i]? with
    | false, some c =>
      let p := g.planPasses slot i c rows next
      { empties := g.emptyRows c rows, passes := p.1, units := p.2.1 } :: g.planCoats slot rows p.2.2 l
    | _, _ => r :: g.planCoats slot rows next l

/-- The passes that a batch's coats have yet to issue, in pass order (R80, R158). -/
def Batch.passesLeft (b : Batch) : List Pass := (b.runs.map fun r => r.passes.drop r.issued).flatten

/-- The tiles that the weight buffer and the shadow registers hold, oldest first (R78). -/
def ArrState.held (a : ArrState) : List Tile := a.shadow.toList ++ a.halves.map (·.2)

/-- The tiles that passes still need fetched, in pass order: none for a first pass whose tile is active (R78). -/
def ArrState.tilesFor (a : ArrState) (l : List Pass) : List TileKey :=
  let keys := tileRuns l
  if (a.active.map (·.key)).isSome && (a.active.map (·.key)) == keys.head? then keys.drop 1 else keys

/-- The array with no pass in flight, both banks free and no tile. -/
def ArrState.clear (a : ArrState) : ArrState :=
  { a with halves := [], shadow := none, active := none, flights := [], bank0 := {}, bank1 := {} }

/-- The array with the work of coats before i alone: its passes in flight and its banks. -/
def ArrState.cut (a : ArrState) (i : Nat) : ArrState :=
  let keep := fun (x : AccBank) => if x.pass.any fun p => decide (p.key.coat < i) then x else {}
  { a with halves := [], shadow := none, active := none, flights := a.flights.filter fun f => decide (f.pass.key.coat < i),
           bank0 := keep a.bank0, bank1 := keep a.bank1 }

/-- Begin or resume the running batch (R80, R82, R159): its coats are planned. Tiles that were fetched ahead stay where they are its
first ones, as its slot holds them now; others are discarded (R80 (d)). -/
def State.planBatch (s : State) : State :=
  match s.srv.batch with
  | none => s
  | some b =>
    match (s.slot b.slot).image with
    | none => s
    | some g =>
      let runs := g.planCoats b.slot b.rows s.arr.nextBank ((List.range g.coats.length).map fun i => (i, listAt {} b.runs i))
      let b1 : Batch := { b with runs := runs, suspended := false, resuming := false, spilled := [] }
      let a := s.arr.held
      let fits := ((tileRuns b1.passesLeft).take a.length).map s.loadTile == a.map some
      let arr := if fits then { s.arr with active := none, flights := [], bank0 := {}, bank1 := {} } else s.arr.clear
      { s with srv := { s.srv with batch := some b1 }, arr := arr }

/-- A coat's progress before its first pass: its empty outputs, and that it has been executed again. -/
def Work.restart (w : Work) : CoatRun :=
  { begun := w.run.begun, empties := w.g.emptyRows w.c w.b.rows, passes := w.run.passes, units := w.run.units,
    retried := w.run.retried, trimRetried := w.run.trimRetried }

/-- Execute an array coat again from its first pass (R91): nothing of it has left the module. The array coats after it issue their
passes again after its own, since passes keep their order (R80 (f)). -/
def State.redoCoat (s : State) (w : Work) : State :=
  let later := s.works.filter fun x => decide (w.i ≤ x.i) && x.c.kind == 1 && !x.run.complete
  later.foldl (fun (s : State) (x : Work) => s.onRun x.i fun _ => { x.restart with retried := x.run.retried || x.i == w.i })
    { s with arr := s.arr.cut w.i }

-- A coat completes.

/-- Have the programs of a coat, other than those that feed the array, run? -/
def Work.programsRun (w : Work) : Bool :=
  (List.range w.c.programs).all fun i =>
    match (w.g.programsOf w.c)[i]? with
    | some p => p.kind == 1 || p.kind == 2 || w.run.programsDone.contains i
    | none => true

/-- Has every pass of a coat landed and every drain ended? -/
def CoatRun.drainedAll (r : CoatRun) : Bool := r.drained == r.units && r.landed == r.passes.length

/-- Has a coat's last drain or write ended, so that its kernels may start (R142, R156)? -/
def State.kernelsMay (s : State) (w : Work) : Bool :=
  s.mayWork w && w.run.drainedAll && w.programsRun && (w.c.kind != 4 || w.run.attentionDone) && !s.sliceRuns 9 0

/-- Has a coat done all that R82 asks for? -/
def State.coatDone (s : State) (w : Work) : Bool :=
  s.kernelsMay w && decide (w.run.kernelsEnded.length = w.c.kernels) && !s.arr.stopped

/-- Put deliveries in order of request tag and offset (R135). -/
def insertDelivery (d : Delivery) : List Delivery → List Delivery
  | [] => [d]
  | e :: l => if d.row < e.row ∨ (d.row = e.row ∧ d.offset < e.offset) then d :: e :: l else e :: insertDelivery d l

/-- The skim sequence that the rows of a tag belong to, if they do (R271; log entry 18). -/
def State.skimOf (s : State) (b : Batch) (row : Nat) : Option Nat :=
  (b.rows.find? fun r => r.tag == row && ((s.seq r.seq).map (·.isSkim)).getD false).map (·.seq)

/-- Put bytes into a byte list at an offset. -/
def patchBytes (l : List Byte) (off : Nat) (p : List Byte) : List Byte := slice l 0 off ++ p ++ l.drop (off + p.length)

/-- Release one delivery of coat i (R135, R237, R238, R242): output bytes to the request's staging pages, or to a skim sequence's
draft; a row status record to the request, of whose flags R52 defines bits 0 to 5 and reserves the others. -/
def State.release (s : State) (b : Batch) (i : Nat) (d : Delivery) : State :=
  match s.request d.row with
  | none => s
  | some r =>
    if d.status then
      let fl : NumFlags := BitVec.ofNat 16 (u16 d.bytes 0) &&& 0x3F
      let s1 := (s.raiseFlags i d.row fl false).onRequest d.row fun q =>
        { q with stopField := u8 d.bytes 4, accepted := u8 d.bytes 5 }
      let c : Code := BitVec.ofNat 16 (u16 d.bytes 2)
      if c = 0 then s1 else s1.endRow i d.row c
    else
      match s.skimOf b d.row with
      | some q => s.onSeq q fun x => { x with draft := patchBytes (slice x.draft 0 320) d.offset d.bytes }
      | none =>
        (s.putPages r.staging d.offset d.bytes).onRequest d.row fun q =>
          { q with delivered := q.delivered ++ [(d.offset, d.bytes.length)] }

/-- What a completed coat leaves on each request (R53, R54, R77, R238): flags, emptiness, and the code that ends it, which a
pass request ends with now and a sequence at its step's or chunk's end. -/
def State.settleRow (s : State) (run : CoatRun) (c : Coat) (row : Nat) : State :=
  match s.request row with
  | none => s
  | some r =>
    let fl := (run.status.filter (·.row == row)).foldl (fun f x => f ||| x.flags) (0 : NumFlags)
    let fatal := decide (fl &&& c.fatal ≠ 0)
    let own : Code := ((run.ended.find? (·.1 == row)).map (·.2)).getD 0
    let first : Code := if r.code ≠ 0 then r.code else if own ≠ 0 then own else if fatal then Code.E_NUMERIC else 0
    let s1 := s.putRequest { r with flags := r.flags ||| fl, isEmpty := r.isEmpty || run.empties.contains row, code := first }
    if first ≠ 0 ∧ !r.gen then s1.endPass row first false else s1

-- A batch ends.

/-- Free the frame and statistics slots of the pictures of a batch (R291). -/
def State.freeFrames (s : State) (rows : List RowRec) : State :=
  { s with vid := { s.vid with frames := s.vid.frames.filter fun f => !(rows.any fun r => r.tag == f.row) } }

/-- A prompt chunk has run (R236, R255, R264): its rows are committed; then the next chunk, or the first decoding step. -/
def State.endChunk (s : State) (u : QUnit) : State :=
  match s.seq u.seq, s.request u.row with
  | some x, some r =>
    let done := x.done + u.rows
    let s1 := (s.putSeq u.seq { x with done := done, committed := done }).setCounts u.seq x.done done 0
    if r.code ≠ 0 ∧ !x.isSkim then s1.endSeq u.seq ⟨if r.code = Code.E_NUMERIC then 7 else 8, 0, r.code⟩
    else if r.cancelled ∧ !x.isSkim then s1.endSeq u.seq ⟨5, 0, Code.E_CANCELLED⟩
    else if done < x.promptRows.length then s1.queueChunk u.seq
    else if x.isSkim then
      (s1.onSeq u.seq fun y => { y with rebuild := false, phase := .draft }).queueDraft (x.partner.getD u.seq)
    else (s1.onSeq u.seq fun y => { y with rebuild := false }).queueStep u.seq
  | _, _ => s

/-- A decoding unit's coats have completed: the tokens sampled at its nodes are taken (log entry 14); DECODING_STEP_END goes on
from there. -/
def State.endUnit (s : State) (u : QUnit) : State :=
  match s.seq u.seq, s.request u.row with
  | some x, some r =>
    if x.isSkim then s
    else
      s.putSeq u.seq { x with sampled := (List.range u.rows).map fun i => leNat (s.listBytes r.staging (4 * i) 4) }
  | _, _ => s

/-- One unit of a batch that has run all its coats. -/
def State.closeUnit (s : State) (u : QUnit) : State :=
  match u.kind with
  | .pass =>
    match s.request u.row with
    | some r => s.endPass u.row r.code false
    | none => s
  | .chunk => s.endChunk u
  | .step => s.endUnit u

/-- The running batch has completed all its coats (R82, R219, R234). -/
def State.endBatch (s : State) : State :=
  match s.srv.batch with
  | none => s
  | some b =>
    let s1 := s.freeFrames b.rows
    let s2 : State := { s1 with srv := { s1.srv with batch := none }, arr := { s1.arr with active := none } }
    b.units.foldl (fun (s : State) (u : QUnit) => s.closeUnit u) s2

-- Spill (R210).

/-- The bank ranges that the incomplete coats of a batch read. -/
def Image.laterReads (g : Image) (b : Batch) : List BankRange :=
  let left := ((List.range g.coats.length).filter fun i => !b.completed i).filterMap fun i => g.coats[i]?
  ((left.map g.readSet).flatten.filter fun r => r.kind != 4).eraseDups

/-- The bank of a range. -/
def BankRange.bankId (r : BankRange) : Nat :=
  match r.kind with
  | 2 => 0x10 + r.bank
  | 3 => 0x20 + r.bank
  | _ => r.bank

/-- The coded ranges of a batch that is left. -/
def State.spillRanges (s : State) (g : Image) (b : Batch) : List SpilledRange :=
  (g.laterReads b).map fun r => ⟨r.bankId, r.lo, r.hi - r.lo, spillCode (s.bankBytes r.bankId r.lo (r.hi - r.lo))⟩

/-- The bytes of a list of spilled ranges. -/
def spilledBytes (l : List SpilledRange) : Nat := l.foldl (fun n r => n + r.coded.length) 0

/-- Leave the running batch at its coat boundary, if the spill area holds what its later coats read. Otherwise, and always where the
module has no spill area, it goes on and is not left before it finishes. -/
def State.leaveBatch (s : State) : State :=
  match s.srv.batch with
  | none => s
  | some b =>
    match (s.slot b.slot).image with
    | none => s
    | some g =>
      let l := s.spillRanges g b
      let n := spilledBytes l
      if s.spillGib = 0 ∨ s.spillGib * 1073741824 < s.srv.spillUsed + n then
        s.onBatch fun x => { x with suspended := false, stays := true }
      else
        let b1 : Batch := { b with spilled := l }
        { s with srv := { s.srv with batch := none, suspended := s.srv.suspended ++ [b1], spillUsed := s.srv.spillUsed + n },
                 arr := s.arr.clear }

/-- Restore the spilled ranges of the batch that was taken up again; its coats go on. -/
def State.restoreBatch (s : State) : State :=
  match s.srv.batch with
  | none => s
  | some b =>
    let s1 := b.spilled.foldl (fun (s : State) (r : SpilledRange) =>
      s.putBank r.bank r.offset (spillDecode (ceilDiv r.length 4096) r.length r.coded)) s
    let s2 : State := { s1 with srv := { s1.srv with spillUsed := s1.srv.spillUsed - spilledBytes b.spilled } }
    s2.planBatch.haltBatch

/-- After a coat of the running batch has completed: the batch ends with its last one, and otherwise runs on. -/
def State.nextCoat (s : State) : State :=
  match s.srv.batch with
  | none => s
  | some b => if b.runs.all (·.complete) then s.endBatch else s.haltBatch

/-- A coat completes (R82): its held deliveries are released in order, and each request takes its status. -/
def State.completeCoat (s : State) (w : Work) : State :=
  let order := w.run.deliveries.foldl (fun l d => insertDelivery d l) []
  let s1 := order.foldl (fun (s : State) (d : Delivery) => s.release w.b w.i d) s
  match s1.coatAt w.i with
  | none => s1
  | some w1 =>
    let tags := (w1.b.rows.map (·.tag)).eraseDups
    let s2 := tags.foldl (fun (s : State) (t : Nat) => s.settleRow w1.run w1.c t) s1
    (s2.onRun w.i fun x => { x with complete := true, deliveries := [], passes := [], issued := 0, landed := 0, units := 0,
                                    drained := 0 }).nextCoat

/-- The running batch is gone, with what its coats held. -/
def State.clearBatch (s : State) : State :=
  ({ s with srv := { s.srv with batch := none }, arr := s.arr.clear } : State).stopKernels fun _ => true

/-- A fault that a coat's own accesses or kernels caused: what its batch holds is discarded and every request with a row in
it ends with a code (R146, R200); the batch has then no live row and ends. -/
def State.failCoat (s : State) (c : Code) (reason : Nat) : State :=
  match s.srv.batch with
  | none => s
  | some b =>
    let tags := (b.rows.map (·.tag)).eraseDups
    (tags.foldl (fun (s : State) (t : Nat) => s.failRequest t c reason) s.clearBatch).freeFrames b.rows

/-- A hardware fault discards the running batch: its requests wait for their replay from the journal (R91, R146, R204, R207,
R350). -/
def State.discardBatch (s : State) : State :=
  match s.srv.batch with
  | none => s
  | some b =>
    let s1 := s.clearBatch
    { s1 with srv := { s1.srv with affected := s1.srv.affected ++ b.units } }

end Sys2Proof.Machine
end

