-- ==== Sys2Proof/Machine/Access.lean ====
section
/-! DEFINITION. Access.lean: what the masters of a coat may reach: envelopes and windows of the banks, and translated pages with
their faults (R138, R196 to R200, R203, R204, R270). -/

namespace Sys2Proof.Machine

-- Windows and envelopes (R202 to R204).

/-- The generator that holds a coat's programs: the first of its set (log entry 38). -/
def Work.generator (w : Work) : Nat := if w.g.feedSet w.i then 4 else 0

/-- The runs of banks that boot code grants a master: first bank id, last bank id, and the last 64-byte unit of its banks (the
last column of R202, grouped as R204 shows; log entry 36). -/
def bankRuns (m : Nat) : List (Nat × Nat × Nat) :=
  let shared := (0x00, 0x17, 131071)
  let locals := (0x20, 0x5F, 8191)
  if m = 0 then [shared, locals, (0x60, 0x60, 32767), (0x62, 0x64, 262143)]
  else if m = 1 then [shared, locals, (0x61, 0x64, 262143)]
  else if m < 66 then [shared, (0x20 + (m - 2), 0x20 + (m - 2), 8191)]
  else if m < 75 then [shared, locals]
  else if m = 75 then [shared, locals, (0x62, 0x63, 65535)]
  else if m = 76 then [(0x00, 0x0F, 65535), (0x64, 0x64, 262143)]
  else if m = 77 then [(0x62, 0x62, 65535)]
  else if m = 78 then [(0x63, 0x63, 65535)]
  else if m = 79 then [shared, locals, (0x60, 0x64, 262143)]
  else if m = 80 then [shared, (0x1A, 0x1B, 8191), locals]
  else if m = 81 then [shared, (0x18, 0x19, 196607), (0x1A, 0x1B, 8191), locals, (0x60, 0x64, 262143)]
  else []

/-- A window of a master: bank id, rights, and its first and last 64-byte unit (R204). -/
structure BankWindow where
  bank : Nat
  read : Bool
  write : Bool
  first : Nat
  last : Nat
  deriving DecidableEq, Repr

/-- The window of a byte range of a binding in an on-die bank. -/
def Image.windowOf (g : Image) (i off size : Nat) (write : Bool) : List BankWindow :=
  match g.bindings[i]? with
  | some b =>
    if b.kind = 1 ∨ b.kind = 2 ∨ b.kind = 3 ∨ b.kind = 7 then
      [⟨b.bankId, !write, write, (b.offset + off) / 64, (b.offset + off + size - 1) / 64⟩]
    else []
  | none => []

/-- The window of a whole binding. -/
def Image.wholeWindow (g : Image) (i : Nat) (write : Bool) : List BankWindow :=
  g.windowOf i 0 ((g.bindings[i]?).map (·.size) |>.getD 1) write

/-- The coats whose masters hold windows: those that have begun and not completed. -/
def State.openCoats (s : State) : List Work := s.works.filter fun w => w.run.begun && !w.run.complete

/-- What the sequencer's own windows open (R203): the weight buffer halves, and the code, argument and save area of the cores that the
coat's kernels run on. -/
def Work.sequencerWindows (w : Work) : List BankWindow :=
  let cores := (List.range 64).filter fun c => (w.g.kernelsOf w.c).any fun k => k.mask.getLsbD c
  (if w.c.kind = 1 then [⟨0x1A, false, true, 0, 8191⟩, ⟨0x1B, false, true, 0, 8191⟩] else []) ++
    cores.map fun c => ⟨0x20 + c, false, true, 6144, 8191⟩

/-- The windows that the sequencer writes for the masters of a coat, from its bindings and kernel windows (R138, R204). The generator
that holds the coat's programs reads the operands of an attention coat too, and the array drain writes its output (log entry 38). -/
def Work.windowsAsked (w : Work) (m : Nat) : List BankWindow :=
  if 2 ≤ m ∧ m < 66 then
    let core := m - 2
    let of := fun (k : Kernel) =>
      if !k.mask.getLsbD core then []
      else
        let below := ((List.range core).filter fun i => k.mask.getLsbD i).length
        let own := if k.window = 255 ∨ k.windowSize = 0 then [] else w.g.windowOf k.window (below * k.windowStride) k.windowSize true
        ⟨0x20 + core, true, true, 0, 8191⟩ :: own ++ ((k.bindings.filter (· != 255)).map fun i => w.g.wholeWindow i false).flatten
    ((w.g.kernelsOf w.c).map of).flatten
  else if m = 66 then
    (if w.c.kind = 1 ∨ w.c.kind = 2 then w.g.wholeWindow w.c.dest true
     else ((w.g.attnOf w.c).map fun a => w.g.wholeWindow a.out true).getD [])
  else if m = 67 + w.generator then
    ((w.g.programsOf w.c).map fun p =>
      w.g.wholeWindow p.src false ++ (if p.kind = 1 then [] else w.g.wholeWindow p.dst true) ++
        (if p.kind = 4 then w.g.wholeWindow p.aux false
         else if p.writesValue then w.g.wholeWindow p.aux true else [])).flatten ++
      ((w.g.attnOf w.c).map fun a => ([a.q, a.k, a.v].map fun i => w.g.wholeWindow i false).flatten).getD []
  else if m = 80 then w.sequencerWindows
  else []

/-- Does a window lie inside one envelope of its master (R204)? Boot code grants whole banks. -/
def insideEnvelope (m : Nat) (x : BankWindow) : Bool :=
  (bankRuns m).any fun r => decide (r.1 ≤ x.bank ∧ x.bank ≤ r.2.1 ∧ x.first ≤ x.last ∧ x.last ≤ r.2.2)

/-- The windows of a coat's masters that hold: a window outside every envelope of its master is refused. -/
def Work.windows (w : Work) (m : Nat) : List BankWindow := (w.windowsAsked m).filter (insideEnvelope m)

/-- The windows of a master; their order is the model's, and eight are shown (log entry 38). -/
def State.coatWindows (s : State) (m : Nat) : List BankWindow := ((s.openCoats.map fun w => w.windows m).flatten).eraseDups

/-- The coat that a master works for: a trim core's own, the one of a generator's set, and else the first that is under way. -/
def State.masterCoat (s : State) (master : Nat) : Nat :=
  let open_ := s.works.filter fun w => w.run.begun && !w.run.complete
  if 2 ≤ master ∧ master ≤ 65 then (listAt {} s.trim.cores (master - 2)).coat
  else
    let mine := open_.find? fun w => !(decide (67 ≤ master ∧ master ≤ 74)) || (w.c.programs != 0 && w.g.feedSet w.i == decide (71 ≤ master))
    (mine.map (·.i)).getD 0

/-- Has BANK.FAULT no bit set? -/
def State.bankQuiet (s : State) : Bool :=
  s.rget Fld.BANK_FAULT_UE + s.rget Fld.BANK_FAULT_WINDOW + s.rget Fld.BANK_FAULT_COLLISION == 0

/-- Note the first bank fault. -/
def State.bankLoc (s : State) (master bank unit : Nat) : State :=
  if s.bankQuiet then
    (((s.rset Fld.BANK_FAULT_LOC_MASTER (master % 128)).rset Fld.BANK_FAULT_LOC_BANK (bank % 256)).rset
      Fld.BANK_FAULT_LOC_COAT (s.masterCoat master % 65536)).rset Fld.BANK_FAULT_ADDR_UNIT (unit % 262144)
  else s

/-- The sequencer writes the windows of a coat's masters as the coat starts (R204): a window that is refused sets BANK.FAULT.WINDOW. -/
def State.openWindows (s : State) (w : Work) : State :=
  if w.run.begun then s
  else
    let refused := fun (m : Nat) => (w.windowsAsked m).filter fun x => !insideEnvelope m x
    match (List.range 82).find? fun m => !(refused m).isEmpty with
    | none => s
    | some m =>
      let x := (refused m).head?.getD ⟨0, false, false, 0, 0⟩
      let s1 := s.bankLoc m x.bank x.first
      (s1.rsetIf (s.bankQuiet) Fld.BANK_FAULT_LOC_COAT (w.i % 65536)).rset Fld.BANK_FAULT_WINDOW 1

/-- A DMA master's access outside every valid window is refused (R204): F_BANK is raised, and the unfinished requests of the batch
wait for their replay. -/
def State.dmaRefused (s : State) (m bank unit : Nat) : State :=
  (((s.bankLoc m bank unit).rset Fld.BANK_FAULT_WINDOW 1).discardBatch).healthEvent Code.F_BANK

-- Translated accesses (R196 to R200, R270).

/-- An access waits for the lease holder (R200). -/
def State.holdAccess (s : State) (owner vpn : Nat) : State :=
  if s.mem.held.contains (owner, vpn) then s else { s with mem := { s.mem with held := s.mem.held ++ [(owner, vpn)] } }

/-- Copy-on-write (R270): the page is copied to a clear page, the shares of the old one fall by one, and the writer's entry is
rewritten to the copy, which the writer has allocated (R264). None while no page is clear or the lease holder cannot act. -/
def State.copyShared (s : State) (owner vpn : Nat) : Option State :=
  let i := (s.desc owner).base + vpn
  let old := entryPage (s.entry i)
  if !s.supActs then none
  else
    match s.takePages 1 with
    | some ([p], s1) =>
      let s2 := s1.putDram (pageAddr p) (s1.dramBytes (pageAddr old) 65536)
      let n := leNat (s2.dramBytes (pageAddr old + 20) 2)
      let s3 := (s2.putDram (pageAddr old + 20) (leBytes 2 (n - 1))).putDram (pageAddr p + 20) (leBytes 2 1)
      let s4 := s3.putDram (pageAddr p + 24) (leBytes 4 owner)
      some ((if n ≤ 1 then s4.freeMapped [old] else s4).updateEntry owner vpn i (mkEntry p true))
    | _ => none

/-- RANGE, INVALID, and any WRITE that no sharing explains: the access is refused, every request with a row in the coat ends
with F_XLT, and F_XLT is raised. -/
def State.refuseAccess (s : State) (f : Field) (owner vpn master : Nat) : State :=
  ((s.xltFault f owner vpn master).failCoat Code.F_XLT 8).healthEvent Code.F_XLT

/-- An access of a master to a virtual page of an owner (R196, R197, R200): what it leaves, and whether it proceeds. -/
def State.access (s : State) (owner vpn : Nat) (write : Bool) (master : Nat) : State × Bool :=
  let x := s.desc owner
  match s.translate owner (vpn * 65536) write with
  | .pa _ => (s.lookup (x.base + vpn), true)
  | .range => (s.refuseAccess Fld.XLT_FAULT_RANGE owner vpn master, false)
  | .invalid => ((s.lookup (x.base + vpn)).refuseAccess Fld.XLT_FAULT_INVALID owner vpn master, false)
  | .spilled => ((s.lookup (x.base + vpn)).holdAccess owner vpn, false)
  | .write =>
    let s1 := s.lookup (x.base + vpn)
    if owner < 4096 ∧ !x.readOnly then
      match s1.copyShared owner vpn with
      | some s2 => (s2, true)
      | none => (s1.holdAccess owner vpn, false)
    else (s1.refuseAccess Fld.XLT_FAULT_WRITE owner vpn master, false)

/-- Accesses in order, up to the first that does not proceed: owner, virtual page, and whether it writes. -/
def State.accessAll (s : State) (master : Nat) : List (Nat × Nat × Bool) → State × Bool
  | [] => (s, true)
  | a :: l =>
    match s.access a.1 a.2.1 a.2.2 master with
    | (s1, true) => State.accessAll s1 master l
    | (s1, false) => (s1, false)

/-- The accesses to `n` bytes at a virtual address: one to each page (log entry 43). -/
def pageAccesses (owner va n : Nat) (write : Bool) : List (Nat × Nat × Bool) :=
  if n = 0 then [] else (List.range ((va + n - 1) / 65536 - va / 65536 + 1)).map fun k => (owner, va / 65536 + k, write)

/-- A master of a coat reaches a binding (R204, R196): a range of a bank inside an envelope, or the pages of a workspace. -/
def State.reachOne (s : State) (w : Work) (m i : Nat) (write : Bool) : State × Bool :=
  let b := w.g.binding i
  if b.kind = 4 then s.accessAll m (pageAccesses (workDesc w.b.slot) b.offset b.size write)
  else
    match (w.g.wholeWindow i write).find? fun x => !insideEnvelope m x with
    | some x => (s.dmaRefused m x.bank x.first, false)
    | none => (s, true)

/-- A master of a coat reaches bindings, each to read or to write; at the first that it may not reach, or that is held, it stops. -/
def State.reach (s : State) (w : Work) (m : Nat) : List (Nat × Bool) → State × Bool
  | [] => (s, true)
  | a :: l =>
    match s.reachOne w m a.1 a.2 with
    | (s1, true) => State.reach s1 w m l
    | (s1, false) => (s1, false)

/-- A coat's master works: the sequencer has written its windows, and what it reaches lets it. -/
def State.whenReached (s : State) (w : Work) (m : Nat) (l : List (Nat × Bool)) (f : State → State) : State :=
  match (s.openWindows w).reach w m l with
  | (s1, true) => f s1
  | (s1, false) => s1

/-- Held writes to shared pages go on once the lease holder can copy the page (R200, R270). -/
def State.resumeHeld (s : State) : State :=
  s.mem.held.foldl (fun (s : State) (a : Nat × Nat) =>
    let e := s.entry ((s.desc a.1).base + a.2)
    if !entryV e ∨ entryW e then s
    else
      match s.copyShared a.1 a.2 with
      | some s1 => { s1 with mem := { s1.mem with held := s1.mem.held.filter (· != a) } }
      | none => s) s

end Sys2Proof.Machine
end

