-- ==== Sys2Proof/Machine/ArrayCmds.lean ====
section
/-! DEFINITION. ArrayCmds.lean: the events of the matrix array: tiles, passes, drains and the completion of a coat (R74 to R91,
R100 to R104). -/

namespace Sys2Proof.Machine

-- Weight tiles (R78, R80).

/-- The first two tiles of the image that the serving engine has named for the next batch, which may be fetched ahead; none in
fixed-slot mode (R80 (d), R247). -/
def State.tilesAhead (s : State) : List TileKey :=
  match s.named with
  | none => []
  | some k =>
    match (s.slot k).image with
    | none => []
    | some h =>
      match (List.range h.coats.length).find? fun i => ((h.coats[i]?).map (·.kind)) == some 1 with
      | none => []
      | some i =>
        match h.coats[i]? with
        | none => []
        | some c =>
          match h.op c with
          | none => []
          | some o =>
            if s.rbit Fld.SRV_MODE_FIXED then []
            else (tileRuns (o.passOrder c k i ((h.passRecs.drop c.firstPass).take c.passes) [0])).take 2

/-- The tile that the sequencer fetches next (R80 (d)): the one in pass order after those that it holds, across the coats of the
batch and on to the named image. -/
def State.nextTile (s : State) : Option TileKey :=
  let left := match s.srv.batch with
    | some b => if b.suspended then [] else s.arr.tilesFor b.passesLeft
    | none => []
  (left ++ s.tilesAhead)[s.arr.held.length]?

/-- The weight buffer half that is free, the lower first. -/
def ArrState.freeHalf (a : ArrState) : Option Nat :=
  if !a.halves.any (·.1 == 0) then some 0 else if !a.halves.any (·.1 == 1) then some 1 else none

/-- The pages that a tile's weights, and with an n-tile's first tile its bias values and multipliers, are read from (R78, R173). -/
def State.tilePages (s : State) (k : TileKey) : List (Nat × Nat × Bool) :=
  match (s.slot k.slot).image with
  | none => []
  | some g =>
    match g.coats[k.coat]? with
    | none => []
    | some c =>
      let of := fun (i : Nat) => match g.weight i with
        | none => []
        | some w => pageAccesses (slotDesc k.slot) (g.weightPage i * 65536) w.length false
      let first := (g.op c).any fun o => o.firstTile c k
      of c.weights ++ (if first then (if c.bias ≠ 65535 ∧ !c.biasBinding then of c.bias else []) ++
        (if c.scales ≠ 65535 then of c.scales else []) else [])

/-- TILE_FETCH_DONE (R78 steps 1 and 2): the tile's packed bytes have arrived in a free half, which decodes them in line. The
sequencer reads them through translation (R196). -/
def tileFetchDone (s : State) : State :=
  match s.arr.freeHalf, s.nextTile with
  | some h, some k =>
    if s.arr.stopped then s
    else
      match s.loadTile k, s.accessAll 80 (s.tilePages k) with
      | some t, (s1, true) => { s1 with arr := { s1.arr with halves := s1.arr.halves ++ [(h, t)] } }
      | some _, (s1, false) => s1
      | none, _ => s
  | _, _ => s

def execTileFetchDone (s : State) : Host.Outcome State Fault Refusal := .next (tileFetchDone s)

/-- SHADOW_WRITE_DONE (R78 step 3): the oldest decoded tile is in the shadow registers and its half is free. -/
def shadowWriteDone (s : State) : State :=
  match s.arr.shadow, s.arr.halves with
  | none, x :: l => { s with arr := { s.arr with shadow := some x.2, halves := l } }
  | _, _ => s

def execShadowWriteDone (s : State) : Host.Outcome State Fault Refusal := .next (shadowWriteDone s)

-- Array faults (R90, R91).

/-- The physical group of a logical one when group f is mapped out (R72). -/
def physicalGroup (f g : Nat) : Nat := if g < f then g else g + 1

/-- A located group for ARR.FAULT_LOC: physical, or 63. -/
def locatedGroup (f : Nat) (g : Option Nat) : Nat := (g.map (physicalGroup f)).getD 63

/-- Note an array fault (R91 step 1): the event, and the place of the first one. An uncorrectable entry and a weight parity error
are handled as a residue error is; each sets its own bit of ARR.FAULT alone (DESIGN CHOICE, log entry 41). -/
def State.noteArrayError (s : State) (e : ArrayError) (coat : Nat) : State :=
  let clear := s.rget Fld.ARR_FAULT_RESIDUE + s.rget Fld.ARR_FAULT_UNCORR + s.rget Fld.ARR_FAULT_WPARITY +
    s.rget Fld.ARR_FAULT_REPEAT = 0
  let s1 := if clear then
      ((s.rset Fld.ARR_FAULT_LOC_ROW_GROUP (locatedGroup (s.rget Fld.ARR_REMAP_ROW_GROUP) e.rowGroup)).rset
        Fld.ARR_FAULT_LOC_COL_GROUP (locatedGroup (s.rget Fld.ARR_REMAP_COL_GROUP) e.colGroup)).rset Fld.ARR_FAULT_LOC_COAT coat
    else s
  match e.kind with
  | .residue => s1.rset Fld.ARR_FAULT_RESIDUE 1
  | .uncorrectable => s1.rset Fld.ARR_FAULT_UNCORR 1
  | .weightParity => s1.rset Fld.ARR_FAULT_WPARITY 1

/-- An error in a pass or a drain of a coat (R91 steps 1 and 2): the first one executes the coat again from its first pass; a
second in the same execution stops passes and raises F_ARRAY, and the slice runs. -/
def State.arrayError (s : State) (w : Work) (e : ArrayError) : State :=
  let s1 := s.noteArrayError e w.i
  if w.run.retried then
    let s2 := s1.rset Fld.ARR_FAULT_REPEAT 1
    ((({ s2 with arr := { s2.arr with stopped := true } } : State).discardBatch).startSlice 7 0).healthEvent Code.F_ARRAY
  else s1.redoCoat w

-- Passes (R74, R80, R81).

/-- An accumulator bank. -/
def ArrState.bankOf (a : ArrState) (b : Nat) : AccBank := if b = 0 then a.bank0 else a.bank1
/-- Set an accumulator bank. -/
def ArrState.putBankOf (a : ArrState) (b : Nat) (x : AccBank) : ArrState :=
  if b = 0 then { a with bank0 := x } else { a with bank1 := x }

/-- Do two passes belong to one unit? -/
def Pass.sameUnit (p q : Pass) : Bool := p.key.coat == q.key.coat && p.unit == q.unit

/-- The handshakes that one entry of an n-tile takes to drain (R88). -/
def Op.drainSteps (o : Op) (c : Coat) (t : Nat) : Nat :=
  match Format.ofCode c.format with
  | some f => ceilDiv (f.rowBytes (o.cols c t).2) 1024
  | none => 1

/-- The handshakes that a unit takes to drain (R88). -/
def Work.drainTime (w : Work) (o : Op) (p : Pass) : Nat :=
  (listAt (0, []) (o.feed.stripes w.b.rows) p.stripe).2.length * o.drainSteps w.c p.key.ntile

/-- The handshakes that the drain of a pass's unit takes. -/
def State.unitDrain (s : State) (p : Pass) : Nat :=
  match s.coatAt p.key.coat with
  | none => 0
  | some w => ((w.g.op w.c).map fun o => w.drainTime o p).getD 0

/-- May a pass be issued into its bank (R81)? Of the units that the bank holds or that are on their way into it, other than the
pass's own, there is at most one, and its drain has begun or takes so few handshakes that it ends within 528 of its beginning. -/
def State.bankTakes (s : State) (p : Pass) : Bool :=
  let x := s.arr.bankOf p.bank
  let there := x.pass.toList ++ (s.arr.flights.map (·.pass)).filter fun q => q.bank == p.bank
  match there.filter fun q => !q.sameUnit p with
  | [] => true
  | q :: l => l.all (·.sameUnit q) && ((x.phase == .draining && x.pass.any (·.sameUnit q)) || decide (s.unitDrain q < 528))

/-- Does the stripe buffer hold what a pass reads (R104)? -/
def Work.stripeThere (w : Work) (o : Op) (p : Pass) : Bool :=
  let src := (listAt o.feed o.feeds p.key.prog).src
  (w.g.loaderOf w.c src).isNone ||
    (if p.rowStripe % 2 = 0 then w.run.stripe0 else w.run.stripe1) == some p.rowStripe

/-- The feed rows of a pass (R100, R103). -/
def State.passRows (s : State) (w : Work) (o : Op) (p : Pass) : List FeedRow :=
  let st := listAt (0, []) (o.feed.stripes w.b.rows) p.stripe
  st.2.map fun px => s.feedRow w o p.key p.rowStripe px

/-- The array coat whose passes issue now: the first with passes left (R80 (f)); its operation's first pass waits until the
operations before it, an attention coat's among them, have fed (R80 (a)). -/
def State.issuing (s : State) : Option Work :=
  let left := fun (w : Work) => (w.c.kind == 1 && decide (w.run.issued < w.run.passes.length)) ||
    (w.c.kind == 4 && !w.run.attentionDone)
  (s.works.find? left).filter fun w => w.c.kind == 1

/-- A pass issues with its tile (R80, R81): its feed rows are read and stream in. -/
def State.issuePass (s : State) (w : Work) (o : Op) (p : Pass) (t : Tile) (kept : Bool) : State :=
  let rows := s.passRows w o p
  let a := s.arr
  let a1 : ArrState := { a with active := some t, shadow := if kept then a.shadow else none,
                                flights := a.flights ++ [⟨p, rows, t⟩], nextBank := if p.first then 1 - p.bank else a.nextBank, begun := true }
  let s1 := { s with arr := a1, srv := { s.srv with lastSet := w.g.feedSet w.i } }
  let s2 := s1.onRun w.i fun x => { x with begun := true, issued := x.issued + 1 }
  let s3 := ((s2.rset Fld.ARR_COAT_NOW_COAT w.i).rset Fld.ARR_COAT_NOW_SLOT w.b.slot).count Fld.ARR_PASS_COUNT_COUNT
  let s4 := s3.count64 Fld.ARR_BUSY_LO_COUNT Fld.ARR_BUSY_HI_COUNT rows.length
  let s5 := s4.count64 Fld.FEED_ROWS_LO_COUNT Fld.FEED_ROWS_HI_COUNT rows.length
  s5.count Fld.FEED_PAD_ROWS_COUNT ((rows.filter FeedRow.absent).length)

/-- The bindings that a pass reads its feed rows from (R104). -/
def Op.sources (o : Op) (p : Pass) : List (Nat × Bool) := [((listAt o.feed o.feeds p.key.prog).src, false)]

/-- PASS_ISSUE (R80, R81, R90): the next pass issues when its coat may be worked on, its tile is active or in the shadow registers,
its accumulator bank can take it and the stripe buffer holds its rows. `parity` is the place, as logical row and column groups, of a
weight parity error that is found as the tile becomes active. -/
def passIssue (parity : Option (Option Nat × Option Nat)) (s : State) : State :=
  match s.issuing with
  | none => s
  | some w =>
    match w.g.op w.c, w.run.passes[w.run.issued]? with
    | some o, some p =>
      let kept : Bool := s.arr.active.any fun t => t.key == p.key
      match if kept then s.arr.active else s.arr.shadow.filter fun t => t.key == p.key with
      | none => s
      | some t =>
        if s.arr.stopped ∨ s.rbit Fld.ARR_REMAP_UNUSABLE ∨ !s.mayWork w ∨ !w.setFree ∨ !s.bankTakes p ∨ !w.stripeThere o p then s
        else
          match if kept then none else parity with
          | some l => s.arrayError w ⟨.weightParity, l.1, l.2⟩
          | none => s.whenReached w (67 + w.generator) (o.sources p) fun (s : State) => s.issuePass w o p t kept
    | _, _ => s

def execPassIssue (parity : Option (Option Nat × Option Nat)) (s : State) : Host.Outcome State Fault Refusal :=
  .next (passIssue parity s)

/-- The entries of a bank that a pass lands in: those of its unit, or, where its first pass lands, its bias contributions
(R46, R76). -/
def State.landingEntries (s : State) (w : Work) (o : Op) (f : Flight) : List (List AccEntry) :=
  let x := s.arr.bankOf f.pass.bank
  if x.phase = .filling then x.entries
  else
    (listAt (0, []) (o.feed.stripes w.b.rows) f.pass.stripe).2.map fun px =>
      match w.b.rows[px.1]? with
      | some r => s.startEntry w o f.tile px.1 r
      | none => []

/-- Feed row i contributes to entry i (R74). -/
def landRows (a : Int) (lo : Nat) (columns : List (List FpVal)) : List (List AccEntry) → List FeedRow → List (List AccEntry)
  | e :: es, r :: rs => addRow a lo e r columns :: landRows a lo columns es rs
  | es, _ => es

/-- The pass's contributions are in its bank (R74, R75), and beside it, with its first pass, the column multipliers (R78): after the
unit's last pass the bank is ready to drain. -/
def State.landPass (s : State) (w : Work) (o : Op) (f : Flight) : State :=
  let p := f.pass
  let old := s.arr.bankOf p.bank
  let lo := (o.part w.c p.key.ntile p.key.group).1 - (o.cols w.c p.key.ntile).1
  let x : AccBank := { phase := if p.last then .landed else .filling, pass := some p,
                       entries := landRows w.c.anchor lo f.tile.columns (s.landingEntries w o f) f.rows,
                       scales := if old.phase = .filling then old.scales else f.tile.scales }
  ({ s with arr := { s.arr.putBankOf p.bank x with flights := s.arr.flights.drop 1 } } : State).onRun w.i fun y =>
    { y with landed := y.landed + 1 }

/-- Correctable entry errors, corrected and counted (R90). ARR.CTRL.FREEZE holds ARR.ACC_CORR with the other counters, though CLEAR
names it apart from them (DESIGN CHOICE, log entry 41). -/
def State.countCorrected (s : State) (n : Nat) : State := s.countHold Fld.ARR_ACC_CORR_COUNT n

/-- PASS_LANDED (R74, R75, R90, R91): the oldest pass in flight lands in its bank, which is free or holds its own unit; its checks
run. -/
def passLanded (error : Option ArrayError) (corrected : Nat) (s : State) : State :=
  match s.arr.flights with
  | [] => s
  | f :: _ =>
    match s.coatAt f.pass.key.coat with
    | none => s
    | some w =>
      match w.g.op w.c with
      | none => s
      | some o =>
        let x := s.arr.bankOf f.pass.bank
        let own := x.phase == .filling && x.pass.any (·.sameUnit f.pass)
        if s.arr.stopped ∨ (x.phase ≠ .free ∧ !own) then s
        else
          match error with
          | none => (s.countCorrected corrected).landPass w o f
          | some e => (s.countCorrected corrected).arrayError w e

def execPassLanded (error : Option ArrayError) (corrected : Nat) (s : State) : Host.Outcome State Fault Refusal :=
  .next (passLanded error corrected s)

-- Drains (R88, R89, R101).

/-- Write the columns of one entry to its output pixel (R95, R101, R38): `n0` is the first column of the n-tile. -/
def State.writeColumns (s : State) (w : Work) (o : Op) (f : Format) (px : Nat × Nat × Nat) (n0 n : Nat) (bytes : List Byte) :
    State :=
  match w.b.rows[px.1]? with
  | none => s
  | some r =>
    let ps := pixelStride f w.c.n
    let dst := w.g.binding w.c.dest
    let wo := o.feed.wo
    let ho := if o.feed.h ≠ 0 then o.feed.ho o.feed.h else dst.rowsFor w.g.header.batchRows (wo * ps)
    let at_ := dst.rowOff px.1 (tensorBytes ho (wo * ps)) + (px.2.1 * wo + px.2.2) * ps
    let s1 :=
      if f.isQB then
        let k := ceilDiv n 32
        (s.bindWrite w w.c.dest r (at_ + n0 / 32) (bytes.take k)).bindWrite w w.c.dest r
          (at_ + ceilDiv w.c.n 32 + n0 * f.ebits / 8) (bytes.drop k)
      else s.bindWrite w w.c.dest r (at_ + n0 * f.ebits / 8) bytes
    let stored := f.rowBytes w.c.n
    if n0 + n = w.c.n ∧ stored < ps then s1.bindWrite w w.c.dest r (at_ + stored) (zeroBytes (ps - stored)) else s1

/-- The multiplier of column j of a bank (R49, R78): 1 where the coat sets none. -/
def AccBank.scale (x : AccBank) (j : Nat) : Nat := listAt 1 x.scales j

/-- Convert and write one entry of a bank (R48 to R50, R88, R53). -/
def State.drainEntry (s : State) (w : Work) (o : Op) (f : Format) (x : AccBank) (p : Pass) (i : Nat) : State :=
  let (n0, n) := o.cols w.c p.key.ntile
  match ((listAt (0, []) (o.feed.stripes w.b.rows) p.stripe).2)[i]? with
  | none => s
  | some px =>
    let (bytes, flags) := convRow f w.c.anchor (w.g.scaleOf w.c.dest) w.c.shift x.scale (listAt [] x.entries i)
    let tag := ((w.b.rows[px.1]?).map (·.tag)).getD 0
    (s.writeColumns w o f px n0 n bytes).raiseFlags w.i tag flags true

/-- Drain a bank's entries in order from the next one up to an entry that the destination refuses, or to an error (R88 to R90). -/
def State.drainFrom (s : State) (k : Nat) (refuses : Option Nat) (error : Option ArrayError) (corrected : Nat) : State :=
  let x := s.arr.bankOf k
  match x.pass with
  | none => s
  | some p =>
    match s.coatAt p.key.coat with
    | none => s
    | some w =>
      match w.g.op w.c, Format.ofCode w.c.format with
      | some o, some f =>
        let s0 := s.countCorrected corrected
        match error with
        | some e => s0.arrayError w e
        | none =>
          s0.whenReached w 66 [(w.c.dest, true)] fun (s0 : State) =>
            let stop := min x.entries.length (refuses.getD x.entries.length)
            let s1 := ((List.range stop).drop x.next).foldl (fun (s : State) (i : Nat) => s.drainEntry w o f x p i) s0
            { s1 with arr := s1.arr.putBankOf k { x with phase := .draining, next := max x.next stop } }
      | _, _ => s

/-- May a bank begin to drain (R88): its unit's last pass has landed, the drain port is free, and no unit before it waits for the
port in the other bank? -/
def ArrState.drains (a : ArrState) (k : Nat) : Bool :=
  let x := a.bankOf k
  let y := a.bankOf (1 - k)
  let earlier : Bool := match x.pass, y.pass with
    | some p, some q => decide (q.key.coat < p.key.coat ∨ (q.key.coat = p.key.coat ∧ q.unit < p.unit))
    | _, _ => false
  x.phase == .landed && y.phase != .draining && !(y.phase == .landed && earlier)

/-- BANK_DRAIN_START (R88): the bank whose unit's last pass has landed drains; `refuses` is the entry at which the destination
refuses a write, if it does; `error` and `corrected` are the entry errors that the drain meets (R90). -/
def bankDrainStart (bank : Nat) (refuses : Option Nat) (error : Option ArrayError) (corrected : Nat) (s : State) : State :=
  if !s.arr.drains bank ∨ 1 < bank ∨ s.arr.stopped then s else s.drainFrom bank refuses error corrected

def execBankDrainStart (bank : Nat) (refuses : Option Nat) (error : Option ArrayError) (corrected : Nat) (s : State) :
    Host.Outcome State Fault Refusal :=
  .next (bankDrainStart bank refuses error corrected s)

/-- DRAIN_RESUME (R89): the held entry's write is accepted and the drain goes on in order. -/
def drainResume (bank : Nat) (refuses : Option Nat) (error : Option ArrayError) (corrected : Nat) (s : State) : State :=
  if (s.arr.bankOf bank).phase ≠ .draining ∨ 1 < bank ∨ s.arr.stopped then s else s.drainFrom bank refuses error corrected

def execDrainResume (bank : Nat) (refuses : Option Nat) (error : Option ArrayError) (corrected : Nat) (s : State) :
    Host.Outcome State Fault Refusal :=
  .next (drainResume bank refuses error corrected s)

/-- DRAIN_END (R81, R88): every entry has been drained; the bank is free. After a coat's last drain its kernels may start. -/
def drainEnd (bank : Nat) (s : State) : State :=
  let x := s.arr.bankOf bank
  match x.pass with
  | none => s
  | some p =>
    if x.phase ≠ .draining ∨ 1 < bank ∨ x.next < x.entries.length then s
    else ({ s with arr := s.arr.putBankOf bank {} } : State).onRun p.key.coat fun r => { r with drained := r.drained + 1 }

def execDrainEnd (bank : Nat) (s : State) : Host.Outcome State Fault Refusal := .next (drainEnd bank s)

-- A coat completes (R82).

/-- COAT_COMPLETE: nothing happens before all that R82 asks for has happened. -/
def coatComplete (coat : Nat) (s : State) : State :=
  match s.coatAt coat with
  | some w => if s.coatDone w then s.completeCoat w else s
  | none => s

/-- ACTIVATION_SPILL (R210): a batch that a fixed slot's guard has halted at a coat boundary is spilled and left; one that was
taken up again is restored. Outside fixed-slot mode a halted batch goes on. -/
def activationSpill (s : State) : State :=
  match s.srv.batch with
  | none => s
  | some b =>
    if !b.suspended then s
    else if b.resuming then s.restoreBatch
    else if s.rbit Fld.SRV_MODE_FIXED then s.leaveBatch
    else s.onBatch fun x => { x with suspended := false }

def execActivationSpill (s : State) : Host.Outcome State Fault Refusal := .next (activationSpill s)

end Sys2Proof.Machine
end

