-- ==== Sys2Proof/Machine/FeedCmds.lean ====
section
/-! DEFINITION. FeedCmds.lean: the feed engine's own work: stripe loads, window gathers, crop-and-resize and argmax (R104, R106
to R112). -/

namespace Sys2Proof.Machine

-- Stripe loads (R104).

/-- The half of the stripe buffer that a row stripe uses, and its contents. -/
def CoatRun.stripeHalf (x : CoatRun) (rs : Nat) : Option Nat := if rs % 2 = 0 then x.stripe0 else x.stripe1

/-- The row stripe that the loader fills next, from the row stripes that the passes still to be issued read, in order: the
first whose half holds something else, once every pass that reads the half's contents has fed. -/
def CoatRun.nextStripe (x : CoatRun) : List Nat → List Nat → Option Nat
  | _, [] => none
  | before, r :: rs =>
    if x.stripeHalf r = some r then x.nextStripe (r :: before) rs
    else
      match x.stripeHalf r with
      | none => some r
      | some old => if before.contains old then none else some r

/-- Input rows that a row stripe needs of one batch row (R104): first and number, by the formulas of R104 at the row's own height.
A stripe all of whose taps lie outside the image fetches no row, although PAD = 1 clamps its taps into the image (R99): such a tap
reads the byte place of the half that its clamped row would have (DESIGN CHOICE, log entry 41). -/
def Program.stripeRows (p : Program) (r : RowRec) (rs : Nat) : Nat × Nat :=
  let h := p.height r
  let ho := p.ho h
  let lo := p.stripeLo rs
  let top : Int := (min ho ((rs + 1) * p.win.sr) : Nat)
  let last : Int := (top - 1) * (p.win.sy : Int) - (p.win.pt : Int) + ((p.win.kh - 1) * p.win.dy : Nat)
  let hi : Int := if (h : Int) - 1 < last then (h : Int) - 1 else last
  (lo, (hi - (lo : Int) + 1).toNat)

/-- Copy the rows of one batch row into a stripe buffer half. -/
def State.loadStripeRow (s : State) (w : Work) (p : Program) (rs k : Nat) (r : RowRec) : State :=
  let (lo, n) := p.stripeRows r rs
  let t := tensorBytes (w.g.srcHeight p) (p.w * p.ps)
  let bytes := s.bindRead w.b.slot w.g p.src r ((w.g.binding p.src).rowOff k t + lo * p.w * p.ps) (n * p.w * p.ps)
  let half := (w.g.binding p.dst).size / 2
  (s.bindWrite w p.dst r (rs % 2 * half + k * p.halfRow) bytes).count64 Fld.FEED_LOAD_LO_COUNT Fld.FEED_LOAD_HI_COUNT
    (n * p.w * p.ps)

/-- Do something for each batch row of a coat, in order. -/
def Work.eachRow (w : Work) (s : State) (f : State → Nat → RowRec → State) : State :=
  (List.range w.b.rows.length).foldl (fun (s : State) (k : Nat) =>
    match w.b.rows[k]? with
    | some r => f s k r
    | none => s) s

/-- STRIPE_LOAD_DONE (R104): the coat's loaders have filled a half with the next row stripe's input rows, for every batch row. -/
def stripeLoadDone (coat : Nat) (s : State) : State :=
  match s.coatAt coat with
  | none => s
  | some w =>
    let loaders := (w.g.programsOf w.c).filter (·.kind == 2)
    match w.run.nextStripe [] ((w.run.passes.drop w.run.issued).map (·.rowStripe)) with
    | none => s
    | some rs =>
      if loaders.isEmpty ∨ !s.mayWork w ∨ !w.setFree then s
      else
        let uses := (loaders.map fun p => [(p.src, false), (p.dst, true)]).flatten
        s.whenReached w (67 + w.generator) uses fun (s : State) =>
          let s1 := loaders.foldl (fun (s : State) (p : Program) =>
            w.eachRow s fun (s : State) (k : Nat) (r : RowRec) => s.loadStripeRow w p rs k r) s
          s1.onRun w.i fun x =>
            if rs % 2 = 0 then { x with begun := true, stripe0 := some rs } else { x with begun := true, stripe1 := some rs }

def execStripeLoadDone (coat : Nat) (s : State) : Host.Outcome State Fault Refusal := .next (stripeLoadDone coat s)

-- Programs that do not feed the array.

/-- The first program of coat i of a kind that has not run, with its index, if the coat's generators may work (R80, R94, R112). -/
def State.programDue (s : State) (i kind : Nat) : Option (Work × Program × Nat) :=
  match s.coatAt i with
  | none => none
  | some w =>
    if !s.mayWork w || !w.setFree then none
    else
      ((List.range w.c.programs).find? fun j =>
        ((w.g.programsOf w.c)[j]?).map (·.kind) == some kind && !w.run.programsDone.contains j).bind fun j =>
          ((w.g.programsOf w.c)[j]?).map fun p => (w, p, j)

/-- The bindings that a program reaches (R97). -/
def Program.uses (p : Program) : List (Nat × Bool) :=
  [(p.src, false), (p.dst, true)] ++ (if p.kind = 4 then [(p.aux, false)] else if p.writesValue then [(p.aux, true)] else [])

/-- Run a program for each batch row of its coat in order, where its generator reaches its bindings, and mark it as run. -/
def State.runProgram (s : State) (w : Work) (p : Program) (j : Nat) (f : State → Nat → RowRec → State) : State :=
  s.whenReached w (67 + w.generator) p.uses fun (s : State) =>
    (w.eachRow s f).onRun w.i fun x => { x with begun := true, programsDone := x.programsDone ++ [j] }

/-- One stored pixel of a program's source tensor. -/
def State.pixel (s : State) (w : Work) (p : Program) (k : Nat) (r : RowRec) (y x : Nat) : List Byte :=
  let t := tensorBytes (w.g.srcHeight p) (p.w * p.ps)
  s.bindRead w.b.slot w.g p.src r ((w.g.binding p.src).rowOff k t + (y * p.w + x) * p.ps) p.ps

-- Window gather (R106).

/-- What a gather writes for one output pixel: the validity mask, then the window's tap pixels. -/
def State.gatherPixel (s : State) (w : Work) (p : Program) (k : Nat) (r : RowRec) (oy ox : Nat) : List Byte :=
  let taps := ((List.range p.win.khw).map fun y => (List.range p.win.kww).map fun x =>
    p.tapPixel (p.height r) oy ox (p.win.ky0 + y) (p.win.kx0 + x)).flatten
  let mask := (List.range taps.length).foldl (fun n t => if (listAt none taps t).isSome then n + 2 ^ t else n) 0
  leBytes 8 mask ++ (taps.map fun t =>
    match t with
    | some (y, x) => s.pixel w p k r y x
    | none => zeroBytes p.ps).flatten

/-- A batch row's output pixels in stripe order (R103, R106). -/
def Program.stripeOrder (p : Program) (ho : Nat) : List (Nat × Nat) :=
  ((List.range (ceilDiv ho (max p.win.sr 1))).map fun rs =>
    ((List.range (ceilDiv p.wo (max p.win.sc 1))).map fun cs => p.stripeOf rs cs ho).flatten).flatten

/-- WINDOW_GATHER (R106): mask and taps of each output pixel in stripe order, in the batch row's tensor of the destination. -/
def windowGather (coat : Nat) (s : State) : State :=
  match s.programDue coat 3 with
  | none => s
  | some (w, p, j) =>
    let per := p.outPixel w.c
    let dst := w.g.binding p.dst
    let hc := if p.h ≠ 0 then p.ho p.h else dst.rowsFor w.g.header.batchRows (p.wo * per)
    s.runProgram w p j fun (s : State) (k : Nat) (r : RowRec) =>
      let base := dst.rowOff k (tensorBytes hc (p.wo * per))
      let px := p.stripeOrder (p.ho (p.height r))
      let s0 := if px.isEmpty then s.emptyRow w.i r.tag else s
      (List.range px.length).foldl (fun (s : State) (j : Nat) =>
        let yx := listAt (0, 0) px j
        s.bindWrite w p.dst r (base + j * per) (s.gatherPixel w p k r yx.1 yx.2)) s0

def execWindowGather (coat : Nat) (s : State) : Host.Outcome State Fault Refusal := .next (windowGather coat s)

-- Bilinear sampling (R108, R109). Coordinates are in 16.16 fixed point.

/-- Floor division of integers by a positive number. -/
def floorDiv (a : Int) (b : Nat) : Int := Int.fdiv a (b : Int)

/-- A sample point: the upper left neighbour and the fractions, 0 to 255. -/
structure SamplePoint where
  iy : Int
  ix : Int
  fy : Nat
  fx : Nat
  deriving DecidableEq, Repr

/-- One sample coordinate (R108): `lo` to `hi` cut in `n` outputs, output i. -/
def sampleAt (lo hi : Int) (n i : Nat) : Int := lo + floorDiv ((2 * i + 1 : Nat) * (hi - lo)) (2 * n) - 32768

/-- The sample point of output pixel (i, j) of an oh × ow output of a box. -/
def samplePoint (box : List Int) (oh ow i j : Nat) : SamplePoint :=
  let sy := sampleAt (listAt 0 box 0) (listAt 0 box 2) oh i
  let sx := sampleAt (listAt 0 box 1) (listAt 0 box 3) ow j
  let iy := floorDiv sy 65536
  let ix := floorDiv sx 65536
  ⟨iy, ix, (floorDiv sy 256 - iy * 256).toNat, (floorDiv sx 256 - ix * 256).toNat⟩

/-- The four neighbours of a sample point, with their weights. -/
def SamplePoint.taps (p : SamplePoint) : List (Int × Int × Nat) :=
  [(p.iy, p.ix, (256 - p.fx) * (256 - p.fy)), (p.iy, p.ix + 1, p.fx * (256 - p.fy)),
   (p.iy + 1, p.ix, (256 - p.fx) * p.fy), (p.iy + 1, p.ix + 1, p.fx * p.fy)]

/-- Is a position inside an h × w image? -/
def insideImage (h w : Nat) (y x : Int) : Bool := decide (0 ≤ y ∧ y < (h : Int) ∧ 0 ≤ x ∧ x < (w : Int))

/-- A coordinate clamped to 0 … n − 1. -/
def clampTo (n : Nat) (v : Int) : Nat := min v.toNat (n - 1)

/-- The exact sum of weighted finite values over 65,536; NaN and infinities as R108 states, with their flags. -/
def blend (l : List (Nat × FpVal)) : FpVal × NumFlags :=
  let bad := l.any fun x => x.2 == .nan
  let pos := l.any fun x => x.2 == .inf false
  let neg := l.any fun x => x.2 == .inf true
  if bad ∨ (pos ∧ neg) then (.nan, NumFlags.INVALID)
  else if pos ∨ neg then (.inf neg, NumFlags.INF)
  else
    let lo := l.foldl (fun (e : Int) x => match x.2 with
      | .fin _ _ y => if y < e then y else e
      | _ => e) 0
    let sum := l.foldl (fun (t : Int) x => match x.2 with
      | .fin n m y => t + (if n then -1 else 1) * ((x.1 * m * 2 ^ (y - lo).toNat : Nat) : Int)
      | _ => t) 0
    (intVal sum (lo - 16), 0)

/-- A row of exact values in a stored format (R39, R48, R50): INT elements at scale `sc`. -/
def packRow (f : Format) (sc : Int) (vs : List FpVal) : List Byte × NumFlags :=
  match f with
  | .qb8 => packQB .qb8 vs
  | .qb4 => packQB .qb4 vs
  | .fp16 | .bf16 | .fp32 =>
    let r := vs.map (convFp f.fp)
    ((r.map fun x => leBytes (f.ebits / 8) x.1).flatten, flagsOr (r.map (·.2)))
  | _ =>
    let r := vs.map (convInt f.ebits sc)
    (packInts f (r.map (·.1)), flagsOr (r.map (·.2)))

-- Crop-and-resize (R107 to R110).

/-- Bytes of one batch row's box list: its header and MAXB entries (log entry 20). -/
def Program.boxBytes (p : Program) : Nat := roundUp (16 + 16 * p.maxb) 64

/-- Entries that the box list binding holds for batch row k (R107). -/
def Image.boxRoom (g : Image) (p : Program) (k : Nat) : Nat :=
  let b := g.binding p.aux
  (b.size - b.rowOff k p.boxBytes - 16) / 16

/-- One output pixel of a box, and whether each neighbour lies outside (R108, R109). With EXTRAP = 0 an image of height 0 has no pixel
to clamp to: its neighbours are zero (DESIGN CHOICE, log entry 41). -/
def State.cropPixel (s : State) (w : Work) (p : Program) (f : Format) (k : Nat) (r : RowRec) (box : List Int) (i j : Nat) : List Byte × NumFlags × List Bool :=
  let h := p.height r
  let sc := w.g.scaleOf p.src
  let taps := (samplePoint box p.oh p.ow i j).taps
  let out := taps.map fun t => !insideImage h p.w t.1 t.2.1
  let zero := p.flags / 2 % 2 = 1 ∨ h = 0
  let rows := taps.map fun t =>
    if !insideImage h p.w t.1 t.2.1 ∧ zero then List.replicate p.c (FpVal.fin false 0 0)
    else rowVals f sc p.c (s.pixel w p k r (clampTo h t.1) (clampTo p.w t.2.1))
  let vs := (List.range p.c).map fun ch =>
    blend ((List.range 4).map fun q => ((listAt (0, 0, 0) taps q).2.2, listAt .nan (listAt [] rows q) ch))
  let (bytes, fl) := packRow f sc (vs.map (·.1))
  (slice bytes 0 p.ps, fl ||| flagsOr (vs.map (·.2)), out)

/-- All outputs and the status byte of one box. -/
def State.cropBox (s : State) (w : Work) (p : Program) (f : Format) (k : Nat) (r : RowRec) (base n : Nat) (box : List Int) :
    State :=
  let places := ((List.range p.oh).map fun i => (List.range p.ow).map fun j => (i, j)).flatten
  let px := places.map fun ij => s.cropPixel w p f k r box ij.1 ij.2
  let s1 := (List.range px.length).foldl (fun (s : State) (q : Nat) =>
    s.bindWrite w p.dst r (base + (n * p.oh * p.ow + q) * p.ps) (listAt ([], 0, []) px q).1) s
  let outs := (px.map (·.2.2)).flatten
  let flipped : Bool := decide (listAt 0 box 2 < listAt 0 box 0) || decide (listAt 0 box 3 < listAt 0 box 1)
  let status := (if outs.all id then 1 else 0) + (if outs.any id then 2 else 0) + (if flipped then 4 else 0)
  (s1.bindWrite w p.dst r (base + p.maxb * p.oh * p.ow * p.ps + n) (leBytes 1 status)).raiseFlags w.i r.tag
    (flagsOr (px.map (·.2.1))) false

/-- CROP_AND_RESIZE (R107 to R112): each box of each batch row's list; a count beyond MAXB or beyond what the binding holds ends
the request with E_COUNT_RANGE and writes nothing. -/
def cropAndResize (coat : Nat) (s : State) : State :=
  match s.programDue coat 4 with
  | none => s
  | some (w, p, j) =>
    match Format.ofCode p.format with
    | none => s
    | some f =>
      s.runProgram w p j fun (s : State) (k : Nat) (r : RowRec) =>
        let at_ := (w.g.binding p.aux).rowOff k p.boxBytes
        let n := leNat (s.bindRead w.b.slot w.g p.aux r at_ 4)
        if p.maxb < n ∨ w.g.boxRoom p k < n then (s.noteCount w.generator p.aux w.i).endRow w.i r.tag Code.E_COUNT_RANGE
        else if n = 0 then s.emptyRow w.i r.tag
        else
          let base := (w.g.binding p.dst).rowOff k (roundUp (p.maxb * p.oh * p.ow * p.ps + p.maxb) 64)
          let boxes := (List.range n).map fun q =>
            (List.range 4).map fun v => sInt 32 (leNat (s.bindRead w.b.slot w.g p.aux r (at_ + 16 + 16 * q + 4 * v) 4))
          let s1 := (List.range n).foldl (fun (s : State) (q : Nat) => s.cropBox w p f k r base q (listAt [] boxes q)) s
          s1.count Fld.FEED_BOXES_COUNT n

def execCropAndResize (coat : Nat) (s : State) : Host.Outcome State Fault Refusal := .next (cropAndResize coat s)

-- Argmax (R111).

/-- Does value b rank above value a (R111): a NaN above every number, and a greater number above a smaller one? -/
def ranksAbove (a b : FpVal) : Bool :=
  match a, b with
  | .nan, _ => false
  | _, .nan => true
  | a, b => fpLt a b

/-- The lowest index of the largest value; 0 for no value. -/
def argmaxOf (vs : List FpVal) : Nat :=
  ((List.range vs.length).foldl (fun (best : Nat) i => if ranksAbove (listAt .nan vs best) (listAt .nan vs i) then i else best) 0)

/-- The flags of values that are compared (R52): a NaN operand, an infinite one. -/
def operandFlags (vs : List FpVal) : NumFlags :=
  (if vs.contains .nan then NumFlags.INVALID else 0) ||| (if vs.any FpVal.isInf then NumFlags.INF else 0)

/-- Argmax of one pixel (R111): its winner's index and, under VALUE, the winner as FP32. A NaN or an infinite channel sets its flag
(R52). -/
def State.argmaxPixel (s : State) (w : Work) (p : Program) (f : Format) (k : Nat) (r : RowRec) (q : Nat) : State :=
  let place := fun (i : Nat) => (w.g.binding i).rowOff k (tensorBytes (w.g.indexHeight p i) (p.w * 4)) + 4 * q
  let vs := rowVals f (w.g.scaleOf p.src) p.c (s.pixel w p k r (q / max p.w 1) (q % max p.w 1))
  let m := argmaxOf vs
  let s1 := (s.bindWrite w p.dst r (place p.dst) (leBytes 4 m)).raiseFlags w.i r.tag (operandFlags vs) false
  if p.writesValue then
    let v := convFp fp32 (listAt .nan vs m)
    (s1.bindWrite w p.aux r (place p.aux) (leBytes 4 v.1)).raiseFlags w.i r.tag v.2 false
  else s1

/-- ARGMAX (R111, R112): each pixel of each batch row's tensor. -/
def argmaxEffect (coat : Nat) (s : State) : State :=
  match s.programDue coat 5 with
  | none => s
  | some (w, p, j) =>
    match Format.ofCode p.format with
    | none => s
    | some f =>
      s.runProgram w p j fun (s : State) (k : Nat) (r : RowRec) =>
        (List.range (p.height r * p.w)).foldl (fun (s : State) (q : Nat) => s.argmaxPixel w p f k r q) s

def execArgmax (coat : Nat) (s : State) : Host.Outcome State Fault Refusal := .next (argmaxEffect coat s)

end Sys2Proof.Machine
end

