-- ==== Sys2Proof/Machine/Special.lean ====
section
/-! DEFINITION. Special.lean: the special functions of the trim cores (R60, R61). R60 gives each as the exact value
rounded once to FP32. Each is computed here on fixed-point integers of 640 fractional bits, far beyond what the rounding
of any FP32 argument needs, with the arguments whose exact value is a dyadic number taken apart (log entry 5). -/

namespace Sys2Proof.Machine

/-- Fractional bits of the fixed-point numbers. -/
def fxBits : Nat := 640
/-- One. -/
def fxOne : Int := (2 ^ 640 : Nat)
/-- Product of two fixed-point numbers. -/
def fxMul (a b : Int) : Int := (a * b) / fxOne
/-- Quotient of two fixed-point numbers. -/
def fxDiv (a b : Int) : Int := a * fxOne / b

/-- The series t + t·y/3 + … of the inverse hyperbolic tangent: `n` terms, `p` the present power, `k` its odd divisor. -/
def fxAtanhTerms : Nat → Int → Int → Int → Int
  | 0, _, _, _ => 0
  | n + 1, p, y, k => p / k + fxAtanhTerms n (fxMul p y) y (k + 2)

/-- atanh t for |t| ≤ 1/3. -/
def fxAtanh (t : Int) : Int := fxAtanhTerms 210 t (fxMul t t) 1

/-- ln 2 = 2 atanh(1/3). -/
def fxLn2 : Int := 2 * fxAtanh (fxOne / 3)

/-- The alternating series of arctan(1/k): `n` terms. -/
def fxAtanTerms : Nat → Int → Int → Int → Int
  | 0, _, _, _ => 0
  | n + 1, p, k2, j => p / j - fxAtanTerms n (p / k2) k2 (j + 2)

/-- π by Machin's formula. -/
def fxPi : Int := 16 * fxAtanTerms 290 (fxOne / 5) 25 1 - 4 * fxAtanTerms 90 (fxOne / 239) 57121 1

/-- The exponential series 1 + r + r²/2 + …: `n` terms, `p` the present term. -/
def fxExpTerms : Nat → Int → Int → Int → Int
  | 0, _, _, _ => 0
  | n + 1, p, r, k => p + fxExpTerms n (fxMul p r / k) r (k + 1)

/-- e^y for |y| below 2^12, as fixed-point: y is reduced by a multiple of ln 2. -/
def fxExp (y : Int) : Int :=
  let k := y / fxLn2
  let e := fxExpTerms 160 fxOne (y - k * fxLn2) 1
  if 0 ≤ k then e * (2 ^ k.toNat : Nat) else e / (2 ^ (-k).toNat : Nat)

/-- ln m for m in [1, 2). -/
def fxLn (m : Int) : Int := 2 * fxAtanh (fxDiv (m - fxOne) (m + fxOne))

/-- The logistic function of a fixed-point number. -/
def fxSigm (x : Int) : Int :=
  if 0 ≤ x then fxDiv fxOne (fxOne + fxExp (-x))
  else let e := fxExp x; fxDiv e (fxOne + e)

/-- The terms x, x³/3, x⁵/15, … of the normal distribution function: `n` terms. -/
def fxPhiTerms : Nat → Int → Int → Int → Int
  | 0, _, _, _ => 0
  | n + 1, p, x2, k => p + fxPhiTerms n (fxMul p x2 / (k + 2)) x2 (k + 2)

/-- The standard normal distribution function of |x| < 17. -/
def fxPhi (x : Int) : Int :=
  let x2 := fxMul x x
  let root : Int := (isqrt (2 * fxPi * fxOne).toNat : Nat)
  fxOne / 2 + fxMul (fxDiv (fxExp (-(x2 / 2))) root) (fxPhiTerms 1100 x x2 1)

/-- A finite FP32 value as fixed-point (exact: the least FP32 unit is 2^-149). -/
def fxOf (neg : Bool) (m : Nat) (e : Int) : Int :=
  let a : Int := (m * 2 ^ (e + (fxBits : Int)).toNat : Nat)
  if neg then -a else a

/-- Round a fixed-point number of `2 * fxBits` fractional bits that stands for an irrational value to FP32. -/
def fxRound2 (neg : Bool) (v : Int) : Nat := (fp32.round neg v.natAbs (-1280) true).1

/-- Round a fixed-point number that stands for an irrational value to FP32. -/
def fxRound (neg : Bool) (v : Int) : Nat := (fp32.round neg v.natAbs (-640) true).1

/-- The special functions of R60. -/
inductive SpecialFn where
  | exp2 | rcp | rsqrt | log2 | tanh | sigm | gelu | gelut | silu
  deriving DecidableEq, Repr

/-- Is the magnitude `m × 2^e` at least `2^k`? -/
def magGe (m : Nat) (e : Int) (k : Int) : Bool := m ≠ 0 && decide (k ≤ (Nat.log2 m : Int) + e)

/-- 2^x of a finite argument: a whole x is exact (and 2^-150 is the tie that rounds to zero). -/
def exp2Fin (neg : Bool) (m : Nat) (e : Int) : Nat :=
  if m = 0 then (fp32.round false 1 0 false).1
  else if magGe m e 8 then (if neg then 0 else fp32.infBits)
  else
    let x := fxOf neg m e
    let k := x / fxOne
    let fr := x - k * fxOne
    if fr = 0 then (fp32.round false 1 k false).1
    else (fp32.round false (fxExp (fxMul fr fxLn2)).natAbs (k - 640) true).1

/-- 1 / sqrt x of a positive finite argument: the square root of 2^k / m with its remainder as the sticky bit. -/
def rsqrtFin (m : Nat) (e : Int) : Nat :=
  let odd := e % 2 ≠ 0
  let m' := if odd then m * 2 else m
  let e' := if odd then e - 1 else e
  let num : Nat := 2 ^ 160
  let q := isqrt (num / m')
  (fp32.round false q (-80 - e' / 2) (decide (q * q * m' ≠ num))).1

/-- log2 x of a positive finite argument: a power of two is exact. -/
def log2Fin (m : Nat) (e : Int) : Nat :=
  let L := Nat.log2 m
  let ex : Int := e + (L : Int)
  if m = 2 ^ L then (fp32.round (decide (ex < 0)) ex.natAbs 0 false).1
  else
    let v := ex * fxOne + fxDiv (fxLn (fxOf false m (-(L : Int)))) fxLn2
    fxRound (decide (v < 0)) v

/-- tanh x of a finite argument: x itself below 2^-12, one beyond 16. -/
def tanhFin (neg : Bool) (m : Nat) (e : Int) : Nat :=
  if !magGe m e (-12) then (fp32.round neg m e false).1
  else if magGe m e 4 then (fp32.round neg 1 0 false).1
  else
    let t := fxExp (-2 * fxOf false m e)
    fxRound neg (fxDiv (fxOne - t) (fxOne + t))

/-- The logistic function of a finite argument. -/
def sigmFin (neg : Bool) (m : Nat) (e : Int) : Nat :=
  if m = 0 then (fp32.round false 1 (-1) false).1
  else if magGe m e 7 then (if neg then 0 else (fp32.round false 1 0 false).1)
  else fxRound false (fxSigm (fxOf neg m e))

/-- x times a distribution function of x that is 1/2 at 0, near 1 for large and near 0 for very negative x; `k` is the
exponent from which x itself, or −0, is the rounded value. -/
def gateFin (g : Int → Int) (k : Int) (neg : Bool) (m : Nat) (e : Int) : Nat :=
  if m = 0 then (fp32.round neg 0 0 false).1
  else if magGe m e k then (if neg then fp32.signBit else (fp32.round false m e false).1)
  else let x := fxOf neg m e; fxRound2 neg (x * g x)

/-- The inner formula 0.79788456(x + 0.044715x³) of the tanh form of GELU, its decimal factors exact. -/
def gelutInner (x : Int) : Int :=
  let x3 := fxMul (fxMul x x) x
  79788456 * (1000000 * x + 44715 * x3) / 100000000000000

/-- A special function of an FP32 bit pattern, with the flags it raises (R61, R52). RSQRT of −0 is −Inf, as RCP of −0 is; R61 gives
RSQRT of +0 alone (DESIGN CHOICE, log entry 40). -/
def specialFn (fn : SpecialFn) (bits : Nat) : Nat × NumFlags :=
  let v := fp32.val bits
  let one : Nat := 0x3F800000
  let r : Nat :=
    match fn, v with
    | _, .nan => fp32.nanBits
    | .exp2, .inf n => if n then 0 else fp32.infBits
    | .exp2, .fin n m e => exp2Fin n m e
    | .rcp, _ => (fpDiv fp32 one bits).1
    | .rsqrt, .inf n => if n then fp32.nanBits else 0
    | .rsqrt, .fin n m e =>
      if m = 0 then (if n then fp32.signBit else 0) + fp32.infBits else if n then fp32.nanBits else rsqrtFin m e
    | .log2, .inf n => if n then fp32.nanBits else fp32.infBits
    | .log2, .fin n m e =>
      if m = 0 then fp32.signBit + fp32.infBits else if n then fp32.nanBits else log2Fin m e
    | .tanh, .inf n => (if n then fp32.signBit else 0) + one
    | .tanh, .fin n m e => tanhFin n m e
    | .sigm, .inf n => if n then 0 else one
    | .sigm, .fin n m e => sigmFin n m e
    | .gelu, .inf n => if n then fp32.signBit else fp32.infBits
    | .gelu, .fin n m e => gateFin fxPhi 4 n m e
    | .gelut, .inf n => if n then fp32.signBit else fp32.infBits
    | .gelut, .fin n m e => gateFin (fun x => fxSigm (2 * gelutInner x)) 4 n m e
    | .silu, .inf n => if n then fp32.signBit else fp32.infBits
    | .silu, .fin n m e => gateFin fxSigm 7 n m e
  (r, fpFlags fp32 [v] r)

end Sys2Proof.Machine
end

