-- ==== Sys2Proof/Machine/Attention.lean ====
section
/-! DEFINITION. Attention.lean: the fused attention command of an attention coat (R258 to R267; log entry 21). -/

namespace Sys2Proof.Machine

/-- The formats of a record. -/
structure AttnFmt where
  kv : Format
  q : Format
  out : Format
  deriving DecidableEq, Repr

/-- The formats of an attention coat. -/
def attnFmt (a : AttnRec) (c : Coat) : Option AttnFmt :=
  match Format.ofCode a.kvFormat, Format.ofCode a.qFormat, Format.ofCode c.format with
  | some k, some q, some o => some ⟨k, q, o⟩
  | _, _, _ => none

/-- The values of head h in batch row k's entry of a binding of `heads` heads (R258). -/
def State.headVals (s : State) (w : Work) (f : Format) (i heads d k h : Nat) (r : RowRec) : List FpVal :=
  let c := heads * d
  let bytes := s.bindRead w.b.slot w.g i r ((w.g.binding i).rowOff k (pixelStride f c)) (pixelStride f c)
  (List.range d).map fun j => rowVal f (w.g.scaleOf i) c bytes (h * d + j)

/-- The unit of a batch row. -/
def Batch.unitOf (b : Batch) (r : RowRec) : Option QUnit := b.units[r.unit]?

/-- Is a row a decoding row? -/
def Batch.isStep (b : Batch) (r : RowRec) : Bool := ((b.unitOf r).map (·.kind)) == some .step

/-- The root position of a decoding row's step: the position of its unit's node 0. -/
def Batch.rootOf (b : Batch) (r : RowRec) : Nat :=
  ((b.rows.find? fun x => x.unit == r.unit && x.node == 0).map (·.position)).getD r.position

/-- The position at which a row's key and value are written: a decoding row's tree slot, or its own (R275). -/
def Batch.slotOf (b : Batch) (r : RowRec) : Nat := if b.isStep r then b.rootOf r + r.node else r.position

-- Keys and values of a sequence (R264, R267).

/-- Write a row's new key and value of one head into its page (R267), which the row's access has made the sequence's own. -/
def State.writeKv (s : State) (w : Work) (a : AttnRec) (kv : KvShape) (k h : Nat) (r : RowRec) : State :=
  let pos := w.b.slotOf r
  let e := pos % max kv.cap 1
  match s.kvAddr r.seq kv a.layer h pos 0 with
  | none => s
  | some page =>
    let key := packRow kv.format 0 (s.headVals w kv.format a.k a.kvHeads a.dim k h r)
    let val := packRow kv.format 0 (s.headVals w kv.format a.v a.kvHeads a.dim k h r)
    ((s.putDram (page + kv.keyAt e) key.1).putDram (page + kv.valueAt e) val.1).raiseFlags w.i r.tag (key.2 ||| val.2) true

/-- The key and the value of one head at a position of a sequence. -/
def State.readKv (s : State) (kv : KvShape) (layer h q pos : Nat) : List FpVal × List FpVal :=
  let e := pos % max kv.cap 1
  match s.kvAddr q kv layer h pos 0 with
  | none => ([], [])
  | some page =>
    (rowVals kv.format 0 kv.dim (s.dramBytes (page + kv.keyAt e) kv.krow),
     rowVals kv.format 0 kv.dim (s.dramBytes (page + kv.valueAt e) kv.krow))

/-- What a row sees (R259, R275): pairs of logical position and place, the place a page position under a paged record and a
batch row under an unpaged one. -/
def State.visible (s : State) (b : Batch) (a : AttnRec) (k : Nat) (r : RowRec) : List (Nat × Nat) :=
  if a.paged then
    if b.isStep r then
      let root := b.rootOf r
      let t := ((s.seq r.seq).map Sequence.stepTree).getD Tree.root
      let nodes := (List.range t.tokens.length).filter fun j =>
        if a.stencil then t.sees t.tokens.length r.node j else j == r.node
      (List.range root).map (fun p => (p, p)) ++ nodes.map fun j => (root + t.depth j, root + j)
    else
      let top := if a.causal then r.position
        else (b.rows.filter fun x => x.unit == r.unit).foldl (fun n x => max n x.position) r.position
      (List.range (top + 1)).map fun p => (p, p)
  else
    let mine := (List.range b.rows.length).filter fun i => ((b.rows[i]?).map (·.tag)) == some r.tag
    let own := (mine.filter fun i => decide (i < k)).length
    let seen := if a.causal then mine.take (own + 1) else mine
    (List.range seen.length).map fun i => (i, listAt 0 seen i)

/-- The key and the value that a row sees at a place. -/
def State.keyValue (s : State) (w : Work) (a : AttnRec) (kv : KvShape) (h : Nat) (r : RowRec) (place : Nat) :
    List FpVal × List FpVal :=
  if a.paged then s.readKv kv a.layer h r.seq place
  else
    match w.b.rows[place]? with
    | some x => (s.headVals w kv.format a.k a.kvHeads a.dim place h x, s.headVals w kv.format a.v a.kvHeads a.dim place h x)
    | none => ([], [])

-- The online softmax of one row and query head (R260, R261).

/-- FP32 of log2 e. -/
def log2e : Nat := 0x3FB8AA3B
/-- −Inf in FP32. -/
def fpNegInf : Nat := 0xFF800000

/-- The greater of two FP32 values, as FMAX; a NaN gives NaN. -/
def fpMax32 (a b : Nat) : Nat :=
  let x := fp32.val a
  let y := fp32.val b
  if x.isNan ∨ y.isNan then fp32.nanBits else if fpLt x y then b else a

/-- EXP2(fp32((a − b) × LOG2E)), with the flags of its steps. -/
def expOf (a b : Nat) : Nat × NumFlags :=
  let d := fpSub fp32 a b
  let x := fpMul fp32 d.1 log2e
  let e := specialFn .exp2 x.1
  (e.1, d.2 ||| x.2 ||| e.2)

/-- The score of a key: the exact product in the accumulator at anchor 0, scaled and rounded once (R48, R50). -/
def scoreOf (scale : Nat) (q key : List FpVal) : Nat × NumFlags :=
  let (v, fl) := accValue 0 1 0 (accProducts 0 {} q key)
  let r := convFp fp32 (fpMulVal v (fp32.val scale))
  (r.1, fl ||| r.2)

/-- The three BF16 parts of a weight p whose sum is p (R260). -/
def bf16Parts (p : FpVal) : List FpVal :=
  let b1 := bf16.val (bf16.pack p)
  let r1 := fpAddVal p b1.neg
  let b2 := bf16.val (bf16.pack r1)
  let b3 := bf16.val (bf16.pack (fpAddVal r1 b2.neg))
  [b1, b2, b3]

/-- The BF16 parts of a value: two for FP16 pages, itself otherwise. -/
def valueParts (f : Format) (v : FpVal) : List FpVal :=
  if f = .fp16 then
    let b1 := bf16.val (bf16.pack v)
    [b1, fpAddVal v b1.neg]
  else [v]

/-- Add p × v to an entry in the parts that the array multiplies; an infinity or a NaN is multiplied whole. -/
def addWeighted (f : Format) (x : AccEntry) (p v : FpVal) : AccEntry :=
  match p, v with
  | .fin _ _ _, .fin _ _ _ =>
    ((bf16Parts p).map fun a => (valueParts f v).map fun b => fpMulVal a b).flatten.foldl (accAdd 0) x
  | _, _ => accAdd 0 x (fpMulVal p v)

/-- The running state of R260. -/
structure Softmax where
  m : Nat := fpNegInf
  l : Nat := 0
  o : List Nat
  bad : Bool := false
  flags : NumFlags := 0
  deriving DecidableEq, Repr

/-- x × f + y, each step rounded, with the flags of both (R57, R260). -/
def scaleAdd (x f y : Nat) : Nat × NumFlags :=
  let p := fpMul fp32 x f
  let r := fpAdd fp32 p.1 y
  (r.1, p.2 ||| r.2)

/-- One tile of keys and values (R260). The flags are those of every step (R52, R53). -/
def Softmax.tile (f : Format) (scale : Nat) (q : List FpVal) (x : Softmax) (kvs : List (List FpVal × List FpVal)) : Softmax :=
  if kvs.isEmpty then x
  else
    let sc := kvs.map fun kv => scoreOf scale q kv.1
    let bad := sc.any fun v => (fp32.val v.1).isNan || fp32.val v.1 == .inf false
    let mNew := sc.foldl (fun m v => fpMax32 m v.1) x.m
    let fac := if x.m = fpNegInf then (0, 0) else expOf x.m mNew
    let ps := sc.map fun v => if v.1 = fpNegInf then (0, 0) else expOf v.1 mNew
    let sum := pairSum fp32 ps.length (ps.map (·.1))
    let l := scaleAdd x.l fac.1 sum.1
    let cols := (List.range x.o.length).map fun i =>
      let e := (List.range kvs.length).foldl (fun (e : AccEntry) j =>
        addWeighted f e (fp32.val (listAt (0, 0) ps j).1) (listAt .nan (listAt ([], []) kvs j).2 i)) {}
      let (v, fl) := accValue 0 1 0 e
      let r := convFp fp32 v
      let y := scaleAdd (listAt 0 x.o i) fac.1 r.1
      (y.1, fl ||| r.2 ||| y.2)
    { m := mNew, l := l.1, o := cols.map (·.1), bad := x.bad || bad,
      flags := x.flags ||| flagsOr (sc.map (·.2)) ||| fac.2 ||| flagsOr (ps.map (·.2)) ||| sum.2 ||| l.2 ||| flagsOr (cols.map (·.2)) }

/-- The output values of one row and query head, with flags (R260, R261). -/
def State.attend (s : State) (w : Work) (a : AttnRec) (kv : KvShape) (qf : Format) (k head : Nat) (r : RowRec) :
    List FpVal × NumFlags :=
  let q := s.headVals w qf a.q a.qHeads a.dim k head r
  let h := head / max (a.qHeads / max a.kvHeads 1) 1
  let vis := s.visible w.b a k r
  let width := if kv.format.isFp then 256 else 512
  let tiles := (vis.foldl (fun n p => max n (p.1 / width)) 0) + 1
  let x := (List.range tiles).foldl (fun (x : Softmax) t =>
    let here := (vis.filter fun p => p.1 / width == t).map fun p => s.keyValue w a kv h r p.2
    x.tile kv.format a.scale q here) { o := List.replicate a.dim 0 }
  if x.bad then (List.replicate a.dim .nan, x.flags ||| NumFlags.INVALID)
  else
    let out := x.o.map fun v => fpDiv fp32 v x.l
    (out.map fun v => fp32.val v.1, x.flags ||| flagsOr (out.map (·.2)))

/-- One row of the command: its output entry (R258, R260). -/
def State.attendRow (s : State) (w : Work) (a : AttnRec) (kv : KvShape) (f : AttnFmt) (k : Nat) (r : RowRec) : State :=
  let heads := (List.range a.qHeads).map fun h => s.attend w a kv f.q k h r
  let c := a.qHeads * a.dim
  let (bytes, fl) := packRow f.out (w.g.scaleOf a.out) (heads.map (·.1)).flatten
  let ps := pixelStride f.out c
  (s.bindWrite w a.out r ((w.g.binding a.out).rowOff k ps) (slice bytes 0 ps)).raiseFlags w.i r.tag
    (fl ||| flagsOr (heads.map (·.2))) true

-- The passes of the command (R263).

/-- The groups of the command in batch-row order: the batch-row indices of one sequence's rows, or of one request's where the
record is unpaged. -/
def Batch.attnGroups (b : Batch) (a : AttnRec) : List (List Nat) :=
  let key := fun (k : Nat) => (b.rows[k]?).map fun r => if a.paged then r.seq else r.tag
  let keys := ((List.range b.rows.length).map key).eraseDups
  keys.map fun x => (List.range b.rows.length).filter fun k => key k == x

/-- The passes that a group of rows makes for one key-value head, V being the key positions that it spans, and the feed rows of
each: the Q·K passes, and three P·V passes a tile, or six for FP16 pages. -/
def State.groupPasses (s : State) (b : Batch) (a : AttnRec) (kv : KvShape) (rows : List Nat) : Nat × Nat :=
  let reach := fun (k : Nat) => ((b.rows[k]?).map fun r => (s.visible b a k r).foldl (fun n p => max n (p.1 + 1)) 0).getD 0
  let v := rows.foldl (fun n k => max n (reach k)) 0
  (ceilDiv v (if kv.format.isFp then 256 else 512) + (if kv.format = .fp16 then 6 else 3) * ceilDiv v 256,
   a.qHeads / max a.kvHeads 1 * rows.length)

/-- Count the passes of the command and their feed rows (R93, R263). -/
def State.countPasses (s : State) (b : Batch) (a : AttnRec) (kv : KvShape) : State :=
  let l := (b.attnGroups a).map fun g => s.groupPasses b a kv g
  let n := l.foldl (fun n p => n + a.kvHeads * p.1) 0
  let m := l.foldl (fun n p => n + a.kvHeads * p.1 * p.2) 0
  (s.count Fld.ARR_PASS_COUNT_COUNT n).count64 Fld.ARR_BUSY_LO_COUNT Fld.ARR_BUSY_HI_COUNT m

/-- May the array take up a coat's fused command: have the passes of the array coats before it drained, and are the attention coats
before it done (R80 (a), R81)? -/
def State.arrayFree (s : State) (w : Work) : Bool :=
  s.works.all fun x => decide (w.i ≤ x.i) ||
    ((x.c.kind != 1 || x.run.complete || x.run.drainedAll) && (x.c.kind != 4 || x.run.attentionDone))

/-- The page accesses of a paged command (R264, R267): each row writes its new entries' pages, and reads the pages of what it sees. -/
def State.kvAccesses (s : State) (w : Work) (a : AttnRec) (kv : KvShape) : List (Nat × Nat × Bool) :=
  let page := fun (r : RowRec) (write : Bool) (chunk h : Nat) => (r.seq, kv.vpage chunk a.layer h, write)
  let heads := List.range a.kvHeads
  let writes := (w.b.rows.map fun r => heads.map (page r true (w.b.slotOf r / max kv.cap 1))).flatten
  let reads := ((List.range w.b.rows.length).map fun k =>
    match w.b.rows[k]? with
    | none => []
    | some r =>
      let chunks := ((s.visible w.b a k r).map fun p => p.2 / max kv.cap 1).eraseDups
      (chunks.map fun c => heads.map (page r false c)).flatten).flatten
  writes.eraseDups ++ reads.eraseDups

/-- A command's rows, computed and marked as done. -/
def State.attendRows (s : State) (w : Work) (a : AttnRec) (kv : KvShape) (f : AttnFmt) : State :=
  let s1 := if a.paged then
      w.eachRow s fun (s : State) (k : Nat) (r : RowRec) =>
        (List.range a.kvHeads).foldl (fun (s : State) (h : Nat) => s.writeKv w a kv k h r) s
    else s
  let s2 := w.eachRow s1 fun (s : State) (k : Nat) (r : RowRec) => s.attendRow w a kv f k r
  let s3 : State := { s2 with arr := { s2.arr with active := none } }
  (s3.countPasses w.b a kv).onRun w.i fun x => { x with begun := true, attentionDone := true }

/-- FUSED_ATTENTION (R260): a paged command first writes every row's new key and value; then every row is computed. An access that
meets a translation fault is refused or held (R200), and the command begins again once it may. -/
def fusedAttention (coat : Nat) (s : State) : State :=
  match s.coatAt coat with
  | none => s
  | some w =>
    match w.g.attnOf w.c with
    | none => s
    | some a =>
      match attnFmt a w.c with
      | none => s
      | some f =>
        if w.run.attentionDone ∨ !s.mayWork w ∨ !s.arrayFree w ∨ s.arr.stopped ∨ s.rbit Fld.ARR_REMAP_UNUSABLE then s
        else
          let kv : KvShape := if a.paged then (w.g.kv).getD ⟨f.kv, 1, a.kvHeads, a.dim⟩ else ⟨f.kv, 1, a.kvHeads, a.dim⟩
          let gen := 67 + w.generator
          match (s.openWindows w).reach w gen [(a.q, false), (a.k, false), (a.v, false)] with
          | (s1, false) => s1
          | (s1, true) =>
            match s1.accessAll gen (if a.paged then s1.kvAccesses w a kv else []) with
            | (s2, false) => s2
            | (s2, true) => s2.whenReached w 66 [(a.out, true)] fun (s : State) => s.attendRows w a kv f

def execFusedAttention (coat : Nat) (s : State) : Host.Outcome State Fault Refusal := .next (fusedAttention coat s)

end Sys2Proof.Machine
end

