-- ==== Sys2Proof/Machine/Frames.lean ====
section
/-! DEFINITION. Frames.lean: Ethernet, IP and QMT frames: building, sending and acknowledging them (R303 to R311, R325 to
R330). -/

namespace Sys2Proof.Machine

-- Front ends, ports and addresses.

def otherSide : Side → Side
  | .a => .b
  | .b => .a

/-- A front end. -/
def State.fe (s : State) (x : Side) : FrontEnd :=
  match x with
  | .a => s.cont.feA
  | .b => s.cont.feB

/-- Store a front end, and show its state in NET.FE: 0 down, 1 starting, 2 up. -/
def State.putFe (s : State) (x : Side) (f : FrontEnd) : State :=
  let code := match f.state with
    | .down => 0
    | .starting => 1
    | .clean => 2
    | .up => 2
  match x with
  | .a => ({ s with cont := { s.cont with feA := f } }).rset Fld.NET_FE_A code
  | .b => ({ s with cont := { s.cont with feB := f } }).rset Fld.NET_FE_B code

/-- Does a front end carry traffic: has it started, or restarted, with its slice passed? -/
def State.feUp (s : State) (x : Side) : Bool := (s.fe x).state == .up || (s.fe x).state == .clean

/-- A front end's interval counter (R327, R420). -/
def State.now (s : State) (x : Side) : Nat := (s.fe x).interval

/-- The front end of a port before any path is formed: ports 0, 2 and 4 belong to A, ports 1, 3 and 5 to B (R303). -/
def portSide (port : Nat) : Side := if port % 2 = 0 then .a else .b

/-- A port. -/
def State.port (s : State) (p : Nat) : Port := listAt {} s.net.ports p

/-- Change a port. -/
def State.onPort (s : State) (p : Nat) (f : Port → Port) : State :=
  { s with net := { s.net with ports := listModify s.net.ports p f } }

/-- The largest IP packet of a port (R303). -/
def portMtu (p : Nat) : Nat := if p < 2 then 1500 else 9000

/-- Does an IP packet of `n` bytes after its UDP or ICMP header pass a port (R303)? -/
def mtuOk (p : Nat) (v6 : Bool) (n : Nat) : Bool := decide ((if v6 then 48 else 28) + n ≤ portMtu p)

/-- The largest fragment of a path (R310). -/
def fragMax (p : Nat) (v6 : Bool) : Nat := portMtu p - (if v6 then 80 else 60)

/-- A port's MAC address: base + p (R305, R480). -/
def State.portMac (s : State) (p : Nat) : Nat := (s.hw.macBase + p) % 281474976710656

/-- The link-local address by EUI-64 of a MAC address (R305). -/
def linkLocal (mac : Nat) : Nat :=
  let hi := mac / 16777216
  let lo := mac % 16777216
  0xFE80 * 2 ^ 112 + ((hi ^^^ 0x020000) * 2 ^ 40 + 0xFFFE * 2 ^ 24 + lo)

/-- Do two addresses of `bits` bits share a prefix? -/
def samePrefix (bits pre a b : Nat) : Bool := a / 2 ^ (bits - pre) == b / 2 ^ (bits - pre)

/-- Is this address one of a port's (R305, R306)? -/
def State.portAddress (s : State) (p : Nat) (v6 : Bool) (a : Nat) : Bool :=
  let x := (s.port p).applied
  if v6 then (a == linkLocal (s.portMac p) && !(s.port p).llDuplicate) || (x.v6 && a == x.ipv6)
  else x.v4 && a == x.ipv4

/-- The neighbour to which a packet for an address goes: on-link, or the IPv4 gateway (R305). -/
def State.nextHop (s : State) (p : Nat) (v6 : Bool) (a : Nat) : Option Nat :=
  let x := (s.port p).applied
  if v6 then
    if a / 2 ^ 118 = 0x3FA ∨ (x.v6 ∧ samePrefix 128 x.prefix6 a x.ipv6) then some a else none
  else if !x.v4 then none
  else if samePrefix 32 x.prefix4 a x.ipv4 then some a
  else if x.gateway = 0 then none
  else some x.gateway

/-- Can a port send and receive: its gate is on and it has link (R415, R411)? -/
def State.portLive (s : State) (p : Nat) : Bool :=
  decide (p < 6) && (s.rget Fld.SYS_GATE_PORT).testBit p && s.rbit Fld.NET_PSTAT_LINK p

/-- The SCI of a port's transmit association: its MAC address and port identifier 1 (R307; log entry 8). -/
def State.portSci (s : State) (p : Nat) : Nat := s.portMac p * 65536 + 1

/-- Hand a frame to its port: under the port's MACsec SA, with the SCI in its tag, where MACsec is on (R307); an exhausted SA stops
the port and sets NET.FAULT.MACSEC. -/
def State.transmit (s : State) (f : TxFrame) : State :=
  if !s.portLive f.port then s
  else if !s.rbit Fld.NET_PCFG_MACSEC f.port then
    ({ s with net := { s.net with tx := s.net.tx ++ [f] } }).count Fld.NET_TX_FRAMES_COUNT
  else
    match (s.port f.port).txSa with
    | none => s
    | some sa =>
      let limit := if sa.cipher = 2 then 2 ^ 64 else 2 ^ 32
      if limit ≤ sa.pn then s.rset Fld.NET_FAULT_MACSEC 1
      else
        let s1 := s.onPort f.port fun x => { x with txSa := some { sa with pn := sa.pn + 1 } }
        ({ s1 with net := { s1.net with tx := s1.net.tx ++ [{ f with sec := some (s.portSci f.port, sa.an, sa.pn) }] } }).count
          Fld.NET_TX_FRAMES_COUNT

/-- A frame of a port under the VLAN in force (R305). -/
def State.frame (s : State) (port prio : Nat) (mac : Option Nat) (body : FrameBody) : TxFrame :=
  { port := port, vlan := (s.port port).applied.vlan, prio := prio, mac := mac, sec := none, body := body }

/-- The priority of a message type (R305). -/
def State.prio (s : State) (port type : Nat) : Nat :=
  if (0x0001 ≤ type ∧ type ≤ 0x00FF) ∨ (0x0300 ≤ type ∧ type ≤ 0x07FF) then s.rget Fld.NET_PCFG_PRIO_CTRL port
  else s.rget Fld.NET_PCFG_PRIO_DATA port

/-- A neighbour, if it is known. -/
def State.neighbor (s : State) (port : Nat) (v6 : Bool) (ip : Nat) : Option Neighbor :=
  s.net.neighbors.find? fun n => n.port = port ∧ n.v6 = v6 ∧ n.ip = ip

/-- Is an IPv6 neighbour to be asked again before it is trusted: nothing has confirmed it for 30 s (log entry 8)? -/
def Neighbor.stale (n : Neighbor) (now : Nat) : Bool := n.v6 && (!n.reachable || decide (n.confirmedAt + 30000000 ≤ now))

/-- Change a neighbour, or forget it. -/
def State.onNeighbor (s : State) (n : Neighbor) (f : Neighbor → Option Neighbor) : State :=
  { s with net := { s.net with neighbors := s.net.neighbors.filterMap fun x => if x = n then f x else some x } }

/-- The address that a frame body goes to, if its neighbour must be known. -/
def bodyDest : FrameBody → Option (Bool × Nat)
  | .qmt peer _ => some (peer.v6, peer.addr)
  | .echoReply v6 dst _ _ _ => some (v6, dst)
  | _ => none

/-- Ask for a neighbour's address; a frame waits for it. -/
def State.askNeighbor (s : State) (port prio : Nat) (v6 : Bool) (hop : Nat) (body : FrameBody) : State :=
  let s1 := s.transmit (s.frame port prio none (if v6 then .solicitation hop else .arpRequest hop))
  { s1 with net := { s1.net with unresolved := s1.net.unresolved ++ [s.frame port prio none body] } }

/-- Send an IP packet: the frame waits while the neighbour's address is asked for. A stale neighbour gets the frame and a
solicitation beside it; one that has left three unanswered is unreachable, and its address is asked for anew (R305; log entry 8). -/
def State.sendIp (s : State) (port prio : Nat) (v6 : Bool) (addr : Nat) (body : FrameBody) : State :=
  match s.nextHop port v6 addr with
  | none => s
  | some hop =>
    match s.neighbor port v6 hop with
    | none => s.askNeighbor port prio v6 hop body
    | some n =>
      if !n.stale (s.now (portSide port)) then s.transmit (s.frame port prio (some n.mac) body)
      else if 3 ≤ n.probes then (s.onNeighbor n fun _ => none).askNeighbor port prio v6 hop body
      else
        ((s.transmit (s.frame port prio (some n.mac) body)).transmit (s.frame port prio (some n.mac) (.solicitation hop))).onNeighbor n
          fun x => some { x with probes := x.probes + 1 }

/-- Send a QMT datagram to a partner's address (R305, R309). -/
def State.sendQmt (s : State) (port prio : Nat) (peer : PeerAddr) (bytes : List Byte) : State :=
  s.sendIp port prio peer.v6 peer.addr (.qmt peer bytes)

/-- A neighbour's address is known now: the frames that waited for it leave (R305). -/
def State.resolved (s : State) (port : Nat) (v6 : Bool) (ip mac : Nat) : State :=
  let n : List Neighbor := s.net.neighbors.filter fun n => !(n.port = port ∧ n.v6 = v6 ∧ n.ip = ip)
  let here : Neighbor := { port := port, v6 := v6, ip := ip, mac := mac, reachable := true, confirmedAt := s.now (portSide port) }
  let s1 : State := { s with net := { s.net with neighbors := n ++ [here] } }
  let waits := fun (f : TxFrame) =>
    match bodyDest f.body with
    | some (w6, a) => f.port == port && w6 == v6 && s1.nextHop port v6 a == some ip
    | none => false
  let out := s1.net.unresolved.filter waits
  let s2 : State := { s1 with net := { s1.net with unresolved := s1.net.unresolved.filter fun f => !waits f } }
  out.foldl (fun s f => s.transmit { f with mac := some mac }) s2

-- QMT frames (R309, R310).

/-- The 16 bytes that begin every frame (R309). -/
def frameHead (kind session path epoch packet : Nat) : List Byte :=
  leBytes 2 0x4651 ++ leBytes 1 kind ++ [0] ++ leBytes 4 session ++ leBytes 2 path ++ leBytes 2 epoch ++ leBytes 4 packet

/-- A data frame (R310). -/
def dataBytes (session path epoch packet message offset : Nat) (b : List Byte) : List Byte :=
  frameHead 1 session path epoch packet ++ leBytes 8 message ++ leBytes 4 offset ++ leBytes 2 b.length ++ [0, 0] ++ b

/-- The ranges of received packets above the cumulative number, ascending, from a rising list. -/
def rxRanges : List Nat → List (Nat × Nat)
  | [] => []
  | p :: ps =>
    match rxRanges ps with
    | (a, b) :: r => if a = p + 1 then (p, b) :: r else (p, p) :: (a, b) :: r
    | [] => [(p, p)]

/-- An ack frame (R310). -/
def ackBytes (session : Nat) (p : Path) (consumed delay : Nat) : List Byte :=
  let r := (rxRanges p.rxAbove).take 8
  frameHead 2 session p.number p.rxEpoch 0 ++ leBytes 4 p.rxCum ++ leBytes 1 r.length ++ [0, 0, 0] ++ leBytes 8 consumed ++
    leBytes 4 p.echo ++ leBytes 4 delay ++ (r.map fun x => leBytes 4 x.1 ++ leBytes 4 x.2).flatten

/-- A probe frame (R310). -/
def probeBytes (session path epoch packet : Nat) : List Byte := frameHead 3 session path epoch packet ++ zeroBytes 16

/-- A path reset frame (R310). -/
def resetBytes (session path epoch packet newEpoch : Nat) : List Byte :=
  frameHead 4 session path epoch packet ++ leBytes 2 newEpoch ++ zeroBytes 14

-- Paths.

/-- The path of a number. -/
def Session.path (x : Session) (n : Nat) : Option Path := x.paths.find? (·.number = n)

/-- Store a path under its number. -/
def Session.putPath (x : Session) (p : Path) : Session :=
  { x with paths := x.paths.map fun q => if q.number = p.number then p else q }

/-- Change a path. -/
def State.onPath (s : State) (n k : Nat) (f : Path → Path) : State :=
  s.onSession n fun x => { x with paths := x.paths.map fun q => if q.number = k then f q else q }

/-- Send an ack on a path (R327). -/
def State.sendAck (s : State) (n k : Nat) : State :=
  match s.session n with
  | none => s
  | some x =>
    match x.path k with
    | none => s
    | some p =>
      let s1 := s.onPath n k fun p => { p with ackOwed := 0 }
      s1.sendQmt p.port (s.rget Fld.NET_PCFG_PRIO_DATA p.port) p.peer (ackBytes n p x.rxConsumed (s.now p.fe - p.echoAt))

/-- Start a new epoch on a path and announce it with a path reset frame, which takes the epoch's first packet number (R309, R311; log
entry 8). -/
def State.newEpoch (s : State) (n k : Nat) : State :=
  match (s.session n).bind (·.path k) with
  | none => s
  | some p =>
    let e := (p.txEpoch + 1) % 65536
    let s1 := s.onPath n k fun p => { p with txEpoch := e, txNext := 2, unacked := [],
                                              toSend := (p.unacked.map (·.frag)).filter (·.length != 0) ++ p.toSend }
    s1.sendQmt p.port (s.rget Fld.NET_PCFG_PRIO_DATA p.port) p.peer (resetBytes n k e 1 e)

/-- Every path of a front end that has restarted starts a new epoch (R311). -/
def State.newEpochs (s : State) (side : Side) : State :=
  s.net.sessions.foldl (fun (s : State) x =>
    (x.2.paths.filter (·.fe == side)).foldl (fun (s : State) p => s.newEpoch x.2.number p.number) s) s

/-- Send one fragment on a path in a frame with the next packet number (R310, R311). A fragment of no bytes stands for a
probe. -/
def State.sendFrag (s : State) (n k : Nat) (f : Frag) (retx : Bool) : State :=
  let s0 := match (s.session n).bind (·.path k) with
    | some p => if 4294967294 < p.txNext then s.newEpoch n k else s
    | none => s
  match s0.session n with
  | none => s0
  | some x =>
    match x.path k, (if f.length = 0 then some ⟨[], [], []⟩ else Dict.fetch x.sending f.message) with
    | some p, some w =>
      let s1 := s0.onPath n k fun p =>
        { p with txNext := p.txNext + 1, unacked := p.unacked ++ [⟨p.txNext, f, s.now p.fe, retx, 0⟩] }
      if f.length = 0 then
        s1.sendQmt p.port (s.rget Fld.NET_PCFG_PRIO_DATA p.port) p.peer (probeBytes n k p.txEpoch p.txNext)
      else
        s1.sendQmt p.port (s.prio p.port (leNat (slice w.bytes 4 2))) p.peer
          (dataBytes n k p.txEpoch p.txNext f.message f.offset (slice w.bytes f.offset f.length))
    | _, _ => s0

/-- Bytes of a path's unacknowledged frames. -/
def Path.flight (p : Path) : Nat := p.unacked.foldl (fun n f => n + f.frag.length) 0

/-- Send what a path's congestion window allows of its waiting fragments (R328). -/
def State.pump (s : State) (n k : Nat) : Nat → State
  | 0 => s
  | fuel + 1 =>
    match (s.session n).bind (·.path k) with
    | none => s
    | some p =>
      if !s.feUp p.fe then s
      else match p.toSend with
        | [] => s
        | f :: fs =>
          if p.flight + f.length ≤ p.cwnd ∨ p.unacked = [] then
            State.pump ((s.onPath n k fun q => { q with toSend := fs }).sendFrag n k f false) n k fuel
          else s

/-- Pump a path until its window is full. -/
def State.pumpAll (s : State) (n k : Nat) : State :=
  match (s.session n).bind (·.path k) with
  | some p => s.pump n k (p.toSend.length + p.unacked.length)
  | none => s

/-- The fragments of a wire form of `len` bytes (R310). -/
def fragments (message mx len : Nat) : Nat → Nat → List Frag
  | 0, _ => []
  | fuel + 1, off => if len ≤ off then [] else ⟨message, off, min mx (len - off)⟩ :: fragments message mx len fuel (off + mx)

-- Sessions that send on two paths (R330).

/-- The two paths of a protected session: up, on different ports, one of each front end. -/
def Session.dual (x : Session) : Option (Path × Path) :=
  let up := x.paths.filter fun p => !p.down
  ((up.filter (·.fe == .a)).flatMap fun p =>
    ((up.filter fun q => q.fe == .b && q.port != p.port).map fun q => (p, q))).head?

/-- Is a session protected now? -/
def Session.isProtected (x : Session) : Bool := x.wantsProtected && x.dual.isSome

/-- The paths on which a session sends now. -/
def Session.sendPaths (x : Session) : List Path :=
  match x.wantsProtected, x.dual with
  | true, some (p, q) => [p, q]
  | _, _ =>
    match x.paths.find? (fun p => !p.down) with
    | some p => [p]
    | none => x.paths.take 1

/-- A message's header (R312). -/
def headerBytes (x : Session) (m : ModMsg) : List Byte :=
  leBytes 2 0x5451 ++ leBytes 1 x.minor ++ leBytes 1 1 ++ leBytes 2 m.type ++ leBytes 2 (if m.plain then 1 else 0) ++
    leBytes 4 x.number ++ leBytes 4 m.payload.length ++ leBytes 8 m.number ++ leBytes 4 m.tag ++ leBytes 2 m.code.toNat ++ [0, 0]

/-- The nonce of a message: session number and sequence number (R317). -/
def nonce (session number : Nat) : List Byte := leBytes 4 session ++ leBytes 8 number

/-- A message's wire form (R310, R317). -/
def wireBytes (x : Session) (m : ModMsg) : List Byte :=
  let h := headerBytes x m
  if m.plain then h ++ m.payload else h ++ gcmSeal x.keyMP (nonce x.number m.number) h m.payload

/-- The wire length of a module message. -/
def modWire (m : ModMsg) : Nat := 32 + m.payload.length + (if m.plain then 0 else 16)

/-- A session ends: its index is free, its window pages return to the pool (R325). -/
def State.dropSession (s : State) (n : Nat) : State :=
  match s.session n with
  | none => s
  | some x =>
    let s1 := s.freePool x.pages
    { s1 with net := { s1.net with sessions := Dict.remove s1.net.sessions (n % 16384),
                                   inbox := s1.net.inbox.filter fun d => d.session != n,
                                   newPaths := s1.net.newPaths.filter fun o => o.session != n } }

/-- A closing session whose messages have all left and been acknowledged ends. -/
def State.endIfDone (s : State) (n : Nat) : State :=
  match s.session n with
  | some x => if x.closing ∧ x.ready = [] ∧ x.sending = [] then s.dropSession n else s
  | none => s

/-- Begin a message on the session's paths (R310, R326, R330). -/
def State.begin (s : State) (n : Nat) (m : ModMsg) : State :=
  match s.session n with
  | none => s
  | some x =>
    let w := wireBytes x m
    let x1 := { x with sending := Dict.store x.sending m.number ⟨w, m.needs, m.pages⟩, txBegun := x.txBegun + w.length }
    let ps := x1.sendPaths
    let load : Path → Path := fun q =>
      if ps.any fun p => p.number == q.number then
        { q with toSend := q.toSend ++ fragments m.number (fragMax q.port q.peer.v6) w.length w.length 0 }
      else q
    let x2 := { x1 with paths := x1.paths.map load }
    ps.foldl (fun s p => s.pumpAll n p.number) (s.putSession x2)

/-- Move the unacknowledged and waiting fragments of a path to another path, in its own fragment size (R329, R335). -/
def Session.moveWork (x : Session) (k : Nat) : Session :=
  match x.path k, x.paths.find? (fun q => q.number != k && !q.down) with
  | some p, some q =>
    if x.wantsProtected && x.dual.isSome then x
    else
      let ms := ((p.unacked.map (·.frag) ++ p.toSend).map (·.message)).eraseDups
      let fs := (ms.map fun m =>
        match Dict.fetch x.sending m with
        | some w => fragments m (fragMax q.port q.peer.v6) w.bytes.length w.bytes.length 0
        | none => []).flatten
      (x.putPath { p with unacked := [], toSend := [] }).putPath { q with toSend := q.toSend ++ fs }
  | _, _ => x

/-- A path is down (R329): it is counted, and an unprotected session's messages move to another path. -/
def State.pathDown (s : State) (n k : Nat) : State :=
  let s1 := (s.onPath n k fun p => { p with down := true }).countHold Fld.NET_PATH_DOWN_COUNT
  let s2 := s1.onSession n fun x => x.moveWork k
  match s2.session n with
  | some x => x.paths.foldl (fun s p => if p.number = k then s else s.pumpAll n p.number) s2
  | none => s2

/-- Resend the fragments of lost frames, each in a new frame, and shrink the window for each loss (R327, R328). -/
def State.resend (s : State) (n k : Nat) (lost : List SentFrame) : State :=
  lost.foldl (fun s f =>
    let s1 := s.onPath n k fun p =>
      { p with unacked := p.unacked.filter (fun g => g.packet != f.packet),
               cwnd := max (p.cwnd / 2) (fragMax p.port p.peer.v6) }
    (s1.sendFrag n k f.frag true).count Fld.NET_RETX_COUNT) s

end Sys2Proof.Machine
end

