-- ==== Sys2Proof/Machine/RegActions.lean ====
section
/-! DEFINITION. RegActions.lean: what a write of 1 to a WO field of a counter-control or apply register does (R93, R113, R147,
R212, R213, R214, R256, R302, R306, R332, R365, R452). MGMT_WRITE and the rows of the table share these. -/

namespace Sys2Proof.Machine

/-- Set a list of register fields to zero. -/
def State.zeroFields (s : State) (l : List Field) : State := l.foldl (fun s f => s.rset f 0) s

/-- The counters that each CLEAR field sets to zero. -/
def arrCounters : List Field :=
  [Fld.ARR_ACC_CORR_COUNT, Fld.ARR_PASS_COUNT_COUNT, Fld.ARR_BUSY_LO_COUNT, Fld.ARR_BUSY_HI_COUNT,
   Fld.ARR_STALL_WEIGHT_COUNT, Fld.ARR_STALL_FEED_COUNT, Fld.ARR_STALL_BANK_COUNT, Fld.ARR_STALL_DRAIN_COUNT,
   Fld.ARR_STALL_DEP_COUNT]
def feedCounters : List Field :=
  [Fld.FEED_ROWS_LO_COUNT, Fld.FEED_ROWS_HI_COUNT, Fld.FEED_PAD_ROWS_COUNT, Fld.FEED_LOAD_LO_COUNT, Fld.FEED_LOAD_HI_COUNT,
   Fld.FEED_STALL_PROC_COUNT, Fld.FEED_STALL_LOAD_COUNT, Fld.FEED_BOXES_COUNT]
def trimCounters : List Field :=
  [Fld.TRIM_INSTR_LO_COUNT, Fld.TRIM_INSTR_HI_COUNT, Fld.TRIM_STALL_MEM_COUNT, Fld.TRIM_STALL_CRED_COUNT,
   Fld.TRIM_STALL_SYNC_COUNT, Fld.TRIM_KERNELS_COUNT]
def xltCounters : List Field :=
  [Fld.XLT_HITS_LO_COUNT, Fld.XLT_HITS_HI_COUNT, Fld.XLT_MISSES_COUNT, Fld.XLT_MOVES_COUNT]
def bankCounters : List Field :=
  [Fld.BANK_CE_COUNT_COUNT, Fld.BANK_UE_COUNT_COUNT, Fld.BANK_COLLISIONS_COUNT, Fld.BANK_DMA_WAIT_COUNT]
def srvCounters : List Field :=
  [Fld.SRV_ADMITTED_COUNT, Fld.SRV_REFUSED_COUNT, Fld.SRV_BATCHES_COUNT, Fld.SRV_PREEMPTS_COUNT, Fld.SRV_OVERRUN_COUNT]
def netCounters : List Field :=
  [Fld.NET_RX_FRAMES_COUNT, Fld.NET_TX_FRAMES_COUNT, Fld.NET_RETX_COUNT, Fld.NET_DUP_MSG_COUNT, Fld.NET_AUTH_FAIL_COUNT,
   Fld.NET_LEN_ERR_COUNT, Fld.NET_CREDIT_VIOL_COUNT, Fld.NET_PATH_DOWN_COUNT]
/-- CONT.RENEWALS is the renewal count that the standby compares (R340), not a counter of events: CLEAR leaves it (log entry
13). -/
def contCounters : List Field :=
  [Fld.CONT_TAKEOVERS_COUNT, Fld.CONT_REPLAYS_COUNT, Fld.CONT_TWIN_LOSSES_COUNT]
def thmCounters : List Field := [Fld.THM_COUNTS_WARM, Fld.THM_COUNTS_CRIT]

/-- ARR.CTRL.CLEAR (R93). -/
def State.arrClear (s : State) : State := s.zeroFields arrCounters
/-- FEED.CTRL.CLEAR (R113). -/
def State.feedClear (s : State) : State := s.zeroFields feedCounters
/-- TRIM.CTRL.CLEAR (R147). -/
def State.trimClear (s : State) : State := s.zeroFields trimCounters
/-- MEM.CTRL.CLEAR: the count of every channel, MEM.UE_COUNT and MEM.READS.PEAK (R212). -/
def State.memClear (s : State) : State :=
  ((List.range 80).foldl (fun s k => s.rset Fld.MEM_CE_COUNT_COUNT 0 k) s).zeroFields
    [Fld.MEM_UE_COUNT_COUNT, Fld.MEM_READS_PEAK]
/-- XLT.CTRL.CLEAR (R213). -/
def State.xltClear (s : State) : State := s.zeroFields xltCounters
/-- BANK.CTRL.CLEAR (R214). -/
def State.bankClear (s : State) : State := s.zeroFields bankCounters
/-- SRV.CTRL.CLEAR (R256). The serving counter is time (R245), not a count of events: it goes on (log entry 13). -/
def State.srvClear (s : State) : State := s.zeroFields srvCounters
/-- VID.CTRL.CLEAR: the pictures and the concealed blocks of every context (R302). -/
def State.vidClear (s : State) : State :=
  { s with vid := { s.vid with contexts := s.vid.contexts.map fun (k, x) => (k, { x with frames := 0, concealed := 0 }) } }
/-- NET.CTRL.CLEAR (R332). -/
def State.netClear (s : State) : State := s.zeroFields netCounters
/-- CONT.CTRL.CLEAR (R365). -/
def State.contClear (s : State) : State := s.zeroFields contCounters
/-- THM.CTRL.CLEAR: the counters and every MAX (R452). -/
def State.thmClear (s : State) : State :=
  let s1 := s.zeroFields thmCounters
  { s1 with thm := { s1.thm with spots := s1.thm.spots.map fun h => { h with max := none } } }

/-- The settings that a port's registers hold. -/
def State.portSettings (s : State) (p : Nat) : PortApplied :=
  { vlan := s.rget Fld.NET_PCFG_VLAN p, v4 := s.rbit Fld.NET_PCFG_V4 p, ipv4 := s.rget Fld.NET_IPV4_ADDR p,
    prefix4 := s.rget Fld.NET_IPV4_CFG_PREFIX p, gateway := s.rget Fld.NET_GW4_ADDR p, v6 := s.rbit Fld.NET_PCFG_V6 p,
    ipv6 := (List.range 4).foldl (fun n k => n + s.rget (Fld.NET_IPV6_ADDR k) p * 4294967296 ^ k) 0,
    prefix6 := s.rget Fld.NET_IPV6_CFG_PREFIX p }

/-- NET.CTRL.APPLY (R306): every port's address, prefix, gateway and VLAN and the QMT UDP port take effect; one gratuitous
ARP for each IPv4 address applied (R305). -/
def State.netApply (s : State) : State :=
  let s1 : State := { s with net := { s.net with udpPort := s.rget Fld.NET_UDP_PORT } }
  (List.range 6).foldl (fun s p =>
    let x := s.portSettings p
    let s1 := s.onPort p fun q => { q with applied := x }
    if x.v4 then s1.transmit (s1.frame p (s1.rget Fld.NET_PCFG_PRIO_DATA p) none (.arpRequest x.ipv4)) else s1) s1

-- The idle block.

/-- One microsecond of idling (log entry 6): the serving counter, the interval counters of the front ends that run, and, on
each thousandth microsecond, the slow counters, the trial counter of R406 among them. -/
def State.idle (s : State) : State :=
  let c := s.srv.count + 1
  let tick := fun (f : FrontEnd) => if f.state == .down then f else { f with interval := f.interval + 1 }
  let ms := if c % 1000 = 0 then 1 else 0
  { s with srv := { s.srv with count := c % 2 ^ 64 },
           pwr := if s.pwr.overrun then { s.pwr with overrunUs := s.pwr.overrunUs + 1 } else s.pwr,
           cont := { s.cont with feA := tick s.cont.feA, feB := tick s.cont.feB },
           boot := { s.boot with slowMs := s.boot.slowMs + ms },
           regs := if ms = 1 ∧ s.rget Fld.FWU_STATE_STATE = 4 then
             Regs.set s.regs Fld.FWU_TRIAL_MS ((s.rget Fld.FWU_TRIAL_MS + 1) % 4294967296) else s.regs }

end Sys2Proof.Machine
end

