-- ==== Sys2Proof/Machine/Batches.lean ====
section
/-! DEFINITION. Batches.lean: how the serving engine forms a batch (R211, R234 to R236, R246, R266, R274, R275, R277). -/

namespace Sys2Proof.Machine

-- Deficit round robin (R235).

/-- A batch being filled: rows and stencil records so far, the units that wait, those taken, and the customers' credits. -/
structure Fill where
  rows : Nat := 0
  stencils : Nat := 0
  waiting : List QUnit
  taken : List QUnit := []
  credits : Dict Nat
  deriving DecidableEq, Repr

/-- Is it a tree unit of more than one node? -/
def QUnit.isTree (u : QUnit) : Bool := u.kind == .step && decide (1 < u.rows)

/-- Bytes of the argument area that row records and stencil records take (R274). -/
def argumentBytes (rows stencils : Nat) : Nat := roundUp (24 * rows) 64 + 640 * stencils

/-- Does a unit fit (R235): a prompt chunk is cut, any other unit needs its rows and, with its stencil record, room in the
argument area (R274)? -/
def Fill.fits (f : Fill) (batchRows : Nat) (u : QUnit) : Bool :=
  if u.kind = .chunk then decide (f.rows < batchRows)
  else
    let st := f.stencils + (if u.isTree then 1 else 0)
    decide (f.rows + u.rows ≤ batchRows) && (st == 0 || decide (argumentBytes (f.rows + u.rows) st ≤ 63424))

/-- A customer's oldest unit. -/
def Fill.oldest (f : Fill) (cu : Nat) : Option QUnit := f.waiting.find? (·.customer == cu)

/-- A customer's credit. -/
def Fill.credit (f : Fill) (cu : Nat) : Nat := (Dict.fetch f.credits cu).getD 0

/-- Take a customer's oldest unit. -/
def Fill.take (f : Fill) (batchRows : Nat) (u : QUnit) : Fill :=
  let u1 : QUnit := if u.kind = .chunk then { u with rows := min u.rows (batchRows - f.rows) } else u
  { f with rows := f.rows + u1.rows, stencils := f.stencils + (if u.isTree then 1 else 0),
           waiting := f.waiting.erase u, taken := f.taken ++ [u1],
           credits := Dict.store f.credits u.customer (f.credit u.customer - 16) }

/-- Take a customer's units while its credit covers them and they fit. -/
def Fill.takeWhile (f : Fill) (batchRows cu : Nat) : Nat → Fill
  | 0 => f
  | fuel + 1 =>
    match f.oldest cu with
    | none => f
    | some u =>
      if 16 ≤ f.credit cu ∧ f.fits batchRows u then (f.take batchRows u).takeWhile batchRows cu fuel else f

/-- One customer's turn in the inner loop of R235. -/
def Fill.turn (weight : Nat → Nat) (batchRows : Nat) (f : Fill) (cu : Nat) : Fill :=
  if batchRows ≤ f.rows then f
  else
    match f.oldest cu with
    | none => { f with credits := Dict.store f.credits cu 0 }
    | some u =>
      if !f.fits batchRows u then f
      else
        ({ f with credits := Dict.store f.credits cu (f.credit cu + weight cu) } : Fill).takeWhile batchRows cu
          (f.waiting.length + 1)

/-- Does some customer's oldest unit fit? -/
def Fill.anyFits (f : Fill) (customers : List Nat) (batchRows : Nat) : Bool :=
  customers.any fun cu =>
    match f.oldest cu with
    | some u => f.fits batchRows u
    | none => false

/-- The outer loop of R235. -/
def Fill.fill (weight : Nat → Nat) (customers : List Nat) (batchRows : Nat) : Nat → Fill → Fill
  | 0, f => f
  | fuel + 1, f =>
    if f.rows < batchRows ∧ f.anyFits customers batchRows then
      Fill.fill weight customers batchRows fuel (customers.foldl (Fill.turn weight batchRows) f)
    else f

/-- Fill a batch from a queue's units. -/
def State.fillBatch (s : State) (units : List QUnit) (batchRows : Nat) : Fill :=
  let customers := (s.srv.accounts.filter fun a => a.2.credit != 0).foldl (fun l a => insertNat a.1 l)
    (units.foldl (fun l u => insertNat u.customer l) [])
  let weight := fun (cu : Nat) => max (s.account cu).weight 1
  Fill.fill weight customers batchRows (16 * (units.length + 1))
    { waiting := units, credits := customers.map fun cu => (cu, (s.account cu).credit) }

-- Pages and rows of the units taken.

/-- Does a sequence keep a page on the cartridge (R211)? -/
def State.seqSpilled (s : State) (q : Nat) : Bool := (s.entries q).any entryC

/-- May a unit be taken now: none of its sequence's pages is on the cartridge, and what came before it is done? -/
def State.unitReady (s : State) (u : QUnit) : Bool := u.kind == .pass || ((s.seq u.seq).isSome && !s.seqSpilled u.seq)

/-- The positions and tree slots that a unit needs pages for (R266). -/
def State.unitPositions (s : State) (u : QUnit) : Nat :=
  match s.seq u.seq with
  | none => 0
  | some x => if u.kind = .chunk then x.done + u.rows else x.rootPos + u.rows

/-- Give a taken unit its pages; a unit that cannot have them stays in its queue (R254). -/
def State.pageUnit (s : State) (u : QUnit) : State × Bool :=
  if u.kind = .pass then (s, true)
  else
    let r := s.unitPages u.seq (s.unitPositions u)
    (r.1, r.2 && r.1.srv.queue.any fun v => v.row == u.row && v.seq == u.seq && v.kind == u.kind)

/-- Give the units their pages in turn: those that run. -/
def State.pageUnits (s : State) : List QUnit → State × List QUnit
  | [] => (s, [])
  | u :: us =>
    let r := s.pageUnit u
    let t := r.1.pageUnits us
    (t.1, if r.2 then u :: t.2 else t.2)

/-- The rows of a unit (R140, R236, R275). -/
def State.unitRows (s : State) (g : Image) (k : Nat) (u : QUnit) : List RowRec :=
  match s.request u.row with
  | none => []
  | some r =>
    match u.kind, s.seq u.seq with
    | .pass, _ =>
      [{ tag := u.row, seq := 4294967295, seed := 0, step := 0, length := g.inputElements r.height, unit := k,
         height := r.height }]
    | .chunk, some x =>
      (List.range u.rows).map fun i =>
        let p := x.done + i
        { tag := u.row, seq := u.seq, seed := x.seed, step := 0, length := p + 1, token := listAt 0 x.promptRows p,
          position := p, unit := k }
    | .step, some x =>
      let t := x.stepTree
      (List.range u.rows).map fun i =>
        let d := t.depth i
        let last := (x.emitted.getLast?).getD (x.prompt.getLast?.getD 0)
        { tag := u.row, seq := u.seq, seed := x.seed, step := x.nEmitted + d, length := x.pLen + x.nEmitted + d,
          token := if i = 0 then last else listAt 0 t.tokens i, position := x.rootPos + d, node := i, unit := k }
    | _, none => []

/-- A unit of the batch leaves its queue: its request has started, its sequence runs, and what is left of a cut chunk is
queued when the chunk has run. -/
def State.startUnit (s : State) (u : QUnit) : State :=
  let s1 : State := { s with srv := { s.srv with
    queue := s.srv.queue.filter fun v => !(v.row == u.row && v.seq == u.seq && v.kind == u.kind) } }
  let s2 := s1.onRequest u.row fun r => { r with started := true, delivered := [] }
  if u.kind = .pass then s2
  else
    let s3 := s2.onSeq u.seq fun x => { x with phase := .running, sampled := [], draft := [] }
    match u.kind, s3.seq u.seq with
    | .step, some x => s3.setCounts u.seq x.rootPos x.rootPos u.rows
    | _, _ => s3

/-- Form a batch from a slot's units and start its first coat (R234, R235). -/
def State.formBatch (s : State) (key : QueueKey) (units : List QUnit) : State :=
  match (s.slot key.slot).image with
  | none => s
  | some g =>
    let f := s.fillBatch (units.filter s.unitReady) g.header.batchRows
    let s1 := f.credits.foldl (fun (s : State) (x : Nat × Nat) => s.putAccount x.1 { s.account x.1 with credit := x.2 }) s
    let (s2, paged) := s1.pageUnits f.taken
    let run := paged.filter fun u => s2.srv.queue.any fun v => v.row == u.row && v.seq == u.seq && v.kind == u.kind
    if run.isEmpty then s2
    else
      let rows := ((List.range run.length).map fun k =>
        match run[k]? with
        | some u => s2.unitRows g k u
        | none => []).flatten
      let s3 := run.foldl (fun (s : State) (u : QUnit) => s.startUnit u) s2
      let held := s3.srv.held.filter s3.srv.queue.contains
      let b : Batch := { slot := key.slot, phase := key.phase, units := run, rows := rows }
      let s4 : State := { s3 with srv := { s3.srv with batch := some b, held := held } }
      (s4.count Fld.SRV_BATCHES_COUNT).planBatch

/-- The batch that was left unfinished and may be taken up again: in fixed-slot mode one of the slot's customer. -/
def State.resumable (s : State) : Option Batch :=
  s.srv.suspended.find? fun b =>
    s.slotRuns b.slot && (!s.rbit Fld.SRV_MODE_FIXED ||
      (match s.frameCustomer s.srv.frame.index with
        | none => false
        | some cu => b.units.any fun u => u.customer == cu))

/-- The queue and units of the slot's customer in fixed-slot mode: its highest-priority queue whose oldest row was admitted
first, without waiting for the hold (R246). -/
def State.fixedChoice (s : State) : Option (QueueKey × List QUnit) :=
  match s.frameCustomer s.srv.frame.index with
  | none => none
  | some cu =>
    let mine := (s.queueKeys.filter fun k => s.slotRuns k.slot).map fun k => (k, (s.unitsOf k).filter fun u => u.customer == cu)
    bestQueue (mine.filter fun x => !x.2.isEmpty)

/-- Do filler passes run in the array: a fixed slot's work has ended, and the slot has not (R247)? -/
def State.fillerRuns (s : State) : Bool :=
  s.rbit Fld.SRV_MODE_FIXED && s.srv.batch.isNone && (s.srv.frame.guarded || (s.resumable.isNone && s.fixedChoice.isNone))

/-- BATCH_START (R234): with no batch running, an unfinished batch is taken up again, or the chosen queue fills a new one. -/
def batchStart (s : State) : State :=
  if s.srv.batch.isSome ∨ s.arr.stopped ∨ !s.srv.affected.isEmpty ∨ s.cont.quiesced ∨ s.rbit Fld.MEM_STATUS_OUT ∨
      s.fwu.stopped = some 6 then s
  else if s.rbit Fld.SRV_MODE_FIXED ∧ s.srv.frame.guarded then s
  else
    match s.resumable with
    | some b =>
      let s1 : State := { s with srv := { s.srv with suspended := s.srv.suspended.erase b,
                                                     batch := some { b with suspended := true, resuming := true } } }
      s1
    | none =>
      if s.rbit Fld.SRV_MODE_FIXED then
        match s.fixedChoice with
        | some (k, us) => s.formBatch k us
        | none => s
      else
        match s.chosenQueue with
        | some k => s.formBatch k (s.unitsOf k)
        | none => s

end Sys2Proof.Machine
end

