-- ==== Sys2Proof/Machine/TrimOps.lean ====
section
/-! DEFINITION. TrimOps.lean: a trim core's registers and lanes, its view of memory, kernels and their faults (R115 to R120, R130,
R132 to R146). -/

namespace Sys2Proof.Machine

-- Registers (R115).

/-- A scalar register; s0 reads as zero. -/
def Core.rs (x : Core) (r : SReg) : BitVec 64 := if r = 0 then 0 else x.s[r.toNat]'(r.isLt)
/-- Write a scalar register; a write to s0 is discarded. -/
def Core.ws (x : Core) (r : SReg) (v : BitVec 64) : Core := if r = 0 then x else { x with s := x.s.set r.toNat v r.isLt }
/-- A vector register. -/
def Core.rv (x : Core) (r : VReg) : BitVec 512 := x.v[r.toNat]'(r.isLt)
/-- Write a vector register. -/
def Core.wv (x : Core) (r : VReg) (v : BitVec 512) : Core := { x with v := x.v.set r.toNat v r.isLt }
/-- A predicate register; p0 reads as all ones. -/
def Core.rp (x : Core) (r : PReg) : BitVec 64 := if r = 0 then BitVec.allOnes 64 else x.p[r.toNat]'(r.isLt)
/-- Write a predicate register; a write to p0 is discarded. -/
def Core.wp (x : Core) (r : PReg) (v : BitVec 64) : Core := if r = 0 then x else { x with p := x.p.set r.toNat v r.isLt }
/-- Raise numeric flags (R132). -/
def Core.raise (x : Core) (f : NumFlags) : Core := { x with flags := x.flags ||| f }

-- Lanes (R116).

/-- Lane width in bits. -/
def laneBits : ElemType → Nat
  | .int8 => 8 | .int16 => 16 | .int32 => 32 | .int64 => 64 | .fp16 => 16 | .bf16 => 16 | .fp32 => 32
/-- Lanes in a vector. -/
def laneCount (e : ElemType) : Nat := 512 / laneBits e
/-- Is it a floating-point type? -/
def laneFp : ElemType → Bool
  | .fp16 | .bf16 | .fp32 => true
  | _ => false
/-- The floating-point format of a type. -/
def laneFmt : ElemType → FpFmt
  | .fp16 => Machine.fp16
  | .bf16 => Machine.bf16
  | _ => Machine.fp32

/-- Lane i of a vector, of w bits. -/
def laneOf (w : Nat) (v : BitVec 512) (i : Nat) : Nat := natBits v.toNat (w * i) w
/-- The lanes of a vector. -/
def lanesOf (w : Nat) (v : BitVec 512) : List Nat := (List.range (512 / w)).map (laneOf w v)
/-- A number from lanes of w bits, lane 0 lowest. -/
def joinLanes (w : Nat) : List Nat → Nat
  | [] => 0
  | x :: l => x % 2 ^ w + 2 ^ w * joinLanes w l
/-- A vector from lanes of w bits. -/
def vecOf (w : Nat) (l : List Nat) : BitVec 512 := BitVec.ofNat 512 (joinLanes w l)

/-- Under a predicate bit of 0 the destination's lane keeps its value (R116): `f` gives an enabled lane and its flags. -/
def predLanes (w : Nat) (p : BitVec 64) (old : BitVec 512) (f : Nat → Nat × NumFlags) : BitVec 512 × NumFlags :=
  let l := (List.range (512 / w)).map fun i => if p.getLsbD i then f i else (laneOf w old i, 0)
  (vecOf w (l.map (·.1)), flagsOr (l.map (·.2)))

/-- A lane as a signed integer. -/
def laneInt (w n : Nat) : Int := sInt w n
/-- An integer as a lane, wrapped. -/
def intLane (w : Nat) (v : Int) : Nat := intBits w v

/-- The greater (or lesser) of two floating-point patterns under the rule of FMAX and FMIN: a NaN operand gives the canonical
NaN, and −0 is below +0 (R124). -/
def fpPick (f : FpFmt) (isMax : Bool) (a b : Nat) : Nat × NumFlags :=
  let x := f.val a
  let y := f.val b
  let below : Bool := fpLt x y || (fpEq x y && x.isNeg && !y.isNeg)
  let r := if x.isNan ∨ y.isNan then f.nanBits else if below = isMax then b else a
  (r, fpFlags f [x, y] r)

/-- FP32 to an integer of w bits (R124): to nearest even, saturated with OUT_SAT; NaN gives 0 and sets INVALID. -/
def fpToLane (w : Nat) (v : FpVal) : Nat × NumFlags :=
  let (q, sat) := fpToInt v (intLo w) (intHi w)
  (intLane w q, flagIf sat NumFlags.OUT_SAT ||| flagIf v.isNan NumFlags.INVALID ||| flagIf v.isInf NumFlags.INF)

-- Cores and kernels.

/-- A logical core. -/
def State.core (s : State) (c : Nat) : Core := listAt {} s.trim.cores c
/-- Change a logical core. -/
def State.onCore (s : State) (c : Nat) (f : Core → Core) : State :=
  { s with trim := { s.trim with cores := listModify s.trim.cores c f } }
/-- The physical core that hosts a logical one (R144). -/
def State.physical (s : State) (c : Nat) : Nat := s.rget (Fld.TRIM_MAP_CORE c)
/-- The running kernel that a core belongs to. -/
def State.kernelOf (s : State) (c : Nat) : Option KernelRun := s.trim.kernels.find? fun k => k.cores.contains c
/-- Change a running kernel. -/
def State.onKernel (s : State) (coat i : Nat) (f : KernelRun → KernelRun) : State :=
  { s with trim := { s.trim with kernels := s.trim.kernels.map fun k => if k.coat = coat ∧ k.index = i then f k else k } }
/-- A running kernel by its coat and its place in the coat's kernel list. -/
def State.kernelRun (s : State) (coat i : Nat) : Option KernelRun :=
  s.trim.kernels.find? fun k => k.coat == coat && k.index == i
/-- The coat and the kernel binding that a core runs. -/
def State.bindingOf (s : State) (c : Nat) : Option (Work × Kernel) :=
  match s.kernelOf c with
  | none => none
  | some k =>
    match s.coatAt k.coat with
    | none => none
    | some w => ((w.g.kernelsOf w.c)[k.index]?).map fun x => (w, x)

/-- The logical cores of a mask, ascending. -/
def maskCores (m : BitVec 64) : List Nat := (List.range 64).filter fun i => m.getLsbD i

/-- A core's share of a kernel's items (R141): first item and count, for core `j` of `n`. -/
def shareOf (t n j : Nat) : Nat × Nat := (j * ceilDiv t n, min (ceilDiv t n) (t - j * ceilDiv t n))

/-- The bank of a logical core's local memory (R202). -/
def localBank (c : Nat) : Nat := 0x20 + c

/-- Does a binding lie in the core view (R118)? -/
def Binding.inCoreView (b : Binding) : Bool := b.kind == 1 || b.kind == 2 || b.kind == 3 || b.kind == 7

/-- The core-view base address of a binding (R118, R140): 0 for one that lies outside the core view. -/
def coreBase (b : Binding) : Nat :=
  match b.kind with
  | 1 | 7 => 0x20000000 + b.bank * 4194304 + b.offset
  | 2 => 0x10000000 + b.bank * 8388608 + b.offset
  | 3 => b.offset
  | _ => 0

-- Faults (R146).

/-- The faults of R146. -/
inductive TrimFault where
  | window | align | sync | delivery | watchdog | bank
  deriving DecidableEq, Repr

/-- The fault's bit in TRIM.FAULT. -/
def TrimFault.field : TrimFault → Field
  | .window => Fld.TRIM_FAULT_WINDOW | .align => Fld.TRIM_FAULT_ALIGN | .sync => Fld.TRIM_FAULT_SYNC
  | .delivery => Fld.TRIM_FAULT_DELIVERY | .watchdog => Fld.TRIM_FAULT_WATCHDOG | .bank => Fld.TRIM_FAULT_BANK

/-- Record a trim fault; TRIM.FAULT_LOC and TRIM.FAULT_PC hold the first (R146, R147). -/
def State.noteTrimFault (s : State) (f : TrimFault) (c : Nat) (pc : Nat) : State :=
  let clear := natBits (Regs.word s.regs 0x120018 0).toNat 0 7 = 0
  let coat := (s.core c).coat
  let s1 := if clear then
      (((s.rset Fld.TRIM_FAULT_LOC_LOGICAL c).rset Fld.TRIM_FAULT_LOC_PHYSICAL (s.physical c)).rset
        Fld.TRIM_FAULT_LOC_COAT coat).rset Fld.TRIM_FAULT_PC_PC pc
    else s
  s1.rset f.field 1

/-- A defect of the kernel (R146): the kernel stops, the coat's deliveries are discarded, and every request with a row in the
coat ends with E_KERNEL. -/
def State.kernelFault (s : State) (f : TrimFault) (c : Nat) (pc : Nat) : State :=
  (s.noteTrimFault f c pc).failCoat Code.E_KERNEL 8

/-- A hardware fault of a core (R146): where every kernel of its coat may be re-executed they are, once; otherwise, or the
second time, F_TRIM is raised and the batch's requests wait for replay. -/
def State.coreFault (s : State) (c : Nat) (pc : Nat) : State :=
  let s1 := s.noteTrimFault .bank c pc
  match s1.bindingOf c with
  | none => s1
  | some (w, _) =>
    let restart := (w.g.kernelsOf w.c).all fun k => k.flags / 2 % 2 = 1
    if restart ∧ !w.run.trimRetried then
      (s1.stopKernels fun k => k.coat == w.i).onRun w.i fun x =>
        { x with trimRetried := true, kernelsStarted := [], kernelsEnded := [],
                 deliveries := x.deliveries.filter fun d => d.core == 64 }
    else (((s1.rsetIf w.run.trimRetried Fld.TRIM_FAULT_REPEAT 1).discardBatch).startSlice 9 0).healthEvent Code.F_TRIM

-- One instruction.

/-- May a logical core execute an instruction: it runs a kernel and its host runs it now (R144)? -/
def State.coreRuns (s : State) (c : CoreId) : Bool := (s.core c.toNat).state == .run && (s.core c.toNat).onHost

/-- The core goes on to its next instruction, which is counted (R142, R147). -/
def State.advance (s : State) (c : CoreId) : State :=
  (s.onCore c.toNat fun x => { x with pc := x.pc + 4, executed := x.executed + 1 }).count64 Fld.TRIM_INSTR_LO_COUNT
    Fld.TRIM_INSTR_HI_COUNT 1

/-- Is a program counter inside the code region (R118)? -/
def inCode (pc : Nat) : Bool := decide (0x60000 ≤ pc ∧ pc < 0x70000)

/-- What every instruction goes through: a core that is not running executes none; one whose program counter has left the code
region faults with WINDOW (R118, R123); one that would exceed its kernel's limit faults with WATCHDOG (R142); otherwise the core
moves past the instruction and `body`, which is given the core as it was, acts. -/
def State.issue (s : State) (c : CoreId) (body : State → Core → State) : State :=
  if !s.coreRuns c then s
  else
    let x := s.core c.toNat
    let limit := ((s.kernelOf c.toNat).map (·.limit)).getD 0
    if !inCode x.pc.toNat then s.kernelFault .window c.toNat x.pc.toNat
    else if limit ≤ x.executed then s.kernelFault .watchdog c.toNat x.pc.toNat else body (s.advance c) x

/-- An instruction that changes only its core's registers. -/
def State.onRegs (s : State) (c : CoreId) (f : Core → Core) : State := s.issue c fun t _ => t.onCore c.toNat f

-- Memory of a core (R118, R138).

/-- Where a core-view address lies: a bank and an offset in it. -/
def corePlace (c a : Nat) : Option (Nat × Nat) :=
  if a < 0x80000 then some (localBank c, a)
  else if 0x10000000 ≤ a ∧ a < 0x14000000 then some (0x10 + (a - 0x10000000) / 8388608, (a - 0x10000000) % 8388608)
  else if 0x20000000 ≤ a ∧ a < 0x24000000 then some ((a - 0x20000000) / 4194304, (a - 0x20000000) % 4194304)
  else none

/-- Does an access of n bytes lie inside a range of the core view? -/
def inView (a n lo len : Nat) : Bool := decide (lo ≤ a ∧ a + n ≤ lo + len)

/-- May a core read n bytes at an address (R118): its local data, its arguments, and what its kernel's bindings and window
cover? -/
def State.coreReads (s : State) (c a n : Nat) : Bool :=
  inView a n 0 0x60000 || inView a n 0x70000 0xF800 ||
    (match s.bindingOf c with
      | none => false
      | some (w, k) =>
        let x := s.core c
        (decide (0x10000000 ≤ a) && inView a n x.winBase x.winSize) ||
          k.bindings.any fun i =>
            let b := w.g.binding i
            i != 255 &&
              (if b.kind = 1 ∨ b.kind = 2 then inView a n (coreBase b) b.size
               else if b.kind = 7 then inView a n (coreBase b) (4194304 - b.offset)
               else false))

/-- May a core write n bytes at an address (R138): its local data, and its own window of its kernel's window binding? -/
def State.coreWrites (s : State) (c a n : Nat) : Bool :=
  inView a n 0 0x60000 || inView a n (s.core c).winBase (s.core c).winSize

/-- Bytes from an address on, with a store over them. -/
def SharedStore.over (x : SharedStore) (a : Nat) (l : List Byte) : List Byte :=
  (List.range l.length).map fun i =>
    if x.addr ≤ a + i ∧ a + i < x.addr + x.bytes.length then listAt 0 x.bytes (a + i - x.addr) else listAt 0 l i

/-- The bytes that a core reads: what its bank holds, with the core's own stores that others do not see yet (R120). -/
def State.coreBytes (s : State) (c a n : Nat) : List Byte :=
  match corePlace c a with
  | some (b, o) => (s.core c).stores.foldl (fun l x => x.over a l) (s.bankBytes b o n)
  | none => zeroBytes n

/-- Put a core's store where every core sees it. -/
def State.showStore (s : State) (c : Nat) (x : SharedStore) : State :=
  match corePlace c x.addr with
  | some (b, o) => s.putBank b o x.bytes
  | none => s

/-- Write bytes as a core does: into its local bank at once; into the shared scratch or a feed bank so that other cores of its kernel
do not see them yet (R120). -/
def State.coreStore (s : State) (c a : Nat) (p : List Byte) : State :=
  if a < 0x80000 then s.showStore c ⟨a, p, false⟩
  else s.onCore c fun y => { y with stores := y.stores ++ [⟨a, p, false⟩] }

/-- Make a core's stores that a test names visible to every core, in program order (R120). -/
def State.showStores (s : State) (p : SharedStore → Bool) (c : Nat) : State :=
  let s1 := ((s.core c).stores.filter p).foldl (fun (s : State) (x : SharedStore) => s.showStore c x) s
  s1.onCore c fun y => { y with stores := y.stores.filter fun x => !p x }

/-- The address of a load or store (R121, R125): base plus the signed immediate, scaled; one of 2^32 or more is outside the core
view. -/
def Core.addr (x : Core) (sa : SReg) (imm : Imm13) (scale : Nat) : Nat :=
  (x.rs sa + BitVec.ofInt 64 (imm.toInt * (scale : Int))).toNat

/-- Byte i of a stored vector. -/
def vecBytes (v : BitVec 512) : List Byte := leBytes 64 v.toNat

end Sys2Proof.Machine
end

