-- ==== Sys2Proof/Machine/Lath.lean ====
section
/-! DEFINITION. Lath.lean: the checks that an image goes through before it is loaded (R148 to R169, R97, R98, R105, R123, R137,
R257; log entry 26), and its parse. -/

namespace Sys2Proof.Machine

/-- Where and why an image fails (R168, R177): the code, the section type, the record and the image offset of the failing
field. -/
structure LoadErr where
  code : Code
  sect : Nat
  record : Nat
  offset : Nat
  deriving DecidableEq, Repr

/-- The result of checks in order: the first failure. -/
abbrev Checks := List (Option LoadErr)
/-- The first failure of checks. -/
def Checks.first (l : Checks) : Option LoadErr := l.findSome? id
/-- The failure at the lowest offset, the first of the list among several: fields in offset order (R167). -/
def Checks.lowest (l : Checks) : Option LoadErr :=
  l.foldl (fun best x => match best, x with
    | some b, some e => if e.offset < b.offset then some e else some b
    | none, x => x
    | b, none => b) none

/-- A record of a section: section type, index, its image offset and its bytes. -/
structure RecView where
  sect : Nat
  index : Nat
  base : Nat
  p : List Byte
  deriving DecidableEq, Repr

/-- A condition on the field at an offset of a record. -/
def RecView.need (r : RecView) (ok : Bool) (c : Code) (off : Nat) : Option LoadErr :=
  if ok then none else some ⟨c, r.sect, r.index, r.base + off⟩
/-- A reserved field (R31, R167). -/
def RecView.zero (r : RecView) (off n : Nat) : Option LoadErr := r.need (allZero r.p off n) Code.E_RESERVED off
/-- A rule without a code of its own (R167). -/
def RecView.lath (r : RecView) (ok : Bool) (off : Nat) : Option LoadErr := r.need ok Code.E_LATH_PARAM off
/-- The fields of a record. -/
def RecView.b (r : RecView) (off : Nat) : Nat := u8 r.p off
def RecView.h (r : RecView) (off : Nat) : Nat := u16 r.p off
def RecView.w (r : RecView) (off : Nat) : Nat := u32 r.p off
def RecView.d (r : RecView) (off : Nat) : Nat := u64 r.p off
/-- A signed byte and a signed 16-bit field. -/
def RecView.sb (r : RecView) (off : Nat) : Int := sInt 8 (r.b off)
def RecView.sh (r : RecView) (off : Nat) : Int := sInt 16 (r.h off)

-- Sections (R149 to R152).

/-- An entry of the section table (R150). -/
structure SectEntry where
  type : Nat
  offset : Nat
  length : Nat
  records : Nat
  deriving DecidableEq, Repr

/-- The record size of a section type (R151). -/
def sectRecord : Nat → Nat
  | 1 => 64 | 2 => 16 | 3 => 8 | 4 => 48 | 5 => 64 | 6 => 64 | 7 => 8 | 8 => 96 | _ => 1

/-- The bytes of the signature block (R152). -/
def sigBytes : Nat := 152

/-- The section table of an image. -/
def sectTable (p : List Byte) : List SectEntry :=
  (List.range (u16 p 16)).map fun i =>
    let o := 128 + 16 * i
    ⟨u8 p o, u32 p (o + 4), u32 p (o + 8), u32 p (o + 12)⟩

/-- The records of a section. -/
def sectRecs (p : List Byte) (t : Nat) : List RecView :=
  match (sectTable p).find? fun e => e.type == t with
  | none => []
  | some e => (List.range e.records).map fun i =>
    let n := sectRecord t
    ⟨t, i, e.offset + i * n, slice p (e.offset + i * n) n⟩

/-- The code area of the trim-kernel section: its image offset and bytes (R163). -/
def codeArea (p : List Byte) : Nat × List Byte :=
  match (sectTable p).find? fun e => e.type == 5 with
  | none => (0, [])
  | some e =>
    let o := e.offset + 64 * e.records
    (o, slice p o (e.length - 64 * e.records))

/-- The header as a record (section 0x00, record 0). -/
def headView (p : List Byte) : RecView := ⟨0, 0, 0, slice p 0 128⟩
/-- The signature block as a record (section 0xFF). -/
def sigView (p : List Byte) : RecView := ⟨0xFF, 0, p.length - sigBytes, slice p (p.length - sigBytes) sigBytes⟩

/-- Check 1 (R167): length and magic. The cartridge object exists and `p` holds it. -/
def check1 (p : List Byte) : Option LoadErr :=
  let h := headView p
  Checks.first [h.lath (decide (512 ≤ p.length ∧ p.length ≤ 67108864 ∧ u32 p 12 = p.length)) 12,
    h.lath (h.w 0 == 0x4854414C) 0]

/-- Check 2: versions and codes (R29, R176). -/
def check2 (p : List Byte) : Option LoadErr :=
  let h := headView p
  let v := fun (ok : Bool) (off : Nat) => h.need ok Code.E_VERSION off
  Checks.first [v (h.b 5 == 1) 5, v (decide (h.b 4 ≤ 2)) 4, v (h.b 6 == 1) 6, v (h.h 8 == 512) 8, v (h.h 10 == 512) 10]

/-- The bytes that the signature covers (R152). -/
def signedBytes (p : List Byte) : List Byte := p.take (p.length - sigBytes)

/-- Check 3: the signature block and its signature (R152, R371, R375). `signers` are the enrolled lath-signing keys. -/
def check3 (signers : List (List Byte)) (p : List Byte) : Option LoadErr :=
  let g := sigView p
  let e := fun (ok : Bool) (off : Nat) => g.need ok Code.E_SIGNATURE off
  let key := slice g.p 8 48
  Checks.first [e (g.w 0 == 0x4E474953) 0, e (g.h 4 == 1) 4, e (signers.contains key) 8,
    e (signedBy (signedBytes p) (slice g.p 56 48) (slice g.p 104 48) key) 56]

/-- The rules of one section-table entry; `prev` is the type before it and `low` the lowest offset it may have. -/
def checkEntry (p : List Byte) (i prev low : Nat) : Option LoadErr :=
  let r : RecView := ⟨0, i, 128 + 16 * i, slice p (128 + 16 * i) 16⟩
  let t := r.b 0
  let off := r.w 4
  let len := r.w 8
  let n := r.w 12
  Checks.first [r.need (decide (1 ≤ t ∧ t ≤ 8)) Code.E_RESERVED 0, r.lath (decide (prev < t)) 0, r.zero 1 3,
    r.lath (decide (off % 64 = 0 ∧ low ≤ off)) 4,
    r.lath (if t = 5 then decide (64 * n ≤ len ∧ len % 64 = 0) else len == n * sectRecord t) 8,
    r.lath (decide (off + len ≤ p.length - sigBytes)) 8,
    r.lath (t != 1 || n == u16 p 18) 12, r.lath (t != 2 || decide (1 ≤ n ∧ n ≤ 255)) 12]

/-- The rules of the section table from an entry on, with the end of the last section. -/
def checkTable (p : List Byte) : Nat → Nat → Nat → Nat → Option LoadErr × Nat
  | 0, _, _, low => (none, low)
  | n + 1, i, prev, low =>
    match checkEntry p i prev low with
    | some e => (some e, low)
    | none =>
      let o := 128 + 16 * i
      checkTable p n (i + 1) (u8 p o) (u32 p (o + 4) + u32 p (o + 8))

/-- The first byte that is not zero from an offset on, among `n` bytes. -/
def firstSet (p : List Byte) (off n : Nat) : Option Nat :=
  (((p.drop off).take n).findIdx? (· != 0)).map (off + ·)

/-- The gaps between the parts of an image must hold zero (R150). -/
def checkGaps (p : List Byte) : Nat → List SectEntry → Option LoadErr
  | pos, [] => (firstSet p pos (p.length - sigBytes - pos)).map fun o => ⟨Code.E_RESERVED, 0, 0, o⟩
  | pos, e :: l =>
    match firstSet p pos (e.offset - pos) with
    | some o => some ⟨Code.E_RESERVED, 0, 0, o⟩
    | none => checkGaps p (e.offset + e.length) l

/-- The section types that a coat record needs to be present (R151, R154): pass programs for an array coat, programs, kernels, a
fused-attention record, and weight references for weights, a bias from the cartridge or scales. -/
def coatNeeds (r : RecView) : List Nat :=
  let arr := r.b 0 == 1
  let refs := r.h 32 != 65535 || (r.b 1 == 0 && r.h 34 != 65535) || r.h 36 != 65535
  [(3, arr), (4, r.b 0 != 4 && r.b 21 != 0), (5, r.b 0 != 4 && r.b 38 != 0), (6, r.b 0 == 4), (8, arr && refs)].filterMap
    fun x => if x.2 then some x.1 else none

/-- The sections that R151 wants present: the coat list, the bank bindings, and what the coats need. One that is absent is located
at the header's section count. -/
def sectionsPresent (p : List Byte) : Bool :=
  ([1, 2] ++ ((sectRecs p 1).map coatNeeds).flatten).all fun t => (sectTable p).any fun e => e.type == t

/-- Check 4: header, section table, the bytes outside every part, and the signature block's reserved field. -/
def check4 (p : List Byte) : Option LoadErr :=
  let h := headView p
  let n := h.h 16
  let kind := h.b 20
  let head := Checks.first [h.need (decide (h.b 7 < 4)) Code.E_RESERVED 7, h.lath (decide (2 ≤ n ∧ n ≤ 8)) 16,
    h.lath (decide (1 ≤ h.h 18 ∧ h.h 18 ≤ 4096)) 18, h.need (kind == 1 || kind == 2) Code.E_RESERVED 20, h.zero 21 3,
    h.lath (decide (1 ≤ h.h 48 ∧ h.h 48 ≤ 2048)) 48, h.zero 50 6,
    h.lath (if kind = 2 then decide (1 ≤ h.w 56 ∧ h.w 56 ≤ 65536) else h.w 56 == 0) 56, h.zero 60 4,
    (if h.b 4 < 2 then h.zero 64 16 else none), h.zero 80 48]
  match head with
  | some e => some e
  | none =>
    let r := checkTable p n 0 0 (128 + 16 * n)
    match r.1 with
    | some e => some e
    | none =>
      Checks.first [h.lath (sectionsPresent p) 16, h.lath (p.length - sigBytes == roundUp r.2 64) 12,
        checkGaps p (128 + 16 * n) (sectTable p), (sigView p).zero 6 2]

-- Check 5, first pass: the own fields of each record.

/-- A field that a coat's kind leaves unused: zero, or 0xFFFF where the field uses 0xFFFF for none (R154). -/
def RecView.unused (r : RecView) (off n : Nat) (none_ : Bool) : Option LoadErr :=
  r.need (if none_ then r.h off == 65535 else allZero r.p off n) Code.E_RESERVED off

/-- A coat record's own fields (R153, R154). -/
def coatOwn (r : RecView) : Option LoadErr :=
  let k := r.b 0
  let arr := k == 1
  let drains := k == 1 || k == 2
  let att := k == 4
  let deps := r.b 39
  let depOk := (List.range 8).all fun j =>
    let v := r.h (48 + 2 * j)
    if j < deps then decide (v < r.index) else v == 65535
  Checks.first [r.need (decide (1 ≤ k ∧ k ≤ 4)) Code.E_RESERVED 0,
    r.need (decide (r.b 1 < 2) && (arr || r.b 1 == 0)) Code.E_RESERVED 1,
    r.need ((Format.ofCode (r.b 2)).isSome && (arr || r.b 2 != 9)) Code.E_FORMAT 2, r.zero 3 1,
    (if arr then r.lath (decide (-512 ≤ r.sh 4 ∧ r.sh 4 ≤ 511)) 4 else r.unused 4 2 false),
    (if arr then none else r.unused 6 1 false), r.zero 7 1,
    r.need (decide (r.h 8 < 64)) Code.E_RESERVED 8, r.zero 10 2,
    (if arr then r.lath (decide (1 ≤ r.w 12)) 12 else r.unused 12 4 false),
    (if arr then r.lath (decide (1 ≤ r.w 16 ∧ r.w 16 ≤ 65535)) 16 else r.unused 16 4 false),
    (if drains then none else r.unused 20 1 false),
    (if att then r.unused 21 1 false else r.lath (decide (r.b 21 ≤ 16)) 21),
    (if att then r.unused 22 2 false else none),
    (if arr then none else r.unused 24 4 false),
    (if arr then none else r.unused 28 2 false),
    (if att then none else r.unused 30 2 true),
    (if arr then r.lath (r.h 32 != 65535) 32 else r.unused 32 2 true),
    (if arr then none else r.unused 34 2 true),
    (if arr then none else r.unused 36 2 true),
    (if att then r.unused 38 1 false else r.lath (decide (r.b 38 ≤ 8) && (k != 3 || decide (1 ≤ r.b 38))) 38),
    r.lath (decide (deps ≤ 8)) 39,
    (if att then r.unused 40 2 false else none), r.zero 42 6, r.lath depOk 48]

/-- The largest bank and the largest offset + size of a binding kind (R161). -/
def bindingLimits (kind bank : Nat) : Nat × Option Nat :=
  match kind with
  | 1 | 7 => (15, some 4194304)
  | 2 => (7, some (if bank = 7 then 7340032 else 8388608))
  | 3 => (63, some 393216)
  | _ => (0, none)

/-- A bank binding's own fields (R160, R161). -/
def bindingOwn (minor : Nat) (r : RecView) : Option LoadErr :=
  let k := r.b 0
  let lim := bindingLimits k (r.b 1)
  let within : Bool := match lim.2 with
    | some n => decide (r.w 4 + r.w 8 ≤ n)
    | none => true
  Checks.first [r.need (decide (1 ≤ k ∧ k ≤ 8) && (k != 7 || decide (1 ≤ minor))) Code.E_RESERVED 0,
    r.lath (decide (r.b 1 ≤ lim.1)) 1, r.zero 2 2,
    r.lath (if k = 8 then r.w 4 == 0 else r.w 4 % 64 == 0) 4,
    r.lath (if k = 8 then r.w 8 == 0 else r.w 8 % 64 == 0 && decide (64 ≤ r.w 8) && within) 8, r.zero 12 4]

/-- A pass-program record's own fields (R157). -/
def passOwn (r : RecView) : Option LoadErr :=
  Checks.first [r.need (decide (r.b 0 < 8)) Code.E_RESERVED 0, r.zero 1 1, r.lath (decide (1 ≤ r.h 4)) 4, r.zero 6 2]

/-- The source formats that a program's kind accepts (R34, R35, R95, R111). -/
def programFormat (kind code : Nat) : Bool :=
  decide (1 ≤ code ∧ code ≤ 6) || (code == 7 && decide (3 ≤ kind))

/-- The flag bits that a program's kind uses (R513). -/
def programFlags : Nat → Nat
  | 1 => 1 | 3 => 1 | 4 => 2 | 5 => 4 | _ => 0

/-- An address-generator program's own fields (R97, R98, R513). A rule over several fields stands at the last of them. -/
def programOwn (r : RecView) : Option LoadErr :=
  let k := r.b 0
  let walk := k == 1 || k == 2 || k == 3
  let wide := k == 1 || k == 3
  let crop := k == 4
  let fl := r.b 1
  let aux := crop || (k == 5 && fl == 4)
  let rng := fun (used : Bool) (v lo hi off n : Nat) =>
    if used then r.need (decide (lo ≤ v ∧ v ≤ hi)) Code.E_FEED_PARAM off else r.zero off n
  let feed := fun (used ok : Bool) (off : Nat) => r.need (!used || ok) Code.E_FEED_PARAM off
  let c := r.h 12
  let g := r.h 14
  let bit := programFlags k
  Checks.first [r.need (decide (1 ≤ k ∧ k ≤ 5)) Code.E_RESERVED 0,
    r.need (fl == 0 || fl == bit) Code.E_RESERVED 1,
    r.need (programFormat k (r.b 2)) Code.E_FORMAT 2, r.zero 3 1,
    (if k = 1 then r.zero 5 1 else none), (if aux then none else r.zero 6 1), r.zero 7 1,
    feed crop (decide (r.h 8 ≤ 32767)) 8,
    rng true (r.h 10) 1 65535 10 2, feed crop (decide (r.h 10 ≤ 32767)) 10,
    rng true c 1 65535 12 2, rng true g 1 c 14 2, feed true (c % max g 1 == 0) 14,
    feed (k == 1 && decide (1 < g)) (c / max g 1 % 32 == 0) 14,
    feed (k == 2 || k == 4 || k == 5) (g == 1) 14,
    rng walk (r.b 16) 1 128 16 1, rng wide (r.b 17) 1 128 17 1,
    (if wide then none else r.zero 18 1), (if wide then none else r.zero 19 1),
    rng wide (r.b 20) 1 32 20 1, feed wide (decide (r.b 18 + r.b 20 ≤ r.b 16)) 20,
    rng wide (r.b 21) 1 32 21 1, feed wide (decide (r.b 19 + r.b 21 ≤ r.b 17)) 21,
    feed (k == 3) (decide (r.b 20 * r.b 21 ≤ 64)) 21,
    rng walk (r.b 22) 1 255 22 1, rng wide (r.b 23) 1 255 23 1, rng walk (r.b 24) 1 255 24 1, rng wide (r.b 25) 1 255 25 1,
    rng walk (r.b 26) 0 255 26 1, rng walk (r.b 27) 0 255 27 1, rng wide (r.b 28) 0 255 28 1, rng wide (r.b 29) 0 255 29 1,
    rng walk (r.h 30) 1 2048 30 2, rng wide (r.h 32) 1 2048 32 2, feed wide (decide (r.h 30 * r.h 32 ≤ 2048)) 32,
    rng crop (r.b 34) 1 64 34 1, rng crop (r.b 35) 1 64 35 1, rng crop (r.h 36) 1 4096 36 2, r.zero 38 10]

-- The words of a kernel (R121 to R127, R129).

/-- Is an element type's code a listed one, or an integer, a floating-point one? -/
def etAny (e : Nat) : Bool := decide (e ≤ 6)
def etInt (e : Nat) : Bool := decide (e ≤ 3)
def etFp (e : Nat) : Bool := decide (4 ≤ e ∧ e ≤ 6)
/-- Lanes of an element type's code (R116). -/
def etLanes : Nat → Nat
  | 0 => 64 | 1 => 32 | 2 => 16 | 3 => 8 | 4 => 32 | 5 => 32 | _ => 16

/-- Is a word one of the instructions of the trim cores (R123)? -/
def codeWordOk (w : Nat) : Bool :=
  let op := natBits w 26 6
  let fn6 := natBits w 0 6
  let fn8 := natBits w 0 8
  let et := natBits w 8 3
  let sr := natBits w 6 5 == 0
  let sy := natBits w 8 8 == 0
  if op = 0x01 then decide (fn6 ≤ 0x12) && sr
  else if op = 0x06 then natBits w 6 2 != 3 && natBits w 8 8 == 0
  else if 0x02 ≤ op ∧ op ≤ 0x08 then true
  else if op = 0x09 then decide (fn6 ≤ 0x0C) && sr
  else if 0x10 ≤ op ∧ op ≤ 0x17 then natBits w 13 3 == 0
  else if op = 0x18 ∨ op = 0x19 then natBits w 21 1 == 0
  else if 0x1A ≤ op ∧ op ≤ 0x1D then natBits w 21 1 == 0 && natBits w 22 1 == 0
  else if op = 0x20 then if fn8 = 3 then decide (et ≤ 1) else decide (fn8 ≤ 0x0B) && etInt et
  else if op = 0x21 then decide (fn8 ≤ 0x0A) && etFp et
  else if op = 0x22 then (decide (fn8 ≤ 3) || decide (8 ≤ fn8 ∧ fn8 ≤ 0x0B) || fn8 == 0x10) && etAny et
  else if op = 0x23 then (decide (fn8 ≤ 6) || fn8 == 0x10) && etAny et
  else if op = 0x24 then decide (fn8 ≤ 8) && et == 6
  else if op = 0x25 then
    etAny et && (fn8 == 0 || ((fn8 == 1 || fn8 == 2) && decide (natBits w 11 6 < etLanes et)) ||
      (decide (3 ≤ fn8 ∧ fn8 ≤ 7) && natBits w 14 3 == 0))
  else if 0x30 ≤ op ∧ op ≤ 0x35 then true
  else if op = 0x36 ∨ op = 0x37 then natBits w 16 5 == 0
  else if op = 0x38 then sy && (fn8 == 1 || fn8 == 2 || (fn8 == 0 && decide (natBits w 16 5 ≤ 29)))
  else if op = 0x39 then sy && (decide (fn8 ≤ 1) || decide (0x10 ≤ fn8 ∧ fn8 ≤ 0x14))
  else if op = 0x3A then decide (fn6 ≤ 2) && sr
  else false

/-- The first word of a kernel's code that is no instruction: its place in the image. -/
def badWord (code : List Byte) (at_ : Nat) (off size : Nat) : Option Nat :=
  ((List.range (size / 4)).find? fun i => !codeWordOk (u32 code (off + 4 * i))).map fun i => at_ + off + 4 * i

/-- The number of cores of a mask. -/
def coreCount (m : BitVec 64) : Nat := (maskCores m).length

/-- A kernel binding's own fields and its code (R58, R123, R136, R137, R163). -/
def kernelOwn (nondet : Bool) (area : Nat × List Byte) (r : RecView) : Option LoadErr :=
  let e := fun (ok : Bool) (off : Nat) => r.need ok Code.E_TRIM_PARAM off
  let size := r.w 8
  let word : Option LoadErr := (badWord area.2 area.1 (r.w 4) size).map fun o => ⟨Code.E_TRIM_PARAM, 5, r.index, o⟩
  Checks.first [r.need (r.b 0 == 1) Code.E_RESERVED 0, r.need (decide (r.b 1 < 4)) Code.E_RESERVED 1,
    r.need (r.b 1 % 2 == 0 || nondet) Code.E_NONDET 1, r.zero 2 2, e (r.w 4 % 4 == 0) 4,
    e (size % 4 == 0 && decide (4 ≤ size ∧ size ≤ 65536)) 8, e (decide (r.w 4 + size ≤ area.2.length)) 8,
    e (r.w 12 % 4 == 0 && decide (r.w 12 < size)) 12, e (r.d 16 != 0) 16,
    e (decide (r.w 24 + r.w 28 * 2048 ≤ 4294967295)) 28, e (decide (1 ≤ r.w 32)) 32,
    e (r.w 36 % 64 == 0 && decide (r.w 36 ≤ 393216)) 36, r.zero 41 3,
    e (decide (r.w 48 ≤ r.w 44) || decide (coreCount (BitVec.ofNat 64 (r.d 16)) ≤ 1)) 48, r.zero 60 4, word]

/-- A fused-attention record's own fields (R164, R257). -/
def attnOwn (r : RecView) : Option LoadErr :=
  let kv := Format.ofCode (r.b 2)
  let q := Format.ofCode (r.b 3)
  let isKv := kv == some .qb8 || kv == some .qb4 || kv == some .fp16 || kv == some .bf16
  let isQ := q == some .qb8 || q == some .fp16 || q == some .bf16
  let pair : Bool := match q, kv with
    | some a, some w => pairAllowed a w
    | _, _ => false
  let sc := fp32.val (r.w 12)
  let scaleOk := fpLt (FpVal.fin false 0 0) sc && !sc.isInf
  Checks.first [r.need (r.b 0 == 1 || r.b 0 == 2) Code.E_RESERVED 0, r.need (decide (r.b 1 < 4)) Code.E_RESERVED 1,
    r.need isKv Code.E_FORMAT 2, r.need isQ Code.E_FORMAT 3, r.need pair Code.E_FORMAT 3,
    r.lath (decide (1 ≤ r.h 4 ∧ r.h 4 ≤ 256)) 4, r.lath (decide (1 ≤ r.h 6 ∧ r.h 6 ≤ r.h 4) && r.h 4 % max (r.h 6) 1 == 0) 6,
    r.lath (r.h 8 == 64 || r.h 8 == 128 || r.h 8 == 256) 8, r.lath (decide (r.h 10 ≤ 1023)) 10, r.lath scaleOk 12,
    r.lath (r.b 0 == 1 || r.b 20 == 255) 20, r.zero 21 43]

/-- Does a format carry a scale exponent (R36, R162, R165)? -/
def hasScale (code : Nat) : Bool := code == 1 || code == 2 || code == 8

/-- A format record's own fields (R162). -/
def formatOwn (r : RecView) : Option LoadErr :=
  Checks.first [r.need (Format.ofCode (r.b 1)).isSome Code.E_FORMAT 1, r.lath (hasScale (r.b 1) || r.b 2 == 0) 2, r.zero 3 1,
    r.lath (decide (1 ≤ r.h 4)) 4, r.zero 6 2]

/-- The formats that a kind of weight reference takes (R165). -/
def weightFormat (kind code : Nat) : Bool :=
  match kind with
  | 1 => decide (1 ≤ code ∧ code ≤ 6)
  | 2 => code == 7 || code == 8 || code == 9
  | _ => code == 0

/-- Bytes of one element of a bias or of scales (R166). -/
def refBytes (kind code : Nat) : Nat := if kind = 3 then 2 else if code = 9 then 12 else 4

/-- A weight reference's own fields (R165, R166). -/
def weightOwn (r : RecView) : Option LoadErr :=
  let k := r.b 0
  Checks.first [r.need (decide (1 ≤ k ∧ k ≤ 3)) Code.E_RESERVED 0, r.need (weightFormat k (r.b 1)) Code.E_FORMAT 1,
    r.lath (hasScale (r.b 1) || r.b 2 == 0) 2, r.zero 3 1,
    r.lath (k == 1 || r.d 16 == r.d 24 * refBytes k (r.b 1)) 16, r.zero 80 16]

/-- Check 5, first pass (R167): sections in table order, records in index order, fields in offset order. -/
def check5own (p : List Byte) : Option LoadErr :=
  let minor := u8 p 4
  let nondet := u8 p 7 % 2 = 1
  let area := codeArea p
  Checks.first (((sectRecs p 1).map coatOwn) ++ ((sectRecs p 2).map (bindingOwn minor)) ++ ((sectRecs p 3).map passOwn) ++
    ((sectRecs p 4).map programOwn) ++ ((sectRecs p 5).map (kernelOwn nondet area)) ++ ((sectRecs p 6).map attnOwn) ++
    ((sectRecs p 7).map formatOwn) ++ ((sectRecs p 8).map weightOwn))

-- The parse of an image whose records have passed.

/-- A coat (R153). -/
def parseCoat (r : RecView) : Coat :=
  { kind := r.b 0, biasBinding := r.b 1 = 1, format := r.b 2, anchor := r.sh 4, shift := r.sb 6,
    fatal := BitVec.ofNat 16 (r.h 8), k := r.w 12, n := r.w 16, dest := r.b 20, programs := r.b 21, firstProgram := r.h 22,
    firstPass := r.w 24, passes := r.h 28, attention := r.h 30, weights := r.h 32, bias := r.h 34, scales := r.h 36,
    kernels := r.b 38, deps := r.b 39, firstKernel := r.h 40,
    depList := (List.range (min (r.b 39) 8)).map fun j => r.h (48 + 2 * j) }

/-- A bank binding (R160). -/
def parseBinding (r : RecView) : Binding := ⟨r.b 0, r.b 1, r.w 4, r.w 8⟩

/-- A pass-program record (R157). -/
def parsePass (r : RecView) : PassRec := ⟨r.b 0 % 2 = 1, r.b 0 / 2 % 2 = 1, r.b 0 / 4 % 2 = 1, r.h 2, r.h 4⟩

/-- An address-generator program (R97). -/
def parseProgram (r : RecView) : Program :=
  { kind := r.b 0, flags := r.b 1, format := r.b 2, src := r.b 4, dst := r.b 5, aux := r.b 6, h := r.h 8, w := r.h 10,
    c := r.h 12, g := r.h 14,
    win := ⟨r.b 16, r.b 17, r.b 18, r.b 19, r.b 20, r.b 21, r.b 22, r.b 23, r.b 24, r.b 25, r.b 26, r.b 27, r.b 28, r.b 29,
      r.h 30, r.h 32⟩,
    oh := r.b 34, ow := r.b 35, maxb := r.h 36 }

/-- A kernel binding (R136). -/
def parseKernel (r : RecView) : Kernel :=
  { flags := r.b 1, codeOffset := r.w 4, codeSize := r.w 8, entry := r.w 12, mask := BitVec.ofNat 64 (r.d 16),
    itemsFixed := r.w 24, itemsPerRow := r.w 28, limit := r.w 32, zeroSize := r.w 36, window := r.b 40,
    windowStride := r.w 44, windowSize := r.w 48, bindings := (List.range 8).map fun j => r.b (52 + j) }

/-- A fused-attention record (R164). -/
def parseAttn (r : RecView) : AttnRec :=
  { paged := r.b 0 = 1, causal := r.b 1 % 2 = 1, stencil := r.b 1 / 2 % 2 = 1, kvFormat := r.b 2, qFormat := r.b 3,
    qHeads := r.h 4, kvHeads := r.h 6, dim := r.h 8, layer := r.h 10, scale := r.w 12, q := r.b 16, k := r.b 17, v := r.b 18,
    out := r.b 19, page := r.b 20 }

/-- A format record (R162). -/
def parseFormat (r : RecView) : FormatRec := ⟨r.b 0, r.b 1, r.sb 2, r.h 4⟩

/-- A weight reference (R165). -/
def parseWeight (r : RecView) : WeightRef := ⟨r.b 0, r.b 1, r.sb 2, r.w 4, r.d 8, r.d 16, r.d 24, slice r.p 32 48⟩

/-- An image (R148 to R166). -/
def parseImage (p : List Byte) : Image :=
  let h := headView p
  { header := { minor := h.b 4, nondet := h.b 7 % 2 = 1, skim := h.b 7 / 2 % 2 = 1, length := h.w 12, sections := h.h 16,
                coats := h.h 18, kind := h.b 20, ident := slice h.p 24 16, version := h.w 40, footprint := h.w 44,
                batchRows := h.h 48, context := h.w 56, skimPair := slice h.p 64 16 },
    coats := (sectRecs p 1).map parseCoat, bindings := (sectRecs p 2).map parseBinding,
    passRecs := (sectRecs p 3).map parsePass, programs := (sectRecs p 4).map parseProgram,
    kernels := (sectRecs p 5).map parseKernel, code := (codeArea p).2, attns := (sectRecs p 6).map parseAttn,
    formats := (sectRecs p 7).map parseFormat, weights := (sectRecs p 8).map parseWeight }

-- Check 5, second pass: references, comparisons and access rules.

/-- May a coat read, or write, a binding (R161)? -/
def Binding.readable (b : Binding) : Bool := [1, 2, 3, 4, 5, 7].contains b.kind
def Binding.writable (b : Binding) : Bool := [1, 2, 3, 4, 6].contains b.kind

/-- Is a binding index that of a binding that may be read, or written? -/
def Image.reads (g : Image) (i : Nat) : Bool := decide (i < g.bindings.length) && (g.binding i).readable
def Image.writes (g : Image) (i : Nat) : Bool := decide (i < g.bindings.length) && (g.binding i).writable

/-- The n-tiles that a coat's pass records name, in order. -/
def Image.namedTiles (g : Image) (c : Coat) : List Nat :=
  (((g.passRecs.drop c.firstPass).take c.passes).map fun r => (List.range r.count).map (· + r.firstN)).flatten

/-- The n-tiles of an array coat (R70, R157). -/
def Image.ntiles (g : Image) (c : Coat) : Nat :=
  match g.op c with
  | some o => ceilDiv c.n o.tw
  | none => 0

/-- The fields in which a stripe load and the window feed that it serves agree (R98), with their offsets. -/
def Program.loadKey (p : Program) : List (Nat × Nat) :=
  [(2, p.format), (8, p.h), (10, p.w), (12, p.c), (16, p.win.kh), (22, p.win.sy), (24, p.win.dy), (26, p.win.pt), (27, p.win.pb),
   (30, p.win.sr)]

/-- The fields in which the programs of one operation agree (R105), with their offsets. -/
def Program.opKey (p : Program) : List (Nat × Nat) :=
  [(1, p.flags), (2, p.format), (4, p.src), (5, p.dst), (6, p.aux), (8, p.h), (10, p.w), (12, p.c), (14, p.g), (16, p.win.kh),
   (17, p.win.kw), (22, p.win.sy), (23, p.win.sx), (24, p.win.dy), (25, p.win.dx), (26, p.win.pt), (27, p.win.pb),
   (28, p.win.pl), (29, p.win.pr), (30, p.win.sr), (32, p.win.sc)]

/-- The first field in which two keys differ. -/
def keyDiff (a b : List (Nat × Nat)) : Option Nat := (a.zip b).findSome? fun x => if x.1.2 = x.2.2 then none else some x.1.1

/-- Is a binding large enough for tensors of `t` bytes, one for each batch row or the one it holds (R98, R514)? -/
def Image.fits (g : Image) (i t : Nat) : Bool :=
  let b := g.binding i
  decide ((if b.perRequest then 1 else g.header.batchRows) * roundUp t 64 ≤ b.size)

/-- Do the windows of an operation's programs partition the full filter (R105)? -/
def Image.windowsPartition (g : Image) (c : Coat) (f : Program) : Bool :=
  let taps := ((g.feeds c).map fun p =>
    ((List.range p.win.khw).map fun y => (List.range p.win.kww).map fun x => (p.win.ky0 + y, p.win.kx0 + x)).flatten).flatten
  let full := ((List.range f.win.kh).map fun y => (List.range f.win.kw).map fun x => (y, x)).flatten
  taps.length == full.length && full.all fun t => taps.contains t

/-- Is a program's record one of a coat's? -/
def Coat.names (c : Coat) (i : Nat) : Bool := decide (c.firstProgram ≤ i ∧ i < c.firstProgram + c.programs)

/-- A program beside the other programs of the array coats that name it (R98, R105): a stripe load agrees with the window feed that
it serves, window feeds with each other, and the windows, at the last of them, partition the filter. An array coat's drain fits its
destination (R98, R101, R102, R514). -/
def Image.programCompare (g : Image) (r : RecView) : Checks :=
  let p := parseProgram r
  let feed := fun (ok : Bool) (off : Nat) => r.need ok Code.E_FEED_PARAM off
  let differs := fun (a b : List (Nat × Nat)) => match keyDiff a b with
    | some off => feed false off
    | none => none
  (g.coats.map fun c =>
    if c.kind ≠ 1 ∨ !c.names r.index then []
    else
      match g.feeds c with
      | [] => []
      | f :: _ =>
        let last := (List.range c.programs).foldl (fun n i => if ((g.programsOf c)[i]?).map (·.kind) = some 1 then i else n) 0
        let stored := f.ho f.h * f.wo * f.outPixel c
        if p.kind = 2 then [if p.dst = f.src then differs p.loadKey f.loadKey else none]
        else if p.kind = 1 then
          [differs p.opKey f.opKey, feed (p.h == 0 || g.fits c.dest stored) 5,
           feed (r.index != c.firstProgram + last || g.windowsPartition c f) 18]
        else []).flatten

/-- A coat's references (R153 to R157, R161, R35, R166), its fields in offset order. -/
def Image.coatRefs (g : Image) (r : RecView) : Option LoadErr :=
  let c := parseCoat r
  let arr := c.kind == 1
  let kinds := (g.programsOf c).map (·.kind)
  let progsThere := c.programs == 0 || decide (c.firstProgram + c.programs ≤ g.programs.length)
  let permitted : Bool :=
    if c.kind = 1 then kinds.contains 1 && kinds.all (fun k => k == 1 || k == 2)
    else if c.kind = 2 then !kinds.isEmpty && kinds.all (fun k => k == 4 || k == 5)
    else if c.kind = 3 then kinds.all (· == 3) else true
  let feed := (g.feeds c).head?
  let kOk : Bool := match feed with
    | some f => c.k == f.c / max f.g 1
    | none => true
  let refOf := fun (i kind : Nat) => match g.weights[i]? with
    | some w => w.kind == kind
    | none => false
  let pair : Bool := match feed, g.weights[c.weights]? with
    | some f, some w =>
      (match Format.ofCode f.format, Format.ofCode w.format with
        | some a, some x => pairAllowed a x
        | _, _ => false)
    | _, _ => false
  let tiles := g.namedTiles c
  let covered := (List.range (g.ntiles c)).all fun t => tiles.contains t
  Checks.first [r.lath (!arr || !progsThere || kOk) 12,
    (if c.kind = 1 ∨ c.kind = 2 then r.lath (g.writes c.dest) 20 else none),
    r.lath (!progsThere || permitted) 21, r.lath progsThere 22,
    r.lath (c.passes == 0 || decide (c.firstPass + c.passes ≤ g.passRecs.length)) 24, r.lath (!arr || covered) 24,
    r.lath (c.kind != 4 || decide (c.attention < g.attns.length)) 30,
    r.lath (!arr || refOf c.weights 1) 32, r.need (!arr || pair) Code.E_FORMAT 32,
    r.lath (!arr || (if c.biasBinding then g.reads c.bias else c.bias == 65535 || refOf c.bias 2)) 34,
    r.lath (!arr || c.scales == 65535 || refOf c.scales 3) 36,
    r.lath (c.kernels == 0 || decide (c.firstKernel + c.kernels ≤ g.kernels.length)) 40]

/-- A request binding has a format record (R162). -/
def Image.bindingRefs (g : Image) (r : RecView) : Option LoadErr :=
  r.lath ((r.b 0 != 5 && r.b 0 != 6) || (g.formatOf r.index).isSome) 0

/-- A pass record names n-tiles of its coat, and none that an earlier record of the coat names (R157). -/
def Image.passRefs (g : Image) (r : RecView) : Option LoadErr :=
  Checks.first (g.coats.map fun c =>
    if c.kind ≠ 1 ∨ r.index < c.firstPass ∨ c.firstPass + c.passes ≤ r.index then none
    else
      let nt := g.ntiles c
      let earlier := (((g.passRecs.drop c.firstPass).take (r.index - c.firstPass)).map fun x =>
        (List.range x.count).map (· + x.firstN)).flatten
      let mine := (List.range (r.h 4)).map (· + r.h 2)
      Checks.first [r.lath (decide (r.h 2 < nt)) 2, r.lath (decide (r.h 2 + r.h 4 ≤ nt)) 4,
        r.lath (mine.all fun t => !earlier.contains t) 2])

/-- Does a window feed read this program's source through a stripe load, in every coat that names it (R104)? -/
def Image.behindLoad (g : Image) (i : Nat) (p : Program) : Bool :=
  let l := g.coats.filter fun c => c.names i
  !l.isEmpty && l.all fun c => !g.readsTensor c p

/-- A program's references, the sizes of its bindings and the comparisons with other programs (R98, R104, R105, R106, R109, R111,
R161, R514), its fields in offset order. A dynamic height counts at its capacity, which its binding holds. -/
def Image.programRefs (g : Image) (r : RecView) : Option LoadErr :=
  let p := parseProgram r
  let feed := fun (ok : Bool) (off : Nat) => r.need ok Code.E_FEED_PARAM off
  let gather := p.kind == 3 && p.h != 0
  let arg := p.kind == 5 && p.h != 0
  Checks.lowest ([r.lath (g.reads p.src) 4, r.lath (p.kind == 1 || g.writes p.dst) 5,
    r.lath (p.kind != 4 || g.reads p.aux) 6, r.lath (!p.writesValue || g.writes p.aux) 6,
    feed (p.h == 0 || g.behindLoad r.index p || g.fits p.src (p.h * p.w * p.ps)) 4,
    feed (p.kind != 2 || decide (2 * (g.header.batchRows * p.halfRow) ≤ (g.binding p.dst).size)) 5,
    feed (!gather || g.fits p.dst (p.ho p.h * p.wo * p.outPixel Coat.none)) 5,
    feed (p.kind != 4 || g.fits p.dst (p.maxb * (p.oh * p.ow * p.ps + 1))) 5,
    feed (!arg || g.fits p.dst (4 * p.h * p.w)) 5, feed (!(arg && p.writesValue) || g.fits p.aux (4 * p.h * p.w)) 6] ++
    g.programCompare r)

/-- A kernel's references (R137, R161). -/
def Image.kernelRefs (g : Image) (r : RecView) : Option LoadErr :=
  let k := parseKernel r
  let n := coreCount k.mask
  let inWin := decide ((n - 1) * k.windowStride + k.windowSize ≤ (g.binding k.window).size)
  let e := fun (ok : Bool) (off : Nat) => r.need ok Code.E_TRIM_PARAM off
  let has := fun (i : Nat) => i == 255 || decide (i < g.bindings.length)
  Checks.first ([e (has k.window) 40, r.lath (k.window == 255 || g.writes k.window) 40, e (k.window == 255 || inWin) 48] ++
    (List.range 8).map (fun j => e (has (r.b (52 + j))) (52 + j)) ++
    (List.range 8).map (fun j => r.lath (r.b (52 + j) == 255 || g.reads (r.b (52 + j))) (52 + j)))

/-- A fused-attention record's references (R161, R164). -/
def Image.attnRefs (g : Image) (r : RecView) : Option LoadErr :=
  let a := parseAttn r
  Checks.first [r.lath (g.reads a.q) 16, r.lath (g.reads a.k) 17, r.lath (g.reads a.v) 18, r.lath (g.writes a.out) 19,
    r.lath (!a.paged || (decide (a.page < g.bindings.length) && (g.binding a.page).kind == 8)) 20]

/-- May a binding of a kind hold a format (R33, R34)? A request's input is host data, a request's output is no exact one for a later
coat, and key-value pages hold what R164 lists. -/
def bindingFormat (kind code : Nat) : Bool :=
  match kind with
  | 5 => [1, 3, 5, 6, 7].contains code
  | 6 => code != 9
  | 8 => [3, 4, 5, 6].contains code
  | _ => true

/-- A format record's binding exists, has no other record (R162) and may hold the format (R34). -/
def Image.formatRefs (g : Image) (r : RecView) : Option LoadErr :=
  Checks.first [r.lath (decide (r.b 0 < g.bindings.length)) 0,
    r.lath (!((g.formats.take r.index).any fun f => f.binding == r.b 0)) 0,
    r.need (bindingFormat (g.binding (r.b 0)).kind (r.b 1)) Code.E_FORMAT 1]

/-- The element count that a coat gives a weight reference (R166): none where the coat does not name it. -/
def Image.wants (g : Image) (c : Coat) (i : Nat) : Option Nat :=
  if c.kind ≠ 1 then none
  else if c.weights = i then
    match g.op c with
    | some o => some (o.feed.win.kh * o.feed.win.kw * (if o.wf.isQB then roundUp c.k 32 else c.k) * c.n)
    | none => none
  else if (c.bias = i ∧ !c.biasBinding) ∨ c.scales = i then some c.n
  else none

/-- A weight reference's element count fits every coat that names it (R166). -/
def Image.weightRefs (g : Image) (r : RecView) : Option LoadErr :=
  Checks.first (g.coats.map fun c =>
    match g.wants c r.index with
    | some n => r.lath (r.d 24 == n) 24
    | none => none)

/-- The image offset of a section. -/
def sectBase (p : List Byte) (t : Nat) : Nat := (((sectTable p).find? fun e => e.type == t).map (·.offset)).getD 0

/-- Check 5, second pass. -/
def check5refs (p : List Byte) (g : Image) : Option LoadErr :=
  Checks.first (((sectRecs p 1).map g.coatRefs) ++ ((sectRecs p 2).map g.bindingRefs) ++
    ((sectRecs p 3).map g.passRefs) ++ ((sectRecs p 4).map g.programRefs) ++ ((sectRecs p 5).map g.kernelRefs) ++
    ((sectRecs p 6).map g.attnRefs) ++ ((sectRecs p 7).map g.formatRefs) ++ ((sectRecs p 8).map g.weightRefs))

-- Check 6: rules across coats and records.

/-- The place of a field of a record. -/
def placeOf (p : List Byte) (c : Code) (t i off : Nat) : LoadErr := ⟨c, t, i, sectBase p t + i * sectRecord t + off⟩

/-- Do two coats' sets conflict (R169)? -/
def Image.conflict (g : Image) (a b : Coat) : Bool :=
  let hit := fun (x y : List BankRange) => x.any fun u => y.any fun v => u.meets v
  hit (g.writeSet a) (g.readSet b ++ g.writeSet b) || hit (g.readSet a) (g.writeSet b)

/-- The coats that coat j depends on, directly or through others. -/
def Image.depsOf (g : Image) (j : Nat) : List Nat :=
  match g.coats[j]? with
  | some c => g.depClosure g.coats.length c.depList
  | none => []

/-- A coat's hazards (R169). -/
def Image.hazard (g : Image) (p : List Byte) (j : Nat) : Option LoadErr :=
  match g.coats[j]? with
  | none => none
  | some b =>
    let deps := g.depsOf j
    let bad := (List.range j).any fun i =>
      match g.coats[i]? with
      | some a => !deps.contains i && g.conflict a b
      | none => false
    if bad then some (placeOf p Code.E_LATH_PARAM 1 j 48) else none

/-- A coat's bias binding (R155): it holds a vector for every batch row, and one coat alone among the dependencies writes it, as
its own destination, in ACC96. -/
def Image.biasRule (g : Image) (p : List Byte) (j : Nat) : Option LoadErr :=
  match g.coats[j]? with
  | none => none
  | some c =>
    if c.kind ≠ 1 ∨ !c.biasBinding then none
    else
      let range := g.rangeOf c.bias
      let writers := (g.depsOf j).filterMap fun i =>
        match g.coats[i]? with
        | some a => if (g.writeSet a).any (fun u => range.any fun v => u.meets v) then some a else none
        | none => none
      let one : Bool := match writers with
        | [a] => a.kind == 1 && a.dest == c.bias && a.format == 9
        | _ => false
      if one ∧ g.fits c.bias (12 * c.n) then none else some (placeOf p Code.E_LATH_PARAM 1 j 34)

/-- A rule of the array coats: the first coat where it fails. -/
def Image.arrayRule (g : Image) (p : List Byte) (off : Nat) (ok : Coat → Program → Bool) : Option LoadErr :=
  (List.range g.coats.length).findSome? fun j =>
    match g.coats[j]? with
    | none => none
    | some c =>
      match c.kind, (g.feeds c).head? with
      | 1, some f => if ok c f then none else some (placeOf p Code.E_LATH_PARAM 1 j off)
      | _, _ => none

/-- The capacities of an attention coat's bindings (R258, R514). -/
def Image.capacity (g : Image) (p : List Byte) (j : Nat) : Option LoadErr :=
  let size := fun (f n : Nat) => match Format.ofCode f with
    | some x => pixelStride x n
    | none => 64
  match g.coats[j]? with
  | none => none
  | some c =>
    match g.attnOf c with
    | none => none
    | some a =>
      let need := [(a.q, size a.qFormat (a.qHeads * a.dim)), (a.k, size a.kvFormat (a.kvHeads * a.dim)),
        (a.v, size a.kvFormat (a.kvHeads * a.dim)), (a.out, size c.format (a.qHeads * a.dim))]
      (need.find? fun x => !g.fits x.1 x.2).map fun x => placeOf p Code.E_LATH_PARAM 2 x.1 8

/-- A fused-attention record against the others and the header (R257). -/
def Image.attnRule (g : Image) (p : List Byte) (i : Nat) : Option LoadErr :=
  match g.attns[i]? with
  | none => none
  | some a =>
    let err := fun (off : Nat) => placeOf p Code.E_LATH_PARAM 6 i off
    let paged := g.attns.filter (·.paged)
    let lead := paged.headD a
    let earlier := ((g.attns.take i).filter (·.paged)).map (·.layer)
    let pages : Nat := match g.kv with
      | some k => paged.length * k.heads * ceilDiv (g.header.context + 62) (max k.cap 1)
      | none => 0
    if a.paged ≠ (g.header.kind = 2) then some (err 0)
    else if !a.paged then none
    else if a.kvFormat ≠ lead.kvFormat then some (err 2)
    else if a.kvHeads ≠ lead.kvHeads then some (err 6)
    else if a.dim ≠ lead.dim then some (err 8)
    else if paged.length ≤ a.layer ∨ earlier.contains a.layer then some (err 10)
    else if 4194304 < pages then some (err 6) else none

/-- Check 6 (R167), in its order. The rule of the feed sets (R94) refuses nothing: a coat's 16 programs fit one generator. -/
def check6 (p : List Byte) (g : Image) : Option LoadErr :=
  let n := g.coats.length
  let dyn := if g.header.kind ≠ 2 then none
    else (g.programs.findIdx? fun q => q.h == 0).map fun i => placeOf p Code.E_LATH_PARAM 4 i 8
  let io := (List.range g.bindings.length).findSome? fun i =>
    let b := g.binding i
    if (b.kind = 5 ∨ b.kind = 6) ∧ 16777216 < b.offset + b.size + 32 then some (placeOf p Code.E_LATH_PARAM 2 i 8) else none
  Checks.first ((List.range n).map (g.hazard p) ++ (List.range n).map (g.biasRule p) ++
    [g.arrayRule p 12 fun c f => decide (f.win.kh * f.win.kw * c.k + (if c.bias = 65535 then 0 else 1) ≤ 16777216),
     g.arrayRule p 16 fun c f => c.n % max f.g 1 == 0, dyn] ++
    (List.range n).map (g.capacity p) ++ [io] ++ (List.range g.attns.length).map (g.attnRule p))

-- Check 7: usability and gates.

/-- What check 7 asks of the module: the array, the feed engine and the trim cores are usable, the banks that are not, and the
gates of ARR, FEED and TRIM. -/
structure Usable where
  array : Bool
  feed : Bool
  trim : Bool
  badBanks : List Nat
  gateArr : Bool
  gateFeed : Bool
  gateTrim : Bool
  deriving DecidableEq, Repr

/-- The first coat that satisfies a test. -/
def Image.coatWhere (g : Image) (p : List Byte) (code : Code) (t : Coat → Bool) : Option LoadErr :=
  (g.coats.findIdx? t).map fun i => placeOf p code 1 i 0

/-- Check 7 (R73, R145, R415, R457). -/
def check7 (u : Usable) (p : List Byte) (g : Image) : Option LoadErr :=
  let onArray := fun (c : Coat) => c.kind == 1 || c.kind == 4
  let onTrim := fun (c : Coat) => c.kind == 4 || c.kernels != 0
  let first := fun (bad : Bool) (x : Option LoadErr) => if bad then x else none
  let anyProg := fun (c : Code) => if g.programs.isEmpty then none else some (placeOf p c 4 0 0)
  let anyKernel := fun (c : Code) => if g.kernels.isEmpty then none else some (placeOf p c 5 0 0)
  let bank := (g.bindings.findIdx? fun b =>
    (b.kind == 1 || b.kind == 2 || b.kind == 7) && u.badBanks.contains b.bankId).map fun i => placeOf p Code.F_BANK 2 i 1
  Checks.first [first (!u.array) (g.coatWhere p Code.F_ARRAY onArray), first (!u.feed) (anyProg Code.F_ARRAY),
    first (!u.trim) (anyKernel Code.F_TRIM), first (!u.trim) (g.coatWhere p Code.F_TRIM onTrim), bank,
    first (!u.gateArr || !u.gateFeed) (g.coatWhere p Code.E_GATED fun c => c.kind == 1),
    first (!u.gateArr || !u.gateTrim) (g.coatWhere p Code.E_GATED fun c => c.kind == 4),
    first (!u.gateFeed) (g.coatWhere p Code.E_GATED fun c => c.programs != 0),
    first (!u.gateTrim) (g.coatWhere p Code.E_GATED fun c => c.kernels != 0)]

-- Check 8: footprint (R173, R193).

/-- The pages of the image and its weight references, and of its workspace (R173). -/
def Image.dataPages (g : Image) : Nat :=
  ceilDiv g.header.length 65536 + (g.weights.map fun w => ceilDiv w.length 65536).foldl (· + ·) 0
def Image.workPages (g : Image) : Nat := ceilDiv (g.extent 4) 65536

-- Check 9: weight data (R49, R63 to R65, R166).

/-- One weight reference against its cartridge object. -/
def checkWeight (p : List Byte) (object : Option (List Byte)) (i : Nat) (w : WeightRef) : Option LoadErr :=
  match object with
  | none => some (placeOf p Code.E_LATH_PARAM 8 i 4)
  | some o =>
    let data := slice o w.offset w.length
    let bad := fun (c : Code) (at_ : Nat) => some (⟨c, 0xFE, i, at_⟩ : LoadErr)
    if o.length < w.offset + w.length then some (placeOf p Code.E_LATH_PARAM 8 i 8)
    else if sha384 data ≠ w.digest then bad Code.E_SIGNATURE w.offset
    else if w.kind = 1 then
      match Format.ofCode w.format with
      | some f => if (decodeStream f (ceilDiv w.elements 1024) w.elements data).isSome then none
                  else bad Code.E_WEIGHT_FORMAT (w.offset + badChunk f (ceilDiv w.elements 1024) w.elements 0 data)
      | none => none
    else if w.kind = 3 then
      match (List.range w.elements).find? fun k => u16 data (2 * k) == 0 with
      | some k => bad Code.E_WEIGHT_FORMAT (w.offset + 2 * k)
      | none => none
    else none
where
  /-- The offset of the chunk at which a stream is malformed. -/
  badChunk (f : Format) : Nat → Nat → Nat → List Byte → Nat
    | 0, _, off, _ => off
    | fuel + 1, n, off, d =>
      if n = 0 then off
      else
        match decodeChunk f (min n 1024) d with
        | none => off
        | some (_, used) => badChunk f fuel (n - min n 1024) (off + used) (d.drop used)

/-- Check 9: each weight reference in index order. -/
def check9 (p : List Byte) (objects : Dict (List Byte)) (g : Image) : Option LoadErr :=
  (List.range g.weights.length).findSome? fun i =>
    match g.weights[i]? with
    | some w => checkWeight p (Dict.fetch objects w.object) i w
    | none => none

end Sys2Proof.Machine
end

