-- ==== Sys2Proof/Machine/Loads.lean ====
section
/-! DEFINITION. Loads.lean: the steps of a model load (R167, R168, R170 to R174, R177, R193, R195, R387, R388; log entry 26). -/

namespace Sys2Proof.Machine

/-- The slot whose load runs or is next (R171). -/
def State.loadSlot (s : State) : Option Nat := s.srv.loads.head?

/-- Is a slot being loaded, for the first time or again after a page was lost or a load was undone (R170, R172, R201)? A slot in the
list of loads that is EMPTY waits for its load to be replayed. -/
def ModelSlot.loads (x : ModelSlot) : Bool :=
  x.state == .loading || x.state == .empty || (x.state == .unloading && x.reload)

/-- Release what a load has put into a slot: its pages, ranges and image (R170, R172). -/
def State.undoLoad (s : State) (k : Nat) : State :=
  let s1 := (s.releaseSlotRange (slotDesc k)).releaseSlotRange (workDesc k)
  s1.putSlot k { s1.slot k with image := none, pages := [], workPages := [], digest := [], step := 1 }

/-- A load fails (R168, R170): its pages are freed, the slot is EMPTY again, the registers say where, and the message is
answered with the code. -/
def State.failLoad (s0 : State) (k : Nat) (e : LoadErr) : State :=
  let lost := if (s0.slot k).reload then (s0.srv.requests.filter fun r => r.2.slot == k).map (·.1) else []
  let s := lost.foldl (fun (s : State) row => s.failRequest row Code.F_MEM 8) s0
  let reply := (s.slot k).reply
  let record := (s.slot k).record
  let s1 := (s.undoLoad k).putSlot k {}
  let s2 : State := { s1 with srv := { s1.srv with loads := s1.srv.loads.filter (· != k) } }
  let s3 := ((s2.rset Fld.LATH_ERR_LOC_SECTION e.sect).rset Fld.LATH_ERR_LOC_RECORD e.record).rset
    Fld.LATH_ERR_OFFSET_OFFSET e.offset
  let s4 := ((s3.rset Fld.LATH_LOAD_SLOT k).rset Fld.LATH_LOAD_BUSY 0).rset Fld.LATH_LOAD_RESULT e.code.toNat
  let s5 := s4.count Fld.LATH_REJECTS_COUNT
  match reply with
  | some r => if (s0.slot k).reload then s5.replyTo r 0x0131 Code.OK [] [record] else s5.replyTo r 0x0130 e.code [] [record]
  | none => s5

/-- A failure that lies in no field of the image. -/
def LoadErr.at0 (c : Code) : LoadErr := ⟨c, 0, 0, 0⟩

/-- Check 0 (R388, R415). -/
def State.check0 (s : State) : Option LoadErr :=
  if !s.rbit Fld.SYS_GATE_PCIE then some (.at0 Code.E_GATED)
  else
    match s.rget Fld.SEC_CART_STATE with
    | 1 => none
    | 3 => some (.at0 Code.E_ENROL)
    | _ => some (.at0 Code.E_SIGNATURE)

/-- The enrolled lath-signing keys (R375). -/
def State.lathSigners (s : State) : List (List Byte) :=
  match s.sec.enrolment with
  | some e => (e.entries.filter (·.lath)).map (·.key)
  | none => []

/-- What check 7 asks of the module (R73, R145, R415, R457). -/
def State.usable (s : State) : Usable :=
  { array := !s.rbit Fld.ARR_REMAP_UNUSABLE, feed := !(s.rget Fld.BIST_UNUSABLE_BLOCKS).testBit 1,
    trim := !s.rbit Fld.TRIM_STATUS_UNUSABLE, badBanks := s.boot.badBanks, gateArr := s.rbit Fld.SYS_GATE_ARR,
    gateFeed := s.rbit Fld.SYS_GATE_FEED, gateTrim := s.rbit Fld.SYS_GATE_TRIM }

/-- Check 8 (R167, R173, R193): the footprint against its count, against the pool, and against the pages not owned now. -/
def State.check8 (s : State) (g : Image) : Option LoadErr :=
  let n := g.header.footprint
  let reserve := s.rget Fld.MEM_KV_RESERVE_PAGES
  if n < g.dataPages + g.workPages then some ⟨Code.E_LATH_PARAM, 0, 0, 44⟩
  else if s.poolLayout - s.retiredCount < n + reserve then some ⟨Code.E_FOOTPRINT, 0, 0, 44⟩
  else if s.unownedCount < n + reserve then some ⟨Code.B_RETRY, 0, 0, 44⟩ else none

/-- Checks 1 to 5 of an image's bytes (R167). -/
def checkBytes (signers : List (List Byte)) (p : List Byte) : Option LoadErr :=
  match check1 p with
  | some e => some e
  | none =>
    match check2 p with
    | some e => some e
    | none =>
      match check3 signers p with
      | some e => some e
      | none =>
        match check4 p with
        | some e => some e
        | none => check5own p

/-- Checks 5 (second pass) to 8 of a parsed image. -/
def State.checkImage (s : State) (p : List Byte) (g : Image) : Option LoadErr :=
  match check5refs p g with
  | some e => some e
  | none =>
    match check6 p g with
    | some e => some e
    | none =>
      match check7 s.usable p g with
      | some e => some e
      | none => s.check8 g

/-- Give a slot its pages and ranges, and write the image into them (R170, R173, R195); none while too few pages are clear. -/
def State.placeImage (s : State) (k : Nat) (p : List Byte) (g : Image) : Option State :=
  match s.takePages g.header.footprint with
  | none => none
  | some (l, s1) =>
    let data := l.take (g.header.footprint - g.workPages)
    let work := l.drop (g.header.footprint - g.workPages)
    match s1.mapRange (slotDesc k) 2 k false data with
    | none => none
    | some s2 =>
      match s2.mapRange (workDesc k) 3 k false work with
      | none => none
      | some s3 =>
        let s4 := s3.putPages data 0 p
        some (s4.putSlot k { s4.slot k with image := some g, pages := data, workPages := work, step := 2 })

/-- LOAD_START (R167, R170 step 2, R171, R172): once the load before it has ended with step 5, the next load in order runs check 0,
reads its image and runs checks 1 to 8. While pages that it may have still await clearing it waits, and a load that a partial reset
met waits for REPLAY. A load that is replayed puts its slot into LOADING again. -/
def loadStart (s0 : State) : State :=
  let s := s0.settleLoad
  match s.loadSlot with
  | none => s
  | some k =>
    let x := s.slot k
    if !x.loads ∨ x.step ≠ 1 ∨ !s.supActs ∨ s.srv.loadsLost ∨ s.srv.loadRecord.isSome then s
    else
      let s1 := (if x.state = .empty then s.enterLoading k x else s).showLoad k 2 true
      match s.check0 with
      | some e => s1.failLoad k e
      | none =>
        match Dict.fetch s.mem.cart.objects x.object with
        | none => s1.failLoad k (.at0 Code.E_LATH_PARAM)
        | some p =>
          match checkBytes s.lathSigners p with
          | some e => s1.failLoad k e
          | none =>
            let g := parseImage p
            match s.checkImage p g with
            | some e => s1.failLoad k e
            | none =>
              match s1.placeImage k p g with
              | some s2 => s2.showLoad k 3 true
              | none => s1

def execLoadStart (s : State) : Host.Outcome State Fault Refusal := .next (loadStart s)

/-- Copy one weight reference to its pages (R173). -/
def State.copyWeight (s : State) (k : Nat) (g : Image) (i : Nat) (w : WeightRef) : State :=
  match Dict.fetch s.mem.cart.objects w.object with
  | none => s
  | some o => s.putPages (s.slot k).pages (g.weightPage i * 65536) (slice o w.offset w.length)

/-- LOAD_WEIGHTS (R65, R166, R170 step 3): each weight reference is copied, hashed and decoded, and check 9 runs. -/
def loadWeights (s : State) : State :=
  match s.loadSlot with
  | none => s
  | some k =>
    let x := s.slot k
    match x.image with
    | none => s
    | some g =>
      if !x.loads ∨ x.step ≠ 2 ∨ !s.supActs ∨ s.srv.loadsLost then s
      else
        let p := (Dict.fetch s.mem.cart.objects x.object).getD []
        match check9 p s.mem.cart.objects g with
        | some e => s.failLoad k e
        | none =>
          let s1 := (List.range g.weights.length).foldl (fun (s : State) (i : Nat) =>
            match g.weights[i]? with
            | some w => s.copyWeight k g i w
            | none => s) s
          (s1.putSlot k { s1.slot k with step := 3 }).showLoad k 4 true

def execLoadWeights (s : State) : Host.Outcome State Fault Refusal := .next (loadWeights s)

/-- The image digest of a slot's copy (R152). -/
def State.imageDigest (s : State) (k : Nat) (g : Image) : List Byte :=
  sha384 (signedBytes (s.pagesBytes ((s.slot k).pages.take (ceilDiv g.header.length 65536)) g.header.length))

/-- LOAD_COMPLETE (R170 steps 4 and 5, R195): the digest is recorded, the completion is journalled, the slot is READY, and the
reply waits for the record, as does step 5 in LATH.LOAD. -/
def loadComplete (s : State) : State :=
  match s.loadSlot with
  | none => s
  | some k =>
    let x := s.slot k
    match x.image with
    | none => s
    | some g =>
      if !x.loads ∨ x.step ≠ 3 ∨ !s.supActs ∨ s.srv.loadsLost then s
      else
        let d := s.imageDigest k g
        let session := (x.reply.map (·.session)).getD 0
        let s1 := s.journal session k (.model .loadCompleted k d)
        let unloads := x.reload && x.reply.isSome
        let y : ModelSlot := { x with state := if unloads then .unloading else .ready, digest := d, step := 4, reload := false }
        let s2 := s1.putSlot k (if unloads then y else { y with record := s1.lastIndex, reply := none })
        let s3 := s2.putDesc (slotDesc k) { s2.desc (slotDesc k) with readOnly := true }
        let s4 : State := { s3 with srv := { s3.srv with loads := s3.srv.loads.drop 1, loadRecord := some s1.lastIndex } }
        let s5 := s4.count Fld.LATH_LOADS_COUNT
        match (if x.reload then none else x.reply) with
        | some r => s5.replyTo r 0x0130 Code.OK d [s1.lastIndex]
        | none => s5

def execLoadComplete (s : State) : Host.Outcome State Fault Refusal := .next (loadComplete s)

end Sys2Proof.Machine
end

