-- ==== Sys2Proof/Machine/Video.lean ====
section
/-! DEFINITION. Video.lean: stream contexts, their data, the decode pipes, concealment and motion statistics ("Video
engine"). -/

namespace Sys2Proof.Machine

-- Planes.

/-- A sample of a plane of w × h samples, edges replicated. -/
def planeAt (p : List Nat) (w h : Nat) (y x : Int) : Nat := listAt 0 p (clampTo h y * w + clampTo w x)

/-- Width and height of a chroma plane. -/
def half (n : Nat) : Nat := (n + 1) / 2

/-- Planes of one value, used where no reference exists (R296). -/
def flatPlanes (w h depth : Nat) : Planes :=
  let v := 2 ^ (depth - 1)
  { width := w, height := h, depth := depth, luma := List.replicate (w * h) v,
    cb := List.replicate (half w * half h) v, cr := List.replicate (half w * half h) v }

/-- Blocks of 16 × 16 luma samples across and in all. -/
def Planes.blocksAcross (p : Planes) : Nat := ceilDiv p.width 16
def Planes.blocks (p : Planes) : Nat := ceilDiv p.width 16 * ceilDiv p.height 16

/-- Replace the blocks of a plane that are listed; `n` is the block's side. -/
def concealPlane (across w h n : Nat) (bad : List Nat) (src dst : List Nat) : List Nat :=
  (List.range (w * h)).map fun i =>
    let blk := (i / max w 1 / n) * across + i % max w 1 / n
    if bad.contains blk then listAt 0 src i else listAt 0 dst i

/-- Replace the listed blocks, with their chroma, by the co-located ones of another picture (R296). -/
def Planes.conceal (p r : Planes) (bad : List Nat) : Planes :=
  { p with luma := concealPlane p.blocksAcross p.width p.height 16 bad r.luma p.luma,
           cb := concealPlane p.blocksAcross (half p.width) (half p.height) 8 bad r.cb p.cb,
           cr := concealPlane p.blocksAcross (half p.width) (half p.height) 8 bad r.cr p.cr }

/-- The reference nearest in order count, the earlier of two equally close ones (R296). -/
def nearestRef (l : List Picture) (order : Int) : Option Picture :=
  (l.filter (·.isRef)).foldl (fun best p =>
    match best with
    | none => some p
    | some b =>
      let d := (p.order - order).natAbs
      let e := (b.order - order).natAbs
      if d < e ∨ (d = e ∧ p.order < b.order) then some p else best) none

/-- The planes that stand in for what was not decoded. -/
def standIn (l : List Picture) (order : Int) (w h depth : Nat) : Planes :=
  match nearestRef l order with
  | some p => p.planes
  | none => flatPlanes w h depth

-- Units and contexts (R283 to R289).

/-- Bytes of a stored picture (R288). -/
def pictureBytes (w h depth : Nat) : Nat :=
  roundUp (ceilDiv (w * h * 3) 2 * (if 8 < depth then 2 else 1)) 64 + ceilDiv w 16 * ceilDiv h 16 * 8

/-- The quarter units that open contexts hold. -/
def State.videoUnits (s : State) : List Nat :=
  (s.vid.contexts.map fun x =>
    if x.2.full then (x.2.units.map fun u => [u, u + 1, u + 2, u + 3]).flatten else x.2.units).flatten

/-- The first `n` free units, lowest first (log entry 7). -/
def State.freeUnits (s : State) (full : Bool) (n : Nat) : Option (List Nat) :=
  let used := s.videoUnits
  let ok := if full then
      ((List.range 128).map (4 * ·)).filter fun u => (List.range 4).all fun q => !used.contains (u + q)
    else (List.range 512).filter fun u => !used.contains u
  if n ≤ ok.length then some (ok.take n) else none

/-- The declared load of contexts of a direction, in luma samples per 1,000 s (R282). -/
def State.videoLoad (s : State) (encode : Bool) : Nat :=
  s.vid.contexts.foldl (fun n x =>
    if (decide (3 ≤ x.2.kind)) == encode then n + x.2.maxWidth * x.2.maxHeight * x.2.frameRate else n) 0

/-- Does a format suit a frame binding (R290)? -/
def frameFormatOk (luma : Bool) (depth : Nat) (f : Option FormatRec) : Bool :=
  match f with
  | none => false
  | some r =>
    if !luma then r.channels == 3 && [1, 3, 5, 6].contains r.format
    else if depth = 8 then r.channels == 1 && [1, 3, 5, 7].contains r.format
    else r.channels == 1 && [5, 7].contains r.format

/-- Does a format suit a statistics binding (R299)? -/
def statsFormatOk (f : Option FormatRec) : Bool :=
  match f with
  | none => false
  | some r => r.channels == 4 && [7, 8].contains r.format

/-- Bytes of a pixel of a binding (R95). -/
def Image.pixelOf (g : Image) (i : Nat) : Nat :=
  match (g.formatOf i).bind fun r => (Format.ofCode r.format).map fun f => (f, r.channels) with
  | some (f, c) => pixelStride f c
  | none => 64

/-- Does another binding of the image lie in a video binding's slot region (R291), from its offset to the bank's end? -/
def Image.regionOverlaps (g : Image) (i : Nat) : Bool :=
  let b := g.binding i
  let region := (4194304 - b.offset) / max b.size 1 * b.size
  (List.range g.bindings.length).any fun k =>
    let o := g.binding k
    k != i && (o.kind == 1 || o.kind == 7) && o.bank == b.bank && decide (o.offset < b.offset + region ∧ b.offset < o.offset + o.size)

/-- The payload of VIDEO_OPEN (R283). -/
def videoOf (session : Nat) (p : List Byte) : VideoContext :=
  let f := u8 p 3
  { session := session, kind := u8 p 1, slot := u8 p 2, stats := f.testBit 0, isLuma := f.testBit 1, bt709 := f.testBit 2,
    fullRange := f.testBit 3, customer := u16 p 4, priority := u8 p 6, frameBinding := u8 p 7, maxWidth := u16 p 8,
    maxHeight := u16 p 10, depth := u8 p 12, references := u8 p 13, statsBinding := u8 p 14, source := u8 p 15,
    outWidth := u16 p 16, outHeight := u16 p 18, crop := (List.range 4).map fun i => sInt 32 (u32 p (20 + 4 * i)),
    frameRate := u32 p 36, bitRate := u32 p 40, qp := u8 p 44, gop := u8 p 45, units := [],
    full := decide (6291456 < pictureBytes (u16 p 8) (u16 p 10) (u8 p 12)),
    state := if u8 p 1 ≤ 2 then 1 else 2 }

/-- The fields of VIDEO_OPEN within their ranges, whatever the kind (R283). -/
def VideoContext.rangesOk (x : VideoContext) : Bool :=
  decide (x.priority ≤ 3 ∧ (x.slot ≤ 15 ∨ x.slot = 255) ∧ 16 ≤ x.maxWidth ∧ x.maxWidth ≤ 4096 ∧ 16 ≤ x.maxHeight ∧
    x.maxHeight ≤ 2304 ∧ 1 ≤ x.outWidth ∧ x.outWidth ≤ 4096 ∧ 1 ≤ x.outHeight ∧ x.outHeight ≤ 2304 ∧
    (x.kind = 4 ∨ x.source = 0) ∧ (x.depth = 8 ∨ x.depth = 10) ∧ 1 ≤ x.references ∧ x.references ≤ 16 ∧ x.qp ≤ 51 ∧
    1 ≤ x.gop)

/-- Is a kind-0x04 source an open decode context of the same session, which no other encode context takes (R283, R320,
R322)? -/
def State.sourceOk (s : State) (x : VideoContext) : Bool :=
  (match s.video x.source with
    | some y => decide (y.kind ≤ 2) && y.session == x.session
    | none => false) && !(s.vid.contexts.any fun y => y.2.kind == 4 && y.2.source == x.source)

/-- Are the bindings that a context names good (R283, R290, R291, R299)? -/
def VideoContext.bindingsOk (x : VideoContext) (g : Option Image) : Bool :=
  match g with
  | none => x.frameBinding == 255 && x.statsBinding == 255
  | some g =>
    let named := fun (i : Nat) (n : Nat) => (g.binding i).kind == 7 && decide (n * g.pixelOf i + 64 ≤ (g.binding i).size) &&
      !g.regionOverlaps i
    (x.frameBinding == 255 || (frameFormatOk x.isLuma x.depth (g.formatOf x.frameBinding) &&
      named x.frameBinding (x.outWidth * x.outHeight))) &&
    (x.statsBinding == 255 || (statsFormatOk (g.formatOf x.statsBinding) &&
      named x.statsBinding (ceilDiv x.maxWidth 16 * ceilDiv x.maxHeight 16)))

/-- VIDEO_OPEN, once its session is open: the context, or the code of its refusal (R282 to R284). -/
def State.openVideo (s : State) (session : Nat) (p : List Byte) : Except Code VideoContext :=
  let x := videoOf session p
  let n := if x.kind ≤ 2 then x.references + 2 else 4
  if !s.rbit Fld.SYS_GATE_VID then .error Code.E_GATED
  else if x.kind = 0 ∨ 4 < x.kind ∨ 16 ≤ u8 p 3 ∨ !allZero p 46 18 then .error Code.E_RESERVED
  else if s.cont.quiesced then .error Code.B_RETRY
  else if x.slot ≤ 15 ∧ (s.readyImage x.slot).isNone then .error Code.E_SLOT_STATE
  else if 63 < u8 p 0 ∨ !x.rangesOk ∨ (x.kind = 4 ∧ !s.sourceOk x) ∨
      !x.bindingsOk (if x.slot ≤ 15 then s.readyImage x.slot else none) then .error Code.E_VIDEO_PARAM
  else if Dict.has s.vid.contexts (u8 p 0) then .error Code.E_VIDEO_STATE
  else if (if x.kind ≤ 2 then 1990656000000 else 497664000000) <
      s.videoLoad (decide (3 ≤ x.kind)) + x.maxWidth * x.maxHeight * x.frameRate then .error Code.B_RETRY
  else
    match s.freeUnits x.full n with
    | none => .error Code.B_RETRY
    | some l => .ok { x with units := l }

/-- VIDEO_OPEN (R283). -/
def videoOpenEffect (m : Msg) (s : State) : State :=
  if !s.supActs then s
  else s.withMsg m 0x0200 (some 64) fun s x =>
    match s.openVideo x.number m.payload with
    | .error c => s.reply m 0x0200 c m.payload
    | .ok v => (s.putVideo (u8 m.payload 0) v).reply m 0x0200 Code.OK m.payload

def execVideoOpen (m : Msg) (s : State) : Host.Outcome State Fault Refusal := .next (videoOpenEffect m s)

-- Data (R286).

/-- The bytes of a context's stream. -/
def VideoContext.stream (x : VideoContext) : List Byte := (x.data.map (·.bytes)).flatten

/-- The chunk that holds a byte of the stream, and the offset at which that chunk begins. -/
def chunkAt : List VideoChunk → Nat → Nat → Option (VideoChunk × Nat)
  | [], _, _ => none
  | c :: cs, start, off => if off < start + c.bytes.length then some (c, start) else chunkAt cs (start + c.bytes.length) off

/-- The offsets at which the pictures of a context's stream begin, of those whose first slice has arrived. -/
def VideoContext.starts (x : VideoContext) : List Nat := Config.pictureStarts x.kind x.stream

/-- The message that holds a picture's first byte, and the picture's place among those that begin in it (R320). -/
def VideoContext.home (x : VideoContext) (i : Nat) : Option (VideoChunk × Nat) :=
  let l := x.starts
  match l[i]?.bind fun o => chunkAt x.data 0 o with
  | none => none
  | some (c, start) => some (c, ((List.range i).filter fun k => decide (start ≤ listAt 0 l k)).length)

/-- How many access units of a context are complete (R286): those before the last picture whose first slice has arrived, and that one
too at the stream's end. -/
def VideoContext.complete (x : VideoContext) : Nat := if x.ended then x.starts.length else x.starts.length - 1

/-- Note a decode context's newly complete access units, in the order of their completion (R285, R286). -/
def State.offerUnits (s : State) (c : Nat) : State :=
  match s.video c with
  | none => s
  | some x =>
    if x.state ≠ 1 then s
    else
      let n := x.complete - x.completions.length
      let s1 := s.putVideo c { x with completions := x.completions ++ (List.range n).map (s.vid.completed + ·) }
      { s1 with vid := { s1.vid with completed := s1.vid.completed + n } }

/-- When the next access unit of a context that decodes was completed, if one waits (R285). -/
def VideoContext.nextUnit (x : VideoContext) : Option Nat := if x.state = 1 then x.completions[x.started]? else none

/-- Frames of a kind-0x03 context that wait to be coded; with its reconstruction they fill its four units (R284, R293). -/
def VideoContext.waiting (x : VideoContext) : Nat := x.data.length - x.coded

/-- VIDEO_DATA's own checks, and its effect: the data is journalled and joins the stream (R286, R349). -/
def State.videoData (s : State) (m : Msg) (session : Nat) : State × Code :=
  let p := m.payload
  let c := u8 p 0
  if p.length ≠ 32 + u32 p 16 then (s, Code.E_INPUT_SIZE)
  else if 2 ≤ u8 p 1 ∨ !allZero p 2 6 ∨ !allZero p 20 12 then (s, Code.E_RESERVED)
  else
    match s.video c with
    | none => (s, Code.E_VIDEO_STATE)
    | some x =>
      if x.session ≠ session ∨ x.state = 3 ∨ x.kind = 4 ∨ x.ended ∨ x.closing.isSome then (s, Code.E_VIDEO_STATE)
      else if x.kind = 3 ∧ u32 p 16 ≠ x.outWidth * x.outHeight * 3 / 2 then (s, Code.E_INPUT_SIZE)
      else if s.workRefused then (s.noteFull, Code.B_RETRY)
      else
        let chunk : VideoChunk := { message := m.number, tag := m.tag, stamp := u64 p 8, bytes := p.drop 32 }
        let y := { x with data := x.data ++ [chunk], ended := (u8 p 1).testBit 0 }
        let y1 := { y with held := y.held || (y.kind == 3 && decide (4 ≤ y.waiting + (if y.recon.isSome then 1 else 0))) }
        ((s.journal session c (.video c (p.drop 32))).putVideo c y1 |>.offerUnits c, Code.OK)

/-- Withhold the credit of a VIDEO_DATA that a held context took, or any context while the engine's firmware changes (R293, R402). -/
def State.withhold (s : State) (m : Msg) : State :=
  let c := u8 m.payload 0
  match s.video c with
  | some x =>
    if (x.held ∨ s.fwu.stopped = some 5) ∧ x.session = m.session then
      (s.putVideo c { x with withheld := x.withheld + wireLength m }).onSession m.session fun y =>
        { y with rxConsumed := y.rxConsumed - wireLength m }
    else s
  | none => s

/-- VIDEO_DATA (R286). -/
def videoDataEffect (m : Msg) (s : State) : State :=
  if !s.supActs then s
  else
    let s1 := s.withMsg m 0x0201 none fun s x =>
      match s.videoData m x.number with
      | (s1, c) => s1.reply m 0x0201 c [] (if c = Code.OK then [s1.lastIndex] else [])
    if s.cont.nextIndex < s1.cont.nextIndex then s1.withhold m else s1

def execVideoData (m : Msg) (s : State) : Host.Outcome State Fault Refusal := .next (videoDataEffect m s)

-- Units that free, contexts that drain (R287, R289, R293).

/-- Does a picture hold a mark? -/
def Picture.marked (p : Picture) : Bool := p.isRef || p.output || p.deliver || p.source

/-- A unit freed: the context decodes again and the withheld credit is given (R293). -/
def State.unhold (s : State) (c : Nat) : State :=
  match s.video c with
  | none => s
  | some x =>
    (s.putVideo c { x with held := false, withheld := 0 }).onSession x.session fun y =>
      { y with rxConsumed := y.rxConsumed + x.withheld }

/-- Has a draining context finished and delivered every complete access unit? -/
def State.drained (s : State) (x : VideoContext) : Bool :=
  match x.kind with
  | 3 => x.state == 3 || x.waiting == 0
  | 4 => !((s.video x.source).any fun y => y.pictures.any (·.source))
  | _ => !x.busy && x.nextUnit.isNone && !(x.pictures.any fun p => p.output || p.deliver || p.source)

/-- A context closes: its units free, and the close is answered OK. -/
def State.endVideo (s : State) (c : Nat) (r : ReplyTo) : State := (s.dropVideo c).replyTo r 0x0202 Code.OK

/-- Free the units of unmarked pictures; end a close whose context has drained. -/
def State.settleVideo (s : State) (c : Nat) : State :=
  match s.video c with
  | none => s
  | some x =>
    let left := x.pictures.filter Picture.marked
    let s1 := s.putVideo c { x with pictures := left }
    let s2 := if left.length < x.pictures.length then s1.unhold c else s1
    match x.closing with
    | some r => if s2.drained { x with pictures := left } then s2.endVideo c r else s2
    | none => s2

/-- Settle a context and the encode context that takes its pictures. -/
def State.settleBoth (s : State) (c : Nat) : State :=
  ((s.vid.contexts.filter fun x => x.2.kind == 4 && x.2.source == c).map (·.1)).foldl (fun s k => s.settleVideo k) (s.settleVideo c)

/-- VIDEO_CLOSE of a mode (R287): accepted only on the session that opened the context. -/
def State.closeVideo (s : State) (m : Msg) (body : State → Nat → State) (mode : Nat) : State :=
  let given := u8 m.payload 1
  if !s.supActs ∨ (given ≠ mode ∧ 1 ≤ given ∧ given ≤ 2 ∧ m.payload.length = 32) then s
  else s.withMsg m 0x0202 (some 32) fun s x =>
    let c := u8 m.payload 0
    if given ≠ mode ∨ !allZero m.payload 2 30 then s.reply m 0x0202 Code.E_RESERVED
    else
      match s.video c with
      | some v =>
        if v.session = x.number ∧ v.closing.isNone then body s c else s.reply m 0x0202 Code.E_VIDEO_STATE
      | none => s.reply m 0x0202 Code.E_VIDEO_STATE

/-- The pictures that wait for output, in order count, for a stream that ends or stops. -/
def VideoContext.waitingOutput (x : VideoContext) : List Nat :=
  let rec ins (p : Picture) : List Picture → List Picture
    | [] => [p]
    | q :: qs => if p.order < q.order then p :: q :: qs else q :: ins p qs
  ((x.pictures.filter (·.output)).foldl (fun l p => ins p l) []).map (·.number)

-- Motion statistics (R298).

/-- A picture's luma as 8-bit samples. -/
def Planes.luma8 (p : Planes) : Planes :=
  if 8 < p.depth then { p with depth := 8, luma := p.luma.map (· / 4) } else p

/-- Sum of absolute differences of two sample lists. -/
def sadOf (a b : List Nat) : Nat := (List.range a.length).foldl (fun n i =>
  n + (((listAt 0 a i : Nat) : Int) - ((listAt 0 b i : Nat) : Int)).natAbs) 0

/-- The 256 samples of the block at (y, x), edges replicated. -/
def Planes.blockAt (p : Planes) (y x : Int) : List Nat :=
  (List.range 256).map fun i => planeAt p.luma p.width p.height (y + (i / 16 : Nat)) (x + (i % 16 : Nat))

/-- The same at a position in half samples. -/
def Planes.halfBlock (p : Planes) (y x : Int) : List Nat :=
  let iy := floorDiv y 2
  let ix := floorDiv x 2
  (List.range 256).map fun i =>
    let at_ := fun (dy dx : Nat) => planeAt p.luma p.width p.height (iy + (i / 16 + dy : Nat)) (ix + (i % 16 + dx : Nat))
    match y % 2 == 0, x % 2 == 0 with
    | true, true => at_ 0 0
    | true, false => (at_ 0 0 + at_ 0 1 + 1) / 2
    | false, true => (at_ 0 0 + at_ 1 0 + 1) / 2
    | false, false => (at_ 0 0 + at_ 0 1 + at_ 1 0 + at_ 1 1 + 2) / 4

/-- The eight neighbours in their order, as (x, y). -/
def neighbours : List (Int × Int) := [(-1, -1), (0, -1), (1, -1), (-1, 0), (1, 0), (-1, 1), (0, 1), (1, 1)]

/-- A candidate vector in whole pixels, clamped. -/
def candidate (v : Int × Int) : Int × Int :=
  let c := fun (lo hi n : Int) => if n < lo then lo else if hi < n then hi else n
  (c (-128) 127 (Int.tdiv v.1 4), c (-64) 63 (Int.tdiv v.2 4))

/-- The first smallest of a list by cost. -/
def firstLeast (cost : Int × Int → Nat) : List (Int × Int) → Option (Int × Int)
  | [] => none
  | v :: vs => some (vs.foldl (fun b w => if cost w < cost b then w else b) v)

/-- Whole-pixel refinement, in up to `n` rounds. -/
def refine (cost : Int × Int → Nat) : Nat → Int × Int → Int × Int
  | 0, v => v
  | n + 1, v =>
    match firstLeast cost (neighbours.map fun d => (v.1 + d.1, v.2 + d.2)) with
    | some w => if cost w < cost v then refine cost n w else v
    | none => v

/-- One block's statistics: the picture, the previous one, the vectors so far in raster order, the previous picture's vectors
and the bitstream's. -/
def blockStat (p : Planes) (prev : Option Planes) (done : List (Int × Int)) (last : List (Int × Int))
    (stream : List (Option (Int × Int))) (i : Nat) : BlockStat :=
  let across := p.blocksAcross
  let by_ : Int := ((i / max across 1 * 16 : Nat) : Int)
  let bx : Int := ((i % max across 1 * 16 : Nat) : Int)
  let cur := p.blockAt by_ bx
  let mean : Nat := (cur.foldl (· + ·) 0 + 128) / 256
  let complexity := cur.foldl (fun (n v : Nat) => n + ((v : Int) - (mean : Int)).natAbs) 0
  match prev with
  | none => ⟨0, 0, -1, complexity⟩
  | some q =>
    let cost := fun (v : Int × Int) => sadOf cur (q.blockAt (by_ + v.2) (bx + v.1))
    let col := i % max across 1
    let left := if 0 < col then (done[i - 1]?).toList else []
    let top := if across ≤ i then (done[i - across]?).toList else []
    let topRight := if across ≤ i ∧ col + 1 < across then (done[i + 1 - across]?).toList else []
    let cands := ([(0, 0)] ++ left ++ top ++ topRight ++ (last[i]?).toList ++ ((stream[i]?).bind id).toList).map candidate
    let v := refine cost 4 ((firstLeast cost cands).getD (0, 0))
    let hcost := fun (w : Int × Int) => sadOf cur (q.halfBlock (2 * by_ + w.2) (2 * bx + w.1))
    let h := (2 * v.1, 2 * v.2)
    let best := ((neighbours.map fun d => (h.1 + d.1, h.2 + d.2)).find? fun w => decide (hcost w < hcost h)).getD h
    ⟨2 * best.1, 2 * best.2, hcost best, complexity⟩

/-- The statistics of a picture's blocks in raster order. -/
def pictureStats (p : Planes) (prev : Option Planes) (last : List (Int × Int)) (stream : List (Option (Int × Int))) :
    List BlockStat :=
  (List.range p.blocks).foldl (fun (l : List BlockStat) i =>
    l ++ [blockStat p prev (l.map fun b => (b.mvx, b.mvy)) last stream i]) []

-- Decoding (R285, R289, R295, R296).

/-- A picture is next in output order: it waits for its slot, unless it was delivered before, and for an encode context that
takes the context's pictures. -/
def State.outputPicture (s : State) (c n : Nat) : State :=
  match s.video c with
  | none => s
  | some x =>
    match x.pictures.find? fun p => p.number == n && p.output with
    | none => s
    | some p =>
      let taken := s.vid.contexts.any fun y => y.2.kind == 4 && y.2.source == c && y.2.state == 2
      let luma := p.planes.luma8
      let st := if x.stats then pictureStats luma x.lastLuma x.lastVectors p.vectors else []
      let q := { p with output := false, deliver := decide (x.slot ≤ 15) && !x.delivered.contains n,
                        source := taken && !x.sourced.contains n, outNo := x.nextOut, stats := st }
      s.putVideo c { x with pictures := x.pictures.map fun y => if y.number = n then q else y,
                            nextOut := x.nextOut + 1, lastLuma := some luma,
                            lastVectors := st.map fun b => (b.mvx, b.mvy) }

/-- Stop a context (R280, R289, R320): every picture already decoded is still delivered. -/
def State.stopVideo (s : State) (c : Nat) : State :=
  match s.video c with
  | none => s
  | some x =>
    let s1 := s.putVideo c { x with state := 3, code := Code.E_VIDEO_STREAM, busy := false,
                                    pictures := x.pictures.map fun p => { p with isRef := false } }
    x.waitingOutput.foldl (fun (s : State) n => s.outputPicture c n) s1

/-- Free the pipe that works on a context. -/
def State.freePipe (s : State) (pipe : Nat) : State := { s with vid := { s.vid with pipes := s.vid.pipes.set pipe none } }

/-- May a context's next picture be decoded now, but for a free unit (R285, R293)? -/
def VideoContext.mayDecode (x : VideoContext) : Bool := x.state == 1 && !x.busy && !x.held

/-- Is one of the context's units free (R289)? -/
def VideoContext.unitFree (x : VideoContext) : Bool := decide (x.pictures.length < x.units.length)

/-- Pictures in reach of a stream's decoding, as references. -/
def VideoContext.refPictures (x : VideoContext) : List RefPicture :=
  (x.pictures.filter (·.isRef)).map fun p => ⟨p.number, p.order, p.planes⟩

/-- The context whose next access unit was completed earliest, of those that may decode (R285). -/
def State.earliestUnit (s : State) : Option Nat :=
  ((s.vid.contexts.filterMap fun (c, x) => if x.mayDecode then x.nextUnit.map fun n => (n, c) else none).foldl
    (fun (best : Option (Nat × Nat)) u => match best with
      | none => some u
      | some b => if u.1 < b.1 then some u else best) none).map (·.2)

/-- Do the pipes run: the video PLL is locked, and an update has not stopped the domain (R281, R402)? -/
def State.videoRuns (s : State) : Bool := s.fwu.stopped != some 5 && (s.rget Fld.CLK_STATUS_LOCK).testBit 3

/-- PICTURE_DECODE_START (R285): contexts that could decode but have no free unit are held (R293); a free pipe takes the access
unit completed earliest among the others. -/
def decodeStart (s : State) : State :=
  let full := s.vid.contexts.filter fun x => x.2.mayDecode && x.2.nextUnit.isSome && !x.2.unitFree
  let s1 := full.foldl (fun (s : State) x => s.putVideo x.1 { x.2 with held := true }) s
  if !s.videoRuns then s
  else match s1.vid.pipes.findIdx? (·.isNone), s1.earliestUnit with
  | some p, some c =>
    match s1.video c with
    | none => s1
    | some x =>
      let s2 := s1.putVideo c { x with busy := true, started := x.started + 1, watchdog := none, damaged := [] }
      { s2 with vid := { s2.vid with pipes := s2.vid.pipes.set p (some c) } }
  | _, _ => s1

def execPictureDecodeStart (s : State) : Host.Outcome State Fault Refusal := .next (decodeStart s)

/-- Note the first fault of the video engine (R302). -/
def State.videoLoc (s : State) (c picture : Nat) : State :=
  if s.rget Fld.VID_FAULT_ECC + s.rget Fld.VID_FAULT_WATCHDOG + s.rget Fld.VID_FAULT_WINDOW = 0 then
    (s.rset Fld.VID_FAULT_LOC_CONTEXT c).rset Fld.VID_FAULT_LOC_PICTURE (picture % 16777216)
  else s

/-- PICTURE_WATCHDOG (R295): the picture of a pipe has reached its time limit; from a block on it is damaged. -/
def watchdogEffect (pipe block : Nat) (s : State) : State :=
  match (s.vid.pipes[pipe]?).bind id with
  | none => s
  | some c =>
    match s.video c with
    | none => s
    | some x =>
      ((s.videoLoc c (x.started - 1)).putVideo c { x with watchdog := some ((x.watchdog.map (min block)).getD block) }).rset
        Fld.VID_FAULT_WATCHDOG 1

def execPictureWatchdog (pipe block : Nat) (s : State) : Host.Outcome State Fault Refusal := .next (watchdogEffect pipe block s)

/-- The VIDEO_STATUS of a picture with concealed blocks or a hash mismatch (R296). -/
def State.videoStatus (s : State) (c session : Nat) (p : Picture) : State :=
  if p.concealed = 0 ∧ p.flags / 2 % 2 = 0 then s
  else
    s.pushMsg session
      { number := replyNumber p.message (3 * p.place + 1), type := 0x0210, code := Code.OK, tag := p.tag,
        payload := leBytes 4 c ++ leBytes 4 p.number ++ leBytes 4 p.concealed ++ leBytes 1 p.flags ++ zeroBytes 19 }

/-- Count decoded or coded pictures and concealed blocks of a context (R302). -/
def VideoContext.tally (x : VideoContext) (frozen : Bool) (pictures blocks : Nat) : VideoContext :=
  if frozen then x
  else { x with frames := (x.frames + pictures) % 4294967296, concealed := holdAdd 32 x.concealed blocks }

/-- The flags of a picture (R294). -/
def pictureFlags (concealed : Nat) (hash recovering : Bool) : Nat :=
  (if 0 < concealed then 1 else 0) + (if hash then 2 else 0) + (if recovering then 4 else 0)

/-- The lowest unit of a context that no picture holds. -/
def VideoContext.unitFor (x : VideoContext) : Nat :=
  ((List.range x.units.length).find? fun u => !(x.pictures.any (·.unit == u))).getD 0

/-- Does the engine support a stream (R279, R280): its profile, tier, bit depth, level, sampling and size, with no extension and no
interlace? -/
def DecodeHead.supported (h : DecodeHead) (kind : Nat) : Bool :=
  (if kind = 1 then [VideoProfile.constrainedBaseline, .main, .high].contains h.profile && h.framesOnly && h.depth == 8
   else (h.profile == .main && h.depth == 8 || h.profile == .main10 && (h.depth == 8 || h.depth == 10)) && !h.highTier) &&
  !h.extension && h.sampling == .yuv420 &&
  decide (h.level ≤ 51 ∧ h.width ≤ 4096 ∧ h.height ≤ 2304 ∧ h.width * h.height ≤ 8294400)

/-- Does a stream ask for what R280 excludes, or for more pictures than its context reserved, a larger picture or another bit depth
(R280, R289)? -/
def VideoContext.tooMuch (x : VideoContext) (h : DecodeHead) : Bool :=
  !h.supported x.kind || decide (x.units.length < h.refs ∨ x.maxWidth < h.width ∨ x.maxHeight < h.height ∨ h.depth ≠ x.depth)

/-- PICTURE_DECODED (R296): the picture of a pipe is done. -/
def decodedEffect (pipe : Nat) (s : State) : State :=
  match (s.vid.pipes[pipe]?).bind id with
  | none => s
  | some c =>
    match s.video c with
    | none => s.freePipe pipe
    | some x =>
      let n := x.started - 1
      let h := Config.pictureHead x.kind x.stream n x.refPictures
      match x.home n with
      | none => ((s.freePipe pipe).stopVideo c).settleBoth c
      | some (chunk, place) =>
        if x.tooMuch h ∨ 349525 ≤ place then ((s.freePipe pipe).stopVideo c).settleBoth c
        else
          let lost := h.missing.map fun k => (⟨k, h.order, standIn x.pictures h.order h.width h.height h.depth⟩ : RefPicture)
          let r := Config.pictureBody x.kind x.stream n (x.refPictures ++ lost)
          let raw : Planes := { width := h.width, height := h.height, depth := h.depth, luma := r.luma, cb := r.cb, cr := r.cr }
          let late := match x.watchdog with
            | some k => (List.range raw.blocks).filter (k ≤ ·)
            | none => []
          let bad := (List.range raw.blocks).filter fun k => r.damage.any (·.2 == k) || late.contains k || x.damaged.contains k
          let p : Picture :=
            { number := n, unit := x.unitFor, order := h.order,
              planes := raw.conceal (standIn x.pictures h.order h.width h.height h.depth) bad, concealed := bad.length,
              flags := pictureFlags bad.length r.hashMismatch r.recovering, isRef := r.refs.contains n, output := r.shown,
              stamp := chunk.stamp, message := chunk.message, tag := chunk.tag, place := place, vectors := r.vectors }
          let kept := x.pictures.map fun q => { q with isRef := q.isRef && r.refs.contains q.number }
          let y := ({ x with busy := false, pictures := kept ++ [p], seen := max x.seen (n + 1),
                             accessPoints := if r.accessPoint ∧ !x.accessPoints.contains n then x.accessPoints ++ [n]
                               else x.accessPoints }).tally (s.rbit Fld.VID_CTRL_FREEZE) 1 bad.length
          let s1 := (s.freePipe pipe).putVideo c y
          let s2 := if x.seen ≤ n then s1.videoStatus c x.session p else s1
          let s3 := r.outputs.foldl (fun (s : State) k => s.outputPicture c k) s2
          let last := (x.ended || x.closing.isSome) && y.nextUnit.isNone
          let s4 := if last then (y.waitingOutput.foldl (fun (s : State) k => s.outputPicture c k) s3) else s3
          s4.settleBoth c

def execPictureDecoded (pipe : Nat) (s : State) : Host.Outcome State Fault Refusal := .next (decodedEffect pipe s)

-- Closing (R287).

/-- VIDEO_CLOSE, drain: the close is noted, and answered once every complete access unit is delivered. -/
def closeDrainEffect (m : Msg) (s : State) : State :=
  s.closeVideo m (fun s c =>
    match s.video c with
    | none => s
    | some x =>
      let s1 := s.putVideo c { x with closing := some ⟨m.session, m.number, m.tag⟩ }
      let s2 := if x.busy ∨ x.nextUnit.isSome then s1
        else x.waitingOutput.foldl (fun (s : State) k => s.outputPicture c k) s1
      s2.settleBoth c) 1

def execVideoCloseDrain (m : Msg) (s : State) : Host.Outcome State Fault Refusal := .next (closeDrainEffect m s)

/-- VIDEO_CLOSE, abort: undecoded data is discarded and undelivered pictures' requests end with E_CANCELLED. -/
def closeAbortEffect (m : Msg) (s : State) : State :=
  s.closeVideo m (fun s c => (s.abortVideo c).replyTo ⟨m.session, m.number, m.tag⟩ 0x0202 Code.OK) 2

def execVideoCloseAbort (m : Msg) (s : State) : Host.Outcome State Fault Refusal := .next (closeAbortEffect m s)

end Sys2Proof.Machine
end

