-- ==== Sys2Proof/Machine/VideoOut.lean ====
section
/-! DEFINITION. VideoOut.lean: pictures converted, resized and delivered into feed banks, coded, and decoded again after a
fault ("Video engine"). -/

namespace Sys2Proof.Machine

-- Conversion and resize (R290).

/-- Eight times a chroma plane's value at a luma position: bilinear, chroma location type 0 (co-sited across, midway down). -/
def chroma8 (p : List Nat) (w h y x : Nat) : Nat :=
  let cx : Int := ((x / 2 : Nat) : Int)
  let near : Int := ((y / 2 : Nat) : Int)
  let far : Int := if y % 2 = 0 then near - 1 else near + 1
  let row := fun (r : Int) =>
    planeAt p (half w) (half h) r cx + planeAt p (half w) (half h) r (if x % 2 = 0 then cx else cx + 1)
  3 * row near + row far

/-- A quotient rounded to the nearest integer, ties upward. -/
def nearest (n : Int) (d : Nat) : Int := floorDiv (2 * n + d) (2 * d)

/-- A number clamped to 0 … 255. -/
def clamp8 (n : Int) : Nat := min n.toNat 255

/-- Kr and Kb of BT.601 and BT.709 in units of 1/10,000 (standards that the manual names; log entry 28). -/
def colourWeights (bt709 : Bool) : Nat × Nat := if bt709 then (2126, 722) else (2990, 1140)

/-- A quotient in units of 2^-14, rounded to one of its two neighbours: which of them is the maker's (R290, R68). -/
def colourCoef (bt709 full : Bool) (depth i num den : Nat) : Nat :=
  num * 2 ^ 14 / den +
    (if num * 2 ^ 14 % den ≠ 0 ∧ Config.colourCoefUp bt709 full depth i = true then 1 else 0)

/-- The five conversion coefficients (R290), each with 14 fractional bits: luma, Cr to R, Cb to G, Cr to G, Cb to B. -/
def colourCoefs (bt709 full : Bool) (depth : Nat) : List Nat :=
  let sc := 2 ^ (depth - 8)
  let yd := if full then 2 ^ depth - 1 else 219 * sc
  let cd := if full then 2 ^ depth - 1 else 224 * sc
  let (kr, kb) := colourWeights bt709
  let kg := 10000 - kr - kb
  let c := colourCoef bt709 full depth
  [c 0 255 yd, c 1 (255 * 2 * (10000 - kr)) (cd * 10000), c 2 (255 * 2 * kb * (10000 - kb)) (cd * 10000 * kg),
   c 3 (255 * 2 * kr * (10000 - kr)) (cd * 10000 * kg), c 4 (255 * 2 * (10000 - kb)) (cd * 10000)]

/-- A sum in units of 2^-17 rounded once to the nearest 8-bit value; which way a tie goes is the maker's (R290). -/
def colourRound (n : Int) : Nat :=
  clamp8 (floorDiv (n + (if Config.colourTieUp then 65536 else 65535)) 131072)

/-- One pixel as 8-bit R'G'B' (R290): coefficients of 14 fractional bits, each output rounded once, so within 1 unit of the
exact conversion (R68). `cb` and `cr` are eight times the samples. -/
def toRgb (bt709 full : Bool) (depth y cb cr : Nat) : List Nat :=
  let mid : Int := ((8 * 2 ^ (depth - 1) : Nat) : Int)
  let k := fun i => ((listAt 0 (colourCoefs bt709 full depth) i : Nat) : Int)
  let b : Int := (cb : Int) - mid
  let r : Int := (cr : Int) - mid
  let base : Int := k 0 * 8 * (if full then (y : Int) else (y : Int) - ((16 * 2 ^ (depth - 8) : Nat) : Int))
  [colourRound (base + k 1 * r), colourRound (base - k 2 * b - k 3 * r), colourRound (base + k 4 * b)]

/-- The converted samples at a position, clamped into the picture. -/
def VideoContext.sampleOf (x : VideoContext) (p : Planes) (y cx : Int) : List Nat :=
  let yy := clampTo p.height y
  let xx := clampTo p.width cx
  if x.isLuma then [listAt 0 p.luma (yy * p.width + xx)]
  else toRgb x.bt709 x.fullRange p.depth (listAt 0 p.luma (yy * p.width + xx))
    (chroma8 p.cb p.width p.height yy xx) (chroma8 p.cr p.width p.height yy xx)

/-- The crop box, in 16.16 source pixels: all zero is the whole picture. -/
def cropBoxOf (crop : List Int) (p : Planes) : List Int :=
  if crop.all (· == 0) then [0, 0, ((p.height * 65536 : Nat) : Int), ((p.width * 65536 : Nat) : Int)] else crop

/-- One delivered pixel: sampled by R108 with clamp extrapolation and rounded once to the binding's format. -/
def VideoContext.pixel (x : VideoContext) (f : Format) (p : Planes) (i j : Nat) : List Byte :=
  let taps := (samplePoint (cropBoxOf x.crop p) x.outHeight x.outWidth i j).taps
  let bias : Int := if f == .int8 || f == .qb8 then 128 else 0
  let rows := taps.map fun t => (t.2.2, x.sampleOf p t.1 t.2.1)
  let chs := if x.isLuma then 1 else 3
  let vs := (List.range chs).map fun ch =>
    (blend (rows.map fun r => (r.1, intVal (((listAt 0 r.2 ch : Nat) : Int) - bias) 0))).1
  (packRow f 0 vs).1

/-- The trailer of a slot (R294). -/
def Picture.trailer (p : Picture) : List Byte :=
  leBytes 4 p.number ++ leBytes 4 (p.order % 4294967296).toNat ++ leBytes 4 p.concealed ++ leBytes 1 p.flags ++ zeroBytes 51

/-- A slot's contents: pixels at their stride, then the trailer. -/
def slotBytes (ps : Nat) (px : List (List Byte)) (trailer : List Byte) : List Byte :=
  (px.map fun b => slice b 0 ps).flatten ++ trailer

/-- The frame slot's contents. -/
def VideoContext.frameBytes (x : VideoContext) (g : Image) (p : Picture) : List Byte :=
  match (g.formatOf x.frameBinding).bind fun r => Format.ofCode r.format with
  | none => []
  | some f =>
    let px := ((List.range x.outHeight).map fun i => (List.range x.outWidth).map fun j => x.pixel f p.planes i j).flatten
    slotBytes (g.pixelOf x.frameBinding) px p.trailer

/-- The statistics slot's contents (R299). -/
def VideoContext.statsBytes (x : VideoContext) (g : Image) (p : Picture) : List Byte :=
  match (g.formatOf x.statsBinding).bind fun r => Format.ofCode r.format with
  | none => []
  | some f =>
    let px := p.stats.map fun b =>
      (packRow f 0 [intVal b.mvx 0, intVal b.mvy 0, intVal b.sad 0, intVal b.complexity 0]).1
    slotBytes (g.pixelOf x.statsBinding) px p.trailer

-- Slots (R291).

/-- Is a slot of a binding still in use: its request lives, or a batch that holds its row has not completed? -/
def State.rowHeld (s : State) (row : Nat) : Bool :=
  Dict.has s.srv.requests row ||
    ((s.srv.batch.toList ++ s.srv.suspended).any fun b => b.rows.any fun r => r.tag == row)

/-- The lowest free slot of a video binding. -/
def State.freeFrame (s : State) (g : Image) (slot binding : Nat) : Option Nat :=
  let b := g.binding binding
  (List.range ((4194304 - b.offset) / max b.size 1)).find? fun k =>
    !(s.vid.frames.any fun f => f.slot == slot && f.binding == binding && f.index == k && s.rowHeld f.row)

/-- The slots a picture needs: its frame's and its statistics'; none where one is not free. -/
def State.slotsFor (s : State) (x : VideoContext) (g : Image) : Option (List (Nat × Nat)) :=
  let need := (if x.frameBinding ≠ 255 then [x.frameBinding] else []) ++
    (if x.stats ∧ x.statsBinding ≠ 255 then [x.statsBinding] else [])
  need.foldl (fun acc i => acc.bind fun l => (s.freeFrame g x.slot i).map fun k => l ++ [(i, k)]) (some [])

/-- The bank window that a slot's bytes lie in, as the video engine, master 76, writes them (R203, R204). -/
def slotWindow (b : Binding) (k n : Nat) : BankWindow :=
  ⟨b.bankId, false, true, (b.offset + k * b.size) / 64, (b.offset + k * b.size + (n - 1)) / 64⟩

/-- Write one slot of a picture (R290, R291). A write outside the video engine's envelopes is refused (R204, R302). -/
def State.writeSlot (s : State) (c : Nat) (x : VideoContext) (g : Image) (p : Picture) (i k : Nat) : State :=
  let b := g.binding i
  let bytes := if i = x.frameBinding then x.frameBytes g p else x.statsBytes g p
  let win := slotWindow b k bytes.length
  if insideEnvelope 76 win then s.putBank b.bankId (b.offset + k * b.size) bytes
  else ((s.videoLoc c p.number).rset Fld.VID_FAULT_WINDOW 1).dmaRefused 76 win.bank win.first

/-- Write a picture's slots. -/
def State.writeSlots (s : State) (c : Nat) (x : VideoContext) (g : Image) (p : Picture) (l : List (Nat × Nat)) : State :=
  l.foldl (fun (s : State) (i, k) => s.writeSlot c x g p i k) s

/-- The picture of a context that is next for delivery. -/
def VideoContext.due (x : VideoContext) (mark : Picture → Bool) : Option Picture :=
  (x.pictures.filter mark).foldl (fun best p =>
    match best with
    | none => some p
    | some b => if p.outNo < b.outNo then some p else best) none

/-- Clear a mark of a picture. -/
def VideoContext.onPicture (x : VideoContext) (n : Nat) (f : Picture → Picture) : VideoContext :=
  { x with pictures := x.pictures.map fun p => if p.number = n then f p else p }

/-- Submit a picture to the context's model slot (R292); where admission refuses it, its RESULT carries the code. -/
def State.submitPicture (s : State) (c : Nat) (x : VideoContext) (p : Picture) (l : List (Nat × Nat)) : State :=
  let tag := 2147483648 + c * 16777216 + p.number % 16777216
  match s.session x.session with
  | none => s
  | some y =>
    let sub : Submission :=
      { session := y, number := p.message, ordinal := 3 * p.place + 2, tag := tag, customer := x.customer, slot := x.slot,
        priority := x.priority, bucket := 255, deadline := none, stamp := p.stamp,
        digest := sha384 (leBytes 4 tag ++ leBytes 8 p.number), input := [], picture := some (c, p.number) }
    match s.admitPass sub 0 with
    | .ok s1 =>
      let row := s1.lastIndex % 4294967296
      { s1 with vid := { s1.vid with frames :=
          (s1.vid.frames.filter fun f => s1.rowHeld f.row) ++ l.map fun (i, k) => ⟨row, x.slot, i, k⟩ } }
    | .error code =>
      let msg : ModMsg := { number := replyNumber p.message (3 * p.place + 2), type := 0x0110, code := code, tag := tag,
                            payload := refusedResult p.stamp }
      if s.journalFull 128 then (s.noteFull.pushGrid x.session { msg with code := Code.B_RETRY }).count Fld.SRV_REFUSED_COUNT
      else
        let s1 := s.journal x.session 0 (.refuse sub.digest code)
        (s1.pushGrid x.session { msg with needs := [s1.lastIndex] }).count Fld.SRV_REFUSED_COUNT

/-- Deliver the next picture of a context whose slots are free. -/
def State.deliverFrom (s : State) (c : Nat) (x : VideoContext) (p : Picture) (l : List (Nat × Nat)) : State :=
  let s1 := match s.readyImage x.slot with
    | some g => s.writeSlots c x g p l
    | none => s
  let s2 := s1.submitPicture c x p l
  let y := (x.onPicture p.number fun q => { q with deliver := false })
  let s3 := (s2.putVideo c { y with delivered := x.delivered ++ [p.number] }).settleBoth c
  if (s3.video c).any fun z => z.held && z.unitFree then s3.unhold c else s3

/-- The contexts with a picture in output order, each with the slots it needs, where they are free. -/
def State.deliverable (s : State) : List (Nat × VideoContext × Picture × Option (List (Nat × Nat))) :=
  s.vid.contexts.filterMap fun (c, x) => (x.due (·.deliver)).map fun p =>
    (c, x, p, match s.readyImage x.slot with
      | some g => s.slotsFor x g
      | none => some [])

/-- PICTURE_DELIVER (R290 to R294): every context whose next picture finds no free slot is held (R293); the first one whose slots are
free delivers its picture. -/
def pictureDeliver (s : State) : State :=
  if !s.supActs then s
  else
    let ready := s.deliverable
    let s1 := (ready.filter fun r => r.2.2.2.isNone).foldl (fun (s : State) r => s.putVideo r.1 { r.2.1 with held := true }) s
    match ready.find? fun r => r.2.2.2.isSome with
    | some (c, x, p, some l) => s1.deliverFrom c x p l
    | _ => s1

def execPictureDeliver (s : State) : Host.Outcome State Fault Refusal := .next (pictureDeliver s)

-- Encoding (R300, R301).

/-- A plane resized by R108 to h × w outputs, to 8 bits. -/
def resizePlane (p : List Nat) (w h depth : Nat) (box : List Int) (oh ow : Nat) : List Nat :=
  ((List.range oh).map fun i => (List.range ow).map fun j =>
    let sum := ((samplePoint box oh ow i j).taps).foldl (fun (n : Nat) t => n + t.2.2 * planeAt p w h t.1 t.2.1) 0
    clamp8 (nearest (sum : Int) (65536 * 2 ^ (depth - 8)))).flatten

/-- A picture resized to an encode context's output size, in 8-bit 4:2:0. -/
def VideoContext.codedPlanes (x : VideoContext) (p : Planes) : Planes :=
  let box := cropBoxOf x.crop p
  let cbox := box.map fun v => floorDiv v 2
  let oh := x.outHeight
  let ow := x.outWidth
  { width := ow, height := oh, depth := 8, luma := resizePlane p.luma p.width p.height p.depth box oh ow,
    cb := resizePlane p.cb (half p.width) (half p.height) p.depth cbox (half oh) (half ow),
    cr := resizePlane p.cr (half p.width) (half p.height) p.depth cbox (half oh) (half ow) }

/-- A partner's frame (R286): planar luma and two chroma planes. -/
def VideoContext.framePlanes (x : VideoContext) (b : List Byte) : Planes :=
  let v := b.map (·.toNat)
  let n := x.outWidth * x.outHeight
  let c := (v.length - n) / 2
  { width := x.outWidth, height := x.outHeight, depth := 8, luma := v.take n, cb := (v.drop n).take c, cr := (v.drop (n + c)).take c }

/-- The levels of H.265 up to 4.1, in tenths, with the Main tier's limits on luma samples of a picture, luma samples per second and
kb/s (the standard's; log entry 28). -/
def hevcLevels : List (Nat × Nat × Nat × Nat) :=
  [(10, 36864, 552960, 128), (20, 122880, 3686400, 1500), (21, 245760, 7372800, 3000), (30, 552960, 16588800, 6000),
   (31, 983040, 33177600, 10000), (40, 2228224, 66846720, 12000), (41, 2228224, 133693440, 20000)]

/-- The lowest level that fits a coded stream, up to 4.1 (R300). -/
def VideoContext.level (x : VideoContext) : Nat :=
  let n := x.outWidth * x.outHeight
  ((hevcLevels.find? fun l => decide (n ≤ l.2.1 ∧ n * x.frameRate ≤ 1000 * l.2.2.1 ∧ x.bitRate ≤ l.2.2.2)).map (·.1)).getD 41

/-- What R300 fixes of a context's next picture: an intra picture opens every GOP, and motion estimation starts from the search of R298
against the previous reconstructed picture. -/
def VideoContext.encodeParams (x : VideoContext) (p : Planes) : EncodeParams :=
  let intra := x.coded % max x.gop 1 == 0
  { level := x.level, intra := intra,
    vectors := if intra then [] else (pictureStats p x.recon x.lastVectors []).map fun b => (b.mvx, b.mvy) }

/-- The access unit of a picture: coded again at QP + 6 while it exceeds the limit, up to QP 51, where it fits (R301). -/
def encodeFit (e : EncodeParams) (recon : Option Planes) (p : Planes) (limit : Nat) : Nat → Nat → List Byte × Nat
  | 0, qp => (((Config.encodePicture e qp recon p).take 65456), qp)
  | n + 1, qp =>
    if 51 ≤ qp then (((Config.encodePicture e 51 recon p).take 65456), 51)
    else
      let b := Config.encodePicture e qp recon p
      if b.length ≤ limit then (b, qp) else encodeFit e recon p limit n (min 51 (qp + 6))

/-- The bits that each GOP receives (R301). -/
def VideoContext.gopBits (x : VideoContext) : Nat := x.bitRate * x.gop * 1000000 / max x.frameRate 1

/-- The QP of the next picture before the window rule. -/
def VideoContext.nextQp (x : VideoContext) : Nat :=
  if x.bitRate = 0 ∨ x.coded = 0 then x.qp else Config.rateQp x.gopBits x.gop x.qp x.sizes % 52

/-- Send a coded picture in one VIDEO_OUT (R301, R320). -/
def State.sendCoded (s : State) (c : Nat) (x : VideoContext) (p : Planes) (message tag place stamp : Nat) : State :=
  match s.session x.session with
  | none => s
  | some y =>
    let e := x.encodeParams p
    let (b, qp) := encodeFit e x.recon p (y.partnerWindow - 80) 10 x.nextQp
    let z := { x with coded := x.coded + 1, sizes := x.sizes ++ [b.length],
                      recon := some (Config.reconPicture e qp x.recon p), lastVectors := e.vectors }
    let s1 := s.putVideo c (z.tally (s.rbit Fld.VID_CTRL_FREEZE) 1 0)
    s1.pushMsg x.session
      { number := replyNumber message (3 * place + 3), type := 0x0211, code := Code.OK, tag := tag,
        payload := leBytes 4 c ++ leBytes 4 x.coded ++ leBytes 4 b.length ++ zeroBytes 4 ++ leBytes 8 stamp ++ zeroBytes 8 ++ b }

/-- The picture that an encode context takes next: its source's in output order, or the partner's next frame; with its
planes, message, tag, place and stamp, and the number of the source's picture. -/
def State.toEncode (s : State) (x : VideoContext) : Option (Planes × Nat × Nat × Nat × Nat × Nat) :=
  if x.state ≠ 2 then none
  else if x.kind = 3 then (x.data[x.coded]?).map fun d => (x.framePlanes d.bytes, d.message, d.tag, 0, d.stamp, 0)
  else
    ((s.video x.source).bind fun y => y.due (·.source)).map fun p =>
      (x.codedPlanes p.planes, p.message, p.tag, p.place, p.stamp, p.number)

/-- PICTURE_ENCODE (R281, R300, R301): the encode pipe, which runs on the video PLL, takes the next picture of the first encode context
that has one. -/
def pictureEncode (s : State) : State :=
  if !s.videoRuns then s
  else match s.vid.contexts.findSome? fun (c, x) => (s.toEncode x).map fun t => (c, x, t) with
  | none => s
  | some (c, x, p, message, tag, place, stamp, n) =>
    let s1 := s.sendCoded c x p message tag place stamp
    if x.kind = 3 then (s1.unhold c).settleVideo c
    else
      match s1.video x.source with
      | none => s1
      | some y =>
        let z := y.onPicture n fun q => { q with source := false }
        (s1.putVideo x.source { z with sourced := y.sourced ++ [n] }).settleBoth x.source

def execPictureEncode (s : State) : Host.Outcome State Fault Refusal := .next (pictureEncode s)

-- After a module fault (R297).

/-- The oldest picture of a context that is still to be delivered or coded. -/
def VideoContext.oldestDue (x : VideoContext) (taken : Bool) : Nat :=
  ((List.range x.started).find? fun n =>
    (decide (x.slot ≤ 15) && !x.delivered.contains n) || (taken && !x.sourced.contains n)).getD x.started

/-- Restart a decode context from the newest random access point that precedes its oldest undelivered picture; from its first picture
where none does. -/
def State.restartVideo (s : State) (c : Nat) : State :=
  match s.video c with
  | none => s
  | some x =>
    if x.state ≠ 1 then s
    else
      let taken := s.vid.contexts.any fun y => y.2.kind == 4 && y.2.source == c
      let from_ := x.oldestDue taken
      let at_ := (x.accessPoints.filter fun n => decide (n < from_)).foldl max 0
      let pipes := s.vid.pipes.map fun p => if p = some c then none else p
      let s1 := s.putVideo c { x with started := at_, busy := false, watchdog := none, damaged := [], pictures := [],
                                      held := false, withheld := 0, lastLuma := none, lastVectors := [] }
      let s2 := s1.onSession x.session fun y => { y with rxConsumed := y.rxConsumed + x.withheld }
      { s2 with vid := { s2.vid with pipes := pipes } }

/-- VIDEO_CONTEXT_RESTART (R297): every decode context restarts from the journal. -/
def contextRestart (s : State) : State :=
  (Dict.keys s.vid.contexts).foldl (fun (s : State) c => s.restartVideo c) s

def execVideoContextRestart (s : State) : Host.Outcome State Fault Refusal := .next (contextRestart s)

-- Memory errors (R297).

/-- The blocks of a picture that a range of its stored bytes holds: its planes in raster order, then the motion field at 8
bytes a block (log entry 28). -/
def storedBlocks (w h depth from_ n : Nat) : List Nat :=
  let sz := if 8 < depth then 2 else 1
  let across := ceilDiv w 16
  let luma := w * h
  let ch := half w * half h
  let field := roundUp (ceilDiv (w * h * 3) 2 * sz) 64
  (List.range (across * ceilDiv h 16)).filter fun b =>
    (List.range n).any fun k =>
      let o := from_ + k
      if field ≤ o then (o - field) / 8 == b
      else
        let i := o / sz
        if i < luma then i / max w 1 / 16 * across + i % max w 1 / 16 == b
        else if i < luma + 2 * ch then
          let j := (i - luma) % max ch 1
          j / max (half w) 1 / 8 * across + j % max (half w) 1 / 8 == b
        else false

/-- Conceal blocks of a stored picture (R296, R297). -/
def State.damagePicture (s : State) (c n : Nat) (bad : List Nat) : State :=
  match s.video c with
  | none => s
  | some x =>
    match x.pictures.find? (·.number == n) with
    | none => s
    | some p =>
      let others := x.pictures.filter (·.number != n)
      let q := { p with planes := p.planes.conceal (standIn others p.order p.planes.width p.planes.height p.planes.depth) bad,
                        concealed := p.concealed + bad.length, flags := pictureFlags (p.concealed + bad.length) (p.flags / 2 % 2 == 1) (p.flags / 4 % 2 == 1) }
      let y := (x.onPicture n fun _ => q).tally (s.rbit Fld.VID_CTRL_FREEZE) 0 bad.length
      let s1 := s.putVideo c y
      if p.concealed = 0 ∧ p.flags / 2 % 2 = 0 then s1.videoStatus c x.session q else s1

/-- An uncorrectable granule of the video region, `off` bytes into it (R297). -/
def State.damageFrames (s : State) (off : Nat) : State :=
  let quarter := off / 6291456
  let owner := s.vid.contexts.find? fun x => x.2.units.any fun u => u ≤ quarter && quarter < u + (if x.2.full then 4 else 1)
  match owner with
  | none => s.rset Fld.VID_FAULT_ECC 1
  | some (c, x) =>
    match x.units.findIdx? fun u => decide (u ≤ quarter ∧ quarter < u + (if x.full then 4 else 1)) with
    | none => s
    | some u =>
      let at_ := off - listAt 0 x.units u * 6291456
      match x.pictures.find? (·.unit == u) with
      | some p =>
        ((s.videoLoc c p.number).rset Fld.VID_FAULT_ECC 1).damagePicture c p.number
          (storedBlocks p.planes.width p.planes.height p.planes.depth at_ 256)
      | none =>
        let s1 := (s.videoLoc c (x.started - 1)).rset Fld.VID_FAULT_ECC 1
        if x.busy ∧ x.unitFor = u then
          s1.putVideo c { x with damaged := x.damaged ++ storedBlocks x.maxWidth x.maxHeight x.depth at_ 256 }
        else s1

/-- An uncorrectable word of the video bank (R297): which block of which pipe's picture it holds is open (log entry 28). -/
def State.damageVideoBank (s : State) (off : Nat) : State :=
  let (p, blk) := Config.videoBankBlock off
  match (s.vid.pipes[p % 4]?).bind id with
  | none => s.rset Fld.VID_FAULT_ECC 1
  | some c =>
    match s.video c with
    | none => s.rset Fld.VID_FAULT_ECC 1
    | some x => ((s.videoLoc c (x.started - 1)).rset Fld.VID_FAULT_ECC 1).putVideo c { x with damaged := x.damaged ++ [blk] }

end Sys2Proof.Machine
end

