-- ==== Sys2Proof/Machine/MemCmds.lean ====
section
/-! DEFINITION. MemCmds.lean: translation faults, page clearing and spill, uncorrectable granules, marked channels, and bank
faults ("Memory, banks and translation"). -/

namespace Sys2Proof.Machine

-- Work that a fault takes away (R201, R350).

/-- A unit that stands for a sequence whose pages are lost, until REPLAY. -/
def lostUnit (q : Nat) (x : Sequence) (r : Request) : QUnit :=
  { key := seqKey x r 2, kind := .step, row := x.row, seq := q, rows := 1, customer := r.customer, admitRec := r.admitRec, entered := 0 }

/-- A sequence whose pages are lost: its batch's coat is discarded, and it waits to be replayed. -/
def State.loseSequence (s : State) (q : Nat) : State :=
  match s.seq q with
  | none => s
  | some x =>
    match s.request x.row with
    | none => s
    | some r =>
      let s1 := if s.seqInBatch q then s.discardBatch else s
      if s1.srv.affected.any fun u => u.seq == q && u.kind != .pass then s1
      else { s1 with srv := { s1.srv with affected := s1.srv.affected ++ [lostUnit q x r] } }

/-- Suspended batches that satisfy a test are discarded: their requests wait for replay. -/
def State.discardSuspended (s : State) (p : Batch → Bool) : State :=
  let gone := s.srv.suspended.filter p
  { s with srv := { s.srv with suspended := s.srv.suspended.filter fun b => !p b,
                               affected := s.srv.affected ++ (gone.map (·.units)).flatten,
                               spillUsed := s.srv.spillUsed - gone.foldl (fun n b => n + spilledBytes b.spilled) 0 } }

/-- Discard the running batch if it satisfies a test. -/
def State.discardIf (s : State) (p : Batch → Bool) : State := if s.srv.batch.any p then s.discardBatch else s

-- Memory out of service (R183).

/-- The memory goes out of service: F_MEM is raised, the running coat is gone, and the requests of unprotected sessions end with
F_MEM. -/
def State.memoryOut (s : State) : State :=
  if s.rbit Fld.MEM_STATUS_OUT then s
  else
    let s1 := (s.rset Fld.MEM_STATUS_OUT 1).healthEvent Code.F_MEM
    let s2 := s1.discardBatch
    let rows := (s2.srv.requests.filter fun r => !((s2.session r.2.session).any (·.isProtected))).map (·.1)
    rows.foldl (fun (s : State) row => s.failRequest row Code.F_MEM 8) s2

/-- The state of a group in MEM.STATUS.GROUPS. -/
def State.memGroup (s : State) (g : Nat) : Nat := natBits (s.rget Fld.MEM_STATUS_GROUPS) (2 * g) 2

/-- Set the state of a group. -/
def State.setMemGroup (s : State) (g v : Nat) : State :=
  s.rset Fld.MEM_STATUS_GROUPS (s.rget Fld.MEM_STATUS_GROUPS - s.memGroup g * 4 ^ g + v * 4 ^ g)

/-- Is a channel marked (R182)? -/
def State.channelMarked (s : State) (c : Nat) : Bool :=
  if c < 32 then (s.rget Fld.MEM_CH_FAIL0_CH).testBit c
  else if c < 64 then (s.rget Fld.MEM_CH_FAIL1_CH).testBit (c - 32)
  else (s.rget Fld.MEM_CH_FAIL2_CH).testBit (c - 64)

/-- Has MEM.FAULT no bit set? -/
def State.memQuiet (s : State) : Bool :=
  s.rget Fld.MEM_FAULT_MARKED + s.rget Fld.MEM_FAULT_UE + s.rget Fld.MEM_FAULT_TRAIN + s.rget Fld.MEM_FAULT_OUT == 0

/-- Mark a channel failed (R182, R183): a second one in its group is a failed group, and takes the memory out of service. -/
def State.markChannel (s : State) (c : Nat) : State :=
  if 80 ≤ c ∨ s.channelMarked c then s
  else
    let s1 := if c < 32 then s.rset Fld.MEM_CH_FAIL0_CH (s.rget Fld.MEM_CH_FAIL0_CH + 2 ^ c)
      else if c < 64 then s.rset Fld.MEM_CH_FAIL1_CH (s.rget Fld.MEM_CH_FAIL1_CH + 2 ^ (c - 32))
      else s.rset Fld.MEM_CH_FAIL2_CH (s.rget Fld.MEM_CH_FAIL2_CH + 2 ^ (c - 64))
    let s2 := (s1.rsetIf s.memQuiet Fld.MEM_FAULT_LOC_CHANNEL c).rset Fld.MEM_FAULT_MARKED 1
    let g := channelGroup c
    if s.memGroup g = 0 then s2.setMemGroup g 1 else ((s2.setMemGroup g 2).rset Fld.MEM_FAULT_OUT 1).memoryOut

/-- A channel's training, or the correction of its drift, failed: it is marked (R182, R212). -/
def State.trainFailed (s : State) (c : Nat) : State := if c < 80 then (s.markChannel c).rset Fld.MEM_FAULT_TRAIN 1 else s

/-- Training has ended (R186): its results are stored for each channel that it did not fail on, and each data rate. -/
def State.storeTraining (s : State) (failed : List Nat) : State :=
  let keep := (List.range 320).filter fun k => !failed.contains (k / 4)
  { s with mem := { s.mem with training := keep.map fun k => (k, Config.trainingResult s.sec.boots (k / 4) (k % 4)) } }

/-- The memory runs at a data rate (R186, R187): where that changes it, the set point not in use is loaded with the rate's stored
results and comes into use. -/
def State.setRate (s : State) (r : Nat) : State :=
  if s.rget Fld.MEM_STATUS_RATE = r then s
  else
    let m := if s.mem.onFsp1 then { s.mem with fsp0 := some r, onFsp1 := false } else { s.mem with fsp1 := some r, onFsp1 := true }
    ({ s with mem := m } : State).rset Fld.MEM_STATUS_RATE r

/-- The positions of a group's marked channels (R181). -/
def State.markedIn (s : State) (group : Nat) : List Nat := (List.range 10).filter fun p => s.channelMarked (channelAt group p)

-- Translation (R198 to R200, R211, R270).

/-- TRANSLATION_FAULT (R196, R200): an access of a master to a virtual page of an owner. -/
def translationFault (owner vpn : Nat) (write : Bool) (master : Nat) (s : State) : State :=
  (s.access owner vpn write master).1

def execTranslationFault (owner vpn : Nat) (write : Bool) (master : Nat) (s : State) : Host.Outcome State Fault Refusal :=
  .next (translationFault owner vpn write master s)

/-- SPILLED_PAGE_RESTORE (R211): the page comes back from the cartridge and its entry is rewritten with V = 1; a held access
proceeds. -/
def spilledPageRestore (owner vpn : Nat) (s : State) : State :=
  let x := s.desc owner
  let i := x.base + vpn
  let e := s.entry i
  if x.length ≤ vpn ∨ !entryC e ∨ !s.supActs then s
  else
    match Dict.fetch s.mem.cart.spill (entryCart e), s.takePages 1 with
    | some b, some ([p], s1) =>
      let s2 := (s1.putDram (pageAddr p) (slice b 0 65536)).updateEntry owner vpn i (mkEntry p true)
      let s3 : State := { s2 with mem := { s2.mem with held := s2.mem.held.filter (· != (owner, vpn)) } }
      (s3.freeCartSlot (entryCart e)).showCartPages
    | _, _ => s

def execSpilledPageRestore (owner vpn : Nat) (s : State) : Host.Outcome State Fault Refusal :=
  .next (spilledPageRestore owner vpn s)

/-- TABLE_UPDATE_DONE (R198): the completion marker of the updates so far. Every access translated before them has completed, since
commands of this model are whole steps: the pages that the updates took away return to the pool, and the cartridge slots may be used
again. -/
def tableUpdateDone (s : State) : State :=
  let gone := s.mem.cartAfterMarker
  let s1 := s.freePool s.mem.afterMarker
  let cart := { s1.mem.cart with spill := s1.mem.cart.spill.filter fun x => !gone.contains x.1 }
  ({ s1 with mem := { s1.mem with afterMarker := [], cartAfterMarker := [], cart := cart } } : State).showCartPages

def execTableUpdateDone (s : State) : Host.Outcome State Fault Refusal := .next (tableUpdateDone s)

/-- RANGE_MOVE (R199): between two coats, an owner whose range cannot grow at its end moves to a longer free run. -/
def rangeMove (owner : Nat) (s : State) : State :=
  let x := s.desc owner
  let boundary := match s.srv.batch with
    | some b => b.suspended
    | none => true
  let blocked := s.ranges.any fun r => r.1 == x.base + x.length && x.length != 0
  if !boundary ∨ !blocked ∨ !s.supActs then s else (s.moveRange owner (x.length + 1)).getD s

def execRangeMove (owner : Nat) (s : State) : Host.Outcome State Fault Refusal := .next (rangeMove owner s)

/-- PAGE_CLEARED (R193): a freed page has been cleared to zero and is free and clear; a held write that waits for a clear page goes
on (R270), and windows that wait for clear pages are refilled (R325). -/
def pageCleared (page : Nat) (s : State) : State :=
  if Dict.fetch s.mem.pool page = some .awaiting then
    ({ s with mem := { s.mem with pool := Dict.remove s.mem.pool page,
                                  dram := Memory.clear s.mem.dram (pageAddr page) 65536 } } : State).resumeHeld.refillWindows
  else s

def execPageCleared (page : Nat) (s : State) : Host.Outcome State Fault Refusal := .next (pageCleared page s)

/-- Spill one page of a sequence to the lowest free cartridge slot; a shared page stays (R211, R270). -/
def State.spillPage (s : State) (q k : Nat) : State :=
  let i := (s.desc q).base + k
  let e := s.entry i
  let p := entryPage e
  if !entryV e ∨ 1 < leNat (s.dramBytes (pageAddr p + 20) 2) then s
  else
    match Dict.firstFree s.mem.cart.spill 0 (s.mem.cart.spill.length + 1) with
    | none => s
    | some c =>
      let cart := { s.mem.cart with spill := Dict.store s.mem.cart.spill c (s.dramBytes (pageAddr p) 65536),
                                    written := s.mem.cart.written + 65536 }
      let s1 : State := { s with mem := { s.mem with cart := cart } }
      (s1.updateEntry q k i (mkCartEntry c)).freeMapped [p]

/-- The idle sequence that is spilled next: the one that R254 would preempt first. -/
def State.idleVictim (s : State) : Option Nat :=
  (s.srv.sequences.foldl (fun best x =>
    let idle := x.2.phase == .candidates || x.2.phase == .unsent
    if !idle ∨ s.seqInBatch x.1 ∨ !(s.entries x.1).any entryV then best
    else
      match best with
      | some b => if s.preferVictim x b then some x else best
      | none => some x) none).map (·.1)

/-- KV_CARTRIDGE_SPILL (R211): with spilling on, an idle sequence's pages go to the cartridge whole; where no accepted cartridge is
present, or it is at its end of life or read-only, the sequence is preempted instead (R388, R487). No spill write starts in a pull
(R357), in fixed-slot mode (R247) or while the carrier is hot (R444). -/
def kvSpill (s : State) : State :=
  if !s.rbit Fld.MEM_CTRL_CART_SPILL ∨ s.rbit Fld.SRV_MODE_FIXED ∨ !s.supActs ∨ s.cont.quiesced ∨ s.cartHot then s
  else
    match s.idleVictim with
    | none => s
    | some q =>
      if s.rget Fld.SEC_CART_STATE ≠ 1 ∨ s.rbit Fld.SYS_CART_LIFE_EOL ∨ s.mem.cart.readOnly then s.preempt q
      else ((List.range (s.desc q).length).foldl (fun (s : State) k => s.spillPage q k) s).showCartPages

def execKvCartridgeSpill (s : State) : Host.Outcome State Fault Refusal := .next (kvSpill s)

-- Uncorrectable granules (R201).

/-- The request that a journal record is about. -/
def State.recRow (s : State) (r : JRecord) : Option Nat :=
  match r.body with
  | .admitted .. => some (r.index % 4294967296)
  | .complete .. | .refund _ | .stop .. | .candidates _ => some r.subject
  | .allow q _ | .tokens q _ _ | .preempt q => (s.seq q).map (·.row)
  | _ => none

/-- The records that hold bytes of the ring from a place on. -/
def recordsAt (place n : Nat) : Nat → List JRecord → List JRecord
  | _, [] => []
  | at_, r :: rs =>
    let len := recordSpace r.body
    let rest := recordsAt place n (at_ + len) rs
    if at_ < place + n ∧ place < at_ + len then r :: rest else rest

/-- Journal granules: the twin's mirror holds the records; without a healthy twin their requests end with F_MEM. -/
def State.loseRecords (s : State) (off : Nat) : State :=
  if s.cont.twinHealthy then s
  else
    let lost := recordsAt ((off + 4294967296 - s.cont.ringStart) % 4294967296) 256 0 s.cont.journal
    (lost.filterMap s.recRow).foldl (fun (s : State) row => s.failRequest row Code.F_MEM 8) s

/-- The model slot of which a pool page is a page. -/
def State.slotOfPage (s : State) (p : Nat) : Option Nat :=
  (s.srv.slots.find? fun x => x.2.pages.contains p).map (·.1)

/-- The model slot of whose workspace a pool page is a page. -/
def State.slotOfWork (s : State) (p : Nat) : Option Nat :=
  (s.srv.slots.find? fun x => x.2.workPages.contains p).map (·.1)

/-- A page of a model slot is lost: the slot is UNLOADING, and is loaded again to clear pages. -/
def State.reloadSlot (s : State) (k : Nat) : State :=
  let x := s.slot k
  if x.loads then s.failLoad k (.at0 Code.F_MEM)
  else
    let s1 := (s.discardIf fun b => b.slot == k).discardSuspended fun b => b.slot == k
    let s2 := s1.putSlot k { x with state := .unloading, reload := true }
    let s3 := s2.undoLoad k
    { s3 with srv := { s3.srv with loads := s3.srv.loads ++ [k] } }

/-- A workspace page is lost: the coat's requests are replayed, and the workspace has a clear page in its place; while none is clear
the entry names no page. -/
def State.replaceWork (s : State) (k p : Nat) : State :=
  let s1 := (s.discardIf fun b => b.slot == k).discardSuspended fun b => b.slot == k
  let d := workDesc k
  let x := s1.desc d
  match (List.range x.length).find? fun v => entryV (s1.entry (x.base + v)) && entryPage (s1.entry (x.base + v)) == p with
  | none => s1
  | some v =>
    let swap := fun (l : List Nat) => (s1.slot k).workPages.map fun q => if q = p then l.headD p else q
    match s1.takePages 1 with
    | some ([n], s2) => (s2.updateEntry d v (x.base + v) (mkEntry n true)).putSlot k { s2.slot k with workPages := swap [n] }
    | _ => s1.updateEntry d v (x.base + v) 0

/-- What is done for the pool page that held an uncorrectable granule. -/
def State.losePoolPage (s : State) (p : Nat) : State :=
  match s.slotOfPage p with
  | some k => s.reloadSlot k
  | none =>
    match s.slotOfWork p with
    | some k => s.replaceWork k p
    | none =>
      let seqs := (s.srv.sequences.filter fun x => (s.ownerPages x.1).contains p).map (·.1)
      let rows := (s.srv.requests.filter fun r => r.2.input.contains p || r.2.staging.contains p).map (·.1)
      rows.foldl (fun (s : State) row => s.failRequest row Code.F_MEM 8)
        (seqs.foldl (fun (s : State) q => s.loseSequence q) s)

/-- Does a suspended batch's part of the activation spill area hold a byte of a granule at an offset of the area? The parts lie in the
order in which the batches were left (log entry 7). -/
def spillHolds (off : Nat) : Nat → List Batch → List Bool
  | _, [] => []
  | at_, b :: l =>
    let n := spilledBytes b.spilled
    decide (0 < n ∧ at_ < off + 256 ∧ off < at_ + n) :: spillHolds off (at_ + n) l

/-- A granule of the activation spill area is lost: the batch whose ranges it held is discarded (R201). -/
def State.loseSpill (s : State) (off : Nat) : State :=
  let hit := (s.srv.suspended.zip (spillHolds off 0 s.srv.suspended)).filterMap fun x => if x.2 then some x.1 else none
  s.discardSuspended fun b => hit.contains b

/-- The action of R201 for the region of a granule that is uncorrectable. -/
def State.loseGranule (s : State) (g : Nat) : State :=
  let page := g / 256
  if page < 16384 then s.memoryOut
  else if page < 81920 then s.loseRecords ((page - 16384) * 65536 + g % 256 * 256)
  else if page < 131072 then s.damageFrames ((page - 81920) * 65536 + g % 256 * 256)
  else if page < s.poolFirst then s.loseSpill ((page - 131072) * 65536 + g % 256 * 256)
  else if page < s.poolFirst + s.poolLayout then
    ({ s with mem := { s.mem with pool := Dict.store s.mem.pool page .retired } } : State).losePoolPage page
  else s

/-- UNCORRECTABLE_GRANULE (R181, R184, R201): a read of a granule meets wrong symbols, each a position of the group, a codeword and an
error. Where every codeword decodes, the corrected bytes are counted; otherwise the granule is uncorrectable: it is poisoned, the
codewords are counted, the place is recorded, its page is retired, and the region's action is taken. -/
def uncorrectableGranule (g : Nat) (wrong : List (Nat × Nat × Byte)) (s : State) : State :=
  let o := granuleOutcome (s.markedIn (granuleGroup g)) wrong
  let bad := badWords o
  if bad = 0 then
    ((correctedAt o).foldl (fun (s : State) p => s.countHold Fld.MEM_CE_COUNT_COUNT 1 (channelAt (granuleGroup g) p)) s).deliverGranule g
      (leftOver o)
  else
    let s1 := (s.countHold Fld.MEM_UE_COUNT_COUNT bad).rsetIf s.memQuiet Fld.MEM_FAULT_LOC_CHANNEL 127
    let s2 := (s1.rsetIf s.memQuiet Fld.MEM_FAULT_LOC_PAGE (g / 256 % 4194304)).rset Fld.MEM_FAULT_UE 1
    ({ s2 with mem := { s2.mem with poisoned := if s2.mem.poisoned.contains g then s2.mem.poisoned else s2.mem.poisoned ++ [g] } } :
      State).loseGranule g

def execUncorrectableGranule (granule : Nat) (wrong : List (Nat × Nat × Byte)) (s : State) : Host.Outcome State Fault Refusal :=
  .next (uncorrectableGranule granule wrong s)

-- Patrol, calibration and refresh (R182, R184, R186).

/-- PATROL_PASS (R182, R184): the corrected bytes of the pass are counted per channel, and a channel above the threshold is
marked. -/
def patrolPass (corrected : List (Nat × Nat)) (s : State) : State :=
  if !s.rbit Fld.MEM_CTRL_PATROL_EN then s
  else
    let s1 := s.rset Fld.MEM_PATROL_PASSES ((s.rget Fld.MEM_PATROL_PASSES + 1) % 65536)
    corrected.foldl (fun (s : State) (c, n) =>
      if 80 ≤ c then s
      else
        let t := s.countHold Fld.MEM_CE_COUNT_COUNT n c
        if s.rget Fld.MEM_CE_THRESH_THRESH < n then t.markChannel c else t) s1

def execPatrolPass (corrected : List (Nat × Nat)) (s : State) : Host.Outcome State Fault Refusal := .next (patrolPass corrected s)

/-- DQS_OSCILLATOR_READ (R182, R186): delays are adjusted; a channel whose drift is beyond correction is marked. -/
def dqsRead (drifted : List Nat) (s : State) : State :=
  drifted.foldl (fun (s : State) c => s.trainFailed c) s

def execDqsOscillatorRead (drifted : List Nat) (s : State) : Host.Outcome State Fault Refusal := .next (dqsRead drifted s)

/-- ZQ_CALIBRATION (R186): background calibration of the drivers, which no state of the module shows. -/
def execZqCalibration (s : State) : Host.Outcome State Fault Refusal := .next s

/-- MR4_READ (R186): the value read sets the refresh interval. -/
def execMr4Read (code : Nat) (s : State) : Host.Outcome State Fault Refusal :=
  .next { s with mem := { s.mem with mr4 := code } }

/-- PER_BANK_REFRESH (R186): refresh keeps every byte as it is. -/
def execPerBankRefresh (s : State) : Host.Outcome State Fault Refusal := .next s

-- Bank faults (R206 to R208).

/-- A trim core faults with BANK at its present instruction; of any other master the coat is discarded and F_BANK raised. -/
def State.bankFault (s : State) (master bank unit : Nat) : State :=
  if 2 ≤ master ∧ master ≤ 65 then s.coreFault (master - 2) (s.core (master - 2)).pc.toNat
  else
    let s1 := ((s.bankLoc master bank unit).rset Fld.BANK_FAULT_COLLISION 1).discardBatch
    s1.healthEvent Code.F_BANK

/-- BANK_COLLISION (R206, R207): two masters write one word in one handshake, each its own 64 bytes: the bank keeps those of the
lower master number. -/
def bankCollision (m1 m2 bank unit : Nat) (d1 d2 : List Byte) (s : State) : State :=
  let kept := slice (if m1 < m2 then d1 else d2) 0 64
  let s1 := s.count Fld.BANK_COLLISIONS_COUNT
  (if 64 * unit + 64 ≤ bankSize bank then s1.putBank bank (64 * unit) kept else s1).bankFault (max m1 m2) bank unit

def execBankCollision (m1 m2 bank unit : Nat) (d1 d2 : List Byte) (s : State) : Host.Outcome State Fault Refusal :=
  .next (bankCollision m1 m2 bank unit d1 d2 s)

/-- The binding that a coat's programs read at a 64-byte unit of a bank: a source, or a box list. -/
def Work.readAt (w : Work) (bank unit : Nat) : Option Nat :=
  let read := ((w.g.programsOf w.c).map fun p => if p.kind = 4 then [p.src, p.aux] else [p.src]).flatten
  read.find? fun i =>
    let b := w.g.binding i
    b.inCoreView && b.bankId == bank && decide (b.offset / 64 ≤ unit) && (b.kind == 7 || decide (unit < (b.offset + b.size) / 64))

/-- Note a feed generator's uncorrectable read (R112, R208). -/
def State.feedUncorr (s : State) (master bank unit : Nat) : State :=
  if 67 ≤ master ∧ master ≤ 74 then
    let quiet := s.rget Fld.FEED_FAULT_BANK_UNCORR + s.rget Fld.FEED_FAULT_COUNT == 0
    let i := s.masterCoat master
    let binding := ((s.coatAt i).bind fun w => w.readAt bank unit).getD 255
    let s1 := if quiet then
        ((s.rset Fld.FEED_FAULT_LOC_GENERATOR (master - 67)).rset Fld.FEED_FAULT_LOC_BINDING binding).rset Fld.FEED_FAULT_LOC_COAT i
      else s
    s1.rset Fld.FEED_FAULT_BANK_UNCORR 1
  else s

/-- BANK_UNCORRECTABLE (R208): a master reads a word whose eight subwords hold so many wrong bits each. One wrong bit is corrected
and counted. Two are an uncorrectable subword: counted, and handled as BANK for a trim core, as concealment for the video engine's own
bank (R297), and as a collision for any other master. -/
def bankUncorrectable (master bank unit : Nat) (wrong : List Nat) (s : State) : State :=
  let s0 := s.countHold Fld.BANK_CE_COUNT_COUNT ((wrong.filter (· == 1)).length)
  let bad := (wrong.filter fun n => 2 ≤ n).length
  if bad = 0 then s0
  else
    let s1 := ((s0.countHold Fld.BANK_UE_COUNT_COUNT bad).bankLoc master bank unit).rset Fld.BANK_FAULT_UE 1
    if bank = 0x64 ∧ master = 76 then s1.damageVideoBank (unit * 64) else (s1.feedUncorr master bank unit).bankFault master bank unit

def execBankUncorrectable (master bank unit : Nat) (wrong : List Nat) (s : State) : Host.Outcome State Fault Refusal :=
  .next (bankUncorrectable master bank unit wrong s)

end Sys2Proof.Machine
end

