-- ==== Sys2Proof/Machine/Contin.lean ====
section
/-! DEFINITION. Contin.lean: the front-end pair, the supervisor pair, checkpoints, takeover and replay ("Continuity:
redundancy, journals and replay"; log entry 29). -/

namespace Sys2Proof.Machine

-- The front-end pair (R334 to R336).

/-- The paths that satisfy a test, as session number and path number. -/
def State.pathsWhere (s : State) (p : Path → Bool) : List (Nat × Nat) :=
  (s.net.sessions.map fun x => (x.2.paths.filter p).map fun q => (x.2.number, q.number)).flatten

/-- Give a path to a front end, in a new epoch: its unacknowledged fragments are sent again (R311, R335). -/
def State.givePath (s : State) (x : Side) (k : Nat × Nat) : State :=
  ((s.onPath k.1 k.2 fun p => { p with fe := x, down := false }).newEpoch k.1 k.2).pumpAll k.1 k.2

/-- A front end is held in reset and restarts with its slice: its paths on ports 2 to 5 pass to the other, those on its command
port are down (R335, R402). -/
def State.stopFe (s : State) (x : Side) : State :=
  if (s.fe x).state = .starting ∨ (s.fe x).state = .down then s
  else
    let s1 := (s.putFe x { (s.fe x) with state := .starting, still := 0 }).startSlice 12 (match x with
      | .a => 0
      | .b => 1)
    let data := s1.pathsWhere fun p => p.fe == x && decide (2 ≤ p.port)
    let cmd := s1.pathsWhere fun p => p.fe == x && decide (p.port < 2)
    let s2 := if s1.feUp (otherSide x) then data.foldl (fun (s : State) k => s.givePath (otherSide x) k) s1
      else data.foldl (fun (s : State) k => s.pathDown k.1 k.2) s1
    cmd.foldl (fun (s : State) k => s.pathDown k.1 k.2) s2

/-- A front end that fails is restarted, and a coat whose deliveries its collector half held is discarded (R335). -/
def State.failFe (s : State) (x : Side) : State :=
  if (s.fe x).state = .starting ∨ (s.fe x).state = .down then s
  else
    ((s.stopFe x).discardIf fun b => b.runs.any fun r => !r.deliveries.isEmpty).rset (match x with
      | .a => Fld.NET_FAULT_FE_A
      | .b => Fld.NET_FAULT_FE_B) 1

/-- One reading of a front end's beat by the active supervisor: a beat that has not changed for 1 ms fails it. -/
def State.watchBeat (s : State) (x : Side) : State :=
  let f := s.fe x
  if f.state ≠ .up ∧ f.state ≠ .clean then s
  else if f.beat ≠ f.seen then s.putFe x { f with seen := f.beat, still := 0 }
  else if 1000 ≤ f.still + 250 then s.failFe x
  else s.putFe x { f with still := f.still + 250 }

/-- BEAT_WATCH (R335): every 250 µs the active supervisor reads both beats. -/
def beatWatch (s : State) : State := if s.cont.acting then (s.watchBeat .a).watchBeat .b else s

def execBeatWatch (s : State) : Host.Outcome State Fault Refusal := .next (beatWatch s)

/-- FRONT_END_INTERNAL_ERROR (R335). -/
def execFrontEndInternalError (side : Side) (s : State) : Host.Outcome State Fault Refusal := .next (s.failFe side)

/-- FRONT_END_BEAT_ADVANCE (R335): a front end that runs advances its beat. -/
def beatAdvance (x : Side) (s : State) : State :=
  let f := s.fe x
  if f.state = .up ∨ f.state = .clean then s.putFe x { f with beat := (f.beat + 1) % 4294967296 } else s

def execFrontEndBeatAdvance (side : Side) (s : State) : Host.Outcome State Fault Refusal := .next (beatAdvance side s)

/-- A front end that has shown 1 s of clean health gets back the paths it formed (R336). -/
def State.returnFe (s : State) (x : Side) : State :=
  let f := s.fe x
  if f.state ≠ .clean then s
  else
    let s1 := s.putFe x { f with state := .up, seen := f.beat, still := 0 }
    (s1.pathsWhere fun p => p.home == x).foldl (fun (s : State) k => s.givePath x k) s1

/-- FRONT_END_RETURN (R336). -/
def execFrontEndReturn (s : State) : Host.Outcome State Fault Refusal := .next ((s.returnFe .a).returnFe .b)

-- The supervisor pair (R337 to R343).

/-- The active supervisor: the one that holds the lease. -/
def State.active (s : State) : Side := if s.rbit Fld.CONT_STATUS_ACTIVE then .b else .a

/-- A supervisor's state. -/
def State.sup (s : State) (x : Side) : SupState :=
  match x with
  | .a => s.cont.supA
  | .b => s.cont.supB

/-- The code of CONT.STATUS.STANDBY for the supervisor that does not hold the lease. -/
def standbyCode : SupState → Nat
  | .holder => 0
  | .standby => 1
  | .testing => 2
  | .unusable => 3

/-- Store a supervisor's state, and show the standby's in CONT.STATUS. -/
def State.putSup (s : State) (x : Side) (v : SupState) : State :=
  let s1 : State := match x with
    | .a => { s with cont := { s.cont with supA := v } }
    | .b => { s with cont := { s.cont with supB := v } }
  s1.rset Fld.CONT_STATUS_STANDBY (standbyCode (s1.sup (otherSide s1.active)))

/-- The bytes of a checkpoint's counters and accounts, which its digest seals (R338; log entry 29). -/
def State.checkpointBytes (s : State) (covers : Nat) : List Byte :=
  leBytes 8 covers ++ (s.net.sessions.map fun x => leBytes 4 x.2.number ++ leBytes 8 x.2.counter).flatten ++
    (s.srv.accounts.map fun x => leBytes 4 x.1 ++ leBytes 8 x.2.balance ++ leBytes 4 x.2.grant).flatten

/-- Forget copies of partner messages whose request has ended (R352). -/
def State.pruneCopies (s : State) : State :=
  let live := fun (d : Delivered) => s.srv.requests.any fun r => r.2.session == d.session && r.2.number == d.number
  { s with net := { s.net with copies := s.net.copies.filter live } }

/-- Write a checkpoint: sealed, to the two slots in turn, with its record; then the journal's space is freed (R338, R349). -/
def State.writeCheckpoint (s : State) : State :=
  let n := s.lastIndex
  let d := sha384 (s.checkpointBytes n)
  let k := s.cont.nextCheckpoint
  let c : Checkpoint := { covers := n, counters := s.net.sessions.map fun x => (x.1, x.2.counter), digest := d }
  let s1 : State := { s with cont := { s.cont with checkpoints := s.cont.checkpoints.set k (some c), nextCheckpoint := 1 - k },
                             mem := { s.mem with descCopy := s.mem.descs.map fun x => (x.1, x.2.bytes) } }
  (s1.journal 0 0 (.checkpoint k d n)).trimJournal.pruneCopies

/-- The holder releases the lease: it stops its bound actions, and the cell accepts a claim at once (R340, R343). -/
def State.releaseLease (s : State) : State :=
  { s with cont := { s.cont with released := true, acting := false, returnAsked := false } }

/-- May the supervisor that holds the lease act (R340)? -/
def State.holderActs (s : State) : Bool := s.cont.acting && !s.cont.released && s.cont.claimed.isNone && !s.boot.down

/-- CHECKPOINT (R338); the holder releases the lease after it where the preferred supervisor has asked (R343). -/
def checkpointEffect (s : State) : State :=
  if !s.holderActs then s
  else
    let s1 := s.writeCheckpoint
    if s.cont.returnAsked then s1.releaseLease else s1

def execCheckpoint (s : State) : Host.Outcome State Fault Refusal := .next (checkpointEffect s)

/-- LEASE_RENEWAL (R340, R342): the cell accepts the holder's renewal and counts it; that of a supervisor that has lost the lease
is refused, and that supervisor resets partially and runs its slice. -/
def leaseRenewal (s : State) : State :=
  let x := otherSide s.active
  if s.sup x = .holder then (s.putSup x .testing).startSlice 13 (match x with
    | .a => 0
    | .b => 1)
  else if s.sup s.active ≠ .holder ∨ s.cont.released ∨ s.boot.down then s
  else
    let s1 := s.rset Fld.CONT_RENEWALS_COUNT ((s.rget Fld.CONT_RENEWALS_COUNT + 1) % 4294967296)
    { s1 with cont := { s1.cont with acting := s1.cont.claimed.isNone } }

def execLeaseRenewal (s : State) : Host.Outcome State Fault Refusal := .next (leaseRenewal s)

/-- LEASE_HOLD_LIMIT (R340): 40 ms since its last accepted renewal, the holder stops its bound actions. -/
def execLeaseHoldLimit (s : State) : Host.Outcome State Fault Refusal :=
  .next { s with cont := { s.cont with acting := false } }

/-- Has an oscillator of a side failed (R418)? CLK.STATUS.OSC_FAIL holds fast A, fast B, slow A, slow B. -/
def State.sideFailed (s : State) (x : Side) : Bool :=
  let f := s.rget Fld.CLK_STATUS_OSC_FAIL
  match x with
  | .a => f.testBit 0 || f.testBit 2
  | .b => f.testBit 1 || f.testBit 3

/-- An accepted claim (R340, R342): epoch + 1, a LEASE record, and the claimant is the holder; the takeover is yet to run. -/
def State.claimLease (s : State) : State :=
  let x := otherSide s.active
  let e := (s.rget Fld.CONT_LEASE_EPOCH + 1) % 4294967296
  let gave := s.cont.released
  let s1 := (s.rset Fld.CONT_LEASE_EPOCH e).rset Fld.CONT_STATUS_ACTIVE (match x with
    | .a => 0
    | .b => 1)
  let s2 : State := { s1 with cont := { s1.cont with claimed := some e, byRelease := gave, acting := false, released := false, standbyPolls := 0 } }
  let s3 := (s2.putSup x .holder).putSup (otherSide x)
    (if s.sideFailed (otherSide x) then .unusable else if gave then .standby else .holder)
  s3.journal 0 0 (.lease e)

/-- STANDBY_LEASE_POLL (R340): each 1 ms the standby reads the count; 70 readings without change, or a release, make it claim. -/
def standbyPoll (s : State) : State :=
  let x := otherSide s.active
  if s.sup x ≠ .standby ∨ s.boot.down then s
  else if s.cont.released then s.claimLease
  else
    let n := s.rget Fld.CONT_RENEWALS_COUNT
    if n ≠ s.cont.standbyCount then
      { s with cont := { s.cont with standbyCount := n, standbyPolls := 0 }, boot := { s.boot with testStopped := false } }
    else if 70 ≤ s.cont.standbyPolls + 1 then s.claimLease
    else { s with cont := { s.cont with standbyPolls := s.cont.standbyPolls + 1 } }

def execStandbyLeasePoll (s : State) : Host.Outcome State Fault Refusal := .next (standbyPoll s)

/-- The newest checkpoint. -/
def State.newestCheckpoint (s : State) : Option Checkpoint :=
  s.cont.checkpoints.foldl (fun best c =>
    match best, c with
    | none, c => c
    | some b, some c => if b.covers ≤ c.covers then some c else some b
    | b, none => b) none

/-- The module counters that a new holder resumes at (R321): the checkpointed value, or that of a later SESSION record, plus
2^20; never below the present one. -/
def State.resumeCounters (s : State) : State :=
  let c := s.newestCheckpoint
  let counters := (c.map (·.counters)).getD []
  let mark := (c.map (·.covers)).getD 0
  let later := fun (n : Nat) => s.cont.journal.foldl (fun m r => match r.body with
    | .session _ k => if r.session = n ∧ mark < r.index then max m k else m
    | _ => m) 0
  { s with net := { s.net with sessions := s.net.sessions.map fun (k, x) =>
      (k, { x with counter := max x.counter (max ((Dict.fetch counters k).getD 1) (later x.number) + 1048576) }) } }

/-- A load in steps 2 to 4 of R170 is carried out again from step 2 (R172): its pages are freed, and its slot is EMPTY until the load
begins again. A slot that is loaded again for a lost page stays UNLOADING (R201). -/
def State.replayLoads (s : State) : State :=
  let s1 := s.srv.loads.foldl (fun (s : State) k =>
    if (s.slot k).loads ∧ (2 ≤ (s.slot k).step ∨ s.rbit Fld.LATH_LOAD_BUSY ∧ s.rget Fld.LATH_LOAD_SLOT = k) then
      let t := (s.undoLoad k).showLoad k 1 false
      t.putSlot k { t.slot k with state := if (s.slot k).state = .loading then .empty else (s.slot k).state }
    else s) s
  { s1 with srv := { s1.srv with loadsLost := false } }

/-- Entries of the tree that a sequence's step in progress has written (R264, R277): those of a step's unit, not of a prompt's. -/
def Sequence.treeCount (x : Sequence) : Nat :=
  if (x.phase == .running || x.phase == .recorded) && decide (x.promptRows.length ≤ x.done ∧ !x.rebuild) then
    x.stepTree.tokens.length else 0

/-- Rewrite the committed and tree counts of every key-value page from the journal (R264). -/
def State.rewriteCounts (s : State) : State :=
  s.srv.sequences.foldl (fun (s : State) x => s.setCounts x.1 0 x.2.committed x.2.treeCount) s

/-- TAKEOVER (R321, R342, R343, R172, R407): the new holder loads the checkpoint, applies the later records and resumes bound actions. What
the checkpoint and the records hold is what the state holds (log entry 29). A hand-over under R343 is no takeover: it is not counted. -/
def takeoverEffect (s : State) : State :=
  if s.cont.claimed.isNone ∨ s.boot.down then s
  else
    let s1 := if s.cont.byRelease then s
      else (s.resumeCounters.countHold Fld.CONT_TAKEOVERS_COUNT).rset Fld.CONT_FAULT_TAKEOVER 1
    let s2 : State := { s1 with cont := { s1.cont with claimed := none, acting := true } }
    let s3 := if s.cont.byRelease then s2 else s2.enterFallback
    s3.rewriteCounts.replayLoads

def execTakeover (s : State) : Host.Outcome State Fault Refusal := .next (takeoverEffect s)

/-- The preferred supervisor (R337). -/
def State.preferred (s : State) : Side := if s.rbit Fld.CONT_CTRL_PREFER then .b else .a

/-- Hand the lease to a ready standby (R343): a checkpoint, then the release. Where the holder cannot act, the request stays
pending. -/
def State.handOver (s : State) : State :=
  if s.sup (otherSide s.active) ≠ .standby then s
  else if s.holderActs then s.writeCheckpoint.releaseLease
  else { s with cont := { s.cont with returnAsked := true } }

/-- PREFERRED_LEASE_RETURN (R343). -/
def preferredReturn (s : State) : State := if s.active = s.preferred then s else s.handOver

def execPreferredLeaseReturn (s : State) : Host.Outcome State Fault Refusal := .next (preferredReturn s)

/-- HANDOVER (R343): CONT.CTRL.HANDOVER hands the lease to the standby, preferred or not. -/
def execHandover (s : State) : Host.Outcome State Fault Refusal := .next s.handOver

-- Replay (R350).

/-- A pass request whose coat was discarded returns to its queue with its ADMIT index. -/
def State.replayPass (s : State) (u : QUnit) : State :=
  match s.request u.row with
  | none => s
  | some r =>
    (s.putRequest { r with started := false, flags := 0, isEmpty := false, delivered := [] }).enqueue u |>.countHold
      Fld.CONT_REPLAYS_COUNT

/-- A sequence is rebuilt under R255 and goes on from its last TOKENS record; one whose step's record is durable, or whose end is
recorded (R240), finishes the step first. A step whose record is not durable runs again from step 1 (R278): the tokens it took from the
allowance return to it. -/
def State.replaySeq (s : State) (q : Nat) : State :=
  match s.seq q with
  | none => s
  | some x =>
    if x.phase = .stopped then s
    else
      let s1 := s.shrink q 0
      let s2 := s1.putDesc q { base := 0, length := 0, kind := 1, readOnly := false, slot := x.slot }
      let s3 : State := { s2 with srv := { s2.srv with queue := s2.srv.queue.filter fun u => u.seq != q || u.kind == .pass } }
      let y : Sequence := if x.phase = .recorded ∧ (s.durable x.stepRecord ∨ x.stop.isSome) then { x with lost := true }
        else { x with phase := .preempted, done := 0, committed := 0, shared := 0, sampled := [], path := [], stepTokens := [],
                      allowance := x.allowance + x.stepTokens.length * (s.slot x.slot).tokenCost }
      (s3.putSeq q y).countHold Fld.CONT_REPLAYS_COUNT

/-- REPLAY (R172, R350): a load that a partial reset met is carried out again, affected pass requests are queued again, affected
sequences are rebuilt, and the first replay after a fault raises a HEALTH_EVENT. -/
def replayEffect (s0 : State) : State :=
  if !s0.supActs ∨ s0.sliceRuns 7 0 ∨ s0.sliceRuns 9 0 then s0
  else
    let s := if s0.srv.loadsLost then s0.replayLoads else s0
    if s.srv.affected.isEmpty then s
    else
      let l := s.srv.affected
      let s1 : State := { s with srv := { s.srv with affected := [] } }
      let s2 := (l.filter (·.kind == .pass)).foldl (fun (s : State) u => s.replayPass u) s1
      let s3 := (((l.filter (·.kind != .pass)).map (·.seq)).eraseDups).foldl (fun (s : State) q => s.replaySeq q) s2
      s3.rewriteCounts.healthEvent Code.F_REPLAYED

def execReplay (s : State) : Host.Outcome State Fault Refusal := .next (replayEffect s)

end Sys2Proof.Machine
end

