-- ==== Sys2Proof/Machine/Resets.lean ====
section
/-! DEFINITION. Resets.lean: the full reset, what outlives it, the keys it derives, and the module held in reset (R144, R209,
R367, R368, R386, R403, R405, R407, R458, R468, R473, R474, R476; log entry 30). -/

namespace Sys2Proof.Machine

/-- The registers that show what lies outside the reset: identity, straps, couplings, panel, the anti-rollback counter and
whether debug has been open since power-on. -/
def lastingRegs : List Nat :=
  [Fld.SYS_ID_GEN.addr, Fld.SYS_STRAPS_SLOT.addr, Fld.SYS_COUPLING_CYCLES.addr, Fld.SYS_PANEL_IDENTIFY.addr,
   Fld.SEC_SECVER_VERSION.addr]

/-- The pins of J1, which a reset does not move. -/
def lastingFields : List Field :=
  [Fld.SYS_J1_PS1, Fld.SYS_J1_PS2, Fld.SYS_J1_PWR_EN, Fld.SYS_J1_THROTTLE, Fld.SYS_J1_TAMPER, Fld.SEC_DEBUG_EVER]

/-- The registers after a full reset: those that last, and the reset value of every other. -/
def State.resetRegs (s : State) : Regs :=
  let kept : Regs := s.regs.filter fun x => lastingRegs.contains x.1
  lastingFields.foldl (fun (r : Regs) (f : Field) => Regs.set r f (s.rget f)) kept

/-- The key slots that the key engine fills in step 2 of start-up (R367, R368, R386). -/
def keysFor (salt : List Byte) : Dict (List Byte) :=
  let job := hkdfExtract salt (slice Config.dus 0 32)
  [(0, identityPrivate), (1, hkdfExpand prkDev (ascii "QMEM1") 64), (2, hkdfExpand prkDev (ascii "QFLASH1") 32),
   (3, hkdfExpand job (ascii "QJOB1 seal") 32), (4, hkdfExpand job (ascii "QJOB1 spill") 64)]

/-- Does a package lie staged in the inactive bank after a reset in the present state (R405, R407)? -/
def State.staysStaged (s : State) : Bool := 2 ≤ s.rget Fld.FWU_STATE_STATE && s.fwu.staged.isSome

/-- A full reset: every block takes its reset state. What fuses, boot flash, the power controller, the identity EEPROM, the
pins and the cartridge hold outlives it. A reset in ACTIVATING or TRIAL falls back to the confirmed bank (R407). -/
def State.fullReset (s : State) (cause : Nat) : State :=
  let f := s.rget Fld.FWU_STATE_STATE
  let back : Bool := decide (3 ≤ f) && !s.fwu.tryOnce
  let cause := if back ∧ 1 ≤ cause then 4 else cause
  let staged := if s.staysStaged then s.fwu.staged else none
  let cart := { s.mem.cart with powered := false, spill := [] }
  let sec : SecState := { fuses := s.sec.fuses, enrolment := s.sec.enrolment, switchNumber := s.sec.switchNumber,
                          boots := s.sec.boots + 1, jobSalt := s.sec.jobSalt }
  let fwu : FwuState := { staged := staged, running := s.fwu.confirmed, confirmed := s.fwu.confirmed, tryOnce := s.fwu.tryOnce && staged.isSome,
                          settings := s.fwu.settings }
  let s1 : State := { pending := s.pending, free := s.free, variant := s.variant, regs := s.resetRegs,
                      mem := { cart := cart }, sec := sec, fwu := fwu, pwr := { rackCap := s.maxCap }, hw := s.hw,
                      cont := { nextFlush := s.cont.nextFlush } }
  let coolant := match s.variant with
    | .w => 0
    | .a => 5
  let s2 := ((s1.rset Fld.SYS_RESET_CAUSE cause).rset Fld.PWR_CAP_MW s.maxCap).rset Fld.THM_STATUS_COOLANT coolant
  if staged.isSome then (s2.rset Fld.FWU_STATE_STATE 2).rset Fld.FWU_STATE_FELL_BACK
    (if back then 1 else s.rget Fld.FWU_STATE_FELL_BACK) else s2

/-- The run has ended for a cause: the module is held in reset or off, its sessions and memory are gone, and it serves nothing
until power-enable rises again. -/
def State.stopRun (s : State) (cause : Nat) : State :=
  { s with boot := { s.boot with down := true, step := 0, due := [], raw := none, ended := some cause },
           srv := { s.srv with batch := none }, net := { s.net with sessions := [], inbox := [] } }

/-- The status page that the module writes to the identity EEPROM (R480): format, health, cause, unusable mask, slice results,
boot time and last event code. -/
def State.writeStatusPage (s : State) : State :=
  let p := leBytes 1 1 ++ leBytes 1 s.health ++ leBytes 1 s.hw.cause ++ [0] ++ leBytes 4 (s.rget Fld.BIST_UNUSABLE_BLOCKS) ++
    s.sliceBytes ++ leBytes 4 (s.rget Fld.BIST_BOOT_MS_MS) ++ leBytes 2 s.boot.eventCode.toNat ++ zeroBytes 222
  { s with hw := { s.hw with statusPage := p ++ leBytes 4 (crc32c p) } }

/-- Set a bit of the power controller's status byte; ALERT# is asserted while any of bits 1 to 5 is set (R479). -/
def State.hwStatus (s : State) (bit : Nat) (on : Bool) : State :=
  let m : BitVec 8 := BitVec.ofNat 8 (2 ^ bit)
  let v : BitVec 8 := if on then s.hw.status ||| m else s.hw.status &&& ~~~m
  { s with hw := { s.hw with status := v, alert := (v &&& 0x3E) != 0 } }

/-- The module cannot serve (R458): OP0 at 1/64, FAULT#, the status page; it stays so until power-enable is cycled. -/
def State.cannotServe (s : State) : State :=
  let s1 := ((s.rset Fld.PWR_STATUS_POINT 0).rset Fld.PWR_STATUS_TARGET 0).rset Fld.PWR_PACE_EFFECTIVE 1
  let s2 := (s1.rset Fld.SYS_J1_FAULT_OUT 1).rset Fld.BIST_STATUS_HALTED 1
  let s3 : State := { s2 with hw := { s2.hw with cause := 3 }, boot := { s2.boot with down := true, ended := some 7 } }
  (s3.hwStatus 2 true).writeStatusPage

end Sys2Proof.Machine
end

