-- ==== Sys2Proof/Machine/Trust.lean ====
section
/-! DEFINITION. Trust.lean: measurements, signed reports, tenant switch and the debug port ("Identity, attestation and tenant
isolation"; R489; log entries 3 and 31). -/

namespace Sys2Proof.Machine

-- The configuration digest and the measurements (R361, R376, R377).

/-- fw of R361: the SHA-384 of the eight measurements. -/
def State.fwDigest (s : State) : List Byte := sha384 s.sec.meas.flatten

/-- The configuration digest that an epoch with a payload's digest gives (R361). -/
def State.configDigestOf (s : State) (epoch : Nat) (payload : List Byte) : List Byte :=
  let slots := (List.range 16).map fun k => if (s.slot k).state = .ready then slice (s.slot k).digest 0 48 else zeroBytes 48
  sha384 (ascii "QCFG1" ++ leBytes 8 epoch ++ s.fwDigest ++ slots.flatten ++ payload)

/-- The digest of the active configuration, CONT.DIGEST (R361). -/
def State.configDigest (s : State) : List Byte := s.configDigestOf s.cont.config.epoch s.cont.config.payload

/-- A measurement slot. -/
def State.measurement (s : State) (m : Nat) : List Byte := listAt (zeroBytes 48) s.sec.meas m

/-- The SEC engine writes a measurement slot (R376). -/
def State.setMeasurement (s : State) (m : Nat) (d : List Byte) : State :=
  { s with sec := { s.sec with meas := s.sec.meas.set m (slice d 0 48) } }

/-- A register of the protection set-up as it enters M7 (R377): whole, its reserved bits as zero, as a 32-bit little-endian word. -/
def State.lockedWord (s : State) (addr sel : Nat) : List Byte :=
  match regDesc addr with
  | none => []
  | some d => leBytes 4 ((Regs.word s.regs addr sel).toNat &&& d.named)

/-- BANK.ENV_CFG, BANK.ENV_BASE and BANK.ENV_LIMIT of a master's envelope: written by boot code as part of the protection
set-up (R204, R214). -/
def State.envelope (s : State) (m i : Nat) : Word × Word × Word :=
  match (bankRuns m)[i]? with
  | some (a, b, u) => if s.rbit Fld.SEC_LOCK_DONE then (BitVec.ofNat 32 (a + 0x700 + b * 2048), 0, BitVec.ofNat 32 u) else (0, 0, 0)
  | none => (0, 0, 0)

/-- Every master and index of an envelope (R204). -/
def envelopeCopies : List (Nat × Nat) := ((List.range 82).map fun m => (List.range 8).map fun i => (m, i)).flatten

/-- The bytes that M7 digests (R377), in ascending address order. -/
def State.protectionBytes (s : State) : List Byte :=
  let gate := leBytes 4 (s.rget Fld.SYS_GATE_LOCK * 65536)
  let model := (List.range 8).map fun i => s.lockedWord (0x20060 + 4 * i) 0
  let coef := (List.range 24).map fun h => leBytes 4 (coefA h).toNat ++ leBytes 4 (coefR h).toNat
  let trim := ((List.range 256).filter fun i => (regDesc (0x120000 + 4 * i)).any fun d => d.lk ≠ 0).map fun i =>
    s.lockedWord (0x120000 + 4 * i) 0
  let layout := leBytes 4 (s.rget Fld.MEM_LAYOUT_SPILL_GIB + 256 * s.poolFirst)
  let env := envelopeCopies.map fun k =>
    let e := s.envelope k.1 k.2
    leBytes 4 e.1.toNat ++ leBytes 4 e.2.1.toNat ++ leBytes 4 e.2.2.toNat
  gate ++ model.flatten ++ coef.flatten ++ s.lockedWord 0x4000C 0 ++ s.lockedWord 0x100008 0 ++ trim.flatten ++
    layout ++ env.flatten ++ s.lockedWord 0x500004 0 ++ s.lockedWord 0x500008 0

/-- The protection set-up is locked, and M7 is formed (R377). -/
def State.lockSetup (s : State) : State :=
  let s1 := s.rset Fld.SEC_LOCK_DONE 1
  s1.setMeasurement 7 (sha384 s1.protectionBytes)

-- The report (R379 to R382).

/-- The state byte of a report (R381, R405): staged until the first commit of an activation, then on trial. -/
def State.reportState (s : State) : Nat :=
  match s.rget Fld.FWU_STATE_STATE with
  | 2 => 1
  | 3 => if s.fwu.committed.isEmpty then 1 else 2
  | 4 => 2
  | 5 => if s.fwu.committed.isEmpty then 1 else 2
  | _ => 0

/-- Does a slice of the block of a measurement slot run (R382, R465)? -/
def State.slotInSlice (s : State) (m : Nat) : Bool :=
  let slices := match m with
    | 2 => [13]
    | 3 => [12]
    | 5 => [10]
    | 6 => [7, 8, 9]
    | _ => []
  (s.boot.due ++ s.boot.raw.toList).any fun k => slices.contains k.1

/-- The status of the block of a measurement slot (R381; log entry 31). -/
def State.blockStatus (s : State) (m : Nat) : Nat :=
  let bad := s.rget Fld.BIST_UNUSABLE_BLOCKS
  let out := match m with
    | 2 => bad.testBit 13 && bad.testBit 14
    | 3 => bad.testBit 11 && bad.testBit 12
    | 4 => s.rbit Fld.MEM_STATUS_OUT
    | 5 => bad.testBit 3
    | 6 => s.rbit Fld.ARR_REMAP_UNUSABLE || s.rbit Fld.TRIM_STATUS_UNUSABLE
    | _ => false
  if out then 2 else if s.slotInSlice m then 1 else 0

/-- The tenant identifier; zero for the empty tenant. -/
def State.tenant (s : State) : List Byte := (s.sec.enrolment.map (·.tenant)).getD (zeroBytes 16)

/-- Is the empty tenant installed (SEC.OWNER.EMPTY_TENANT)? -/
def State.emptyTenant (s : State) : Bool := (s.sec.enrolment.map (·.isEmpty)).getD true

/-- The flags of a report (R379). -/
def State.reportFlags (s : State) : Nat :=
  s.rget Fld.SEC_DEBUG_EVER + 2 * (if s.unowned then 1 else 0) + 4 * (if s.emptyTenant then 1 else 0) +
    8 * s.rget Fld.CONT_STATUS_RESTORED

/-- A slot entry of a report (R380). -/
def State.slotEntry (s : State) (k : Nat) : List Byte :=
  let x := s.slot k
  let shown := x.state = .ready ∨ x.state = .unloading
  leBytes 1 k ++ leBytes 1 (slotCode x.state) ++ zeroBytes 2 ++
    leBytes 4 ((x.image.map (·.header.version)).getD 0) ++ slice ((x.image.map (·.header.ident)).getD []) 0 16 ++
    (if shown then slice x.digest 0 48 else zeroBytes 48) ++ zeroBytes 8

/-- The ATTEST_REPORT for a nonce, flags and the salt of the session on which it was asked (R379). -/
def State.attestReport (s : State) (salt nonce : List Byte) (flags : Nat) : List Byte :=
  let slots := flags.testBit 0
  let chain := if flags.testBit 1 then certificateChain s.hw.serial s.variantCode else []
  let staged := if s.reportState = 1 then (s.fwu.staged.map (·.digest)).getD [] else []
  let cart := if s.rget Fld.SEC_CART_STATE = 1 ∨ s.rget Fld.SEC_CART_STATE = 3 then s.mem.cart.carrier else []
  let body := leBytes 4 0x31545251 ++ leBytes 1 1 ++ leBytes 1 s.reportState ++ leBytes 1 (if slots then 16 else 0) ++
    leBytes 1 s.reportFlags ++ leBytes 8 s.sec.boots ++ leBytes 8 (s.sec.reports + 1) ++ slice nonce 0 32 ++ identityDigest ++
    slice salt 0 48 ++ slice s.tenant 0 16 ++ leBytes 8 s.cont.config.epoch ++ s.configDigest ++
    ((List.range 8).map fun m => slice (s.measurement m) 0 48).flatten ++
    ((List.range 8).map fun m => leBytes 1 (s.blockStatus m)).flatten ++ slice staged 0 48 ++ slice cart 0 48 ++
    slice ((s.sec.enrolment.map (·.digest)).getD []) 0 48 ++ leBytes 4 (s.rget Fld.SEC_SECVER_VERSION) ++
    leBytes 4 chain.length ++ (if slots then ((List.range 16).map s.slotEntry).flatten else [])
  body ++ ecSign identityPrivate (sha384 (ascii "QATT1" ++ body)) ++ chain

/-- Answer an ATTEST now. -/
def State.answerAttest (s : State) (r : ReplyTo) (nonce : List Byte) (flags : Nat) : State :=
  let salt := ((s.session r.session).map (·.salt)).getD []
  let s1 := s.replyTo r 0x0601 Code.OK (s.attestReport salt nonce flags)
  { s1 with sec := { s1.sec with reports := s1.sec.reports + 1 } }

/-- Is a component between the stop of its old image and the commit of its new one (R382)? -/
def State.commitOwed (s : State) : Bool := s.fwu.stopped.isSome

/-- ATTEST (R378 to R382): answered at once, or held until a commit that is owed. -/
def attestEffect (m : Msg) (s : State) : State :=
  if s.leftToTwin m then s.consume m
  else if !s.mayActFor m.session ∨ s.rbit Fld.SEC_TRNG_FAIL ∨ s.sec.switch.any (·.step == 6) then s
  else s.withMsg m 0x0600 (some 64) (refuse := fun s _ c => s.reply m 0x0601 c) fun s _ =>
    let p := m.payload
    let r : ReplyTo := ⟨m.session, m.number, m.tag⟩
    if 4 ≤ u8 p 32 ∨ !allZero p 33 31 then s.reply m 0x0601 Code.E_RESERVED
    else if s.commitOwed then
      let h : HeldAttest := { msg := r, nonce := slice p 0 32, flags := u8 p 32 }
      ({ s with sec := { s.sec with held := s.sec.held ++ [h] } } : State).count Fld.ATT_HELD_COUNT
    else s.answerAttest r (slice p 0 32) (u8 p 32)

def execAttest (m : Msg) (s : State) : Host.Outcome State Fault Refusal := .next (attestEffect m s)

/-- The reports held for a commit leave (R382). -/
def State.answerHeld (s : State) : State :=
  let l := s.sec.held
  l.foldl (fun (s : State) (h : HeldAttest) => s.answerAttest h.msg h.nonce h.flags) { s with sec := { s.sec with held := [] } }

-- Tenant switch (R372, R384 to R386).

/-- An enrolment entry's bytes (R375). -/
def enrolEntry (p : List Byte) (off : Nat) : EnrolEntry :=
  { key := slice p off 48, role := u8 p (off + 48), lath := (u8 p (off + 49)).testBit 0, first := u16 p (off + 50),
    last := u16 p (off + 52) }

/-- Are an entry's reserved bits zero? -/
def entryReservedOk (p : List Byte) (off : Nat) : Bool := u8 p (off + 49) < 2 && allZero p (off + 54) 10

/-- Are an entry's values in range (R375)? -/
def entryRangeOk (e : EnrolEntry) : Bool :=
  decide (1 ≤ e.role ∧ e.role ≤ 3) &&
    (if e.role = 1 then decide (e.first ≤ e.last ∧ e.last ≤ 1023) else decide (e.first = 0 ∧ e.last = 0))

/-- Step 2 of R385: reserved fields and unused entries. -/
def switchReservedOk (p : List Byte) : Bool :=
  let r := min (u8 p 3) 8
  let c := min (u8 p 4) 4
  let t := min (u8 p 5) 64
  decide (u8 p 2 < 2) && allZero p 6 2 && allZero p 4945 15 && allZero p 5153 15 &&
    allZero p (176 + 48 * r) (48 * (8 - r)) && allZero p (560 + 48 * c) (48 * (4 - c)) &&
    allZero p (752 + 64 * t) (64 * (64 - t)) && ((List.range t).all fun i => entryReservedOk p (752 + 64 * i)) &&
    (decide (u8 p 2 = 1) || allZero p 128 48) &&
    (decide (u8 p 5 ≠ 0) || (allZero p 64 64 && allZero p 5056 97 && allZero p 5168 96))

/-- Step 2 of R385: counts in range. -/
def switchRangeOk (p : List Byte) : Bool :=
  decide (u16 p 0 = 1 ∧ 1 ≤ u8 p 3 ∧ u8 p 3 ≤ 8 ∧ u8 p 4 ≤ 4 ∧ u8 p 5 ≤ 64) &&
    (List.range (u8 p 5)).all fun i => entryRangeOk (enrolEntry p (752 + 64 * i))

/-- The present platform owner (R372): the last fuse slot written. -/
def State.owner (s : State) : Option (List Byte) := s.sec.fuses.getLast?

/-- The checks of R385, in their order; none where the switch is accepted. -/
def State.switchRefusal (s : State) (p : List Byte) : Option Code :=
  let platform := slice p 4848 97
  let tenant := slice p 5056 97
  if !switchReservedOk p then some Code.E_RESERVED
  else if !switchRangeOk p then some Code.E_PARAM
  else if slice p 16 48 ≠ identityDigest then some Code.E_PARAM
  else if s.owner ≠ none ∧ s.owner ≠ some (sha384 platform) then some Code.E_ENROL
  else if !verifies (p.take 4960) (slice p 4960 48) (slice p 5008 48) platform then some Code.E_SIGNATURE
  else if u64 p 8 ≤ s.sec.switchNumber then some Code.E_PARAM
  else if u8 p 5 ≠ 0 ∧ (sha384 tenant ≠ slice p 80 48 ∨
      !verifies (p.take 5168) (slice p 5168 48) (slice p 5216 48) tenant) then some Code.E_SIGNATURE
  else if u8 p 2 = 1 ∧ 8 < s.sec.fuses.length + (if s.unowned then 2 else 1) then some Code.E_LOCKED
  else if s.twinSlot.isSome then some Code.E_PARAM
  else none

/-- The enrolment that a payload carries (R384). -/
def enrolmentOf (p : List Byte) : Enrolment :=
  { rack := (List.range (u8 p 3)).map fun i => slice p (176 + 48 * i) 48,
    cartridges := (List.range (u8 p 4)).map fun i => slice p (560 + 48 * i) 48,
    tenant := slice p 64 16, isEmpty := decide (u8 p 5 = 0),
    entries := (List.range (u8 p 5)).map fun i => enrolEntry p (752 + 64 * i), digest := sha384 p }

/-- Step 1 of R386: nothing new is admitted, live requests end with E_CANCELLED, video contexts close as abort. -/
def State.endTenantWork (s : State) : State :=
  let s1 := s.clearBatch
  let s2 : State := { s1 with cont := { s1.cont with quiesced := true },
                              srv := { s1.srv with suspended := [], affected := [], queue := [] } }
  let s3 := (s2.srv.requests.map (·.1)).foldl (fun (s : State) row => s.failRequest row Code.E_CANCELLED 5) s2
  (s3.vid.contexts.map (·.1)).foldl (fun (s : State) c => s.abortVideo c) s3

/-- TENANT_SWITCH (R385, R386 step 1, R408). -/
def tenantSwitchEffect (m : Msg) (s : State) : State :=
  if !s.mayActFor m.session then s
  else s.withMsg m 0x0602 (some 5264) fun s _ =>
    let p := m.payload
    if 3 ≤ s.rget Fld.FWU_STATE_STATE ∨ s.sec.switch.isSome then s.reply m 0x0602 Code.B_RETRY
    else
      match s.switchRefusal p with
      | some c => (s.rsetIf (c == Code.E_SIGNATURE) Fld.SEC_FAULT_SIGNATURE 1).reply m 0x0602 c
      | none =>
        let run : SwitchRun :=
          { step := 2, reply := ⟨m.session, m.number, m.tag⟩, enrolment := enrolmentOf p, number := u64 p 8,
            firstOwner := if s.unowned then some (sha384 (slice p 4848 97)) else none,
            newOwner := if u8 p 2 = 1 then some (slice p 128 48) else none }
        { s with sec := { s.sec with switch := some run } }.endTenantWork

def execTenantSwitch (m : Msg) (s : State) : Host.Outcome State Fault Refusal := .next (tenantSwitchEffect m s)

/-- TENANT_SWITCH_ACKED (R386 steps 3 to 5): the enrolment is stored, the owner fuses and the switch number are written, the
flush records are zeroed and a new job salt is drawn; then the reply. -/
def switchAcked (s : State) : State :=
  match s.sec.switch with
  | none => s
  | some r =>
    if r.step ≠ 2 then s
    else
      let fuses := (s.sec.fuses ++ r.firstOwner.toList ++ r.newOwner.toList).take 8
      let d := s.draw
      let sec : SecState := { d.2.sec with fuses := fuses, enrolment := some r.enrolment, switchNumber := r.number,
                                           jobSalt := randomBytes d.1 32, switch := some { r with step := 6 } }
      let cart := { s.mem.cart with flush0 := none, flush1 := none }
      let s1 : State := { d.2 with sec := sec, mem := { s.mem with cart := cart } }
      s1.replyTo r.reply 0x0602 Code.OK r.enrolment.digest

def execTenantSwitchAcked (s : State) : Host.Outcome State Fault Refusal := .next (switchAcked s)

/-- TENANT_SWITCH_RESET (R386 step 6): a full reset. An activation by reset ends in the same step (R403). -/
def switchReset (s : State) : State :=
  if s.sec.switch.any (·.step == 6) then s.fullReset 2 else if s.fwu.resetDue then s.fullReset 3 else s

def execTenantSwitchReset (s : State) : Host.Outcome State Fault Refusal := .next (switchReset s)

-- The debug port (R389, R390, R489).

/-- Does boot ROM accept a debug token (R389, R390)? -/
def State.tokenOk (s : State) (p : List Byte) : Bool :=
  decide (p.length = 288 ∧ u32 p 0 = 0x47424451) && decide (u8 p 4 = 1 ∨ u8 p 4 = 2) && allZero p 5 3 && allZero p 161 31 &&
    s.emptyTenant && decide (u64 p 8 = s.sec.boots ∧ slice p 16 48 = identityDigest) &&
    decide (s.owner = some (sha384 (slice p 64 97))) &&
    verifies (p.take 192) (slice p 192 48) (slice p 240 48) (slice p 64 97)

/-- DEBUG_TOKEN (R390), checked in step 2 of R453: level 1 opens the port for this boot; level 2 zeroes everything and the
module then runs nothing until a power cycle. -/
def debugToken (p : List Byte) (s : State) : State :=
  if s.boot.step ≠ 2 ∨ s.boot.down then s
  else if !s.tokenOk p then s.rset Fld.SEC_FAULT_DEBUG 1
  else if u8 p 4 = 1 then (s.rset Fld.SEC_DEBUG_LEVEL 1).rset Fld.SEC_DEBUG_EVER 1
  else
    let s1 := s.rset Fld.SEC_DEBUG_LEVEL 2
    { s1 with sec := { s1.sec with keys := [] }, mem := { s1.mem with dram := [], banks := [] },
              boot := { s1.boot with down := true, step := 0 } }

def execDebugToken (token : List Byte) (s : State) : Host.Outcome State Fault Refusal := .next (debugToken token s)

/-- DEBUG_CAP_REMOVED (R480, R489): the tamper mark is written once, with the coupling count. -/
def debugCapRemoved (s : State) : State :=
  let mark := if s.hw.tamper = 4294967295 then s.hw.couplings % 4294967296 else s.hw.tamper
  ({ s with hw := { s.hw with tamper := mark } } : State).rset Fld.SYS_J1_TAMPER 1

def execDebugCapRemoved (s : State) : Host.Outcome State Fault Refusal := .next (debugCapRemoved s)

end Sys2Proof.Machine
end

