-- ==== Sys2Proof/Machine/Fwu.lean ====
section
/-! DEFINITION. Fwu.lean: packages, images, their delivery and checks, activation, trial and fall-back ("Firmware update"; log
entry 32). -/

namespace Sys2Proof.Machine

-- Packages and images (R393 to R395).

/-- A directory entry of a package. -/
structure FwEntry where
  component : Nat
  offset : Nat
  length : Nat
  deriving DecidableEq, Repr

/-- The directory entry i of a package. -/
def fwEntry (p : List Byte) (i : Nat) : FwEntry :=
  { component := u8 p (16 + 16 * i), offset := u32 p (20 + 16 * i), length := u32 p (24 + 16 * i) }

/-- A package's directory. -/
def fwDirectory (p : List Byte) : List FwEntry := (List.range (min (u8 p 6) 6)).map (fwEntry p)

/-- The bytes of an image. -/
def fwImageBytes (p : List Byte) (e : FwEntry) : List Byte := slice p e.offset e.length

/-- The signed bytes of an image: its header and body (R394). -/
def fwSigned (b : List Byte) : List Byte := b.take (256 + u32 b 16)

/-- An image's header (R394). -/
def fwImageOf (b : List Byte) : FwImage :=
  { component := u8 b 4, version := u32 b 8, security := u16 b 12, settingsMajor := u8 b 14, settingsMinor := u8 b 15,
    peers := (List.range 6).map fun i => u32 b (24 + 4 * i), measurement := sha384 (fwSigned b) }

/-- Step 2 of R400: the header's and the directory's values. -/
def fwHeaderOk (p : List Byte) : Bool :=
  let d := fwDirectory p
  decide (u32 p 0 = 0x4B505746 ∧ u16 p 4 = 1 ∧ 1 ≤ u8 p 6 ∧ u8 p 6 ≤ 6) &&
    (d.all fun e => decide (1 ≤ e.component ∧ e.component ≤ 6 ∧ e.offset % 64 = 0 ∧ 128 ≤ e.offset ∧
      e.offset + e.length ≤ p.length)) && (d.map (·.component)).eraseDups.length == d.length

/-- Step 2 of R400: the reserved fields. -/
def fwReservedOk (p : List Byte) : Bool :=
  let n := min (u8 p 6) 6
  allZero p 7 1 && allZero p 10 6 && allZero p 112 16 && allZero p (16 + 16 * n) (16 * (6 - n)) &&
    (List.range n).all fun i => allZero p (17 + 16 * i) 3 && allZero p (28 + 16 * i) 4

/-- Step 2 of R400: the reserved fields and values of an image's header, and the fields that only one component or binding uses
(R394). -/
def fwImageReservedOk (b : List Byte) : Bool :=
  allZero b 7 1 && allZero b 20 4 && allZero b 51 5 && allZero b 152 104 && decide (u8 b 5 < 3 ∧ u8 b 48 < 4) &&
    (decide (u8 b 4 = 2) || allZero b 14 2) && (decide (u8 b 5 = 1) || allZero b 48 3) && (decide (u8 b 5 = 2) || allZero b 56 48)

/-- Step 3 of R400 for one image; none where it passes. -/
def fwImageRefusal (p : List Byte) (e : FwEntry) : Option Code :=
  let b := fwImageBytes p e
  let body := (b.drop 256).take (u32 b 16)
  if e.length < 408 ∨ u32 b 0 ≠ 0x4D495746 ∨ u8 b 4 ≠ e.component ∨ e.length ≠ 408 + u32 b 16 then some Code.E_PARAM
  else if sha384 body ≠ slice b 104 48 then some Code.E_SIGNATURE else none

/-- Step 4 of R400 for one image (R371, R395). -/
def fwSignatureOk (p : List Byte) (e : FwEntry) : Bool :=
  let b := fwImageBytes p e
  let g := slice b (256 + u32 b 16) 152
  let key := slice g 8 48
  decide (u32 g 0 = 0x4E474953 ∧ u16 g 4 = 1) && allZero g 6 2 && Config.firmwareKeys.contains key &&
    signedBy (fwSigned b) (slice g 56 48) (slice g 104 48) key

/-- May an image of binding 0 or 1 run on this module: its generation, and for binding 1 its variant, stepping and revision (R395,
R400 step 5)? -/
def State.fwBindingOk (s : State) (b : List Byte) : Bool :=
  let bit := match s.variant with
    | .w => 0
    | .a => 1
  decide (u8 b 6 = 1) && (decide (u8 b 5 ≠ 1) || ((u8 b 48).testBit bit && decide (u8 b 49 = 0xB0 ∧ u8 b 50 = 0x0C)))

/-- Is an image of major version 2 (R29, R400 step 5)? -/
def fwMajorOk (b : List Byte) : Bool := decide (u8 b 11 = 2)

/-- Step 6 of R400 for one image: binding 2 names this module. -/
def fwUnitOk (b : List Byte) : Bool := decide (u8 b 5 ≠ 2) || decide (slice b 56 48 = identityDigest)

-- Compatibility (R401).

/-- The version of a component among images. -/
def fwVersion (l : List FwImage) (c : Nat) : Nat := ((l.find? (·.component == c)).map (·.version)).getD 0

/-- Replace an image by another of its component. -/
def fwReplace (l : List FwImage) (i : FwImage) : List FwImage := l.filter (·.component != i.component) ++ [i]

/-- A consistent set of images: each component's version is at least what every other component's image asks of it. -/
def fwConsistent (l : List FwImage) : Bool :=
  [1, 2, 3, 4, 5, 6].all fun c => l.all fun j => c == j.component || decide (listAt 0 j.peers (c - 1) ≤ fwVersion l c)

/-- The components in the order of R402. -/
def fwOrder : List Nat := [3, 4, 5, 6, 2]

/-- The step of R402 that changes a component. -/
def fwStep (c : Nat) : Nat :=
  match c with
  | 3 => 1
  | 4 => 2
  | 5 => 3
  | 6 => 4
  | _ => 5

/-- Is every set that an activation passes through consistent? A stage-1 loader changes last, in a reset. -/
def fwCompatible (new : List FwImage) : List Nat → List FwImage → Bool
  | [], l => fwConsistent l
  | c :: cs, l =>
    match new.find? (·.component == c) with
    | some i => fwConsistent l && fwCompatible new cs (fwReplace l i)
    | none => fwCompatible new cs l

/-- Steps 1 to 8 of R400: the package, or the code of the first failure and the fault bit it sets. -/
def State.packageCheck (s : State) (p digest : List Byte) : Except (Code × Option Field) FwPackage :=
  let d := fwDirectory p
  let images := d.map fun e => fwImageBytes p e
  let parsed := images.map fwImageOf
  let sig := some Fld.FWU_FAULT_SIGNATURE
  if sha384 p ≠ digest then .error (Code.E_SIGNATURE, sig)
  else if !fwHeaderOk p then .error (Code.E_PARAM, none)
  else if !fwReservedOk p ∨ !images.all fwImageReservedOk then .error (Code.E_RESERVED, none)
  else
    match d.findSome? (fwImageRefusal p) with
    | some c => .error (c, if c = Code.E_SIGNATURE then sig else none)
    | none =>
      if !d.all (fwSignatureOk p) then .error (Code.E_SIGNATURE, sig)
      else if !images.all s.fwBindingOk then .error (Code.E_VERSION, some Fld.FWU_FAULT_BINDING)
      else if !images.all fwMajorOk then .error (Code.E_VERSION, none)
      else if !images.all fwUnitOk then .error (Code.E_PARAM, some Fld.FWU_FAULT_BINDING)
      else if u16 p 8 < s.rget Fld.SEC_SECVER_VERSION ∨ parsed.any fun i => i.security != u16 p 8 then
        .error (Code.E_VERSION, some Fld.FWU_FAULT_COMPAT)
      else if !fwCompatible parsed (fwOrder ++ [1]) s.fwu.running then .error (Code.E_VERSION, some Fld.FWU_FAULT_COMPAT)
      else .ok { digest := digest, security := u16 p 8, images := parsed }

-- Delivery (R396 to R399).

/-- The update state. -/
def State.fwuState (s : State) : Nat := s.rget Fld.FWU_STATE_STATE

/-- Set the update state. -/
def State.setFwuState (s : State) (n : Nat) : State := s.rset Fld.FWU_STATE_STATE n

/-- Bytes held of the package in reception. -/
def FwuState.bytesHeld (f : FwuState) : Nat := f.blocks.foldl (fun n b => n + b.2.length) 0

/-- The FWU_STATUS payload (R399). -/
def State.fwuStatus (s : State) : List Byte :=
  let shown := match s.fwuState with
    | 1 => s.fwu.digest
    | 0 => []
    | _ => (s.fwu.staged.map (·.digest)).getD []
  leBytes 1 s.fwuState ++ leBytes 1 (s.rget Fld.FWU_STATE_STEP) ++ leBytes 2 (s.rget Fld.FWU_STATE_RESULT) ++
    leBytes 4 s.fwu.blocks.length ++ leBytes 8 s.fwu.bytesHeld ++ slice shown 0 48 ++
    leBytes 2 (s.rget Fld.SEC_SECVER_VERSION) ++
    leBytes 1 (s.rget Fld.FWU_STATE_SETTINGS_RESET + 2 * s.rget Fld.FWU_STATE_FELL_BACK) ++ [0] ++
    leBytes 4 (s.rget Fld.FWU_TRIAL_MS) ++ ((List.range 6).map fun i => leBytes 4 (fwVersion s.fwu.running (i + 1))).flatten

/-- Does a session's every path lie on ports 0 and 1 (R396)? -/
def fwuSession (x : Session) : Bool := x.paths.all fun p => decide (p.port < 2)

/-- The common flow of an FWU message: its body gives the new state and the code of the answer, whose payload is the status, that
of a refusal too (R396). -/
def State.fwuMsg (s : State) (m : Msg) (type : Nat) (len : Option Nat) (body : State → State × Code) : State :=
  if !s.mayActFor m.session then s
  else s.withMsg m type len (fun s _ =>
    let r := body s
    r.1.reply m type r.2 r.1.fwuStatus) fwuSession fun s _ c => s.reply m type c s.fwuStatus

/-- Forget the package in reception. -/
def FwuState.dropReception (f : FwuState) : FwuState :=
  { f with length := 0, blockSize := 0, digest := [], blocks := [], writing := none }

/-- Is it a power of two from 65,536 to 1,048,576? -/
def blockSizeOk (n : Nat) : Bool := [65536, 131072, 262144, 524288, 1048576].contains n

/-- FWU_BEGIN (R397, R408). -/
def fwuBegin (m : Msg) (s : State) : State :=
  s.fwuMsg m 0x0700 (some 64) fun s =>
    let p := m.payload
    if 3 ≤ s.fwuState then (s, Code.B_RETRY)
    else if !allZero p 12 4 then (s, Code.E_RESERVED)
    else if u64 p 0 < 1024 ∨ 67108864 < u64 p 0 ∨ !blockSizeOk (u32 p 8) then (s, Code.E_PARAM)
    else
      let f : FwuState := { s.fwu.dropReception with length := u64 p 0, blockSize := u32 p 8, digest := slice p 16 48,
                                                     staged := none }
      (({ s with fwu := f } : State).setFwuState 1, Code.OK)

def execFwuBegin (m : Msg) (s : State) : Host.Outcome State Fault Refusal := .next (fwuBegin m s)

/-- A check of a package has failed (R400): the package is discarded and the state is IDLE. -/
def State.packageFailed (s : State) (c : Code) (f : Option Field) : State :=
  let s1 : State := { s with fwu := s.fwu.dropReception }
  let s2 := (s1.setFwuState 0).rset Fld.FWU_STATE_RESULT c.toNat
  match f with
  | some f => s2.rset f 1
  | none => s2

/-- The last block is held: steps 1 to 8 of R400 run, and step 9 begins. -/
def State.checkHeld (s : State) : State :=
  if s.fwu.bytesHeld ≠ s.fwu.length ∨ s.fwu.writing.isSome then s
  else
    match s.packageCheck (s.fwu.blocks.map (·.2)).flatten s.fwu.digest with
    | .error (c, f) => s.packageFailed c f
    | .ok k => { s with fwu := { s.fwu with writing := some k } }

/-- FWU_BLOCK (R398, R400). -/
def fwuBlock (m : Msg) (s : State) : State :=
  s.fwuMsg m 0x0701 none fun s =>
    let p := m.payload
    let off := u64 p 0
    let len := u32 p 8
    let data := p.drop 32
    if p.length ≠ 32 + len then (s, Code.E_INPUT_SIZE)
    else if !allZero p 12 20 then (s, Code.E_RESERVED)
    else if s.fwuState ≠ 1 ∨ off % s.fwu.blockSize ≠ 0 ∨ s.fwu.length ≤ off ∨ len ≠ min s.fwu.blockSize (s.fwu.length - off) then
      (s, Code.E_PARAM)
    else
      match Dict.fetch s.fwu.blocks off with
      | some d => (s, if d = data then Code.OK else Code.E_PARAM)
      | none => (({ s with fwu := { s.fwu with blocks := Dict.store s.fwu.blocks off data } } : State).checkHeld, Code.OK)

def execFwuBlock (m : Msg) (s : State) : Host.Outcome State Fault Refusal := .next (fwuBlock m s)

/-- PACKAGE_STAGED (R400 step 9): the write to the inactive bank has ended, and it compares equal or not. -/
def packageStaged (ok : Bool) (s : State) : State :=
  match s.fwu.writing with
  | none => s
  | some k =>
    if s.fwuState ≠ 1 then s
    else if !ok then s.packageFailed Code.F_MEM (some Fld.FWU_FAULT_FLASH)
    else
      let s1 : State := { s with fwu := { s.fwu.dropReception with staged := some k } }
      (s1.setFwuState 2).rset Fld.FWU_STATE_RESULT 0

def execPackageStaged (ok : Bool) (s : State) : Host.Outcome State Fault Refusal := .next (packageStaged ok s)

/-- FWU_STATUS (R399). -/
def execFwuStatus (m : Msg) (s : State) : Host.Outcome State Fault Refusal :=
  .next (s.fwuMsg m 0x0703 (some 0) fun s => (s, Code.OK))

-- Activation (R402, R403).

/-- Stop the old image of a component (R402). Front end B goes first, and A follows once B runs again; the supervisors' standby
restarts and runs its slice before the stop. -/
def State.stopComponent (s : State) (c : Nat) : State :=
  let stop := fun (s : State) => ({ s with fwu := { s.fwu with stopped := some c } } : State)
  let s1 := s.rset Fld.FWU_STATE_STEP (fwStep c)
  match c with
  | 3 => stop (if s1.feUp .b then s1.stopFe .b else s1.stopFe .a)
  | 2 =>
    let x := otherSide s1.active
    if s1.sup x = .standby then (s1.putSup x .testing).startSlice 13 (match x with
      | .a => 0
      | .b => 1)
    else s1.enterFallback
  | _ => stop s1

/-- The components of the staged package that the activation has still to change, in order. -/
def State.componentsLeft (s : State) : List Nat :=
  let have_ := (s.fwu.staged.map fun k => k.images.map (·.component)).getD []
  fwOrder.filter fun c => have_.contains c && !s.fwu.committed.contains c

/-- The next component stops, or the update enters TRIAL (R402 step 6). -/
def State.nextComponent (s : State) : State :=
  match s.componentsLeft with
  | c :: _ => s.stopComponent c
  | [] =>
    (((s.setFwuState 4).rset Fld.FWU_STATE_STEP 6).rset Fld.FWU_STATE_RESULT 0).rset Fld.FWU_TRIAL_MS 0 |>.countHold
      Fld.FWU_COUNTS_ACTIVATIONS

/-- FWU_ACTIVATE in one of its modes: the checks of R402, then the mode's own effect. A message of another mode is no such
command. -/
def State.fwuActivate (s : State) (m : Msg) (mode : Nat) (body : State → FwPackage → State × Code) : State :=
  let given := u8 m.payload 0
  if given ≠ mode ∧ 1 ≤ given ∧ given ≤ 3 ∧ m.payload.length = 64 then s
  else s.fwuMsg m 0x0702 (some 64) fun s =>
    let p := m.payload
    if given ≠ mode ∨ !allZero p 1 7 ∨ !allZero p 56 8 then (s, Code.E_RESERVED)
    else
      match s.fwu.staged with
      | none => (s, Code.E_PARAM)
      | some k =>
        if slice p 8 48 ≠ k.digest ∨ s.twinSlot.isSome then (s, Code.E_PARAM)
        else body s k

/-- FWU_ACTIVATE_LIVE (R402). -/
def fwuActivateLive (m : Msg) (s : State) : State :=
  s.fwuActivate m 1 fun s k =>
    if k.images.any (·.component == 1) then (s, Code.E_PARAM)
    else if s.fwuState ≠ 2 ∨ s.fwu.resetDue then (s, Code.B_RETRY)
    else
      let s1 : State := { s with fwu := { s.fwu with committed := [], stopped := none } }
      ((s1.setFwuState 3).nextComponent, Code.OK)

def execFwuActivateLive (m : Msg) (s : State) : Host.Outcome State Fault Refusal := .next (fwuActivateLive m s)

/-- FWU_ACTIVATE_RESET (R403): the try-once mark is set and OK answered; the full reset follows as in step 6 of R386, when the
reply is acknowledged or 10 ms have passed (log entry 32). -/
def fwuActivateReset (m : Msg) (s : State) : State :=
  s.fwuActivate m 2 fun s _ =>
    if s.fwuState ≠ 2 ∨ s.fwu.resetDue then (s, Code.B_RETRY)
    else ({ s with fwu := { s.fwu with tryOnce := true, resetDue := true } }, Code.OK)

def execFwuActivateReset (m : Msg) (s : State) : Host.Outcome State Fault Refusal := .next (fwuActivateReset m s)

/-- Does the new image of the component that has stopped run (R402)? -/
def State.newImageRuns (s : State) (c : Nat) : Bool :=
  match c with
  | 3 => !s.sliceRuns 12 0 && !s.sliceRuns 12 1
  | 5 => s.vid.pipes.all (·.isNone)
  | 6 => s.srv.batch.isNone
  | 2 => s.cont.claimed.isNone && s.cont.acting && !s.cont.released
  | _ => true

/-- Put a component's image into the running set, with its measurement (R376). -/
def State.runImage (s : State) (i : FwImage) : State :=
  let s1 : State := { s with fwu := { s.fwu with running := fwReplace s.fwu.running i } }
  s1.setMeasurement i.component i.measurement

/-- The video engine's new image runs: the credit of VIDEO_DATA that its change withheld is given, but for contexts that are held on
their own account (R293, R402). -/
def State.resumeVideo (s : State) : State :=
  s.vid.contexts.foldl (fun (s : State) x => if x.2.held then s else s.unhold x.1) s

/-- Put the values of a boot settings record into their registers and apply them (R306, R404), but for S of R192, which takes effect
at the next reset. -/
def State.putSettings (s : State) (r : BootSettings) : State :=
  let s1 := ((s.rset Fld.CONT_CTRL_PREFER r.prefer).rset Fld.CONT_HB_FLUSH_S r.flushS).rset Fld.NET_UDP_PORT r.udp
  let port := fun (s : State) (p : Nat) (x : PortApplied) =>
    let s1 := ((s.rset Fld.NET_PCFG_VLAN x.vlan p).rset Fld.NET_PCFG_V4 (if x.v4 then 1 else 0) p).rset Fld.NET_PCFG_V6 (if x.v6 then 1 else 0) p
    let s2 := ((s1.rset Fld.NET_IPV4_ADDR x.ipv4 p).rset Fld.NET_IPV4_CFG_PREFIX x.prefix4 p).rset Fld.NET_GW4_ADDR x.gateway p
    let s3 := (List.range 4).foldl (fun (s : State) k => s.rset (Fld.NET_IPV6_ADDR k) (x.ipv6 / 4294967296 ^ k) p) s2
    s3.rset Fld.NET_IPV6_CFG_PREFIX x.prefix6 p
  ((List.range 6).foldl (fun (s : State) p => port s p (listAt {} r.ports p)) s1).netApply

/-- Can the supervisor image that runs read a record of boot settings (R404)? -/
def State.readsSettings (s : State) (r : BootSettings) : Bool :=
  let i := (s.fwu.running.find? (·.component == 2)).getD { component := 2, version := 0, settingsMajor := 1 }
  decide (i.settingsMajor = r.major ∧ r.minor ≤ i.settingsMinor)

/-- A supervisor image newly running in a live activation reads the boot settings record (R404): where it can, every value stays; else
every one takes its default and SETTINGS_RESET is set (log entry 32). -/
def State.newSettings (s : State) : State :=
  match s.fwu.settings with
  | none => s
  | some r => if s.readsSettings r then s else (s.putSettings {}).rset Fld.FWU_STATE_SETTINGS_RESET 1

/-- MEASUREMENT_COMMIT (R382, R402): the SEC engine commits the new measurement, the held reports leave, and the next component
follows. After the supervisors' commit the old holder restarts as standby. -/
def measurementCommit (s : State) : State :=
  match s.fwu.stopped, s.fwu.staged with
  | some c, some k =>
    if s.fwuState ≠ 3 ∨ !s.newImageRuns c then s
    else
      match k.images.find? (·.component == c) with
      | none => s
      | some i =>
        let s1 := s.runImage i
        let s2 : State := { s1 with fwu := { s1.fwu with stopped := none, committed := s1.fwu.committed ++ [c] } }
        let x := otherSide s2.active
        let s3 := if c = 2 then (s2.newSettings.putSup x .testing).startSlice 13 (match x with
            | .a => 0
            | .b => 1)
          else s2
        (if c = 5 then s3.resumeVideo else s3).answerHeld.nextComponent
  | _, _ => s

def execMeasurementCommit (s : State) : Host.Outcome State Fault Refusal := .next (measurementCommit s)

-- Trial, confirmation and fall-back (R404 to R407).

/-- Fall back (R407): the previous images and measurements return, the package stays staged, FELL_BACK is set. The code recorded
is one that the manual does not name (log entry 32). -/
def State.fallBack (s : State) : State :=
  let old := s.fwu.committed.filterMap fun c => s.fwu.confirmed.find? (·.component == c)
  let new := s.fwu.committed.filter fun c => !(s.fwu.confirmed.any (·.component == c))
  let s1 := old.foldl (fun (s : State) (i : FwImage) => s.runImage i) s
  let s2 := new.foldl (fun (s : State) (c : Nat) => s.setMeasurement c []) s1
  let s3 : State := { s2 with fwu := { s2.fwu with stopped := none, committed := [],
                                                   running := s2.fwu.running.filter fun i => !new.contains i.component } }
  let d := s3.draw
  let s4 := ((d.2.setFwuState 2).rset Fld.FWU_STATE_FELL_BACK 1).rset Fld.FWU_STATE_RESULT (Config.freeWord d.1).toNat
  (((s4.rset Fld.FWU_FAULT_FALLBACK 1).countHold Fld.FWU_COUNTS_FALLBACKS).rset Fld.FWU_TRIAL_MS 0).rset Fld.FWU_STATE_STEP 0
    |>.answerHeld

/-- COMMIT_TIMEOUT (R382, R407): no commit within 250 ms of a stop. -/
def execCommitTimeout (s : State) : Host.Outcome State Fault Refusal :=
  .next (if s.fwu.stopped.isSome ∧ s.fwuState = 3 then s.fallBack else s)

/-- FALLBACK (R407): in ACTIVATING or TRIAL upon a trigger, or once a trigger has set the state. -/
def execFallback (s : State) : Host.Outcome State Fault Refusal :=
  .next (if 3 ≤ s.fwuState ∧ s.fwuState ≤ 5 then s.fallBack else s)

/-- FWU_DISCARD (R407): mode 3 falls back in ACTIVATING or TRIAL, and discards the package in STAGED. -/
def fwuDiscard (m : Msg) (s : State) : State :=
  s.fwuActivate m 3 fun s _ =>
    match s.fwuState with
    | 2 =>
      let s1 : State := { s with fwu := { s.fwu with staged := none, tryOnce := false, resetDue := false } }
      ((s1.setFwuState 0).rset Fld.FWU_STATE_FELL_BACK 0, Code.OK)
    | 3 => (s.enterFallback, Code.OK)
    | 4 => (s.enterFallback, Code.OK)
    | _ => (s, Code.B_RETRY)

def execFwuDiscard (m : Msg) (s : State) : Host.Outcome State Fault Refusal := .next (fwuDiscard m s)

/-- The boot settings that the registers hold, in a supervisor image's format (R404). -/
def State.settingsNow (s : State) (major minor : Nat) : BootSettings :=
  { major := major, minor := minor, spillGib := s.rget Fld.MEM_LAYOUT_SPILL_GIB, prefer := s.rget Fld.CONT_CTRL_PREFER,
    flushS := s.rget Fld.CONT_HB_FLUSH_S, udp := s.rget Fld.NET_UDP_PORT, ports := (List.range 6).map s.portSettings }

/-- TRIAL_EXPIRY (R406): the update is confirmed. -/
def trialExpiry (s : State) : State :=
  match s.fwu.staged with
  | none => s
  | some k =>
    if s.fwuState ≠ 4 then s
    else
      let i := (s.fwu.running.find? (·.component == 2)).getD { component := 2, version := 0, settingsMajor := 1 }
      let f : FwuState := { s.fwu with confirmed := s.fwu.running, staged := none, committed := [],
                                       settings := some (s.settingsNow i.settingsMajor i.settingsMinor) }
      let s1 : State := { s with fwu := f }
      let s2 := s1.rset Fld.SEC_SECVER_VERSION (max (s1.rget Fld.SEC_SECVER_VERSION) k.security)
      ((((s2.setFwuState 0).rset Fld.FWU_STATE_STEP 0).rset Fld.FWU_STATE_RESULT 0).rset Fld.FWU_TRIAL_MS 0).rset
        Fld.FWU_STATE_FELL_BACK 0

def execTrialExpiry (s : State) : Host.Outcome State Fault Refusal := .next (trialExpiry s)

end Sys2Proof.Machine
end

