-- ==== Sys2Proof/Machine/Power.lean ====
section
/-! DEFINITION. Power.lean: operating points, the pacer, power caps, the emergency throttle, oscillators and measurements
("Clocks, operating points and power caps"; log entry 33). -/

namespace Sys2Proof.Machine

-- The power model (R423, R424, R431).

/-- The nominal tempo of each point, millions of handshakes per second (R423). -/
def nominalTempo : List Nat := [300, 536, 679, 786, 893, 1000, 1125, 1250]

/-- The pacer ceiling of a point. -/
def State.ceilingOf (s : State) (n : Nat) : Nat := s.rget (Fld.PWR_OP_CEIL n)

/-- The manual voltage where it applies to a point (R424). -/
def State.manualVolts (s : State) (n : Nat) : Option Nat :=
  if s.rbit Fld.PWR_MANUAL_EN ∧ s.rget Fld.PWR_MANUAL_POINT = n ∧ s.rget Fld.PWR_MANUAL_MV ≠ 0 then
    some (s.rget Fld.PWR_MANUAL_MV) else none

/-- ARRAY of a point in W, as a fraction: that of the manual point is scaled by (MV / nominal mV)³ in the cap rules (R423, R424). -/
def State.arrayPower (s : State) (n : Nat) : Nat × Nat :=
  let array := s.rget (Fld.PWR_MODEL_ARRAY_W n)
  match s.manualVolts n with
  | some mv => (array * mv ^ 3, s.rget (Fld.PWR_OP_MV n) ^ 3)
  | none => (array, 1)

/-- The modelled power of a point and pacer, in mW, as a fraction (R423, R431). -/
def State.modelPower (s : State) (n p : Nat) : Nat × Nat :=
  let a := s.arrayPower n
  ((s.rget (Fld.PWR_MODEL_BASE_W n) * 64 * a.2 + a.1 * p) * 1000, 64 * a.2)

/-- Does a point and pacer meet a cap in mW? -/
def State.meets (s : State) (n p cap : Nat) : Bool :=
  let m := s.modelPower n p
  decide (m.1 ≤ cap * m.2)

/-- The point and pacer that R431 chooses for a cap: the greatest nominal paced tempo, ties to the lower point; OP0 at 1 where
none meets it. -/
def State.chooseFor (s : State) (cap : Nat) : Nat × Nat :=
  let pairs := ((List.range 8).map fun n => (List.range (s.ceilingOf n)).map fun p => (n, p + 1)).flatten
  let best := pairs.foldl (fun (b : Option (Nat × Nat × Nat)) (x : Nat × Nat) =>
    let t := listAt 0 nominalTempo x.1 * x.2
    if s.meets x.1 x.2 cap ∧ (b.all fun y => decide (y.1 < t)) then some (t, x) else b) none
  match best with
  | some (_, x) => x
  | none => (0, 1)

/-- The largest pacer up to a bound that meets a cap at a point; 1 where none does. -/
def State.largestPace (s : State) (n cap : Nat) : Nat → Nat
  | 0 => 1
  | p + 1 => if s.meets n (p + 1) cap then p + 1 else s.largestPace n cap p

/-- The cap in force: the rack's, or the thermal block's where that is lower (R446, R447, R451). -/
def State.capInForce (s : State) : Nat :=
  let t := s.rget Fld.THM_CAP_MW
  if t = 0 then s.pwr.rackCap else min s.pwr.rackCap t

/-- The largest pacer at a point under R432 step 3: its ceiling, the chosen pacer at the chosen point, the cap, and the closed
loop's limit. -/
def State.paceAt (s : State) (n : Nat) : Nat :=
  let top := if n = s.pwr.chosenPoint then min s.pwr.chosenPace (s.ceilingOf n) else s.ceilingOf n
  min (s.largestPace n s.capInForce top) s.pwr.loop

-- Limits (R427).

/-- Has power-up self-test ended, so that the module may leave OP0 at 1/64 (R423)? -/
def State.powered (s : State) : Bool := s.rbit Fld.BIST_STATUS_DONE && !s.boot.down

/-- The effective pacer ceiling (R427). Fixed-slot mode pins the pacer at 64/64 (R247): a manual pace then does not apply. -/
def State.effectivePace (s : State) : Nat :=
  if !s.powered then 1
  else
    let m := if s.rbit Fld.PWR_MANUAL_EN && !s.rbit Fld.SRV_MODE_FIXED then s.rget Fld.PWR_MANUAL_PACE else 64
    min (min (s.ceilingOf (s.rget Fld.PWR_STATUS_POINT)) (s.rget Fld.PWR_PACE_CAP))
      (min (s.rget Fld.PWR_PACE_THERMAL) (min (s.rget Fld.PWR_PACE_EMERG) m))

/-- The target point (R427): the lowest of the limits, or the pinned point in fixed-slot mode. A voltage that was not confirmed
forbids every rise until the next reset (R425). -/
def State.targetPoint (s : State) : Nat :=
  if !s.powered then 0
  else
    let m := if s.rbit Fld.PWR_MANUAL_EN then s.rget Fld.PWR_MANUAL_POINT else 7
    let t := if s.rbit Fld.SRV_MODE_FIXED then s.rget Fld.SRV_GUARD_OP
      else min s.pwr.chosenPoint (min (s.rget Fld.THM_STATUS_POINT) m)
    if s.pwr.noUp then min t (s.rget Fld.PWR_STATUS_POINT) else t

/-- Does a cap or the thermal model ask for less than the manual setting (R424)? -/
def State.manualLimited (s : State) : Bool :=
  s.rbit Fld.PWR_MANUAL_EN &&
    (decide (min s.pwr.chosenPoint (s.rget Fld.THM_STATUS_POINT) < s.rget Fld.PWR_MANUAL_POINT) ||
     decide (min (s.rget Fld.PWR_PACE_CAP) (s.rget Fld.PWR_PACE_THERMAL) < s.rget Fld.PWR_MANUAL_PACE))

/-- The cause for which the module must leave fixed-slot mode, if any (R250, R428, R444). -/
def State.fixedCause (s : State) : Option Nat :=
  let op := s.rget Fld.SRV_GUARD_OP
  if s.capInForce < s.fullPower op ∨ s.pwr.loop < 64 then some 1
  else if s.rget Fld.THM_STATUS_POINT < op ∨ s.rget Fld.PWR_PACE_THERMAL < 64 then some 2
  else if s.rget Fld.PWR_PACE_EMERG < 64 then some 3 else none

/-- The pacer and the target follow their inputs (R427). -/
def State.settlePace (s : State) : State :=
  let s0 := match s.fixedCause with
    | some c => s.leaveFixed c
    | none => s
  ((s0.rset Fld.PWR_PACE_EFFECTIVE s0.effectivePace).rset Fld.PWR_STATUS_TARGET s0.targetPoint).rset
    Fld.PWR_STATUS_MANUAL_LIMITED (if s0.manualLimited then 1 else 0)

-- Overruns (R432).

/-- By how many µW the modelled power at the present point and a pacer exceeds the cap in force. -/
def State.excessAt (s : State) (p : Nat) : Nat :=
  let m := s.modelPower (s.rget Fld.PWR_STATUS_POINT) p
  m.1 * 1000 / m.2 - s.capInForce * 1000

/-- The overrun goes on with its peak, or has ended: PWR.OVERRUN and its fault bit. The rounding of the excess to W is not
stated: a free value decides it (log entry 33). -/
def State.watchOverrun (s : State) : State :=
  if !s.pwr.overrun then s
  else
    let p := s.rget Fld.PWR_PACE_EFFECTIVE
    if !s.meets (s.rget Fld.PWR_STATUS_POINT) p s.capInForce then
      { s with pwr := { s.pwr with excess := max s.pwr.excess (s.excessAt p) } }
    else
      let d := s.draw
      let up := if s.pwr.excess % 1000000 ≠ 0 ∧ (Config.freeWord d.1).getLsbD 0 then 1 else 0
      let s1 : State := { d.2 with pwr := { d.2.pwr with overrun := false } }
      ((s1.rset Fld.PWR_OVERRUN_US (min s.pwr.overrunUs 65535)).rset Fld.PWR_OVERRUN_EXCESS_W
        (s.pwr.excess / 1000000 + up)).rset Fld.PWR_FAULT_OVERRUN 1

/-- The cap in force has changed, or its model has (R431, R432): the choice, the pacer at once, and an overrun where the present
point and pacer exceed it. -/
def State.newCap (s : State) : State :=
  let cap := s.capInForce
  let pick := s.chooseFor cap
  let point := s.rget Fld.PWR_STATUS_POINT
  let before := s.rget Fld.PWR_PACE_EFFECTIVE
  let exceeds : Bool := s.powered && !s.meets point before cap
  let s1 := s.rset Fld.PWR_CAP_MW cap
  let s2 : State := { s1 with pwr := { s1.pwr with chosenPoint := pick.1, chosenPace := pick.2, overran := exceeds, overrun := exceeds,
                                                   overrunUs := 0, excess := if exceeds then s1.excessAt before else 0 } }
  let s3 := (s2.rset Fld.PWR_PACE_CAP (min (s2.largestPace point cap before) s2.pwr.loop)).settlePace
  let s4 := if s3.rget Fld.PWR_STATUS_TARGET = point then (s3.rset Fld.PWR_PACE_CAP (s3.paceAt point)).settlePace else s3
  s4.watchOverrun

-- CAP_SET (R429, R430).

/-- The reply's payload (R430). -/
def State.capPayload (s : State) (stamp flags us excess : Nat) : List Byte :=
  leBytes 4 (s.rget Fld.PWR_CAP_MW) ++ leBytes 4 (s.rget Fld.PWR_POWER_MW) ++ leBytes 8 stamp ++
    leBytes 1 (s.rget Fld.PWR_STATUS_POINT) ++ leBytes 1 (s.rget Fld.PWR_PACE_EFFECTIVE) ++ leBytes 1 flags ++ [0] ++
    leBytes 4 us ++ leBytes 2 excess ++ zeroBytes 6

/-- Send the reply that a cap is owed. -/
def State.capReply (s : State) (superseded : Bool) : State :=
  match s.pwr.reply with
  | none => s
  | some r =>
    let flags := (if r.clamped then 1 else 0) + (if s.pwr.overran then 2 else 0) + (if superseded then 4 else 0)
    let w := if s.pwr.overran then (if s.pwr.overrun then s.pwr.excess / 1000000 else s.rget Fld.PWR_OVERRUN_EXCESS_W) else 0
    let s1 := s.replyTo r.reply 0x0400 Code.OK (s.capPayload r.stamp flags (if s.pwr.overran then s.pwr.overrunUs else 0) w)
    { s1 with pwr := { s1.pwr with reply := none } }

/-- Is the cap settled: the target point is reached and no step remains (R430)? -/
def State.capSettledNow (s : State) : Bool := s.rget Fld.PWR_STATUS_POINT == s.rget Fld.PWR_STATUS_TARGET

/-- Take an accepted cap of mW, 0 for the variant's greatest (R3, R429, R473), with the reply it is owed, if any. -/
def State.takeCap (s : State) (mw : Nat) (r : Option (ReplyTo × Nat)) : State :=
  let s0 := s.capReply true
  let cap := if mw = 0 then s.maxCap else min mw s.maxCap
  let clamped : Bool := decide (s.maxCap < mw)
  let s1 := (s0.countHold Fld.PWR_COUNTS_CAPS).rset Fld.PWR_STATUS_CLAMPED (if clamped then 1 else 0)
  let reply := r.map fun x => ({ reply := x.1, stamp := x.2, clamped := clamped } : CapReply)
  let s2 : State := { s1 with pwr := { s1.pwr with rackCap := cap, reply := reply } }
  let s3 := s2.newCap
  if s3.capSettledNow ∧ s3.rget Fld.PWR_PACE_EFFECTIVE = s.rget Fld.PWR_PACE_EFFECTIVE then s3.capReply false else s3

/-- CAP_SET (R429 to R432). It is no bound action. -/
def capSet (m : Msg) (s : State) : State :=
  if s.boot.down then s
  else s.withMsg m 0x0400 (some 32) fun s _ =>
    let p := m.payload
    let stamp := u64 p 8
    let refuse := fun (c : Code) => s.reply m 0x0400 c (s.capPayload stamp 0 0 0)
    if !allZero p 4 4 ∨ !allZero p 16 16 then refuse Code.E_RESERVED
    else if (1 ≤ u32 p 0 ∧ u32 p 0 < 140000) ∨ 480000 < u32 p 0 then refuse Code.E_PARAM
    else ({ s with cont := { s.cont with rackStamp := stamp } } : State).takeCap (u32 p 0)
      (some (⟨m.session, m.number, m.tag⟩, stamp))

def execCapSet (m : Msg) (s : State) : Host.Outcome State Fault Refusal := .next (capSet m s)

/-- CAP_SETTLED (R430). -/
def execCapSettled (s : State) : Host.Outcome State Fault Refusal := .next (if s.capSettledNow then s.capReply false else s)

-- Steps between points (R425, R426).

/-- The point next to the present one on the way to the target; none at the target. -/
def State.nextPoint (s : State) : Option Nat :=
  let n := s.rget Fld.PWR_STATUS_POINT
  let t := s.rget Fld.PWR_STATUS_TARGET
  if t < n then some (n - 1) else if n < t then some (n + 1) else none

/-- Arrive at a point: voltage, data rate, pacer. -/
def State.arrive (s : State) (n : Nat) : State :=
  let s1 := (s.rset Fld.PWR_STATUS_POINT n).setRate (s.rget (Fld.PWR_OP_RATE n))
  let s2 : State := { s1 with pwr := { s1.pwr with millivolt := (s1.manualVolts n).getD (s1.rget (Fld.PWR_OP_MV n)) } }
  ((s2.rset Fld.PWR_PACE_CAP (s2.paceAt n)).settlePace).watchOverrun

/-- OP_STEP (R425, R182, R187): one step toward the target, from its beginning to its end. Where it changes the data rate, the
channels whose training fails at the new one are marked. -/
def opStep (failed : List Nat) (s : State) : State :=
  if !s.powered then s
  else
    match s.settlePace.nextPoint with
    | some n =>
      let t := s.settlePace.arrive n
      if t.rget Fld.MEM_STATUS_RATE = s.rget Fld.MEM_STATUS_RATE then t else failed.foldl (fun (s : State) c => s.trainFailed c) t
    | none => s.settlePace

def execOpStep (failed : List Nat) (s : State) : Host.Outcome State Fault Refusal := .next (opStep failed s)

/-- VOLTAGE_CONFIRM_TIMEOUT (R425): the step that runs is abandoned at the lower of its two points, and no further up-step is
made until the next reset. -/
def voltageTimeout (s : State) : State :=
  match s.nextPoint with
  | none => s
  | some n =>
    let s1 := s.rset Fld.PWR_FAULT_VREG 1
    ({ s1 with pwr := { s1.pwr with noUp := true } } : State).arrive (min n (s.rget Fld.PWR_STATUS_POINT))

def execVoltageConfirmTimeout (s : State) : Host.Outcome State Fault Refusal := .next (voltageTimeout s)

-- The manual point (R424).

/-- May a word be written to PWR.MANUAL (R424, R436)? -/
def State.manualRefusal (s : State) (w : Word) : Option Code :=
  let pace := Fld.PWR_MANUAL_PACE.of w
  let mv := Fld.PWR_MANUAL_MV.of w
  if pace = 0 ∨ 64 < pace then some Code.E_RESERVED
  else if mv ≠ 0 ∧ (mv < 550 ∨ 850 < mv ∨ mv % 5 ≠ 0) then some Code.E_RESERVED
  else if Fld.PWR_MANUAL_EN.of w = 1 ∧ s.rbit Fld.SRV_MODE_FIXED then some Code.B_RETRY
  else none

/-- Write PWR.MANUAL: the voltage of the present point, the cap rules and the limits follow. -/
def State.writeManual (s : State) (w : Word) : State :=
  let w1 := w &&& 0x1FFFFF
  let s1 : State := { s with regs := Regs.setWord s.regs Fld.PWR_MANUAL_EN.addr 0 w1 }
  let n := s1.rget Fld.PWR_STATUS_POINT
  ({ s1 with pwr := { s1.pwr with millivolt := (s1.manualVolts n).getD (s1.rget (Fld.PWR_OP_MV n)) } } : State).newCap

-- The closed loop and the throttle (R433, R434).

/-- The cap value of the pacer after an interval of a measured power (R433). -/
def State.loopStep (s : State) (mw : Nat) : State :=
  let cap := s.capInForce
  let a := s.arrayPower (s.rget Fld.PWR_STATUS_POINT)
  let unit := a.1 * 1000
  let now := s.rget Fld.PWR_PACE_CAP
  if cap < mw then
    let low := max 1 (now - ceilDiv ((mw - cap) * 64 * a.2) (max unit 1))
    let s1 : State := { s with pwr := { s.pwr with lowIntervals := 0, loop := if low < now then low else s.pwr.loop } }
    s1.rset Fld.PWR_PACE_CAP (min low now)
  else if mw * 64 * a.2 + unit ≤ cap * 64 * a.2 then
    if s.pwr.lowIntervals + 1 < 100 then { s with pwr := { s.pwr with lowIntervals := s.pwr.lowIntervals + 1 } }
    else
      let s1 : State := { s with pwr := { s.pwr with lowIntervals := 0, loop := min 64 (s.pwr.loop + 1) } }
      let up := min (s1.paceAt (s.rget Fld.PWR_STATUS_POINT)) (min s.pwr.chosenPace (now + 1))
      s1.rset Fld.PWR_PACE_CAP (max now up)
  else { s with pwr := { s.pwr with lowIntervals := 0 } }

/-- The power controller's input power: the average of a thousand intervals, in whole W (R479; log entry 37). -/
def State.averagePower (s : State) (mw : Nat) : State :=
  let sum := s.hw.powerSum + mw
  { s with hw := if s.hw.powerCount + 1 < 1000 then { s.hw with powerSum := sum, powerCount := s.hw.powerCount + 1 }
                 else { s.hw with inputWatts := sum / 1000000, powerSum := 0, powerCount := 0 } }

/-- POWER_INTERVAL (R433): the average measured input power of the interval. -/
def powerInterval (mw : Nat) (s : State) : State :=
  let s0 := (s.rset Fld.PWR_POWER_MW mw).averagePower mw
  if !s.powered then s0
  else
    let s1 := ((s0.loopStep mw).settlePace).watchOverrun
    let bad : Bool := decide (s1.rget Fld.PWR_PACE_EFFECTIVE = 1 ∧ s1.rget Fld.PWR_STATUS_POINT = 0 ∧ s1.capInForce < mw)
    let n := if bad then s1.pwr.unmetIntervals + 1 else 0
    let s2 : State := { s1 with pwr := { s1.pwr with unmetIntervals := n } }
    if n = 10 then (s2.rset Fld.PWR_FAULT_CAP_UNMET 1).healthEvent Code.OK else s2

def execPowerInterval (mw : Nat) (s : State) : Host.Outcome State Fault Refusal := .next (powerInterval mw s)

/-- THROTTLE_ASSERT (R434). -/
def throttleAssert (s : State) : State :=
  let s1 := ((s.rset Fld.SYS_J1_THROTTLE 1).rset Fld.PWR_STATUS_EMERG 1).rset Fld.PWR_PACE_EMERG 8
  ((s1.countHold Fld.PWR_COUNTS_EMERG).rset Fld.PWR_FAULT_EMERG 1 |>.leaveFixed 3).settlePace.watchOverrun

def execThrottleAssert (s : State) : Host.Outcome State Fault Refusal := .next (throttleAssert s)

/-- THROTTLE_RELEASE (R434): the throttle holds no longer; its limit rises in the steps that follow. -/
def execThrottleRelease (s : State) : Host.Outcome State Fault Refusal :=
  .next ((s.rset Fld.SYS_J1_THROTTLE 0).rset Fld.PWR_STATUS_EMERG 0)

/-- THROTTLE_RAMP_STEP (R434): 16 µs after the release or after the last rise. -/
def throttleRamp (s : State) : State :=
  let n := s.rget Fld.PWR_PACE_EMERG
  if s.rbit Fld.PWR_STATUS_EMERG ∨ 64 ≤ n then s else ((s.rset Fld.PWR_PACE_EMERG (n + 1)).settlePace).watchOverrun

def execThrottleRampStep (s : State) : Host.Outcome State Fault Refusal := .next (throttleRamp s)

-- Clocks (R411, R412, R418 to R422).

/-- CRYSTAL_STABLE (R411, R412): a crystal is stable and the PLLs that it feeds lock, or it has failed. -/
def crystalStable (x : Side) (ok : Bool) (s : State) : State :=
  let lock := s.rget Fld.CLK_STATUS_LOCK
  match x, ok with
  | .a, true => (s.rset Fld.CLK_STATUS_XA_OK 1).rset Fld.CLK_STATUS_LOCK (lock ||| 2)
  | .b, true => (s.rset Fld.CLK_STATUS_XB_OK 1).rset Fld.CLK_STATUS_LOCK (lock ||| 13)
  | .a, false => s.rset Fld.CLK_STATUS_XA_FAIL 1
  | .b, false => s.rset Fld.CLK_STATUS_XB_FAIL 1

def execCrystalStable (side : Side) (ok : Bool) (s : State) : Host.Outcome State Fault Refusal := .next (crystalStable side ok s)

/-- A supervisor whose side's oscillator has failed stops, releases the lease if it holds it, and is an unusable standby
(R418). -/
def State.stopSup (s : State) (x : Side) : State := if x = s.active then s.releaseLease else s.putSup x .unusable

/-- An oscillator has failed (R418, R419): 0 fast A, 1 fast B, 2 slow A, 3 slow B. -/
def State.oscFailed (s : State) (osc : Nat) : State :=
  let x : Side := if osc % 2 = 0 then .a else .b
  let s1 := s.rset Fld.CLK_STATUS_OSC_FAIL (s.rget Fld.CLK_STATUS_OSC_FAIL ||| 2 ^ osc)
  let s2 := (if osc < 2 then s1.failFe x else s1).stopSup x
  let s3 := match osc with
    | 0 => (s2.rset Fld.CLK_STATUS_FAST_SIDE 1).countHold Fld.CLK_SWITCHES_COUNT
    | 2 => (s2.rset Fld.CLK_STATUS_SLOW_SIDE 1).countHold Fld.CLK_SWITCHES_COUNT
    | _ => s2
  s3.healthEvent Code.OK

/-- OSCILLATOR_CHECK (R418): two consecutive counts out of range mark an oscillator failed until the next power-up. -/
def oscillatorCheck (osc count : Nat) (s : State) : State :=
  let good : Bool := if osc < 2 then decide (180000 ≤ count ∧ count ≤ 220000) else decide (3113 ≤ count ∧ count ≤ 3440)
  if 4 ≤ osc ∨ (s.rget Fld.CLK_STATUS_OSC_FAIL).testBit osc then s
  else
    let n := if good then 0 else listAt 0 s.pwr.badCounts osc + 1
    let s1 : State := { s with pwr := { s.pwr with badCounts := s.pwr.badCounts.set osc n } }
    if n = 2 then s1.oscFailed osc else s1

def execOscillatorCheck (osc count : Nat) (s : State) : Host.Outcome State Fault Refusal := .next (oscillatorCheck osc count s)

/-- TEMPO_WINDOW (R421): the monitor cycles of the window, and those that the pacer admitted. -/
def execTempoWindow (count paced : Nat) (s : State) : Host.Outcome State Fault Refusal :=
  .next ((s.rset Fld.CLK_TEMPO_COUNT_COUNT count).rset Fld.CLK_TEMPO_PACED_COUNT paced)

/-- May a word be written to CLK.MEAS_CFG (R422, R435)? -/
def measRefusal (w : Word) : Option Code :=
  if 10 < Fld.CLK_MEAS_CFG_REF.of w ∨ 10 < Fld.CLK_MEAS_CFG_TARGET.of w ∨ Fld.CLK_MEAS_CFG_WINDOW.of w = 0 then
    some Code.E_RESERVED else none

/-- CLK.MEAS_CFG.START: a count begins (R422). -/
def State.startMeasure (s : State) : State :=
  ({ s with pwr := { s.pwr with measuring := true } } : State).rset Fld.CLK_MEAS_CFG_DONE 0

/-- MEAS_START (R422): CLK.MEAS_CFG is written with START. -/
def measStart (cfg : Word) (s : State) : State :=
  if (measRefusal cfg).isSome then s
  else
    let s1 := (s.rset Fld.CLK_MEAS_CFG_REF (Fld.CLK_MEAS_CFG_REF.of cfg)).rset Fld.CLK_MEAS_CFG_TARGET
      (Fld.CLK_MEAS_CFG_TARGET.of cfg)
    (s1.rset Fld.CLK_MEAS_CFG_WINDOW (Fld.CLK_MEAS_CFG_WINDOW.of cfg)).startMeasure

def execMeasStart (cfg : Word) (s : State) : Host.Outcome State Fault Refusal := .next (measStart cfg s)

/-- MEAS_DONE (R422). -/
def measDone (count : Nat) (s : State) : State :=
  if !s.pwr.measuring then s
  else
    let s1 : State := { s with pwr := { s.pwr with measuring := false } }
    (s1.rset Fld.CLK_MEAS_CFG_DONE 1).rset Fld.CLK_MEAS_COUNT_COUNT count

def execMeasDone (count : Nat) (s : State) : Host.Outcome State Fault Refusal := .next (measDone count s)

end Sys2Proof.Machine
end

