-- ==== Sys2Proof/Machine/TwinOps.lean ====
section
/-! DEFINITION. TwinOps.lean: the messages that a module sends to its twin and to the rack controller about the twin lease, and the
loss of a twin (R351 to R355; log entry 29). -/

namespace Sys2Proof.Machine

/-- Is the module at the other end of a session the one that the active pair table names (R18, R351)? The partner key of a session
and the identity entries are both SHA-384 digests of a key (R315, R360). -/
def State.fromPair (s : State) (x : Session) : Bool := s.twinSlot.isSome && s.twinIdentity == some x.partnerKey

/-- The open session between the twins (R351): a session of role Twin with the module that the active pair table names. One that an
earlier epoch left open carries nothing (R18). -/
def State.twinSession (s : State) : Option Nat := (s.sessionsOfRole (· == 5)).find? fun n => (s.session n).any s.fromPair

/-- A MIRROR payload (R353). -/
def State.mirrorPayload (s : State) (op count index number : Nat) (rest : List Byte) : List Byte :=
  [BitVec.ofNat 8 op, 0] ++ leBytes 2 count ++ leBytes 4 (s.rget Fld.CONT_TWIN_LEASE_EPOCH) ++ leBytes 8 index ++
    leBytes 8 s.cont.config.epoch ++ leBytes 8 number ++ rest

/-- A LEASE payload (R354). -/
def State.leasePayload (s : State) (op epoch index renewal : Nat) : List Byte :=
  [BitVec.ofNat 8 op, 0, 0, 0] ++ leBytes 4 epoch ++ leBytes 8 s.cont.config.epoch ++ leBytes 8 index ++ leBytes 8 renewal ++
    s.configDigest ++ zeroBytes 16

/-- Send a message of the module's own to the twin. -/
def State.toTwin (s : State) (type : Nat) (payload : List Byte) : State :=
  match s.twinSession with
  | some n => s.pushOwn n type Code.OK payload
  | none => s

/-- Send a claim for an epoch to the rack controller (R354). -/
def State.sendClaim (s : State) (epoch : Nat) : State :=
  let s1 := s.pushOwnAll (s.sessionsOfRole (· == 4)) 0x0501 Code.OK (s.leasePayload 4 epoch s.cont.twin.applied 0)
  { s1 with cont := { s1.cont with twin := { s1.cont.twin with claiming := some epoch } } }

/-- The holder's own bound records above an index. -/
def State.boundAbove (s : State) (n : Nat) : List JRecord :=
  s.cont.journal.filter fun r => isBound r.body && decide (n < r.index) && decide (r.origin < 128)

/-- Send records to the twin (R352, R353). -/
def State.sendRecords (s : State) (l : List JRecord) : State :=
  match l with
  | [] => s
  | r :: _ =>
    let top := l.foldl (fun n x => max n x.index) 0
    let s1 := s.toTwin 0x0500 (s.mirrorPayload 1 l.length r.index 0 (l.map recordBytes).flatten)
    { s1 with cont := { s1.cont with twin := { s1.cont.twin with mirrored := max s1.cont.twin.mirrored top } } }

/-- The holder mirrors the bound records that it has not sent yet, while its twin is healthy or joins. -/
def State.mirrorOut (s : State) : State :=
  if s.twinState = 1 ∧ (s.cont.twinHealthy ∨ s.cont.twin.joining) then s.sendRecords (s.boundAbove s.cont.twin.mirrored) else s

/-- The highest index of the holder's that the follower holds durable in its own journal (R353). -/
def State.heldDurable (s : State) : Nat :=
  match s.cont.journal.find? fun r => decide (128 ≤ r.origin) && !r.written with
  | some r => r.index - 1
  | none => s.cont.twin.applied

/-- The holder sends a release and takes no bound action from then on (R354, R357). -/
def State.releaseTwin (s : State) : State :=
  let s1 := s.toTwin 0x0501 (s.leasePayload 3 (s.rget Fld.CONT_TWIN_LEASE_EPOCH) s.cont.twin.mirrored s.cont.twin.renewals)
  { s1 with cont := { s1.cont with twin := { s1.cont.twin with acting := false, released := true } } }

/-- The twin counts as lost (R353, R354, R364): the holder goes on alone. -/
def State.loseTwin (s : State) : State :=
  let s1 := (s.rset Fld.CONT_FAULT_TWIN_LOST 1).countHold Fld.CONT_TWIN_LOSSES_COUNT
  let s2 : State := { s1 with cont := { s1.cont with twinHealthy := false, twin := { s1.cont.twin with lost := true, joining := false } } }
  if s.twinState = 1 then s2.rset Fld.CONT_STATUS_TWIN 3 else s2

end Sys2Proof.Machine
end

