-- ==== Sys2Proof/Machine/Pull.lean ====
section
/-! DEFINITION. Pull.lean: the flush record, the tray-pull timeline and the orderly halt (R357 to R359, R450, R474, R477, R478). -/

namespace Sys2Proof.Machine

/-- The flush record of this moment (R359). -/
def State.flushRecord (s : State) : FlushRecord :=
  let accounts := s.srv.accounts.map fun (k, a) =>
    ({ customer := k, isOpen := a.isOpen, weight := a.weight, interval := a.interval, amount := a.amount, cap := a.cap,
       quota := a.quota, balance := a.balance, grant := a.grant } : FlushAccount)
  { identity := identityDigest, tenant := s.tenant, epoch := s.cont.config.epoch, index := s.lastIndex, accounts := accounts,
    health := s.boot.log }

/-- Write the flush record to the two locations in turn. The write fails unless an accepted cartridge is present that does not
report itself read-only (R359). -/
def State.writeFlush (s : State) : State :=
  let c := s.mem.cart
  if !c.present ∨ !c.powered ∨ c.readOnly ∨ s.rget Fld.SEC_CART_STATE ≠ 1 then s.rset Fld.CONT_FAULT_FLUSH 1
  else
    let r := some s.flushRecord
    let c1 := if s.cont.nextFlush = 0 then { c with flush0 := r } else { c with flush1 := r }
    { s with mem := { s.mem with cart := c1 }, cont := { s.cont with nextFlush := 1 - s.cont.nextFlush } }

/-- FLUSH_RECORD (R359): every CONT.HB.FLUSH_S seconds. After step 4 of R357 nothing further is written. -/
def flushPeriod (s : State) : State := if !s.supActs ∨ s.cont.pull = .flushed ∨ s.cont.pull = .held then s else s.writeFlush

def execFlushRecord (s : State) : Host.Outcome State Fault Refusal := .next (flushPeriod s)

/-- An orderly halt is complete (R450): FAULT#, the core rail off, and the cause for the sideband. -/
def State.haltNow (s : State) (cause : Nat) : State :=
  let s1 := ((s.rset Fld.SYS_J1_FAULT_OUT 1).rset Fld.THM_STATUS_HALTED 1).rset Fld.THM_FAULT_HALT 1
  let s2 : State := { s1 with hw := { s1.hw with cause := cause } }
  ((((s2.hwStatus 0 false).hwStatus 1 true).writeStatusPage).rset Fld.PWR_PACE_EFFECTIVE 1).stopRun 6

/-- What follows step 4 of R357 for each trigger: a pull goes on, an orderly halt halts, a fall of PWR_EN removes the rails. -/
def State.afterFlush (s : State) : State :=
  match s.cont.pullWhy with
  | .sense => s
  | .trip => s.haltNow 1
  | .suddenStop => s.haltNow 2
  | .powerOff => (({ s with hw := { s.hw with cause := 5 } } : State).hwStatus 0 false).stopRun 1

/-- Steps 1 and 2 of R357: nothing new is admitted or started, a holder releases the twin lease, and every bound record not yet
acknowledged is sent. A trigger that comes while the timeline runs takes it over from where it stands. -/
def State.startPull (s : State) (why : PullWhy) : State :=
  if s.boot.down then s
  else
    let s0 : State := { s with cont := { s.cont with quiesced := true, pullWhy := why } }
    let s1 := if why = .sense then (s0.rset Fld.CONT_STATUS_PULL 1).hwStatus 7 true else s0
    match s.cont.pull with
    | .none =>
      let s2 := if s1.twinState = 1 then s1.releaseTwin.sendRecords (s1.boundAbove s1.cont.twinAck) else s1
      { s2 with cont := { s2.cont with pull := .waitAck } }
    | .waitAck => s1
    | .flushed => s1.afterFlush
    | .held => s1

/-- Step 4 of R357: the flush record and NVMe Flush. -/
def State.pullFlush (s : State) : State :=
  if s.cont.pull ≠ .waitAck ∨ s.boot.down then s
  else
    let s1 := s.writeFlush
    ({ s1 with cont := { s1.cont with pull := .flushed } } : State).afterFlush

/-- PULL_TWIN_ACK_WAIT (R357): the twin's acknowledgement has come, or 5 ms have passed. -/
def execPullTwinAckWait (s : State) : Host.Outcome State Fault Refusal := .next s.pullFlush

/-- HOLDUP_END (R357): step 6, the module holds reset. -/
def holdupEnd (s : State) : State :=
  if s.cont.pull ≠ .flushed ∨ s.boot.down then s
  else ({ s with cont := { s.cont with pull := .held } } : State).stopRun 5

def execHoldupEnd (s : State) : Host.Outcome State Fault Refusal := .next (holdupEnd s)

/-- A pull-sense pin: its level, and whether it is marked faulted. -/
def pinField (pin : Nat) : Field := if pin = 0 then Fld.SYS_J1_PS1 else Fld.SYS_J1_PS2
def pinFault (pin : Nat) : Field := if pin = 0 then Fld.SYS_J1_PS1_FAULT else Fld.SYS_J1_PS2_FAULT

/-- PULL_SENSE_BREAK (R357, R477): a pin that is not marked faulted has been open for 100 µs. -/
def pullSenseBreak (pin : Nat) (s : State) : State :=
  if 2 ≤ pin ∨ s.boot.down then s
  else
    let s1 := s.rset (pinField pin) 0
    if s1.rbit (pinFault pin) then s1 else s1.startPull .sense

def execPullSenseBreak (pin : Nat) (s : State) : Host.Outcome State Fault Refusal := .next (pullSenseBreak pin s)

/-- A pull is called off (R478): admissions resume. A holder that released the twin lease goes on as follower. -/
def State.endPull (s : State) : State :=
  let s1 := ((s.rset Fld.CONT_STATUS_PULL 0).hwStatus 7 false)
  let s2 : State := { s1 with cont := { s1.cont with quiesced := s1.sec.switch.isSome, pull := .none } }
  if s2.cont.twin.released ∧ s2.twinState = 1 then s2.rset Fld.CONT_STATUS_TWIN 2 else s2

/-- Is a pull that pull-sense started under way and not yet held in reset? -/
def State.pulling (s : State) : Bool := s.rbit Fld.CONT_STATUS_PULL && s.cont.pullWhy == .sense && !s.boot.down

/-- PULL_PIN_FAULT (R478): one pin has been open for 1 s while the other stays made and VIN in range. -/
def pullPinFault (s : State) : State :=
  let a := s.rbit Fld.SYS_J1_PS1
  let b := s.rbit Fld.SYS_J1_PS2
  if !s.pulling ∨ a = b ∨ s.hw.vinLow then s
  else ((s.rset (pinFault (if a then 1 else 0)) 1).endPull).healthEvent Code.OK

def execPullPinFault (s : State) : Host.Outcome State Fault Refusal := .next (pullPinFault s)

/-- PULL_SENSE_REMADE (R478): both pins have been made again for 1 s. -/
def pullRemade (s : State) : State :=
  let s1 := (s.rset Fld.SYS_J1_PS1 1).rset Fld.SYS_J1_PS2 1
  if !s.pulling then s1 else (s1.rset Fld.CONT_FAULT_PULL 1).endPull

def execPullSenseRemade (s : State) : Host.Outcome State Fault Refusal := .next (pullRemade s)

end Sys2Proof.Machine
end

