-- ==== Sys2Proof/Machine/Thermal.lean ====
section
/-! DEFINITION. Thermal.lean: sensors, the predictive model, bands and limits, the coolant and air rules ("Thermal model and
coolant"; log entry 35). Temperatures of the model have 16 fractional bits; those of sensors are in 1/16 °C. -/

namespace Sys2Proof.Machine

/-- A fixed-point product narrowed by `fb` fractional bits (R441; its rounding is a free value, log entry 35). -/
def fixedMul (a b : Int) (fb : Nat) : Int :=
  let p := a * b
  let q := p / 2 ^ fb
  if p % 2 ^ fb ≠ 0 ∧ Config.thermalUp p fb then q + 1 else q

/-- Whole degrees, and sixteenths of a degree, with 16 fractional bits. -/
def degrees (n : Int) : Int := n * 65536
def sixteenths (n : Int) : Int := n * 4096

/-- The kinds of hot spots (R437): 0 die, 1 regulator, 2 memory, 3 cartridge, 4 PHY. -/
def spotKind (h : Nat) : Nat := if h < 16 then 0 else if h < 20 then 1 else if h < 22 then 2 else if h = 22 then 3 else 4

/-- Warm, Hot, Critical and Trip of a kind, °C (R443). -/
def thresholds (kind : Nat) : List Nat :=
  match kind with
  | 0 => [95, 100, 105, 115]
  | 1 => [105, 115, 125, 135]
  | 2 => [85, 95, 100, 105]
  | 3 => [70, 75, 80, 85]
  | _ => [100, 105, 110, 120]

/-- A threshold of a hot spot after derating, °C (R443): 0 Warm to 3 Trip. -/
def State.threshold (s : State) (h i : Nat) : Nat := listAt 0 (thresholds (spotKind h)) i - s.rget Fld.THM_DERATE_OFFSET

/-- A threshold with 16 fractional bits. -/
def State.limitAt (s : State) (h i : Nat) : Int := degrees (s.threshold h i)

-- Sensor validity and the pair rule (R439, R440).

/-- Is a reading invalid, given the same sensor's previous one (R439)? -/
def badReading (prev r : Option Int) : Bool :=
  match r with
  | none => true
  | some v => decide (v < -640 ∨ 2400 < v) || prev.any fun p => decide (32 < (v - p).natAbs)

/-- Is sensor B the one further from an estimate (R440)? -/
def furtherB (a b m : Int) : Bool := decide ((sixteenths a - m).natAbs ≤ (sixteenths b - m).natAbs)

/-- The used value while one sensor is faulted: the other, or the estimate where that is higher. -/
def oneLeft (h : HotSpot) (a b m : Int) : HotSpot :=
  { h with pair := 2, suspect := 0, agree := 0, used := max (sixteenths (if h.faultA then b else a)) m }

/-- The pair rule (R440) on the readings of a hot spot and the estimate of the present moment. -/
def pairRule (h : HotSpot) (ra rb : Option Int) (m : Int) : HotSpot :=
  let h1 := { h with prevA := ra, prevB := rb, faultA := h.faultA || badReading h.prevA ra,
                     faultB := h.faultB || badReading h.prevB rb }
  let a := ra.getD 0
  let b := rb.getD 0
  let far := furtherB a b m
  let marked := { h1 with faultA := !far, faultB := far }
  let both := sixteenths (max a b)
  match h1.faultA, h1.faultB with
  | true, true => { h1 with pair := 3, suspect := 0, agree := 0, used := m + degrees 5 }
  | false, false =>
    let d := (a - b).natAbs
    if 160 < d then oneLeft marked a b m
    else if 48 < d then
      if 8000 ≤ h1.suspect + 1 then oneLeft marked a b m
      else { h1 with pair := 1, suspect := h1.suspect + 1, agree := 0, used := both }
    else
      { h1 with pair := 0, suspect := if 8000 ≤ h1.agree + 1 then 0 else h1.suspect, agree := min 8000 (h1.agree + 1),
                used := both }
  | _, _ => oneLeft h1 a b m

-- The model (R441).

/-- g of R441. -/
def spotGain (h : Nat) : Int :=
  let a : Int := (Config.thermalAlpha h).toNat
  65536 - (List.range 40).foldl (fun (g : Int) (_ : Nat) => fixedMul g (65536 - a) 16) 65536

/-- The steady-state temperature at a power in W, 16 fractional bits. -/
def steadyState (h : Nat) (ref p : Int) : Int :=
  ref + fixedMul (Config.thermalR h).toNat (degrees (Config.thermalC0 h).toNat + fixedMul (Config.thermalC1 h).toNat p 8) 8

/-- The prediction 5 ms ahead of an estimate. -/
def predict (h : Nat) (x tss : Int) : Int := x + fixedMul (tss - x) (spotGain h) 16

/-- One interval of the model. -/
def modelStep (i : Nat) (h : HotSpot) (ref p : Int) : HotSpot :=
  let tss := steadyState i ref p
  let x0 := if h.started then h.x else h.used
  let x1 := x0 + fixedMul (Config.thermalAlpha i).toNat (tss - x0) 16
  let x2 := x1 + fixedMul (Config.thermalBeta i).toNat (h.used - x1) 16
  { h with x := x2, started := true, pred := predict i x2 tss }

-- Bands (R444).

/-- The highest band whose condition holds. -/
def State.bandOf (s : State) (i : Nat) (h : HotSpot) : Nat :=
  if s.limitAt i 3 < h.used then 4
  else if s.limitAt i 2 < h.used then 3
  else if s.limitAt i 1 < h.pred then 2
  else if s.limitAt i 0 < h.pred then 1 else 0

/-- The thermal pacer limit that a hot spot requires, a blind one at most 32 (R440, R444). -/
def State.spotPace (s : State) (i : Nat) (h : HotSpot) : Nat :=
  let warm := s.limitAt i 0
  let hot := s.limitAt i 1
  let n := match h.band with
    | 0 => 64
    | 1 => min 64 (max 8 (8 + 56 * (hot - h.pred) / (hot - warm))).toNat
    | 2 => 8
    | _ => 1
  if h.pair = 3 then min n 32 else n

/-- One hot spot through a snapshot: validity, pair rule, model, band. -/
def State.spotStep (s : State) (i : Nat) (h : HotSpot) (ra rb : Option Int) (ref p : Int) (noEstimate : Int) : HotSpot :=
  let ok := fun (prev r : Option Int) (f : Bool) => if f || badReading prev r then none else r
  let va := ok h.prevA ra h.faultA
  let vb := ok h.prevB rb h.faultB
  let m : Int := if h.started then h.x
    else match va, vb with
      | some a, some b => sixteenths (max a b)
      | some a, none => sixteenths a
      | none, some b => sixteenths b
      | none, none => noEstimate
  let h1 := modelStep i (pairRule h ra rb m) ref p
  let band := s.bandOf i h1
  let top := match h1.max with
    | some t => max t h1.used
    | none => h1.used
  { h1 with band := band, hotFor := if band = 2 ∧ h.band = 2 then h.hotFor + 1 else 0, max := some top }

-- Limits (R442, R444).

/-- The reference temperature, 16 fractional bits (R441, R451). -/
def State.refTemp (s : State) (x : ThermalSnapshot) : Int :=
  match s.variant with
  | .w => sixteenths x.inlet
  | .a => (x.inlet + x.inlet2) * 2048

/-- A power in mW as W with 16 fractional bits. -/
def wattsOf (mw d : Nat) : Int := mw * 65536 / (d * 1000)

/-- The test of R442 for a raise to a point and pacer. -/
def State.raiseOk (s : State) (ref : Int) (point pace : Nat) : Bool :=
  let m := s.modelPower point (min pace (s.ceilingOf point))
  let p := wattsOf m.1 m.2
  (List.range 24).all fun i =>
    let h := listAt {} s.thm.spots i
    decide (predict i h.x (steadyState i ref p) ≤ s.limitAt i 0)

/-- The thermal limits after a snapshot. -/
def State.thermalLimits (s : State) (ref : Int) : State :=
  let l := s.thm.spots
  let need := (List.range 24).foldl (fun (n : Nat) i => min n (s.spotPace i (listAt {} l i))) 64
  let now := s.rget Fld.THM_STATUS_LIMIT
  let point := s.rget Fld.THM_STATUS_POINT
  let worst := l.foldl (fun (n : Nat) (h : HotSpot) => max n h.band) 0
  let up := min (now + 1) need
  let pace := if s.thm.stopped then 1 else if up ≤ now then up
    else if s.raiseOk ref (s.rget Fld.PWR_STATUS_POINT) up then up else now
  let calm := if worst = 0 ∧ !s.thm.stopped then s.thm.normalFor + 1 else 0
  let rises : Bool := decide (400 ≤ calm ∧ point < 7) && s.raiseOk ref (point + 1) pace
  let lowers : Bool := l.any fun h => h.band == 2 && h.hotFor % 40 == 0
  let point1 := if s.thm.stopped ∨ 3 ≤ worst then 0 else if lowers then point - 1 else if rises then point + 1 else point
  let s1 := ((s.rset Fld.THM_STATUS_BAND worst).rset Fld.THM_STATUS_LIMIT pace).rset Fld.THM_STATUS_POINT point1
  { s1 with thm := { s1.thm with normalFor := if rises then 0 else calm } }

/-- PWR.PACE.THERMAL and the pacer follow the thermal limits (R427, R444). -/
def State.applyThermal (s : State) : State :=
  ((s.rset Fld.PWR_PACE_THERMAL (s.rget Fld.THM_STATUS_LIMIT)).settlePace).watchOverrun

/-- The coolant field of THM.STATUS: the flow band, 4 stopped, 5 not fitted. -/
def State.showCoolant (s : State) : State :=
  s.rset Fld.THM_STATUS_COOLANT (match s.variant with
    | .a => 5
    | .w => if s.thm.stopped then 4 else s.thm.band)

/-- The status bits of the pairs. -/
def State.showPairs (s : State) : State :=
  let l := s.thm.spots
  ((s.rset Fld.THM_STATUS_SUSPECT (if l.any (·.pair == 1) then 1 else 0)).rset Fld.THM_STATUS_FAULTED
    (if l.any fun h => h.faultA || h.faultB then 1 else 0)).rset Fld.THM_STATUS_BLIND (if l.any (·.pair == 3) then 1 else 0)

/-- What the changes of one hot spot count, mark and report (R440, R444, R452). -/
def State.noteSpot (s : State) (old new : HotSpot) : State :=
  let left : Bool := new.pair ≠ 0 ∧ new.pair ≠ old.pair
  let s1 := if left then (s.rset Fld.THM_FAULT_SENSOR 1).healthEvent Code.OK else s
  let s2 := if old.band = 0 ∧ 1 ≤ new.band then (s1.countHold Fld.THM_COUNTS_WARM).healthEvent Code.OK else s1
  if old.band < 3 ∧ 3 ≤ new.band then (s2.countHold Fld.THM_COUNTS_CRIT).rset Fld.THM_FAULT_CRIT 1 else s2

/-- All hot spots through a snapshot (R438, steps 1 to 4). -/
def State.spotsStep (s : State) (x : ThermalSnapshot) : State :=
  let ref := s.refTemp x
  let p := wattsOf (s.rget Fld.PWR_POWER_MW) 1
  let d := s.draw
  let old := s.thm.spots
  let new := (List.range 24).map fun i =>
    s.spotStep i (listAt {} old i) (listAt none x.a i) (listAt none x.b i) ref p (Config.freeWord d.1).toInt
  let s1 : State := { d.2 with thm := { d.2.thm with spots := new } }
  let s2 := (List.range 24).foldl (fun (s : State) i => s.noteSpot (listAt {} old i) (listAt {} new i)) s1
  (s2.thermalLimits ref).showPairs

-- Caps of the coolant and of the air (R446, R447, R451).

/-- The cap of a flow band, mW; 0 none. -/
def bandCap (b : Nat) : Nat := listAt 0 [0, 400000, 320000, 240000] b

/-- The lower of two caps, where 0 is none. -/
def lowerCap (a b : Nat) : Nat := if a = 0 then b else if b = 0 then a else min a b

/-- THM.CAP follows the flow band, the inlet and lost airflow; a change enters R431 and R432. -/
def State.applyCap (s : State) : State :=
  let flow := match s.variant with
    | .w => bandCap s.thm.band
    | .a => if s.thm.airLost then 140000 else 0
  let cap := lowerCap flow s.thm.inletCap
  if cap = s.rget Fld.THM_CAP_MW then s else (s.rset Fld.THM_CAP_MW cap).newCap

-- The coolant of the QM-512W (R445 to R450).

/-- A sudden stop is declared (R448, R449 step 1). -/
def State.declareStop (s : State) : State :=
  if s.thm.stopped then s
  else
    let die := (s.thm.spots.take 16).map (·.used)
    let s1 : State := { s with thm := { s.thm with stopped := true, stopUsed := die, watchEnded := false, normalFor := 0 } }
    ((((s1.rset Fld.THM_STATUS_LIMIT 1).rset Fld.THM_STATUS_POINT 0).rset Fld.THM_FAULT_STOP 1).healthEvent Code.OK).showCoolant

/-- The implied flow in mL/min, rounded down, and whether that is exact; none where it is not computed (R445). -/
def impliedFlow (mw : Nat) (rise : Int) : Option (Nat × Bool) :=
  if mw < 100000 then none
  else if rise < 8 then some (2000, true)
  else
    let n := mw * 160
    let d := 697 * rise.toNat
    some (n / d, n % d == 0)

/-- Show the measured and the implied flow. What does not fit its field, a missing measurement, and the rounding of the implied
flow are free values (log entry 35). -/
def State.showFlow (s : State) (flow : Option Nat) (implied : Option (Nat × Bool)) : State :=
  let d := s.draw
  let w := (Config.freeWord d.1).toNat
  let f := match flow with
    | some n => if n < 4096 then n else w / 4096
    | none => w / 4096
  let i := match implied with
    | some (n, exact) =>
      let n1 := if !exact && w % 2 == 1 then n + 1 else n
      if n1 < 4096 then n1 else w / 16777216
    | none => 0
  (d.2.rset Fld.THM_FLOW_FLOW f).rset Fld.THM_FLOW_IMPLIED i

/-- The flow sensor is judged (R445), the flow that the rules use, and its effects of one interval. -/
def State.flowStep (s : State) (x : ThermalSnapshot) : State :=
  let bad : Bool := match x.flow with
    | none => true
    | some n => decide (4000 < n)
  let newly := bad && !s.thm.flowFaulted
  let s1 := if newly then (s.rset Fld.THM_FAULT_FLOW_SENSOR 1).healthEvent Code.OK else s
  let faulted := s.thm.flowFaulted || bad
  let mw := s.rget Fld.PWR_POWER_MW
  let implied := impliedFlow mw (x.outlet - x.inlet)
  let s2 := s1.showFlow x.flow implied
  let t := { s2.thm with flowFaulted := faulted, outlet := some x.outlet,
                         windowOutlet := some (s2.thm.windowOutlet.getD x.outlet),
                         windowPower := if s2.thm.windowOutlet.isNone then mw else s2.thm.windowPower }
  match (if faulted then implied.map (·.1) else x.flow) with
  | none => { s2 with thm := t }
  | some f =>
    let low := if f < 250 then t.lowReadings + 1 else 0
    let s3 : State := { s2 with thm := { t with flowSum := t.flowSum + f, flowCount := t.flowCount + 1, lowReadings := low } }
    let s4 := s3.rsetIf (decide (2000 < f)) Fld.THM_FAULT_FLOW_HIGH 1
    if 800 ≤ low then s4.declareStop else s4

/-- The inlet of the QM-512W (R447). -/
def State.inletStep (s : State) (x : ThermalSnapshot) : State :=
  let hot := if 800 < x.inlet then s.thm.inletHot + 1 else 0
  let s1 := s.rsetIf (decide (640 < x.inlet ∨ x.inlet < 160)) Fld.THM_FAULT_INLET 1
  let s2 : State := { s1 with thm := { s1.thm with inletHot := hot, inletCap := if 640 < x.inlet then 240000 else 0 } }
  if 8000 ≤ hot then s2.declareStop else s2

/-- Steps 4 and 5 of R449: after a sudden stop, a die hot spot that has risen 2 °C, or any that reaches Critical, halts the
module. -/
def State.stopClimbs (s : State) : Bool :=
  s.thm.stopped && (s.thm.spots.any (fun h => decide (3 ≤ h.band)) ||
    (List.range 16).any fun i => decide (listAt 0 s.thm.stopUsed i + degrees 2 ≤ (listAt {} s.thm.spots i).used))

-- The air of the QM-512A (R451).

/-- The inlet air and the rise of H15. -/
def State.airStep (s : State) (x : ThermalSnapshot) : State :=
  let t := x.inlet + x.inlet2
  let cap := if t ≤ 1120 then 0 else if t ≤ 1440 then 220000 - 250 * (t - 1120).toNat else 140000
  let s1 := s.rsetIf (decide (1440 < t)) Fld.THM_FAULT_INLET 1
  let now := (listAt {} s1.thm.spots 15).x
  let mw := s1.rget Fld.PWR_POWER_MW
  let p0 := s1.thm.risePower
  let fast : Bool := s1.thm.riseX.any fun v => decide (16384 < (now - v) * 1000)
  let still : Bool := decide ((max mw p0 - min mw p0) * 10 < p0)
  let n := if !fast then 0 else if s1.thm.riseFor = 0 ∨ !still then 1 else s1.thm.riseFor + 1
  let th := { s1.thm with inletCap := cap, riseX := some now, riseFor := n, risePower := if n ≤ 1 then mw else p0,
                          airLost := s1.thm.airLost || decide (8000 ≤ n) }
  ({ s1 with thm := th } : State).rsetIf (decide (8000 ≤ n)) Fld.THM_FAULT_AIRFLOW 1

-- The commands.

/-- THERMAL_INTERVAL (R438): one snapshot; validity, pair rule, model, bands, coolant rules; then the interval's HEALTH_EVENT
(R461). -/
def thermalInterval (x : ThermalSnapshot) (s : State) : State :=
  if s.boot.down then s
  else
    let s1 := s.spotsStep x
    let s2 := match s1.variant with
      | .w => ((s1.rset Fld.THM_COOLANT_INLET (x.inlet % 65536).toNat).rset Fld.THM_COOLANT_OUTLET (x.outlet % 65536).toNat
          |>.flowStep x).inletStep x
      | .a => (s1.rset Fld.THM_COOLANT_INLET (fixedMul (x.inlet + x.inlet2) 1 1 % 65536).toNat).airStep x
    let s3 := (s2.showCoolant.applyCap).applyThermal
    let s4 := if s3.thm.spots.any fun h => h.band == 4 then s3.startPull .trip
      else if s3.stopClimbs then s3.startPull .suddenStop else s3
    s4.sendHealth

def execThermalInterval (x : ThermalSnapshot) (s : State) : Host.Outcome State Fault Refusal := .next (thermalInterval x s)

/-- AIRFLOW_CLEAR (R451): 60 s of normal rise rates. -/
def airflowClear (s : State) : State :=
  if !s.thm.airLost ∨ s.boot.down then s
  else (({ s with thm := { s.thm with airLost := false, riseFor := 0 } } : State).rset Fld.THM_FAULT_AIRFLOW 0).applyCap

def execAirflowClear (s : State) : Host.Outcome State Fault Refusal := .next (airflowClear s)

/-- The flow band of an average of `sum / n` mL/min, against edges raised by `by` mL/min (R446). -/
def flowBand (sum n raised : Nat) : Nat :=
  if (800 + raised) * n ≤ sum then 0 else if (650 + raised) * n ≤ sum then 1 else if (500 + raised) * n ≤ sum then 2 else 3

/-- The band after an average, under the hysteresis of R446. -/
def ThmState.bandStep (t : ThmState) (sum n : Nat) : ThmState :=
  let b := flowBand sum n 0
  let r := flowBand sum n 50
  let lr := if t.band < b then t.lowerRun + 1 else 0
  let lb := if t.lowerRun = 0 then b else min t.lowerBand b
  let hr := if r < t.band then t.higherRun + 1 else 0
  let hb := if t.higherRun = 0 then r else max t.higherBand r
  if 10 ≤ lr then { t with band := lb, lowerRun := 0, higherRun := 0 }
  else if 100 ≤ hr then { t with band := hb, lowerRun := 0, higherRun := 0 }
  else { t with lowerRun := lr, lowerBand := lb, higherRun := hr, higherBand := hb }

/-- Has the outlet risen by more than 0.3 °C over the 100 ms while the power changed by less than 10 % (R448)? -/
def State.outletClimbs (s : State) : Bool :=
  let p0 := s.thm.windowPower
  let p1 := s.rget Fld.PWR_POWER_MW
  match s.thm.windowOutlet, s.thm.outlet with
  | some a, some b => decide (48 < (b - a) * 10 ∧ (max p0 p1 - min p0 p1) * 10 < p0)
  | _, _ => false

/-- FLOW_AVERAGE (R446, R448): the flow of the last 100 ms, which leaves the bands as they are where none was measured or implied, and
the outlet's rise. -/
def flowAverage (s : State) : State :=
  if s.variant = .a ∨ s.boot.down then s
  else
    let t := s.thm
    let low := if t.flowCount = 0 then t.lowAverages else if t.flowSum < 250 * t.flowCount then t.lowAverages + 1 else 0
    let t1 := if t.flowCount = 0 then t else t.bandStep t.flowSum t.flowCount
    let stop : Bool := s.outletClimbs || decide (10 ≤ low)
    let t2 := { t1 with lowAverages := low, flowSum := 0, flowCount := 0, windowOutlet := t.outlet,
                        windowPower := s.rget Fld.PWR_POWER_MW }
    let s1 : State := { s with thm := t2 }
    let s2 := if t1.band = t.band then s1 else (s1.rsetIf (decide (0 < t1.band)) Fld.THM_FAULT_FLOW_LOW 1).healthEvent Code.OK
    let s3 := if stop then s2.declareStop else s2
    (s3.showCoolant.applyCap).applyThermal

def execFlowAverage (s : State) : Host.Outcome State Fault Refusal := .next (flowAverage s)

/-- SUDDEN_STOP_WATCH_END (R449 steps 3 and 5): 500 ms have passed without a rise. -/
def execSuddenStopWatchEnd (s : State) : Host.Outcome State Fault Refusal :=
  .next (if s.thm.stopped then { s with thm := { s.thm with watchEnded := true } } else s)

/-- SUDDEN_STOP_CLEAR (R449 step 6): the limits rise under R444 and R446 from here on. -/
def suddenStopClear (s : State) : State :=
  if !s.thm.stopped ∨ s.boot.down then s
  else
    let t := { s.thm with stopped := false, stopUsed := [], watchEnded := false, lowReadings := 0, lowAverages := 0 }
    ({ s with thm := t } : State).showCoolant

def execSuddenStopClear (s : State) : Host.Outcome State Fault Refusal := .next (suddenStopClear s)

end Sys2Proof.Machine
end

