-- ==== Sys2Proof/Machine/Boot.lean ====
section
/-! DEFINITION. Boot.lean: the start-up timeline, the self-test slices and their failures, the health report, run-time and raw
self-test ("Start-up and self-test"; log entries 30 and 36). -/

namespace Sys2Proof.Machine

-- The reset of one block after its slice (R456).

/-- The registers of a block take their reset values, except their LK fields. -/
def resetBlockRegs (r : Regs) (block : Nat) (sel : Option Nat := none) : Regs :=
  r.foldl (fun (t : Regs) (x : Nat × Word) =>
    let addr := x.1 % 4294967296
    if addr / 65536 = block ∧ sel.all fun k => x.1 / 4294967296 == k then
      match regDesc addr with
      | none => t
      | some d =>
        let lk : Word := BitVec.ofNat 32 d.lk
        Regs.setWord t addr (x.1 / 4294967296) ((x.2 &&& lk) ||| (BitVec.ofNat 32 d.reset &&& ~~~lk))
    else t) r

/-- Banks `lo` up to `hi` are left at zero. -/
def State.zeroBanks (s : State) (lo hi : Nat) : State :=
  { s with mem := { s.mem with banks := s.mem.banks.filter fun x => !(decide (lo ≤ x.1 / 16777216 ∧ x.1 / 16777216 < hi)) } }

/-- The block of a slice is reset (R456). The registers of front ends and ports are those of the NET block; a port's are those of
its selector, and its link has to train again. -/
def State.resetSliceBlock (s : State) (k unit : Nat) : State :=
  let regs := fun (block : Nat) => ({ s with regs := resetBlockRegs s.regs block } : State)
  match k with
  | 7 => ({ regs 0x10 with arr := {} } : State).zeroBanks 0x18 0x1C
  | 8 => regs 0x11
  | 9 => ({ regs 0x12 with trim := {} } : State).zeroBanks 0x20 0x60
  | 10 => ({ regs 0x32 with vid := {} } : State).zeroBanks 0x64 0x65
  | 11 =>
    if 6 ≤ unit then s
    else
      let perPort := [0x400020, 0x400024, 0x400028, 0x40002C, 0x400030, 0x400034, 0x400038, 0x40003C, 0x400040, 0x400044]
      let r := s.regs.filter fun x => !(x.1 / 4294967296 == unit && perPort.contains (x.1 % 4294967296))
      { s with regs := r, net := { s.net with ports := s.net.ports.set unit {} } }
  | 12 => s.zeroBanks (0x62 + unit) (0x63 + unit)
  | 13 => s.zeroBanks (0x60 + unit) (0x61 + unit)
  | _ => s

-- Failed blocks (R457).

/-- Record a failed block: its bit of the unusable mask and the health event that names it. -/
def State.markUnusable (s : State) (bit : Nat) : State :=
  if (s.rget Fld.BIST_UNUSABLE_BLOCKS).testBit bit then s
  else (s.rset Fld.BIST_UNUSABLE_BLOCKS (s.rget Fld.BIST_UNUSABLE_BLOCKS + 2 ^ bit)).healthEvent Code.OK bit

/-- A block leaves the unusable mask, since its slice has passed. -/
def State.markUsable (s : State) (bit : Nat) : State :=
  if (s.rget Fld.BIST_UNUSABLE_BLOCKS).testBit bit then s.rset Fld.BIST_UNUSABLE_BLOCKS (s.rget Fld.BIST_UNUSABLE_BLOCKS - 2 ^ bit)
  else s

/-- A failed block's gate is 0 and locked until the next full reset. -/
def State.gateOff (s : State) (bit : Nat) : State :=
  let lock := s.rget Fld.SYS_GATE_LOCK
  let s1 := s.rset Fld.SYS_GATE_LOCK (if lock.testBit bit then lock else lock + 2 ^ bit)
  s1.rset ⟨Fld.SYS_GATE_LOCK.addr, bit, 1⟩ 0

/-- Requests whose image needs what is lost end with a code; those of a protected session on a twin pair are served by the twin
(R91). -/
def State.endUsers (s : State) (code : Code) (uses : Image → Bool) : State :=
  let onTwin := fun (r : Request) => (s.twinState == 1 || s.twinState == 2) && (s.session r.session).any (·.isProtected)
  let gone := s.srv.requests.filter fun x => !onTwin x.2 && (s.slot x.2.slot).image.any uses
  (gone.map (·.1)).foldl (fun (s : State) row => s.failRequest row code 8) s

/-- The array cannot be used (R73, R91). -/
def State.loseArray (s : State) : State :=
  ((s.rset Fld.ARR_REMAP_UNUSABLE 1).markUnusable 0).endUsers Code.F_ARRAY Image.usesArray

-- The trim map (R144, R145).

/-- Of the usable physical cores, the lowest-numbered that hosts no second logical core. -/
def hostFor (dead : List Nat) (taken : List Nat) : Nat :=
  ((List.range 64).find? fun p => !dead.contains p && !taken.contains p).getD 0

/-- The physical core of each logical core: its own where that is usable, and else a host. -/
def trimMap (dead : List Nat) : List Nat :=
  ((List.range 64).foldl (fun (x : List Nat × List Nat) (c : Nat) =>
    if dead.contains c then (x.1 ++ [hostFor dead x.2], x.2 ++ [hostFor dead x.2]) else (x.1 ++ [c], x.2)) ([], [])).1

/-- The substitute banks of R145 that may be used: those that have passed every run-time test (R462). -/
def State.substitutes (s : State) : List Nat := [0, 1].filter fun i => !s.boot.badSpares.contains (2 + i)

/-- BIST.SPARE of a substitute bank. -/
def subField (i : Nat) : Field := if i = 0 then Fld.BIST_SPARE_SUB0_OK else Fld.BIST_SPARE_SUB1_OK

/-- TRIM.MAP, TRIM.DEAD and TRIM.STATUS follow the dead cores and the bad local banks, which take the substitute banks in order
(R144, R145). One in use shows as good (R466). -/
def State.mapTrim (s : State) (dead : List Nat) : State :=
  let mask := fun (lo : Nat) => (List.range 32).foldl (fun n i => n + if dead.contains (lo + i) then 2 ^ i else 0) 0
  let s1 := (s.rset Fld.TRIM_DEAD_LO_CORES (mask 0)).rset Fld.TRIM_DEAD_HI_CORES (mask 32)
  let live := ((List.range 64).filter fun p => !dead.contains p).length
  let s1 := s1.rset Fld.TRIM_STATUS_USABLE live
  if live < 32 ∨ s.substitutes.length < s.boot.badLocals.length then
    ((s1.rset Fld.TRIM_STATUS_UNUSABLE 1).markUnusable 2).endUsers Code.F_TRIM Image.usesTrim
  else
    let m := trimMap dead
    let s2 := (List.range 64).foldl (fun (s : State) c => s.rset (Fld.TRIM_MAP_CORE c) (listAt 0 m c)) s1
    let sub := fun (s : State) (x : Nat × Nat) =>
      ((s.rset (Fld.TRIM_MAP_SUBBANK x.2) 1).rset (Fld.TRIM_MAP_SUBSEL x.2) x.1).rset (subField x.1) 1
    (s.substitutes.zip s.boot.badLocals).foldl sub (s2.rset Fld.TRIM_STATUS_SUBBANKS s.boot.badLocals.length)

-- THERMAL (R455).

/-- A sorted list of integers. -/
def insertInt (v : Int) : List Int → List Int
  | [] => [v]
  | x :: xs => if v ≤ x then v :: x :: xs else x :: insertInt v xs

/-- Twice the median of a list. -/
def twiceMedian (l : List Int) : Int :=
  let s := l.foldr insertInt []
  listAt 0 s ((s.length - 1) / 2) + listAt 0 s (s.length / 2)

/-- The THERMAL slice's marking of one pair: an invalid reading; or, with more than 3 °C between the two, the sensor further from
the median of its kind (on a tie B). -/
def thermalMark (r : SliceReport) (i : Nat) (h : HotSpot) : HotSpot :=
  let a := listAt none r.a i
  let b := listAt none r.b i
  let ba := badReading none a
  let bb := badReading none b
  if ba ∨ bb then { h with faultA := ba, faultB := bb }
  else
    let va := a.getD 0
    let vb := b.getD 0
    if (va - vb).natAbs ≤ 48 then h
    else
      let same := (List.range 24).filter fun j => spotKind j == spotKind i
      let m := twiceMedian ((same.map fun j => [listAt none r.a j, listAt none r.b j]).flatten.filterMap id)
      let far : Bool := decide ((2 * va - m).natAbs ≤ (2 * vb - m).natAbs)
      { h with faultA := !far, faultB := far }

-- The cartridge's identity (R387, R388).

/-- The identity check, with the bay powered: SEC.CART.STATE. -/
def State.checkCart (s : State) : State :=
  let c := s.mem.cart
  let listed : Bool := match s.sec.enrolment with
    | some e => e.cartridges.isEmpty || e.cartridges.contains c.carrier
    | none => true
  let code := if !c.present then 0 else if !c.genuine then 2 else if listed then 1 else 3
  { s with mem := { s.mem with cart := { c with powered := c.present } } }.rset Fld.SEC_CART_STATE code

/-- The cartridge's life (R486, R487): bytes written in units of 10^9, the life used in %, and its
basis. It raises a HEALTH_EVENT when the life used first reaches 90 % and 100 %. -/
def State.showLife (s : State) : State :=
  let c := s.mem.cart
  let bytes := c.written
  let w := bytes / 80000000000000
  let m := c.matings * 100 / 500
  let used := max w (max m c.devicePct)
  let basis := if w = used then 0 else if m = used then 1 else 2
  let eol : Bool := decide (8000000000000000 ≤ bytes ∨ 500 ≤ c.matings ∨ 100 ≤ c.devicePct)
  let warn : Bool := decide (90 ≤ used)
  let news : Bool := (warn && !s.rbit Fld.SYS_CART_LIFE_WARN) || (eol && !s.rbit Fld.SYS_CART_LIFE_EOL)
  let s1 := ((s.rset Fld.SYS_CART_WRITTEN_GB (min (bytes / 1000000000) 4294967295)).rset Fld.SYS_CART_LIFE_USED_PCT (min used 255)).rset
    Fld.SYS_CART_LIFE_BASIS basis
  let s2 := ((s1.rset Fld.SYS_CART_LIFE_WARN (if warn then 1 else 0)).rset Fld.SYS_CART_LIFE_EOL (if eol then 1 else 0)).rset
    Fld.SYS_CART_LIFE_READ_ONLY (if c.readOnly then 1 else 0)
  let s3 := (s2.rset Fld.SYS_CART_LIFE_CYCLES (min c.matings 65535)).rset Fld.MEM_CART_PAGES_EOL (if eol then 1 else 0)
  if news then s3.healthEvent Code.OK else s3

-- The end of a slice (R454 to R457).

/-- The result of a slice: 0 passed, 1 passed with a repair, 2 failed. -/
def State.sliceResult (s : State) (k : Nat) (r : SliceReport) : Nat :=
  let code := fun (bad part : Bool) => if bad then 2 else if part then 1 else 0
  match k with
  | 0 => code (!r.ok || !r.failed.isEmpty) false
  | 2 => code (!r.ok || (List.range 24).any fun i => let h := thermalMark r i {}; h.faultA || h.faultB) false
  | 4 => code (!r.failed.isEmpty) r.repaired
  | 5 =>
    let groups := (r.failed.filter (· < 80)).map channelGroup
    code (!r.ok || s.rbit Fld.CLK_STATUS_XB_FAIL || decide (groups.eraseDups.length < groups.length)) (!r.failed.isEmpty || r.repaired)
  | 7 =>
    let bad : Bool := !r.ok || decide (2 ≤ r.failed.length ∨ 2 ≤ r.cols.length) || (r.failed ++ r.cols).any (fun g => decide (32 < g)) ||
      (s.boot.badSpares.contains 0 && r.failed.any (· != 32)) || (s.boot.badSpares.contains 1 && r.cols.any (· != 32))
    code bad (!r.failed.isEmpty || !r.cols.isEmpty)
  | 8 => code (!r.ok || !r.failed.isEmpty) false
  | 9 =>
    let bad : Bool := decide (32 < r.failed.eraseDups.length ∨ s.substitutes.length < s.boot.badLocals.length)
    code (!r.ok || bad) (!r.failed.isEmpty || !s.boot.badLocals.isEmpty)
  | 10 => code (!r.ok || s.rbit Fld.CLK_STATUS_XB_FAIL) false
  | 11 => code (!r.ok || !r.failed.isEmpty) false
  | _ => code (!r.ok) false

/-- Slice 4 writes every bank, and what fails is noted (R455): the feed and collector banks, and the local memories. -/
def State.bankTest (s : State) (r : SliceReport) : State :=
  let locals := ((r.failed.filter fun b => 32 ≤ b && b < 96).map (· - 32)).eraseDups
  { s with mem := { s.mem with banks := [] }, boot := { s.boot with badBanks := r.failed.filter (· < 24), badLocals := locals } }

/-- What a slice's end does to its block (R457). -/
def State.sliceEffect (s : State) (k unit : Nat) (r : SliceReport) (result : Nat) : State :=
  let pass : Bool := result ≠ 2
  let side : Side := if unit = 0 then .a else .b
  match k with
  | 0 => (r.failed.filter (· < 4)).foldl (fun (s : State) o => s.oscFailed o) s
  | 1 => if pass then s else (({ s with pwr := { s.pwr with noUp := true } } : State).rset Fld.PWR_FAULT_VREG 1)
  | 2 => { s with thm := { s.thm with spots := (List.range 24).map fun i => thermalMark r i (listAt {} s.thm.spots i) } }
  | 3 =>
    if pass then (s.rset Fld.SEC_TRNG_FAIL 0).rset Fld.SEC_TRNG_HEALTH_OK 1
    else ((s.rset Fld.SEC_TRNG_FAIL 1).rset Fld.SEC_TRNG_HEALTH_OK 0).markUnusable 16
  | 4 =>
    let s1 := s.bankTest r
    if r.failed.any fun b => 24 ≤ b && b < 28 then s1.loseArray else s1
  | 5 =>
    if s.rbit Fld.CLK_STATUS_XB_FAIL ∨ !r.ok then (s.memoryOut).markUnusable 15
    else
      let s1 := (r.failed.foldl (fun (s : State) c => s.trainFailed c) s).storeTraining r.failed
      let rate := s1.rget (Fld.PWR_OP_RATE (s1.rget Fld.PWR_STATUS_POINT))
      let s2 := (({ s1 with mem := { s1.mem with fsp0 := some rate, onFsp1 := false } } : State).rset Fld.MEM_STATUS_TRAINED 1).rset
        Fld.MEM_STATUS_RATE rate
      if s2.rbit Fld.MEM_STATUS_OUT then s2.markUnusable 15 else s2
  | 6 => if pass then (if s.mem.cart.present then s.checkCart.showLife else s) else s.markUnusable 4
  | 7 =>
    let s1 := s.rset Fld.ARR_REMAP_RESIDUE_EN 1
    if !pass then s1.loseArray
    else
      let f := fun (l : List Nat) => min (listAt 32 l 0) 32
      ((s1.rset Fld.ARR_REMAP_ROW_GROUP (f r.failed)).rset Fld.ARR_REMAP_COL_GROUP (f r.cols))
  | 8 => if pass then s else (s.markUnusable 1).loseArray
  | 9 => if r.ok then s.mapTrim (r.failed.filter (· < 64)).eraseDups
    else ((s.rset Fld.TRIM_STATUS_UNUSABLE 1).markUnusable 2).endUsers Code.F_TRIM Image.usesTrim
  | 10 => if pass then s.markUsable 3 else (s.markUnusable 3).gateOff 4
  | 11 =>
    let bad := if r.ok then r.failed.filter (· < 6) else if 6 ≤ unit then List.range 6 else [unit]
    bad.foldl (fun (s : State) p => (s.markUnusable (5 + p)).gateOff (5 + p)) s
  | 12 =>
    if pass then
      let s1 := ((s.markUsable (11 + unit)).putFe side { state := if s.boot.step ≤ 10 then .up else .clean }).newEpochs side
      if s1.fwu.stopped = some 3 ∧ unit = 1 then s1.stopFe .a else s1
    else
      let s1 := (s.markUnusable (11 + unit)).putFe side {}
      if s1.feUp (otherSide side) then s1
      else if s1.boot.step ≤ 10 then s1 else s1.cannotServe
  | 13 =>
    if pass then
      let s1 := (s.markUsable (13 + unit)).putSup side (if s.sideFailed side then .unusable else .standby)
      if s1.fwuState = 3 ∧ s1.rget Fld.FWU_STATE_STEP = fwStep 2 ∧ s1.fwu.stopped.isNone ∧ !s1.fwu.committed.contains 2 then
        ({ s1 with fwu := { s1.fwu with stopped := some 2 } } : State).handOver
      else s1
    else
      let s1 := (s.markUnusable (13 + unit)).putSup side .unusable
      if s1.boot.step = 11 ∧ s1.sup (otherSide side) = .unusable then s1.cannotServe else s1
  | _ => s

/-- The component (R393) whose block a slice tests. -/
def sliceComponent (k : Nat) : Option Nat :=
  match k with
  | 5 => some 4
  | 7 => some 6
  | 8 => some 6
  | 9 => some 6
  | 10 => some 5
  | 12 => some 3
  | 13 => some 2
  | _ => none

/-- Has the present update replaced a component, or is it doing so (R407)? -/
def State.updates (s : State) (c : Nat) : Bool :=
  decide (3 ≤ s.fwuState) && ((s.fwu.staged.map fun p => p.images.any (·.component == c)).getD false)

/-- The result code of a raw slice (R466): OK where it passed, F_ARRAY and F_TRIM for those blocks; a code that is not stated is a
free value. -/
def State.rawCode (s : State) (k : Nat) (pass : Bool) : Nat × State :=
  if pass then (0, s)
  else
    match k with
    | 7 => (Code.F_ARRAY.toNat, s)
    | 8 => (Code.F_ARRAY.toNat, s)
    | 9 => (Code.F_TRIM.toNat, s)
    | _ => let d := s.draw; ((Config.freeWord d.1).toNat % 65536, d.2)

/-- A slice ends (R454, R456, R457, R465, R466). -/
def State.endSlice (s : State) (k unit : Nat) (r : SliceReport) (late : Bool) : State :=
  if !s.boot.due.contains (k, unit) then s
  else
    let raw : Bool := s.boot.raw = some (k, unit)
    let result := s.sliceResult k r
    let due := s.boot.due.erase (k, unit)
    let s0 : State := { s with boot := { s.boot with due := due, raw := if raw then none else s.boot.raw } }
    let s1 := s0.resetSliceBlock k unit
    let s2 := ((s1.rset (Fld.BIST_RESULT k) result).rset (Fld.BIST_OVERTIME k) (if late then 1 else 0)).rset Fld.BIST_STATUS_SLICE
      (match due with
      | [] => k
      | x :: _ => x.1)
    let s3 := ((s2.rset Fld.BIST_STATUS_BUSY (if due.isEmpty then 0 else 1)).rsetIf late Fld.BIST_FAULT_OVERTIME 1).rsetIf
      (result == 2) Fld.BIST_FAULT_SLICE 1
    let s4 := s3.sliceEffect k unit r result
    let s5 := if result = 2 ∧ (sliceComponent k).any s4.updates then s4.enterFallback else s4
    if raw then
      let c := s5.rawCode k (result ≠ 2)
      (c.2.rset Fld.BIST_RUN_RES_CODE c.1).rset Fld.BIST_RUN_RES_DONE 1
    else s5

/-- SLICE_END (R457). -/
def execSliceEnd (slice unit : Nat) (report : SliceReport) (s : State) : Host.Outcome State Fault Refusal :=
  .next (s.endSlice slice unit report false)

/-- SLICE_BUDGET_EXPIRY (R454): the slice ends and counts as failed for what it had not yet passed. -/
def execSliceBudgetExpiry (slice unit : Nat) (report : SliceReport) (s : State) : Host.Outcome State Fault Refusal :=
  .next (s.endSlice slice unit { report with ok := false } true)

-- The start-up timeline (R453).

/-- The slices of a step. Those of step 6, and those of step 9, run beside each other. -/
def stepSlices (step : Nat) : List (Nat × Nat) :=
  match step with
  | 3 => [(0, 0), (1, 0), (2, 0), (3, 0)]
  | 4 => [(4, 0)]
  | 6 => [(5, 0), (6, 0)]
  | 7 => [(7, 0), (8, 0), (9, 0), (10, 0)]
  | 8 => [(11, 6)]
  | 9 => [(12, 0), (12, 1), (13, 0), (13, 1)]
  | _ => []

/-- A step begins. -/
def State.beginStep (s : State) (n : Nat) : State :=
  let due := stepSlices n
  let s1 : State := { s with boot := { s.boot with step := n, due := due } }
  match due with
  | [] => s1
  | x :: _ => ((s1.rset Fld.BIST_STATUS_BUSY 1).rset Fld.BIST_STATUS_SLICE x.1).rsetIf (due.contains (7, 0)) Fld.ARR_REMAP_RESIDUE_EN 0

/-- Step 1 ends: the rails are good and the hold-up store charges (R475). -/
def State.endRails (s : State) : State := (s.rset Fld.SYS_HOLDUP_CHARGING 1).hwStatus 0 true

/-- Step 2 ends: M0, the keys and the cleared banks (R209, R367, R390). -/
def State.endRom (s : State) : State :=
  let s1 := (s.rset Fld.BANK_CLEARED_DONE 1).setMeasurement 0 Config.romDigest
  let keys := (keysFor s1.sec.jobSalt).filter fun k => !(s1.rget Fld.SEC_DEBUG_LEVEL == 1 && 3 ≤ k.1)
  { s1 with sec := { s1.sec with keys := keys } }

/-- Step 5 ends: the images of the bank that boots, and their measurements (R376, R403). -/
def State.endImages (s : State) : State :=
  let s1 : State := if !s.fwu.tryOnce then s
    else
      let new := (s.fwu.staged.map (·.images)).getD []
      let run := new.foldl (fun (l : List FwImage) i => fwReplace l i) s.fwu.confirmed
      let f := { s.fwu with running := run, tryOnce := false,
                            committed := [3, 4, 5, 6, 2, 1].filter fun c => new.any (·.component == c) }
      (({ s with fwu := f } : State).setFwuState 4).countHold Fld.FWU_COUNTS_ACTIVATIONS
  s1.fwu.running.foldl (fun (s : State) i => s.setMeasurement i.component i.measurement) s1

/-- The boot settings record is read by the supervisor image that runs (R404). -/
def State.readSettings (s : State) : State :=
  match s.fwu.settings with
  | none => s
  | some r =>
    if s.readsSettings r then (s.rset Fld.MEM_LAYOUT_SPILL_GIB r.spillGib).putSettings r
    else s.rset Fld.FWU_STATE_SETTINGS_RESET 1

/-- Step 8 ends, and step 9 begins: the protection set-up, the gates of R414 and the lock of R377; then both front ends and both
supervisors start. -/
def State.setUp (s : State) : State :=
  let s1 := s.readSettings
  let debug := if s1.rget Fld.SEC_DEBUG_LEVEL = 1 then 1 else 0
  let on := [Fld.SYS_GATE_MEM, Fld.SYS_GATE_PCIE, Fld.SYS_GATE_VID, Fld.SYS_GATE_ARR, Fld.SYS_GATE_FEED, Fld.SYS_GATE_TRIM]
  let s2 := on.foldl (fun (s : State) f => s.rset f 1) s1
  let lock := [0, 1, 2, 14].foldl (fun (n : Nat) i => if n.testBit i then n else n + 2 ^ i) (s2.rget Fld.SYS_GATE_LOCK)
  let s3 := ((s2.rset Fld.SYS_GATE_PORT 63).rset Fld.SYS_GATE_DEBUG debug).rset Fld.SYS_GATE_LOCK lock
  let bad := s3.rget Fld.BIST_UNUSABLE_BLOCKS
  let off := ((List.range 6).map fun p => (5 + p, 5 + p)) ++ [(3, 4), (4, 3)]
  let s4 := off.foldl (fun (s : State) (x : Nat × Nat) => if bad.testBit x.1 then s.gateOff x.2 else s) s3
  let s5 := s4.lockSetup
  let start := fun (s : State) (x : Side) => s.putFe x { (s.fe x) with state := .starting }
  (((start (start s5 .a) .b).putSup .a .testing).putSup .b .testing)

/-- Step 9 ends: the preferred usable supervisor claims the lease (R340). -/
def State.firstClaim (s : State) : State :=
  let p := s.preferred
  let x := if s.sup p = .standby then p else otherSide p
  if s.sup x ≠ .standby then s
  else
    let y := otherSide x
    let e := (s.rget Fld.CONT_LEASE_EPOCH + 1) % 4294967296
    let s1 := (s.rset Fld.CONT_LEASE_EPOCH e).rset Fld.CONT_STATUS_ACTIVE (match x with
      | .a => 0
      | .b => 1)
    let other := s1.sup y
    let s2 := (s1.putSup x .holder).putSup y other
    ({ s2 with cont := { s2.cont with acting := true, released := false, claimed := none } } : State).journal 0 0 (.lease e)

/-- Accounts are restored from the newest flush record whose seal verifies and whose tenant is unchanged, on an accepted
cartridge (R359). -/
def State.restoreAccounts (s : State) : State :=
  let c := s.mem.cart
  let ok := fun (r : FlushRecord) => r.identity == identityDigest && r.tenant == s.tenant
  let order := if s.cont.nextFlush = 0 then [c.flush1, c.flush0] else [c.flush0, c.flush1]
  match (order.filterMap id).find? ok with
  | none => s
  | some r =>
    if s.rget Fld.SEC_CART_STATE ≠ 1 then s
    else
      let put := fun (s : State) (a : FlushAccount) => s.putAccount a.customer
        { isOpen := a.isOpen, weight := a.weight, interval := a.interval, amount := a.amount, cap := a.cap, quota := a.quota,
          balance := a.balance, grant := a.grant }
      (r.accounts.foldl put s).rset Fld.CONT_STATUS_RESTORED 1

/-- Can the module serve (R458)? -/
def State.canServe (s : State) : Bool :=
  !(s.sup .a == .unusable && s.sup .b == .unusable) && (s.feUp .a || s.feUp .b) && !s.rbit Fld.CLK_STATUS_XA_FAIL &&
    !s.rbit Fld.SEC_TRNG_FAIL

/-- Step 10: DONE and the boot time, the start cap, the accounts, the status page and the event of worn couplings that the rise of
AUX found (R453, R458, R473, R480, R482). -/
def State.enterService (s : State) : State :=
  let s1 := (s.rset Fld.BIST_STATUS_DONE 1).rset Fld.BIST_BOOT_MS_MS (min s.boot.slowMs 65535)
  if !s1.canServe then s1.cannotServe
  else
    let s2 := if s1.hw.startCap = 0 then s1.newCap else s1.takeCap (s1.hw.startCap * 1000) none
    let s3 := if s2.hw.wearEvent then ({ s2 with hw := { s2.hw with wearEvent := false } } : State).healthEvent Code.OK else s2
    (s3.restoreAccounts.writeStatusPage).beginStep 11

/-- POWER_UP_STEP_DONE (R453): the step's end, once its slices have ended, and the next step's beginning. -/
def powerUpStep (s : State) : State :=
  if s.boot.down ∨ !s.boot.due.isEmpty then s
  else
    match s.boot.step with
    | 1 => s.endRails.beginStep 2
    | 2 => s.endRom.beginStep 3
    | 3 => s.beginStep 4
    | 4 => s.beginStep 5
    | 5 => s.endImages.beginStep 6
    | 6 => s.beginStep 7
    | 7 => s.beginStep 8
    | 8 => s.setUp.beginStep 9
    | 9 => s.firstClaim.beginStep 10
    | 10 => s.enterService
    | _ => s

def execPowerUpStepDone (s : State) : Host.Outcome State Fault Refusal := .next (powerUpStep s)

/-- POWER_ENABLE_RISE (R453): a full reset, and step 1 begins. A start that PWR_EN opens is a new power-on: the debug port is
closed and the stop reasons of the power controller's status are gone. After an overvoltage shutdown the module starts only with the
input back within its operating range (R470, R471). -/
def powerEnableRise (s : State) : State :=
  if s.hw.status.getLsbD 3 ∧ ¬ (400 ≤ s.hw.inputVolts ∧ s.hw.inputVolts ≤ 600) then s.rset Fld.SYS_J1_PWR_EN 1
  else
    let s1 := s.fullReset (s.boot.ended.getD 1)
    let s2 := (s1.rset Fld.SYS_J1_PWR_EN 1).rset Fld.SEC_DEBUG_EVER 0
    let s3 := [0, 1, 2, 3, 6, 7].foldl (fun (s : State) b => s.hwStatus b false) s2
    s3.beginStep 1

def execPowerEnableRise (s : State) : Host.Outcome State Fault Refusal := .next (powerEnableRise s)

-- HEALTH_READ (R459, R460).

/-- HEALTH_READ: the report of this moment, without the load of other customers for a User. -/
def healthReadEffect (m : Msg) (s : State) : State :=
  if s.boot.down then s
  else s.withMsg m 0x0302 (some 32) fun s x =>
    let p := m.payload
    if !allZero p 8 24 then s.reply m 0x0302 Code.E_RESERVED
    else
      let s1 : State := if x.role = 4 then { s with cont := { s.cont with rackStamp := u64 p 0 } } else s
      let r := s1.healthReport (u64 p 0)
      s1.reply m 0x0302 Code.OK (if x.role = 1 then userReport r else r)

def execHealthRead (m : Msg) (s : State) : Host.Outcome State Fault Refusal := .next (healthReadEffect m s)

-- Run-time self-test (R462 to R464).

/-- The SPARE bit of a region: 1 row group, 2 column group, 3 and 4 the substitute banks. -/
def spareField (region : Nat) : Option Field :=
  match region with
  | 1 => some Fld.BIST_SPARE_ROW_OK
  | 2 => some Fld.BIST_SPARE_COL_OK
  | 3 => some Fld.BIST_SPARE_SUB0_OK
  | 4 => some Fld.BIST_SPARE_SUB1_OK
  | _ => none

/-- Does a core's local bank use a substitute bank (R145)? -/
def State.subInUse (s : State) (i : Nat) : Bool :=
  (List.range 64).any fun c => s.rbit (Fld.TRIM_MAP_SUBBANK c) && s.rget (Fld.TRIM_MAP_SUBSEL c) == i

/-- Is a region tested now: run-time self-test is on; region 0, the standby, is ready and may begin a piece; a substitute bank is
not in use (R462, R464)? -/
def State.regionTested (s : State) (region : Nat) : Bool :=
  s.rbit Fld.BIST_RT_EN && s.rbit Fld.BIST_STATUS_DONE && !s.boot.down && decide (region ≤ 4) &&
    (region != 0 || (s.sup (otherSide s.active) == .standby && !s.boot.testStopped)) &&
    (decide (region < 3) || !s.subInUse (region - 3))

/-- RUNTIME_TEST_PIECE (R463): one piece of a region is saved, tested and written back; it matches its digest or not. A standby
that fails is unusable (R457). -/
def runtimePiece (region : Nat) (ok restored : Bool) (s : State) : State :=
  if !s.regionTested region then s
  else
    let s1 := s.rset Fld.BIST_RT_PIECES ((s.rget Fld.BIST_RT_PIECES + 1) % 65536)
    let s2 := s1.rsetIf (!restored) Fld.BIST_FAULT_RESTORE 1
    let s3 := s2.rsetIf (!ok) Fld.BIST_FAULT_RUNTIME 1
    match spareField region with
    | some f =>
      let l := s3.boot.badSpares.filter (· != region - 1)
      (({ s3 with boot := { s3.boot with badSpares := if ok then l else l ++ [region - 1] } } : State)).rset f (if ok then 1 else 0)
    | none =>
      let x := otherSide s3.active
      if ok then s3 else (s3.putSup x .unusable).markUnusable (match x with
        | .a => 13
        | .b => 14)

def execRuntimeTestPiece (region : Nat) (ok restored : Bool) (s : State) : Host.Outcome State Fault Refusal :=
  .next (runtimePiece region ok restored s)

/-- STANDBY_TEST_STOP (R464): the lease count has shown no change for 60 ms; a piece in progress is restored at once. -/
def execStandbyTestStop (s : State) : Host.Outcome State Fault Refusal :=
  .next { s with boot := { s.boot with testStopped := true } }

-- Raw self-test (R465).

/-- Why a raw slice is refused: another slice runs, fixed-slot mode, a block in use; no other identifier or unit is accepted. -/
def State.rawRefusal (s : State) (k unit : Nat) : Option Code :=
  let slots : Bool := (List.range 16).any fun i => (s.slot i).state != .empty
  let whole : Bool := unit ≠ 0
  let shape : Bool := match k with
    | 7 => whole
    | 8 => whole
    | 9 => whole
    | 10 => whole
    | 11 => 6 ≤ unit
    | 12 => 2 ≤ unit
    | 13 => 2 ≤ unit
    | _ => true
  let side : Side := if unit = 0 then .a else .b
  let busy : Bool := match k with
    | 10 => !s.vid.contexts.isEmpty
    | 11 => !(s.pathsWhere fun p => p.port == unit).isEmpty
    | 12 => false
    | 13 => side == s.active || s.sup side != .standby
    | _ => slots
  if shape then some Code.E_PARAM
  else if !s.boot.due.isEmpty ∨ s.rbit Fld.SRV_MODE_FIXED ∨ busy then some Code.B_RETRY else none

/-- BIST.RUN.GO: one slice of one unit. A front end's paths move as in R335. -/
def State.rawGo (s : State) (k unit : Nat) : State :=
  let side : Side := if unit = 0 then .a else .b
  let s0 : State := { s with boot := { s.boot with raw := some (k, unit) } }
  let s1 := s0.rset Fld.BIST_RUN_RES_DONE 0
  match k with
  | 12 => (s1.stopFe side).startSlice k unit
  | 13 => (s1.putSup side .testing).startSlice k unit
  | _ => s1.startSlice k unit

end Sys2Proof.Machine
end

