-- ==== Sys2Proof/Machine/Receive.lean ====
section
/-! DEFINITION. Receive.lean: receiving frames and reassembling messages (R305, R307 to R313, R319, R325, R326). -/

namespace Sys2Proof.Machine

/-- A QMT frame that meets R309 and R310. -/
structure RxFrame where
  kind : Nat
  session : Nat
  path : Nat
  epoch : Nat
  packet : Nat
  bytes : List Byte
  deriving DecidableEq, Repr

/-- Do ack ranges rise, each above the number before it and from its first to its last? -/
def rangesRise (b : List Byte) : Nat → Nat → Nat → Bool
  | 0, _, _ => true
  | n + 1, i, low =>
    decide (low < u32 b (40 + 8 * i) ∧ u32 b (40 + 8 * i) ≤ u32 b (44 + 8 * i)) && rangesRise b n (i + 1) (u32 b (44 + 8 * i))

/-- Does the body of a frame meet the table of R310, and its packet number R309? -/
def bodyOk (kind : Nat) (b : List Byte) : Bool :=
  match kind with
  | 1 => decide (1 ≤ u16 b 28 ∧ b.length = 32 + u16 b 28) && allZero b 30 2 && decide (u32 b 12 ≠ 0)
  | 2 => decide (u8 b 20 ≤ 8 ∧ b.length = 40 + 8 * u8 b 20) && allZero b 21 3 && decide (u32 b 12 = 0) &&
      rangesRise b (u8 b 20) 0 (u32 b 16)
  | 3 => decide (b.length = 32) && allZero b 16 16 && decide (u32 b 12 ≠ 0)
  | 4 => decide (b.length = 32) && allZero b 18 14 && decide (u32 b 12 ≠ 0)
  | _ => false

/-- Read a QMT frame; none where it breaks R309 or R310. -/
def parseFrame (b : List Byte) : Option RxFrame :=
  if b.length < 16 ∨ u16 b 0 ≠ 0x4651 ∨ u8 b 3 ≠ 0 ∨ !bodyOk (u8 b 2) b then none
  else some ⟨u8 b 2, u32 b 4, u16 b 8, u16 b 10, u32 b 12, b⟩

/-- MACsec on a received frame (R307): with MACsec off no tag is expected; with it on, a receive SA of the tag's number and SCI must
have verified the frame, and its packet number must be new within the replay window of 64. -/
def State.macsecIn (s : State) (port : Nat) (tag : Option MacsecTag) : Option State :=
  if !s.rbit Fld.NET_PCFG_MACSEC port then (if tag.isNone then some s else none)
  else
    match tag with
    | none => none
    | some t =>
      match (s.port port).rxSas.find? (fun q => q.an = t.an ∧ q.sci = t.sci) with
      | none => none
      | some sa =>
        if !t.ok ∨ t.pn + 64 ≤ sa.pn ∨ sa.seen.contains t.pn then none
        else
          let hi := max sa.pn t.pn
          let sa1 := { sa with pn := hi, seen := (t.pn :: sa.seen).filter fun q => decide (hi < q + 64) }
          some (s.onPort port fun x => { x with rxSas := x.rxSas.map fun q => if q.an = t.an ∧ q.sci = t.sci then sa1 else q })

/-- A datagram that the module receives: on a live port, of its VLAN, its address and the QMT port, within its MTU, whole and with a
right checksum (R303, R305, R306, R415). -/
def State.accepts (s : State) (d : Datagram) : Option State :=
  if !s.portLive d.port ∨ d.vlan ≠ (s.port d.port).applied.vlan ∨ d.options ∨ d.fragment ∨ d.badSum ∨
      !mtuOk d.port d.peer.v6 d.bytes.length ∨ d.dstUdp ≠ s.net.udpPort ∨ !s.portAddress d.port d.peer.v6 d.dst then none
  else (s.macsecIn d.port d.sec).map fun s1 => s1.count Fld.NET_RX_FRAMES_COUNT

/-- Is epoch `e` newer, or older, than `cur`, modulo 2^16 (R311)? -/
def epochNewer (cur e : Nat) : Bool := let d := (e + 65536 - cur % 65536) % 65536; decide (0 < d ∧ d < 32768)
def epochOlder (cur e : Nat) : Bool := epochNewer e cur

/-- The path a frame arrives on (R308): its number, with the datagram's port and address, owned by a front end that is up. -/
def State.rxPath (s : State) (d : Datagram) (f : RxFrame) : Option (Session × Path) :=
  match s.session f.session with
  | none => none
  | some x =>
    match x.path f.path with
    | some p => if p.port = d.port ∧ p.peer = d.peer ∧ s.feUp p.fe then some (x, p) else none
    | none => none

/-- A newer epoch resets the received-packet record (R311). -/
def State.seeEpoch (s : State) (n k e : Nat) : State :=
  s.onPath n k fun p => if epochNewer p.rxEpoch e then { p with rxEpoch := e, rxCum := 0, rxAbove := [] } else p

/-- Take the numbers that follow the cumulative one off a rising list. -/
def advance (c : Nat) : List Nat → Nat × List Nat
  | [] => (c, [])
  | q :: r => if q = c + 1 then advance q r else (c, q :: r)

/-- Was a packet received already? -/
def Path.has (p : Path) (k : Nat) : Bool := decide (k ≤ p.rxCum) || p.rxAbove.contains k

/-- A packet number joins the received-packet record. -/
def Path.noteReceived (p : Path) (k : Nat) : Path :=
  let a := if p.has k then (p.rxCum, p.rxAbove) else advance p.rxCum (insertNat k p.rxAbove)
  { p with rxCum := a.1, rxAbove := a.2 }

/-- A packet is received: the record, and what the next ack echoes. -/
def Path.record (p : Path) (k now : Nat) : Path :=
  { p.noteReceived k with ackOwed := p.ackOwed + 1, echo := k, echoAt := now }

/-- Record a packet and send the ack that is due: after every second data frame, or at once out of packet order (R327). -/
def State.recordPacket (s : State) (n : Nat) (p : Path) (k : Nat) (now : Bool) : State :=
  let s1 := s.onPath n p.number fun q => q.record k (s.now q.fe)
  if now ∨ k ≠ p.rxCum + 1 ∨ 2 ≤ p.ackOwed + 1 then s1.sendAck n p.number else s1

/-- The message types that a partner can send, with the minor version that brought each (R314). -/
def partnerTypes : List (Nat × Nat) :=
  [(0x0001, 0), (0x0002, 0), (0x0003, 0), (0x0004, 0), (0x0005, 0), (0x0100, 0), (0x0101, 0), (0x0102, 1), (0x0103, 0),
   (0x0110, 0), (0x0111, 0), (0x0112, 0), (0x0120, 0), (0x0121, 0), (0x0130, 0), (0x0131, 0), (0x0200, 2), (0x0201, 2),
   (0x0202, 2), (0x0210, 2), (0x0211, 2), (0x0300, 0), (0x0301, 0), (0x0302, 0), (0x0310, 0), (0x0400, 0), (0x0410, 0),
   (0x0411, 0), (0x0412, 0), (0x0500, 0), (0x0501, 0), (0x0600, 0), (0x0601, 0), (0x0602, 0), (0x0700, 0), (0x0701, 0),
   (0x0702, 0), (0x0703, 0)]

/-- Types that only the module sends, or that open a session: no role permits them in a session (R314, R373). -/
def moduleTypes : List Nat := [0x0001, 0x0002, 0x0110, 0x0111, 0x0112, 0x0210, 0x0211, 0x0310, 0x0412, 0x0601]

/-- Put bytes into an assembly at an offset; bytes already held stay. -/
def Assembly.put (a : Assembly) (off : Nat) : List Byte → Assembly
  | [] => a
  | b :: bs =>
    let keep := Dict.has a.held off || (match a.wire with | some w => decide (w ≤ off) | none => false)
    Assembly.put (if keep then a else { a with held := Dict.store a.held off b }) (off + 1) bs

/-- Are all bytes below `n` held? The keys rise. -/
def Assembly.holds (a : Assembly) (n : Nat) : Bool := (a.held.filter fun x => decide (x.1 < n)).length == n

/-- The first `n` bytes held. -/
def Assembly.first (a : Assembly) (n : Nat) : List Byte := (a.held.filter fun x => decide (x.1 < n)).map (·.2)

/-- Messages whose gap has filled go to their owning blocks in ascending number (R313, R319). -/
def State.deliver (s : State) (n : Nat) : Nat → State
  | 0 => s
  | fuel + 1 =>
    match s.session n with
    | none => s
    | some x =>
      match Dict.fetch x.ahead x.nextDeliver with
      | none => s
      | some d =>
        let s1 := s.putSession { x with ahead := Dict.remove x.ahead x.nextDeliver, nextDeliver := x.nextDeliver + 1 }
        let s2 := match d with
          | some d => { s1 with net := { s1.net with inbox := s1.net.inbox ++ [d] } }
          | none => s1
        State.deliver s2 n fuel

/-- A number is consumed: by delivery, or by a refusal (R319). -/
def State.settle (s : State) (n number : Nat) (d : Option Delivered) : State :=
  let s1 := s.onSession n fun x =>
    { x with ahead := Dict.store x.ahead number d, assemblies := Dict.remove x.assemblies number,
             authWait := x.authWait.filter (· != number) }
  match s1.session n with
  | some x => s1.deliver n (x.ahead.length + 1)
  | none => s1

/-- A refusal of R313 steps 2 to 4 and 8: the reply, the number consumed, `bytes` counted as begun and consumed. -/
def State.refuseFrame (s : State) (n number type tag : Nat) (c : Code) (bytes : Nat) : State :=
  let s1 := s.pushMsg n { number := replyNumber number 0, type := type, code := c, tag := tag }
  (s1.onSession n fun x => { x with rxBegun := x.rxBegun + bytes, rxConsumed := x.rxConsumed + bytes }).settle n number none

/-- The end of a message's assembly: tag, duplicate and type (R313 steps 6 to 8). -/
def State.finish (s : State) (n : Nat) (x : Session) (number : Nat) (a : Assembly) (wire : Nat) : State :=
  let b := a.first wire
  let h := b.take 32
  let type := u16 b 4
  let tag := u32 b 24
  let open? := if (u16 b 6).testBit 0 then none else gcmOpen x.keyPM (nonce x.number number) h (b.drop 32)
  match open? with
  | none =>
    let s1 := s.onSession n fun x => { x with assemblies := Dict.remove x.assemblies number, rxBegun := x.rxBegun - wire,
                                              authWait := if x.authWait.contains number then x.authWait
                                                          else x.authWait ++ [number] }
    s1.countHold Fld.NET_AUTH_FAIL_COUNT
  | some p =>
    let used := fun (s : State) => s.onSession n fun x => { x with rxConsumed := x.rxConsumed + wire }
    match partnerTypes.find? (·.1 = type) with
    | none =>
      (used (s.pushMsg n { number := replyNumber number 0, type := type, code := Code.E_TYPE, tag := tag })).settle n number none
    | some t =>
      if x.minor < t.2 then
        (used (s.pushMsg n { number := replyNumber number 0, type := type, code := Code.E_VERSION, tag := tag })).settle
          n number none
      else if moduleTypes.contains type then
        (used (s.pushMsg n { number := replyNumber number 0, type := type, code := Code.E_ROLE, tag := tag })).settle
          n number none
      else s.settle n number (some ⟨n, type, number, tag, p⟩)

/-- A fragment of a copy of a message that is already whole (R313 steps 6 and 7): once the copy is whole too, one whose tag does not
verify counts in NET.AUTH_FAIL, and any other in NET.DUP_MSG. A copy is followed from its fragment at offset 0 on. One that fails an
earlier step is discarded; its reply would be a copy of a number already answered (DEDUCED, log entry 8). -/
def State.copyFragment (s : State) (n : Nat) (x : Session) (number off : Nat) (b : List Byte) : State :=
  let keep := fun (s : State) (l : Dict Assembly) => s.onSession n fun x => { x with repeats := l }
  match (if off = 0 then some ((Dict.fetch x.repeats number).getD {}) else Dict.fetch x.repeats number) with
  | none => s
  | some a0 =>
    let a := a0.put off b
    let h := a.first 32
    let wire := 32 + u32 h 12 + (if (u16 h 6).testBit 0 then 0 else 16)
    let drop := keep s (Dict.remove x.repeats number)
    if !a.holds 32 then keep s (Dict.store x.repeats number a)
    else if u16 h 0 ≠ 0x5451 ∨ u32 h 8 ≠ n ∨ u64 h 16 ≠ number ∨ u16 h 2 ≠ 256 + x.minor ∨ 16777216 < u32 h 12 ∨ 1 < u16 h 6 ∨
        u16 h 28 ≠ 0 ∨ u16 h 30 ≠ 0 then drop
    else if !a.holds wire then keep s (Dict.store x.repeats number a)
    else
      let open? := if (u16 h 6).testBit 0 then none
        else gcmOpen x.keyPM (nonce x.number number) h (slice (a.first wire) 32 (wire - 32))
      if open?.isNone then drop.countHold Fld.NET_AUTH_FAIL_COUNT else drop.count Fld.NET_DUP_MSG_COUNT

/-- A fragment of a message of an open session, in an assembly whose header may now be whole (R313). `ok` says whether the
fragment is acknowledged. -/
def State.assemble (s : State) (n : Nat) (x : Session) (number off : Nat) (b : List Byte) : State × Bool :=
  let a0 := (Dict.fetch x.assemblies number).getD {}
  let a := a0.put off b
  let room := fun (w : Nat) => decide (x.rxBegun - x.rxConsumed + w ≤ x.window)
  let store := fun (s : State) (a : Assembly) =>
    s.onSession n fun x => { x with assemblies := Dict.store x.assemblies number a }
  match a.wire with
  | some w => if a.holds w then ((store s a).finish n x number a w, true) else (store s a, true)
  | none =>
    if !a.holds 32 then
      if room (off + b.length) then (store s a, true) else (s.countHold Fld.NET_CREDIT_VIOL_COUNT, false)
    else
      let h := a.first 32
      let len := u32 h 12
      let type := u16 h 4
      let tag := u32 h 24
      let wire := 32 + len + (if (u16 h 6).testBit 0 then 0 else 16)
      if u16 h 0 ≠ 0x5451 ∨ u32 h 8 ≠ n ∨ u64 h 16 ≠ number then
        (s.onSession n fun x => { x with assemblies := Dict.remove x.assemblies number }, true)
      else if u16 h 2 ≠ 256 + x.minor then (s.refuseFrame n number type tag Code.E_VERSION wire, true)
      else if 16777216 < len then
        ((s.refuseFrame n number type tag Code.E_LEN_RANGE 48).count Fld.NET_LEN_ERR_COUNT, true)
      else if 1 < u16 h 6 ∨ u16 h 28 ≠ 0 ∨ u16 h 30 ≠ 0 then (s.refuseFrame n number type tag Code.E_RESERVED wire, true)
      else if !room wire then (s.countHold Fld.NET_CREDIT_VIOL_COUNT, false)
      else
        let a1 : Assembly := { held := a.held.filter fun y => decide (y.1 < wire), wire := some wire }
        let s1 := (store s a1).onSession n fun x => { x with rxBegun := x.rxBegun + wire }
        if a1.holds wire then (s1.finish n x number a1 wire, true) else (s1, true)

end Sys2Proof.Machine
end

