-- ==== Sys2Proof/Machine/NetCmds.lean ====
section
/-! DEFINITION. NetCmds.lean: the commands of links and message transport (R303 to R332). -/

namespace Sys2Proof.Machine

-- Opening a session (R315 to R317, R515).

/-- Is a key digest enrolled, or is the module unowned (R515 step 5)? The twin's identity counts for role Twin (R374). -/
def State.keyKnown (s : State) (d : List Byte) : Bool :=
  s.unowned || (match s.sec.enrolment with
    | some e => e.rack.contains d || e.entries.any fun x => x.key == d
    | none => false) || s.twinIdentity == some d

/-- Does a key hold a role (R374)? -/
def State.keyHolds (s : State) (d : List Byte) (role : Nat) : Bool :=
  if role = 5 then s.twinIdentity == some d
  else if s.unowned then role == 4 || role == 6
  else
    match s.sec.enrolment with
    | none => false
    | some e =>
      if role = 4 then e.rack.contains d
      else if role = 6 then e.rack.contains d || e.entries.any fun x => x.key == d
      else e.entries.any fun x => x.key == d && x.role == role

/-- The first failure of R515, on the QMT version of a SESSION_OPEN's header and its payload. The highest version that the partner
speaks stands in both (R29, R312, R315), and a major other than 1 in either is refused. -/
def State.openRefusal (s : State) (version : Nat) (p : List Byte) : Option Code :=
  if p.length ≠ 288 then some Code.E_INPUT_SIZE
  else if u8 p 0 ≠ 1 ∨ version / 256 ≠ 1 then some Code.E_VERSION
  else if 1 < u8 p 3 ∨ u32 p 12 ≠ 0 ∨ !allZero p 161 31 ∨ u8 p 2 = 0 ∨ 6 < u8 p 2 then some Code.E_RESERVED
  else if u32 p 4 < 65536 ∨ 33554432 < u32 p 4 ∨ !ecPointOk (slice p 64 97) then some Code.E_PARAM
  else if !s.keyKnown (slice p 16 48) then some Code.E_ENROL
  else if !signedBy (slice p 0 192) (slice p 192 48) (slice p 240 48) (slice p 16 48) then some Code.E_SIGNATURE
  else if !s.keyHolds (slice p 16 48) (u8 p 2) then some Code.E_ROLE
  else none

/-- The window that the module grants for a window wanted (R325). -/
def State.grantWindow (s : State) (wanted : Nat) : Nat :=
  let w := if wanted = 0 then s.rget Fld.NET_WINDOW_DEFAULT_PAGES * 65536 else wanted
  roundUp (max 65536 (min w (s.rget Fld.NET_WINDOW_MAX_PAGES * 65536))) 65536

/-- Send a refusal of a SESSION_OPEN (R316): it belongs to no session, so it leaves in frames of session 0. -/
def State.refuseOpen (s : State) (port : Nat) (peer : PeerAddr) (tag : Nat) (c : Code) : State :=
  let h := leBytes 2 0x5451 ++ leBytes 1 3 ++ leBytes 1 1 ++ leBytes 2 2 ++ leBytes 2 1 ++ leBytes 4 0 ++ leBytes 4 288 ++
    leBytes 8 (replyNumber 1 0) ++ leBytes 4 tag ++ leBytes 2 c.toNat ++ [0, 0]
  let w := h ++ [1, 3] ++ zeroBytes 286
  s.sendQmt port (s.prio port 2) peer (dataBytes 0 0 0 1 (replyNumber 1 0) 0 w)

/-- SESSION_ACCEPT's first 192 bytes (R316). -/
def acceptBytes (p : List Byte) (number window : Nat) (eph : List Byte) : List Byte :=
  leBytes 1 1 ++ leBytes 1 (min (u8 p 1) 3) ++ leBytes 1 (u8 p 2) ++ leBytes 1 (u8 p 3) ++ leBytes 4 number ++
    leBytes 4 window ++ leBytes 4 0 ++ identityDigest ++ eph ++ zeroBytes 31

/-- Open the session of an accepted SESSION_OPEN (R316, R317, R325): keys, window pages, SESSION record, SESSION_ACCEPT. -/
def State.openSession (s : State) (port : Nat) (peer : PeerAddr) (wire p : List Byte) (tag : Nat) : State :=
  let window := s.grantWindow (u32 p 8)
  match Dict.firstFree s.net.sessions 0 16384, s.takePages (window / 65536) with
  | some index, some (pages, s1) =>
    let gen := (Tab.read 0 s1.net.generations index + 1) % 262144
    let gen := if gen = 0 then 1 else gen
    let number := index + 16384 * gen
    let d := s1.draw
    let priv := randomBytes d.1 48
    let eph := ecPublic priv
    let acc := acceptBytes p number window eph
    let salt := sha384 (slice p 0 192 ++ acc)
    let prk := hkdfExtract salt (ecShared priv (slice p 64 97))
    let sess : Session :=
      { number := number, minor := min (u8 p 1) 3, role := u8 p 2, wantsProtected := (u8 p 3).testBit 0,
        partnerKey := slice p 16 48, keyPM := hkdfExpand prk (ascii "QMT1 p>m") 32,
        keyMP := hkdfExpand prk (ascii "QMT1 m>p") 32, salt := salt, window := window, pages := pages,
        partnerWindow := u32 p 4,
        paths := [{ number := 0, port := port, fe := portSide port, home := portSide port, peer := peer, rto := 1000 }],
        lastFrame := s.now (portSide port) }
    let s2 := { d.2 with net := { d.2.net with sessions := Dict.store d.2.net.sessions index sess,
                                               generations := Tab.write 0 d.2.net.generations index gen } }
    let s3 := s2.journal number 0 (.session .opened 1)
    let sig := ecSign identityPrivate (sha384 (wire ++ acc))
    s3.pushMsg number { number := replyNumber 1 0, type := 2, code := Code.OK, tag := tag, payload := acc ++ sig,
                        plain := true, needs := [s3.lastIndex] }
  | _, _ => s.refuseOpen port peer tag Code.B_RETRY

/-- A SESSION_OPEN received whole: the checks of R313 that apply to it, then those of R515. Opening is a bound action (R339);
no session opens before step 10 of R453, nor without the random source (R369). On a twin pair the holder of the twin lease answers
(R317), except the SESSION_OPEN of the session between the twins, which either module of the pair answers to the other (R351; DEDUCED,
log entry 29). -/
def sessionOpenEffect (port : Nat) (peer : PeerAddr) (wire : List Byte) (s0 : State) : State :=
  let s := { s0 with net := { s0.net with openInbox := s0.net.openInbox.filter fun r =>
    !(r.port == port && r.peer == peer && r.wire == wire) } }
  let p := wire.drop 32
  let tag := u32 wire 24
  if !s.supActs ∨ !(s.twinActs || u8 p 2 == 5) ∨ s.boot.step ≠ 11 ∨ s.rbit Fld.SEC_TRNG_FAIL ∨ !s.portLive port ∨ !s.feUp (portSide port) then s
  else if wire.length < 32 ∨ u16 wire 0 ≠ 0x5451 ∨ u16 wire 4 ≠ 1 ∨ u32 wire 8 ≠ 0 ∨ u64 wire 16 ≠ 1 ∨
      u16 wire 6 % 2 = 0 ∨ wire.length ≠ 32 + u32 wire 12 then s
  else if 1 < u16 wire 6 ∨ u16 wire 28 ≠ 0 ∨ u16 wire 30 ≠ 0 then s.refuseOpen port peer tag Code.E_RESERVED
  else
    match s.openRefusal (u16 wire 2) p with
    | some c => s.refuseOpen port peer tag c
    | none => s.openSession port peer wire p tag

def execSessionOpen (port : Nat) (peer : PeerAddr) (wire : List Byte) (s : State) : Host.Outcome State Fault Refusal :=
  .next (sessionOpenEffect port peer wire s)

-- Closing (R318).

/-- A partner's SESSION_CLOSE: 32 reserved bytes; the session ends once the reply has left. -/
def sessionCloseEffect (m : Msg) (s : State) : State :=
  if !s.mayActFor m.session then s
  else s.withMsg m 3 (some 32) fun s x =>
    if !allZero m.payload 0 32 then s.reply m 3 Code.E_RESERVED
    else
      let s1 := s.journal x.number 0 (.session .closed x.counter)
      let s2 := (s1.reply m 3 Code.OK [] [s1.lastIndex]).endSessionWork x.number
      s2.onSession x.number fun x => { x with closing := true }

def execSessionClose (m : Msg) (s : State) : Host.Outcome State Fault Refusal := .next (sessionCloseEffect m s)

/-- No frame has arrived on any path for NET.PROBE.IDLE_S seconds: the module closes the session with B_RETRY (R318). -/
def execIdleClose (session : Nat) (s : State) : Host.Outcome State Fault Refusal :=
  .next (if s.mayActFor session then s.closeSession session Code.B_RETRY else s)

/-- A message that failed its tag has had no valid copy for 1 s (R323). -/
def authFailEffect (session number : Nat) (s : State) : State :=
  match s.session session with
  | some x =>
    if x.authWait.contains number ∧ s.mayActFor session then (s.closeSession session Code.E_AUTH_FAIL).rset Fld.NET_FAULT_AUTH 1 else s
  | none => s

def execAuthFailTimeout (session number : Nat) (s : State) : Host.Outcome State Fault Refusal :=
  .next (authFailEffect session number s)

-- Paths (R308, R311, R314).

/-- The front end of a further path: that of its port; a session of minor 0 to 2 keeps that of its first path (R314), so a
command port of the other front end forms no path of it. -/
def pathSide (x : Session) (port : Nat) : Option Side :=
  match x.paths.head? with
  | none => some (portSide port)
  | some p =>
    if 3 ≤ x.minor then some (portSide port)
    else if 2 ≤ port then some p.home
    else if portSide port = p.home then some p.home
    else none

/-- PATH_ADD (R308). -/
def pathAddEffect (port : Nat) (peer : PeerAddr) (m : Msg) (s : State) : State :=
  s.withMsg m 4 (some 32) fun s x =>
    if !allZero m.payload 0 32 then s.reply m 4 Code.E_RESERVED
    else if 4 ≤ x.paths.length then s.reply m 4 Code.E_PARAM
    else
      match pathSide x port with
      | none => s.reply m 4 Code.E_PARAM
      | some side =>
        let k := (x.paths.foldl (fun n p => max n p.number) 0) + 1
        let p : Path := { number := k, port := port, fe := side, home := side, peer := peer }
        let s1 := s.onSession x.number fun x =>
          ({ x with paths := x.paths ++ [p] } : Session)
        let s2 := (s1.journal x.number 0 (.session .path x.counter)).onSession x.number fun x =>
          x.paths.foldl (fun x q => if q.down then x.moveWork q.number else x) x
        (s2.reply m 4 Code.OK (leBytes 2 k ++ zeroBytes 30)).pumpAll x.number k

def execPathAdd (port : Nat) (peer : PeerAddr) (m : Msg) (s : State) : Host.Outcome State Fault Refusal :=
  .next (pathAddEffect port peer m s)

/-- Does a MACSEC_SAK payload meet R307? -/
def State.sakOk (s : State) (p : List Byte) : Bool :=
  let port := u8 p 0
  decide (p.length = 80 ∧ 2 ≤ port ∧ port ≤ 5 ∧ u8 p 1 ≤ 3 ∧ u8 p 2 ≤ 1) &&
    (u8 p 3 == 1 || (u8 p 3 == 2 && s.rbit Fld.NET_PCFG_XPN port)) && (u8 p 2 == 1 || allZero p 4 8) && allZero p 12 20 &&
    (u8 p 3 == 2 || allZero p 64 16)

/-- MACSEC_SAK (R307): one transmit SA and up to two receive SAs per port; a third receive SA takes the place of the older
(log entry 8). -/
def macsecSakEffect (m : Msg) (s : State) : State :=
  s.withMsg m 5 none fun s _ =>
    let p := m.payload
    if !s.sakOk p then s.reply m 5 Code.E_PARAM
    else
      let sa : MacsecSa := { an := u8 p 1, cipher := u8 p 3, sci := u64 p 4, key := slice p 32 32, salt := slice p 64 12,
                             ssci := u32 p 76, pn := if u8 p 2 = 0 then 1 else 0 }
      let s1 := s.onPort (u8 p 0) fun x =>
        if u8 p 2 = 0 then { x with txSa := some sa }
        else
          let others := x.rxSas.filter (·.an != sa.an)
          { x with rxSas := others.drop (others.length - 1) ++ [sa] }
      s1.reply m 5 Code.OK

def execMacsecSak (m : Msg) (s : State) : Host.Outcome State Fault Refusal := .next (macsecSakEffect m s)

-- Received frames.

/-- A fragment of a SESSION_OPEN (session 0): reassembled by port and partner address (R303, R309). -/
def State.openFragment (s : State) (port : Nat) (peer : PeerAddr) (off : Nat) (b : List Byte) : State :=
  let old := (s.net.opens.find? fun o => o.port == port && o.peer == peer).map (·.asm)
  let rest := s.net.opens.filter fun o => !(o.port == port && o.peer == peer)
  let a0 := (old.getD {}).put off b
  let a := if a0.wire.isNone ∧ a0.holds 32 then { a0 with wire := some (32 + u32 (a0.first 32) 12) } else a0
  match a.wire with
  | none => { s with net := { s.net with opens := rest ++ [⟨port, peer, a⟩] } }
  | some w =>
    if 16777216 + 32 < w then
      ({ s with net := { s.net with opens := rest } } : State).refuseOpen port peer (u32 (a.first 32) 24) Code.E_LEN_RANGE
    else if a.holds w then
      { s with net := { s.net with opens := rest, openInbox := s.net.openInbox ++ [⟨port, peer, a.first w⟩] } }
    else { s with net := { s.net with opens := rest ++ [⟨port, peer, a⟩] } }

/-- A fragment from an address and port that form no path of its session (R308): it is kept only as part of a PATH_ADD, whose wire form
is 80 bytes; once that is whole and its tag verifies it is delivered, and its number consumed. Every other one is discarded. -/
def State.newPathFragment (s : State) (d : Datagram) (f : RxFrame) : State :=
  match s.session f.session with
  | none => s
  | some x =>
    let number := u64 f.bytes 16
    let mine := fun (o : NewPath) => o.session == f.session && o.port == d.port && o.peer == d.peer && o.number == number
    let known := x.paths.any fun p => p.port == d.port && p.peer == d.peer
    let off := u32 f.bytes 24
    if known ∨ x.closing ∨ !s.feUp (portSide d.port) ∨ number < x.nextDeliver ∨ 2 ^ 43 ≤ number ∨ Dict.has x.ahead number ∨
        80 < off + u16 f.bytes 28 then s
    else
      let a := (((s.net.newPaths.find? mine).map fun (o : NewPath) => o.asm).getD {}).put off (f.bytes.drop 32)
      let rest := s.net.newPaths.filter fun o => !mine o
      let s1 : State := { s with net := { s.net with newPaths := rest } }
      let h := a.first 32
      if !a.holds 80 then { s with net := { s.net with newPaths := rest ++ [⟨f.session, d.port, d.peer, number, a⟩] } }
      else if u16 h 0 ≠ 0x5451 ∨ u16 h 2 ≠ 256 + x.minor ∨ u16 h 4 ≠ 4 ∨ u16 h 6 ≠ 0 ∨ u32 h 8 ≠ f.session ∨ u32 h 12 ≠ 32 ∨
          u64 h 16 ≠ number ∨ u16 h 28 ≠ 0 ∨ u16 h 30 ≠ 0 ∨ x.window < x.rxBegun - x.rxConsumed + 80 then s1
      else
        match gcmOpen x.keyPM (nonce x.number number) h (slice (a.first 80) 32 48) with
        | none => s1
        | some p =>
          (s1.onSession x.number fun x => { x with rxBegun := x.rxBegun + 80 }).settle x.number number
            (some ⟨x.number, 4, number, u32 h 24, p⟩)

/-- A frame of an open session has arrived on a path: the session is not idle. -/
def State.touch (s : State) (n : Nat) (p : Path) : State := s.onSession n fun x => { x with lastFrame := s.now p.fe }

/-- A received data frame (R308, R310, R313, R319, R326, R327). -/
def dataFrameEffect (d : Datagram) (s : State) : State :=
  match s.accepts d, parseFrame d.bytes with
  | some s1, some f =>
    if f.kind ≠ 1 then s1
    else if f.session = 0 then
      if u64 f.bytes 16 = 1 ∧ f.path = 0 then s1.openFragment d.port d.peer (u32 f.bytes 24) (f.bytes.drop 32) else s1
    else
      match s1.rxPath d f with
      | none => s1.newPathFragment d f
      | some (x, p) =>
        if epochOlder p.rxEpoch f.epoch ∨ x.closing then s1
        else
          let s2 := (s1.touch x.number p).seeEpoch x.number p.number f.epoch
          let number := u64 f.bytes 16
          match (s2.session x.number), (s2.session x.number).bind (·.path p.number) with
          | some x, some p =>
            if 2 ^ 43 ≤ number ∨ number = 0 then s2
            else if p.has f.packet then s2.recordPacket x.number p f.packet true
            else if number < x.nextDeliver ∨ Dict.has x.ahead number then
              (s2.recordPacket x.number p f.packet false).copyFragment x.number x number (u32 f.bytes 24) (f.bytes.drop 32)
            else
              let r := s2.assemble x.number x number (u32 f.bytes 24) (f.bytes.drop 32)
              if r.2 then (r.1.recordPacket x.number p f.packet false).seqLimit x.number else r.1
          | _, _ => s2
  | some s1, none => s1
  | none, _ => s

def execDataFrame (d : Datagram) (s : State) : Host.Outcome State Fault Refusal := .next (dataFrameEffect d s)

/-- Was a packet acknowledged by an ack frame? -/
def ackCovers (b : List Byte) (k : Nat) : Bool :=
  decide (k ≤ u32 b 16) || (List.range (u8 b 20)).any fun i =>
    decide (u32 b (40 + 8 * i) ≤ k ∧ k ≤ u32 b (44 + 8 * i))

/-- The round-trip estimate after a sample (R327). -/
def Path.sample (p : Path) (r mn mx : Nat) : Path :=
  let srtt := if p.sampled then (7 * p.srtt + r) / 8 else r
  let var := if p.sampled then (3 * p.rttvar + (if p.srtt ≤ r then r - p.srtt else p.srtt - r)) / 4 else r / 2
  { p with sampled := true, srtt := srtt, rttvar := var, rto := max mn (min mx (srtt + 4 * var)) }

/-- A path after an ack (R327, R328): what it acknowledged, the estimate, the window, and how many higher packets each frame
that is left has been passed by. -/
def Path.acked (p : Path) (b : List Byte) (now mn mx : Nat) : Path :=
  let got := p.unacked.filter fun f => ackCovers b f.packet
  let left := p.unacked.filter fun f => !ackCovers b f.packet
  let p1 := match p.unacked.find? (fun f => f.packet == u32 b 32 && !f.retx) with
    | some f => p.sample (now - f.sentAt - u32 b 36) mn mx
    | none => p
  let grown := p1.cwnd + (got.filter (·.frag.length != 0)).length * fragMax p.port p.peer.v6
  { p1 with unacked := left.map fun f => { f with passed := f.passed + (got.filter fun g => f.packet < g.packet).length },
            cwnd := grown, expiries := 0, down := false }

/-- Hand the pages of a message that is done to one of the same request that is not, by the partner message both answer; none where
there is no such message (R242). -/
def passPages (left : Dict WireMsg) (e : Nat × WireMsg) : Option (Dict WireMsg) :=
  (left.find? fun x => x.1 / 1048576 == e.1 / 1048576).map fun x =>
    Dict.store left x.1 { x.2 with pages := x.2.pages ++ e.2.pages }

/-- Messages of a session whose every fragment has been acknowledged are done: their pages return to the pool once every message of
their request is done (R242). -/
def State.retireMessages (s : State) (n : Nat) : State :=
  match s.session n with
  | none => s
  | some x =>
    let open? := fun (k : Nat) => x.paths.any fun p =>
      !(p.down && x.wantsProtected) && (p.unacked.any (·.frag.message == k) || p.toSend.any (·.message == k))
    let done := x.sending.filter fun e => !open? e.1
    let r := done.foldl (fun (r : Dict WireMsg × List Nat) e =>
      match passPages r.1 e with
      | some l => (l, r.2)
      | none => (r.1, r.2 ++ e.2.pages)) (x.sending.filter fun e => open? e.1, [])
    (s.putSession { x with sending := r.1 }).freePool r.2

/-- A received ack frame (R310, R325 to R328). -/
def ackFrameEffect (d : Datagram) (s : State) : State :=
  match s.accepts d, parseFrame d.bytes with
  | some s1, some f =>
    match s1.rxPath d f with
    | some (x, p) =>
      if f.kind ≠ 2 ∨ f.epoch ≠ p.txEpoch then s1
      else
        let n := x.number
        let s2 := (s1.touch n p).onSession n fun x => { x with txConsumed := max x.txConsumed (u64 f.bytes 24) }
        let s3 := s2.onPath n p.number fun p =>
          p.acked f.bytes (s1.now p.fe) (s.rget Fld.NET_RTO_MIN_US) (s.rget Fld.NET_RTO_MAX_US)
        let lost := match (s3.session n).bind (·.path p.number) with
          | some p => p.unacked.filter fun f => decide (3 ≤ f.passed)
          | none => []
        (((s3.resend n p.number lost).pumpAll n p.number).retireMessages n).trimJournal.endIfDone n
    | none => s1
  | some s1, none => s1
  | none, _ => s

def execAckFrame (d : Datagram) (s : State) : Host.Outcome State Fault Refusal := .next (ackFrameEffect d s)

/-- A received probe frame is answered with an ack (R310). -/
def probeFrameEffect (d : Datagram) (s : State) : State :=
  match s.accepts d, parseFrame d.bytes with
  | some s1, some f =>
    match s1.rxPath d f with
    | some (x, p) =>
      if f.kind ≠ 3 ∨ epochOlder p.rxEpoch f.epoch then s1
      else
        let s2 := (s1.touch x.number p).seeEpoch x.number p.number f.epoch
        match (s2.session x.number).bind (·.path p.number) with
        | some p => s2.recordPacket x.number p f.packet true
        | none => s2
    | none => s1
  | some s1, none => s1
  | none, _ => s

def execProbeFrame (d : Datagram) (s : State) : Host.Outcome State Fault Refusal := .next (probeFrameEffect d s)

/-- A received path reset frame (R311): where it is numbered in the epoch that now runs, its number counts as received. -/
def pathResetEffect (d : Datagram) (s : State) : State :=
  match s.accepts d, parseFrame d.bytes with
  | some s1, some f =>
    match s1.rxPath d f with
    | some (x, p) =>
      if f.kind ≠ 4 then s1
      else
        let s2 := (s1.touch x.number p).seeEpoch x.number p.number (u16 f.bytes 16)
        s2.onPath x.number p.number fun q => if q.rxEpoch = f.epoch then q.noteReceived f.packet else q
    | none => s1
  | some s1, none => s1
  | none, _ => s

def execPathResetFrame (d : Datagram) (s : State) : Host.Outcome State Fault Refusal := .next (pathResetEffect d s)

-- Timers of a path (R327 to R329).

/-- 25 µs after the first unacknowledged data frame (R327). -/
def ackDelayEffect (session path : Nat) (s : State) : State :=
  match (s.session session).bind (·.path path) with
  | some p => if 0 < p.ackOwed then s.sendAck session path else s
  | none => s

def execAckDelayExpiry (session path : Nat) (s : State) : Host.Outcome State Fault Refusal :=
  .next (ackDelayEffect session path s)

/-- The retransmission timer expires: the oldest frame is lost, rto doubles, and at the eighth expiry in a row the path is
down (R327, R329). -/
def retransmitEffect (session path : Nat) (s : State) : State :=
  match (s.session session).bind (·.path path) with
  | none => s
  | some p =>
    match p.unacked.head? with
    | none => s
    | some f =>
      let s1 := s.onPath session path fun p =>
        { p with rto := min (2 * p.rto) (s.rget Fld.NET_RTO_MAX_US), expiries := p.expiries + 1 }
      let s2 := s1.resend session path [f]
      if 8 ≤ p.expiries + 1 ∧ !p.down then s2.pathDown session path else s2

def execRetransmitTimeout (session path : Nat) (s : State) : Host.Outcome State Fault Refusal :=
  .next (retransmitEffect session path s)

/-- A path with no unacknowledged frame sends a probe (R329). -/
def probeIntervalEffect (session path : Nat) (s : State) : State :=
  match (s.session session).bind (·.path path) with
  | none => s
  | some p => if p.unacked = [] ∧ s.feUp p.fe then s.sendFrag session path ⟨0, 0, 0⟩ false else s

def execProbeInterval (session path : Nat) (s : State) : Host.Outcome State Fault Refusal :=
  .next (probeIntervalEffect session path s)

-- Sending (R326, R347).

/-- The first message of a session whose records are durable. -/
def State.nextReady (s : State) (x : Session) : Option ModMsg := x.ready.find? fun m => m.needs.all s.durable

/-- The ready message at the head begins once the partner's window grants credit for it, and holds back every later one until
then (R326); a sequence limit then closes the session (R322). -/
def sendMessageEffect (session : Nat) (s : State) : State :=
  match s.session session with
  | none => s
  | some x =>
    match s.nextReady x with
    | none => s.endIfDone session
    | some m =>
      if x.txBegun - x.txConsumed + modWire m ≤ x.partnerWindow then
        let s1 := s.onSession session fun x => { x with ready := x.ready.erase m }
        ((s1.begin session m).seqLimit session).wakeUnsent
      else s.onSession session fun x => { x with ready := m :: x.ready.erase m }

def execSendMessage (session : Nat) (s : State) : Host.Outcome State Fault Refusal := .next (sendMessageEffect session s)

-- Ports (R303 to R306, R333).

/-- An OAM frame's status is passed to the supervisor (R304). -/
def execOamFrame (port : Nat) (status : Byte) (s : State) : Host.Outcome State Fault Refusal :=
  .next (s.onPort port fun x => { x with oam := status })

/-- May a port take a frame that is no QMT datagram: it is live, the frame is of its VLAN, and it meets MACsec (R305, R307)? -/
def State.takes (s : State) (port vlan : Nat) (tag : Option MacsecTag) : Option State :=
  if s.portLive port ∧ vlan = (s.port port).applied.vlan then s.macsecIn port tag else none

/-- An ARP request for the port's address is answered (R305). -/
def arpRequestEffect (a : ArpPacket) (s : State) : State :=
  match s.takes a.port a.vlan a.sec with
  | none => s
  | some s1 =>
    if s1.portAddress a.port false a.target then
      s1.transmit (s1.frame a.port (s1.rget Fld.NET_PCFG_PRIO_DATA a.port) (some a.mac) (.arpReply a.target a.mac))
    else s1

def execArpRequest (a : ArpPacket) (s : State) : Host.Outcome State Fault Refusal := .next (arpRequestEffect a s)

/-- An ARP reply resolves a partner's address (R305). -/
def arpReplyEffect (a : ArpPacket) (s : State) : State :=
  match s.takes a.port a.vlan a.sec with
  | none => s
  | some s1 => if s1.portAddress a.port false a.target then s1.resolved a.port false a.ip a.mac else s1

def execArpReply (a : ArpPacket) (s : State) : Host.Outcome State Fault Refusal := .next (arpReplyEffect a s)

/-- Does duplicate address detection of a port's link-local address still run: it began less than 1 s ago (R305; log entry 8)? -/
def State.detecting (s : State) (port : Nat) : Bool := (s.port port).dadAt.any fun t => decide (s.now (portSide port) < t + 1000000)

/-- Begin duplicate address detection of a port's link-local address: a solicitation for it (R305). -/
def State.startDad (s : State) (port : Nat) : State :=
  let s1 := s.onPort port fun x => { x with llDuplicate := false, dadAt := some (s.now (portSide port)) }
  s1.transmit (s1.frame port (s1.rget Fld.NET_PCFG_PRIO_DATA port) none (.solicitation (linkLocal (s1.portMac port))))

/-- A PHY reports link gained or lost. Without crystal A or the Ethernet PLL no port gains link (R411). A port that gains
link begins duplicate address detection (R305). -/
def phyLinkEffect (port : Nat) (up : Bool) (s : State) : State :=
  if 6 ≤ port ∨ (up ∧ (s.rbit Fld.CLK_STATUS_XA_FAIL ∨ !(s.rget Fld.CLK_STATUS_LOCK).testBit 1 ∨
      !(s.rget Fld.SYS_GATE_PORT).testBit port)) then s
  else if up then
    ((s.rset Fld.NET_PSTAT_LINK 1 port).rset Fld.NET_PSTAT_AN_DONE (s.rget Fld.NET_PCFG_AN port) port).startDad port
  else ((s.rset Fld.NET_PSTAT_LINK 0 port).rset Fld.NET_PSTAT_AN_DONE 0 port).rset Fld.NET_FAULT_LINK 1

def execPhyLinkChange (port : Nat) (up : Bool) (s : State) : Host.Outcome State Fault Refusal :=
  .next (phyLinkEffect port up s)

/-- Another station uses the port's link-local address. -/
def State.duplicate (s : State) (port : Nat) : State := s.onPort port fun x => { x with llDuplicate := true }

/-- A neighbor solicitation for a port address is answered with an advertisement; a detection of another station's (its sender's address
is unspecified) shows a duplicate while the port's own runs, and is answered to all nodes after it (R305). -/
def solicitationEffect (n : NdPacket) (s : State) : State :=
  match s.takes n.port n.vlan n.sec with
  | none => s
  | some s1 =>
    if n.ip = 0 ∧ n.target = linkLocal (s1.portMac n.port) ∧ n.mac ≠ s1.portMac n.port ∧ s1.detecting n.port then s1.duplicate n.port
    else if s1.portAddress n.port true n.target then
      s1.transmit (s1.frame n.port (s1.rget Fld.NET_PCFG_PRIO_DATA n.port) (if n.ip = 0 then none else some n.mac)
        (.advertisement n.target (if n.ip = 0 then 0xFF02 * 2 ^ 112 + 1 else n.ip)))
    else s1

def execNeighborSolicitation (n : NdPacket) (s : State) : Host.Outcome State Fault Refusal := .next (solicitationEffect n s)

/-- A neighbor advertisement resolves a partner, and a solicited one confirms it reachable; one for the port's own link-local address
shows a duplicate (R305). -/
def advertisementEffect (n : NdPacket) (s : State) : State :=
  match s.takes n.port n.vlan n.sec with
  | none => s
  | some s1 =>
    if n.target = linkLocal (s1.portMac n.port) then if n.mac = s1.portMac n.port then s1 else s1.duplicate n.port
    else
      let s2 := s1.resolved n.port true n.target n.mac
      { s2 with net := { s2.net with neighbors := s2.net.neighbors.map fun x =>
        if x.port = n.port ∧ x.v6 ∧ x.ip = n.target then { x with reachable := n.solicited } else x } }

def execNeighborAdvertisement (n : NdPacket) (s : State) : Host.Outcome State Fault Refusal := .next (advertisementEffect n s)

/-- An echo request to a port's address, within its MTU, is answered (R303, R305). -/
def icmpEchoEffect (e : EchoPacket) (s : State) : State :=
  if !mtuOk e.port e.v6 e.data.length then s
  else
    match s.takes e.port e.vlan e.sec with
    | none => s
    | some s1 =>
      if s1.portAddress e.port e.v6 e.dst then
        s1.sendIp e.port (s1.rget Fld.NET_PCFG_PRIO_DATA e.port) e.v6 e.src (.echoReply e.v6 e.src e.ident e.seq e.data)
      else s1

def execIcmpEcho (e : EchoPacket) (s : State) : Host.Outcome State Fault Refusal := .next (icmpEchoEffect e s)

/-- NET.CTRL.APPLY (R306): every port's settings and the QMT port take effect; one gratuitous ARP per IPv4 address applied. -/
def execNetApply (s : State) : Host.Outcome State Fault Refusal := .next s.netApply

/-- NET.CTRL.CLEAR (R332). -/
def execNetCounterClear (s : State) : Host.Outcome State Fault Refusal := .next s.netClear

end Sys2Proof.Machine
end

