-- ==== Sys2Proof/Machine/Hardware.lean ====
section
/-! DEFINITION. Hardware.lean: J1, input power, the sideband, the cartridge bay and the lights ("Connectors, cartridge and electrical
data"; R411; log entry 37). -/

namespace Sys2Proof.Machine

-- The cartridge bay (R211, R333, R483, R486).

/-- Sequences with a page on the cartridge. -/
def State.spilledSeqs (s : State) : List Nat :=
  (s.srv.sequences.filter fun x => (s.entries x.1).any entryC).map (·.1)

/-- The cartridge is gone or fails: loads in steps 2 and 3 fail, spilled sequences are rebuilt by replay, resident models keep
serving. -/
def State.loseCart (s : State) : State :=
  let l := s.spilledSeqs
  let loads := s.srv.loads.filter fun k => (s.slot k).step == 2 || (s.slot k).step == 3
  let s1 := loads.foldl (fun (s : State) k => s.failLoad k (.at0 Code.E_SIGNATURE)) s
  let s2 := l.foldl (fun (s : State) q => s.replaySeq q) s1
  let held := s2.mem.held.filter fun x => !l.contains x.1
  let cart := { s2.mem.cart with powered := false, spill := [] }
  let s3 := (({ s2 with mem := { s2.mem with held := held, cart := cart } } : State).rset Fld.SEC_CART_STATE 0).showCartPages
  if l.isEmpty then s3 else s3.healthEvent Code.F_REPLAYED

/-- CARTRIDGE_INSERTION (R483): the bay is powered, the link trains and the identity is checked, while SYS.GATE.PCIE is 1. -/
def cartInsertion (x : CartridgeInfo) (s : State) : State :=
  if s.mem.cart.present then s
  else
    let objects := x.objects.foldl (fun (d : Dict (List Byte)) (o : Nat × List Byte) => Dict.store d o.1 o.2) []
    let c : Cartridge := { present := true, carrier := x.carrier, genuine := x.genuine, objects := objects,
                           written := x.written * 512000, matings := x.matings, devicePct := x.devicePct, readOnly := x.readOnly }
    let s1 : State := { s with mem := { s.mem with cart := c } }
    if s1.boot.down ∨ !s1.rbit Fld.SYS_GATE_PCIE then s1 else s1.checkCart.showLife

def execCartridgeInsertion (x : CartridgeInfo) (s : State) : Host.Outcome State Fault Refusal := .next (cartInsertion x s)

/-- CARTRIDGE_REMOVAL (R483). -/
def cartRemoval (s : State) : State :=
  if !s.mem.cart.present then s
  else
    let s1 := s.loseCart
    { s1 with mem := { s1.mem with cart := {} } }

def execCartridgeRemoval (s : State) : Host.Outcome State Fault Refusal := .next (cartRemoval s)

/-- CARTRIDGE_FAILED (R333): the NVMe link is lost. -/
def cartFailed (s : State) : State := if !s.mem.cart.present ∨ !s.mem.cart.powered then s else s.loseCart

def execCartridgeFailed (s : State) : Host.Outcome State Fault Refusal := .next (cartFailed s)

/-- CARTRIDGE_LIFE_POLL (R486): data units written, the carrier's mating count, the device's own figure, and read-only. -/
def cartLifePoll (written matings devicePct : Nat) (readOnly : Bool) (s : State) : State :=
  let c := s.mem.cart
  if !c.present ∨ !c.powered then s
  else
    let c1 := { c with written := written * 512000, matings := matings, devicePct := devicePct, readOnly := readOnly }
    ({ s with mem := { s.mem with cart := c1 } } : State).showLife

def execCartridgeLifePoll (written matings devicePct : Nat) (readOnly : Bool) (s : State) : Host.Outcome State Fault Refusal :=
  .next (cartLifePoll written matings devicePct readOnly s)

-- PLLs (R411, R412).

/-- PLL_LOCK_LOSS: the PLL's domain stops. -/
def pllLockLoss (pll : Pll) (s : State) : State :=
  let bit := match pll with
    | .memory => 0
    | .ethernet => 1
    | .pcie => 2
    | .video => 3
  let lock := s.rget Fld.CLK_STATUS_LOCK
  let s1 := if lock.testBit bit then s.rset Fld.CLK_STATUS_LOCK (lock - 2 ^ bit) else s
  match pll with
  | .memory => s1.memoryOut.markUnusable 15
  | .ethernet => (List.range 6).foldl (fun (s : State) p => phyLinkEffect p false s) s1
  | .pcie => cartFailed s1
  | .video => s1

def execPllLockLoss (pll : Pll) (s : State) : Host.Outcome State Fault Refusal := .next (pllLockLoss pll s)

-- J1 (R468, R470 to R476, R482).

/-- The number of ones among five strap pins. -/
def strapOnes (n : Nat) : Nat := ((List.range 5).filter fun i => n.testBit i).length

/-- The coupling count is one higher; at 180 and 200 a HEALTH_EVENT is due, which leaves once the module serves (R482). The QM-512A
has no couplings. -/
def State.countCoupling (s : State) : State :=
  match s.variant with
  | .a => s
  | .w =>
    let n := s.hw.couplings + 1
    let s1 := (s.rset Fld.SYS_COUPLING_CYCLES (min n 65535)).rset Fld.SYS_COUPLING_WORN (if 200 ≤ n then 1 else 0)
    let s2 : State := { s1 with hw := { s1.hw with couplings := n } }
    if n = 180 ∨ n = 200 then { s2 with hw := { s2.hw with wearEvent := true } } else s2

/-- AUX_RISE (R468, R472, R482): the power controller starts, the straps are read and the coupling count rises. The module is
unpowered until PWR_EN rises. -/
def auxRise (slots : Nat) (parity leader : Bool) (s : State) : State :=
  let ok : Bool := (strapOnes slots + (if parity then 1 else 0)) % 2 == 1
  let hw := { s.hw with status := 0, cause := 0, startCap := 0, alert := false, vinLow := false }
  let s1 := ({ s with hw := hw } : State).stopRun 0
  let s2 := ((s1.rset Fld.SYS_STRAPS_SLOT (if ok then slots % 32 else 255)).rset Fld.SYS_STRAPS_PARITY_OK (if ok then 1 else 0)).rset
    Fld.SYS_STRAPS_LEADER (if leader then 1 else 0)
  (s2.rset Fld.SYS_PANEL_IDENTIFY 0).countCoupling

def execAuxRise (slots : Nat) (parity leader : Bool) (s : State) : Host.Outcome State Fault Refusal :=
  .next (auxRise slots parity leader s)

/-- POWER_ENABLE_FALL (R454, R474): in service steps 1 to 4 of R357 come first; during start-up the module stops where it is. -/
def powerEnableFall (s : State) : State :=
  let s1 := s.rset Fld.SYS_J1_PWR_EN 0
  if s1.boot.down then s1
  else if s1.boot.step = 11 then s1.startPull .powerOff
  else (s1.hwStatus 0 false).stopRun 1

def execPowerEnableFall (s : State) : Host.Outcome State Fault Refusal := .next (powerEnableFall s)

/-- The input voltage that the power controller shows, in 0.1 V (R479). -/
def State.showVolts (s : State) (decivolts : Nat) : State := { s with hw := { s.hw with inputVolts := decivolts } }

/-- VIN_DIP (R470, R476): VIN is below 38 V; the hold-up store carries the rails. -/
def vinDip (decivolts : Nat) (s : State) : State :=
  let s1 := s.showVolts decivolts
  if 380 ≤ decivolts then s1 else ({ s1 with hw := { s1.hw with vinLow := true } } : State).hwStatus 4 true

def execVinDip (decivolts : Nat) (s : State) : Host.Outcome State Fault Refusal := .next (vinDip decivolts s)

/-- VIN_RETURN (R470, R476): VIN is above 39.5 V again within 10 ms; the dip counts while both pull-sense pins are made. -/
def vinReturn (decivolts : Nat) (s : State) : State :=
  let s0 := s.showVolts decivolts
  if decivolts ≤ 395 then s0
  else
    let s1 := ({ s0 with hw := { s0.hw with vinLow := false } } : State).hwStatus 4 false
    if s.hw.vinLow ∧ !s.boot.down ∧ s.rbit Fld.SYS_J1_PS1 ∧ s.rbit Fld.SYS_J1_PS2 then s1.countHold Fld.SYS_J1_DIPS else s1

def execVinReturn (decivolts : Nat) (s : State) : Host.Outcome State Fault Refusal := .next (vinReturn decivolts s)

/-- VIN_LOST (R476): VIN has not returned within 10 ms; the module holds reset and writes nothing. -/
def vinLost (s : State) : State := if !s.hw.vinLow ∨ s.boot.down then s else (s.hwStatus 0 false).stopRun 5

def execVinLost (s : State) : Host.Outcome State Fault Refusal := .next (vinLost s)

/-- OVERVOLTAGE_SHUTDOWN (R470, R471): VIN is above 62 V. -/
def overvoltage (decivolts : Nat) (s : State) : State :=
  let s0 := s.showVolts decivolts
  if decivolts ≤ 620 then s0
  else
    let s1 : State := { s0 with hw := { s0.hw with cause := 4 } }
    (((s1.hwStatus 0 false).hwStatus 3 true).rset Fld.SYS_J1_FAULT_OUT 1).stopRun 8

def execOvervoltageShutdown (decivolts : Nat) (s : State) : Host.Outcome State Fault Refusal := .next (overvoltage decivolts s)

/-- HOLDUP_CHARGED (R475): 90 V. -/
def holdupCharged (s : State) : State :=
  if s.boot.down then s
  else (((s.rset Fld.SYS_HOLDUP_READY 1).rset Fld.SYS_HOLDUP_CHARGING 0).rset Fld.SYS_HOLDUP_VOLTS 90).hwStatus 6 true

def execHoldupCharged (s : State) : Host.Outcome State Fault Refusal := .next (holdupCharged s)

/-- START_CAP_WRITE (R473, R479): 0 or 140 to 480 W; any other value reads back 0. -/
def execStartCapWrite (watts : Nat) (s : State) : Host.Outcome State Fault Refusal :=
  .next { s with hw := { s.hw with startCap := if 140 ≤ watts ∧ watts ≤ 480 then watts else 0 } }

/-- PANEL_IDENTIFY (R479): the identify bit, which SYS.PANEL mirrors. -/
def execPanelIdentify (on : Bool) (s : State) : Host.Outcome State Fault Refusal :=
  .next (s.rset Fld.SYS_PANEL_IDENTIFY (if on then 1 else 0))

-- What the sideband of J1 reads (R479, R480).

/-- The power controller's registers, offsets 0x00 to 0x08 (R479). -/
def State.controllerBytes (s : State) : List Byte :=
  [s.hw.status] ++ leBytes 1 s.hw.cause ++ leBytes 2 s.hw.startCap ++ leBytes 2 s.hw.inputVolts ++ leBytes 2 s.hw.inputWatts ++
    leBytes 1 (s.rget Fld.SYS_PANEL_IDENTIFY)

/-- A page of the identity EEPROM: its contents, zero up to 252 bytes, and their CRC (R480). -/
def eepromPage (p : List Byte) : List Byte := slice p 0 252 ++ leBytes 4 (crc32c (slice p 0 252))

/-- The identity page (R480). -/
def State.identityPage (s : State) : List Byte :=
  eepromPage (leBytes 2 0x5149 ++ leBytes 1 1 ++ leBytes 1 s.variantCode ++ [0xB0, 0x0C] ++ zeroBytes 2 ++ slice s.hw.serial 0 16 ++
    leBytes 6 s.hw.macBase ++ zeroBytes 2 ++ identityDigest)

/-- One copy of the coupling count (R480). -/
def couplingCopy (n : Nat) : List Byte := leBytes 4 n ++ leBytes 4 (crc32c (leBytes 4 n))

/-- The counter page (R480): the two copies of the coupling count, written in turn, and the tamper mark. -/
def State.counterPage (s : State) : List Byte :=
  let n := s.hw.couplings
  let copies := if n % 2 = 0 then couplingCopy n ++ couplingCopy (n - 1) else couplingCopy (n - 1) ++ couplingCopy n
  slice (copies ++ leBytes 4 s.hw.tamper ++ leBytes 4 (crc32c (leBytes 4 s.hw.tamper))) 0 256

/-- The identity EEPROM, 2 KiB (R480). -/
def State.eepromBytes (s : State) : List Byte :=
  slice (s.identityPage ++ slice s.hw.statusPage 0 256 ++ s.counterPage) 0 2048

-- The front panel (R488).

/-- What a light shows. -/
inductive Light where
  | off | green | greenFlashing | amber | amberFlashing | blue | blueFlashing
  deriving DecidableEq, Repr

/-- STATUS. -/
def State.statusLight (s : State) : Light :=
  if s.rbit Fld.THM_STATUS_HALTED ∨ s.rbit Fld.BIST_STATUS_HALTED then .amberFlashing
  else if s.boot.down then .off
  else if s.health ≠ 0 then .amber
  else if s.boot.step ≤ 9 then .greenFlashing else .green

/-- CART. -/
def State.cartLight (s : State) : Light :=
  if !s.mem.cart.present then .off
  else if s.rbit Fld.SYS_CART_LIFE_EOL then .amberFlashing
  else if s.rget Fld.SEC_CART_STATE ≠ 1 ∨ s.rbit Fld.SYS_CART_LIFE_WARN then .amber else .green

/-- SERVICE: identify, or safe to pull. -/
def State.serviceLight (s : State) : Light :=
  if s.rbit Fld.SYS_PANEL_IDENTIFY then .blueFlashing
  else if s.cont.pull = .flushed ∨ s.cont.pull = .held ∨ s.rbit Fld.THM_STATUS_HALTED ∨
      !(s.srv.requests.any fun r => (s.session r.2.session).any (·.wantsProtected)) then .blue
  else .off

end Sys2Proof.Machine
end

