-- ==== Sys2Proof/Machine/Views.lean ====
section
/-! DEFINITION. Views.lean: what each register reads: its stored word with the fields that show other state, the copy that
a selector names, and the pairs and digests that a read latches (R494, R496, R500). -/

namespace Sys2Proof.Machine

-- Selectors and latches (R500).

/-- The selectors: BANK.SEL, XLT.DESC_SEL, LATH.DIGEST_SEL, SRV.FSEL, SRV.CSEL, THM.SEL, VID.CSEL, NET.PSEL, MEM.CE_SEL,
ATT.MSEL, FWU.VSEL. -/
def selectorRegs : List Nat :=
  [0x220004, 0x210008, 0x130018, 0x30001C, 0x300024, 0x030008, 0x320018, 0x40001C, 0x200020, 0x31000C, 0x510014]

/-- A set of selectors: the value of each that is not at its reset value. -/
abbrev Selectors := Dict Nat

/-- The word of a selector. -/
def Selectors.word (d : Selectors) (a : Nat) : Nat := (Dict.fetch d a).getD (regReset a).toNat

/-- The registers that a read of a low word, or of a digest's word 0, latches. -/
def latchedBy (a : Nat) : List Nat :=
  if [0x100034, 0x110018, 0x110024, 0x120030, 0x210020, 0x300028, 0x300034, 0x41001C, 0x410028, 0x500014, 0x50001C, 0x51000C].contains a then
    [a + 4]
  else if a = 0x130020 ∨ a = 0x310010 ∨ a = 0x410050 then (List.range 11).map fun i => a + 4 * (i + 1)
  else []

/-- Does a register read what a latch holds? -/
def isLatched (a : Nat) : Bool :=
  (latchedBy (a - 4) == [a]) || [0x130020, 0x310010, 0x410050].any fun b => decide (b < a ∧ a < b + 48 ∧ a % 4 = 0)

/-- Is a register one of those of the selected port, NET.PSTAT to NET.MAC_HI (R498)? -/
def portReg (a : Nat) : Bool := decide (0x400020 ≤ a ∧ a ≤ 0x40004C)

/-- Which copy of a register the selectors name: the port, frame entry, or channel. -/
def Selectors.copy (d : Selectors) (a : Nat) : Nat :=
  if portReg a then d.word 0x40001C
  else if a = 0x300020 then d.word 0x30001C
  else if a = 0x200024 then d.word 0x200020
  else 0

-- The words.

/-- Set fields of a word. -/
def withFields (w : Word) (l : List (Field × Nat)) : Word := l.foldl (fun w x => x.1.put w x.2) w

/-- A truth value as a bit. -/
def bit (b : Bool) : Nat := if b then 1 else 0

/-- The low 16 bits of a temperature in 1/16 °C. -/
def temp16 (t : Int) : Nat := (BitVec.ofInt 16 t).toNat

/-- Word k of a byte string. -/
def wordAt (p : List Byte) (k : Nat) : Word := BitVec.ofNat 32 (u32 p (4 * k))

/-- The bank that the present n-tile accumulates into (ARR.STATUS.BANK): that of the unit whose pass issued last, or of the next unit
where none has since reset. -/
def ArrState.presentBank (a : ArrState) : Nat := if a.begun then 1 - a.nextBank % 2 else a.nextBank % 2

/-- ARR.STATUS (R93). Filler passes feed the array as any other pass does. -/
def State.arrStatus (s : State) (w : Word) : Word :=
  let a := s.arr
  withFields w [(Fld.ARR_STATUS_BUSY, bit (!a.flights.isEmpty || s.fillerRuns)), (Fld.ARR_STATUS_BANK, a.presentBank),
    (Fld.ARR_STATUS_DRAIN0, bit (a.bank0.phase == .draining)), (Fld.ARR_STATUS_DRAIN1, bit (a.bank1.phase == .draining)),
    (Fld.ARR_STATUS_HALF0, bit (a.halves.any (·.1 == 0))), (Fld.ARR_STATUS_HALF1, bit (a.halves.any (·.1 == 1))),
    (Fld.ARR_STATUS_SHADOW, bit a.shadow.isSome)]

/-- The coat whose programs the generators of a set hold: the first of the set that has not completed, loaded while earlier coats
run (R80 (e), R94). -/
def State.setCoat (s : State) (set_ : Bool) : Option Work :=
  s.works.find? fun w => w.c.programs != 0 && !w.run.complete && w.g.feedSet w.i == set_

/-- Does a coat run programs of its generator? -/
def State.feedBusy (s : State) (w : Work) : Bool :=
  s.mayWork w && w.setFree && (!w.programsRun || decide (w.run.issued < w.run.passes.length))

/-- FEED.STATUS (R113). The programs of a coat stand in the first generator of its set (log entry 38). SET is the set of the coat that
fed the array last, set A before the first (DESIGN CHOICE, log entry 41). -/
def State.feedStatus (s : State) (w : Word) : Word :=
  let runs := fun (kind : Nat) => s.works.any fun x => (s.programDue x.i kind).isSome
  let busy := fun (set_ : Bool) => bit ((s.setCoat set_).any s.feedBusy)
  withFields w [(Fld.FEED_STATUS_AG_BUSY, busy false + 16 * busy true), (Fld.FEED_STATUS_CROP, bit (runs 4)),
    (Fld.FEED_STATUS_ARGMAX, bit (runs 5)), (Fld.FEED_STATUS_SET, bit s.srv.lastSet)]

/-- FEED.AGn (R113). -/
def State.feedGenerator (s : State) (n : Nat) (w : Word) : Word :=
  match s.setCoat (decide (4 ≤ n)) with
  | some x =>
    if n = x.generator then
      withFields w [(Fld.FEED_AG_COAT n, x.i), (Fld.FEED_AG_SLOT n, x.b.slot), (Fld.FEED_AG_PROGRAMS n, x.c.programs - 1),
        (Fld.FEED_AG_BUSY n, bit (s.feedBusy x))]
    else w
  | none => w

/-- TRIM.BUSY_LO and TRIM.BUSY_HI: the logical cores from `lo` on that run a kernel (R147). -/
def State.trimBusy (s : State) (lo : Nat) : Word :=
  let runs := fun (c : Nat) => match s.trim.cores[c]? with
    | some x => x.state != .idle && x.state != .done
    | none => false
  BitVec.ofNat 32 ((List.range 32).foldl (fun n i => n + bit (runs (lo + i)) * 2 ^ i) 0)

/-- The digest that LATH.DIGEST shows: zero when the slot is not READY (R177). -/
def State.shownDigest (s : State) (k : Nat) : List Byte :=
  if (s.slot k).state = .ready then slice (s.slot k).digest 0 48 else zeroBytes 48

/-- BANK.WIN_CFG, BANK.WIN_BASE and BANK.WIN_LIMIT (register 0, 1, 2) of a master and index (R204, R214). The windows that the
supervisor writes hold values that the manual does not give. -/
def State.windowWord (s : State) (r m i : Nat) : Word :=
  if m < 2 ∨ 75 < m ∧ m < 80 then
    let v := Config.supervisorWindow r m i s.free
    if r = 0 then v &&& 0x7FF else v &&& 0x3FFFF
  else match (s.coatWindows m)[i]? with
    | some x =>
      BitVec.ofNat 32 (if r = 0 then x.bank + 256 * bit x.read + 512 * bit x.write + 1024 else if r = 1 then x.first else x.last)
    | none => 0

/-- A hot spot of the selected number. -/
def State.hotSpot (s : State) (h : Nat) : HotSpot := listAt {} s.thm.spots h

/-- A value of the thermal model, 16 fractional bits, in 1/16 °C, rounded down (log entry 38). -/
def inSixteenths (t : Int) : Nat := temp16 (t / 4096)

/-- THM registers of the selected hot spot (R452). -/
def State.spotWord (s : State) (a h : Nat) (w : Word) : Word :=
  let x := s.hotSpot h
  if a = 0x3000C then
    withFields w [(Fld.THM_HS_AB_A, temp16 (x.prevA.getD 0)), (Fld.THM_HS_AB_B, temp16 (x.prevB.getD 0))]
  else if a = 0x30010 then withFields w [(Fld.THM_HS_USED_USED, inSixteenths x.used), (Fld.THM_HS_USED_PRED, inSixteenths x.pred)]
  else if a = 0x30014 then
    withFields w [(Fld.THM_HS_STATE_STATE, x.pair), (Fld.THM_HS_STATE_FAULT_A, bit x.faultA),
      (Fld.THM_HS_STATE_FAULT_B, bit x.faultB), (Fld.THM_HS_STATE_KIND, spotKind h),
      (Fld.THM_HS_STATE_MAX, inSixteenths (x.max.getD 0))]
  else if a = 0x30018 then
    withFields w [(Fld.THM_LIMITS_WARM, s.threshold h 0), (Fld.THM_LIMITS_HOT, s.threshold h 1),
      (Fld.THM_LIMITS_CRIT, s.threshold h 2), (Fld.THM_LIMITS_TRIP, s.threshold h 3)]
  else if a = 0x30038 then coefA h
  else coefR h

/-- SRV registers of the selected account, and the live counts (R256). -/
def State.srvWord (s : State) (a cu : Nat) (w : Word) : Word :=
  let x : Account := (Dict.fetch s.srv.accounts cu).getD {}
  if a = 0x300028 then BitVec.ofNat 32 x.balance
  else if a = 0x30002C then BitVec.ofNat 32 (x.balance / 4294967296 % 65536)
  else if a = 0x300030 then
    withFields w [(Fld.SRV_CCFG_WEIGHT, x.weight), (Fld.SRV_CCFG_OPEN, bit x.isOpen), (Fld.SRV_CCFG_SEQUENCES, s.liveSequences (some cu))]
  else if a = 0x300034 then BitVec.ofNat 32 s.srv.count
  else if a = 0x300038 then BitVec.ofNat 32 (s.srv.count / 4294967296)
  else withFields w [(Fld.SRV_LIVE_SEQUENCES, s.liveSequences none), (Fld.SRV_LIVE_QUEUED, s.queuedCount)]

/-- VID registers that show the contexts (R302). -/
def State.vidWord (s : State) (a k : Nat) (w : Word) : Word :=
  let x := Dict.fetch s.vid.contexts k
  let busy := (List.range 4).foldl (fun n i => n + bit (listAt none s.vid.pipes i).isSome * 2 ^ i) 0
  let rate := fun (e : Bool) => BitVec.ofNat 32 (min (s.videoLoad e / 1000) 4294967295)
  if a = 0x320008 then
    withFields w [(Fld.VID_STATUS_DEC_BUSY, busy), (Fld.VID_STATUS_ENC_BUSY, bit (s.vid.contexts.any fun c => c.2.state == 2 && c.2.busy))]
  else if a = 0x32000C then withFields w [(Fld.VID_POOL_FREE, 512 - s.videoUnits.length)]
  else if a = 0x320010 then rate false
  else if a = 0x320014 then rate true
  else match x with
    | none => 0
    | some c =>
      if a = 0x32001C then
        withFields w [(Fld.VID_CSTATE_STATE, c.state), (Fld.VID_CSTATE_HELD, bit c.held),
          (Fld.VID_CSTATE_UNITS, c.units.length * (if c.full then 4 else 1)), (Fld.VID_CSTATE_CODE, c.code.toNat)]
      else if a = 0x320020 then BitVec.ofNat 32 c.frames
      else BitVec.ofNat 32 (min c.concealed 4294967295)

/-- XLT registers of the selected descriptor (R213). -/
def State.descWord (s : State) (a k : Nat) (w : Word) : Word :=
  let d := s.desc k
  if a = 0x21000C then withFields w [(Fld.XLT_DESC_BASE_BASE, d.base)]
  else if a = 0x210010 then withFields w [(Fld.XLT_DESC_LEN_LENGTH, d.length)]
  else withFields w [(Fld.XLT_DESC_FLAGS_KIND, d.kind), (Fld.XLT_DESC_FLAGS_READ_ONLY, bit d.readOnly), (Fld.XLT_DESC_FLAGS_SLOT, d.slot)]

/-- Pool pages, less retired pages (MEM.POOL). -/
def State.poolPages (s : State) : Nat := s.poolLayout - s.retiredCount

/-- SEC registers that count (R391). -/
def State.secWord (s : State) (a : Nat) (w : Word) : Word :=
  if a = 0x50000C then withFields w [(Fld.SEC_OWNER_USED, s.sec.fuses.length), (Fld.SEC_OWNER_EMPTY_TENANT, bit s.emptyTenant)]
  else if a = 0x500014 then BitVec.ofNat 32 s.sec.switchNumber
  else if a = 0x500018 then BitVec.ofNat 32 (s.sec.switchNumber / 4294967296)
  else if a = 0x50001C then BitVec.ofNat 32 s.sec.boots
  else if a = 0x500020 then BitVec.ofNat 32 (s.sec.boots / 4294967296)
  else withFields w [(Fld.SEC_KEYS_VALID, (List.range 8).foldl (fun n i => n + bit (Dict.has s.sec.keys i) * 2 ^ i) 0)]

/-- Does MACsec act on a port (NET.PSTAT.MACSEC)? -/
def State.macsecOn (s : State) (p : Nat) : Bool := s.rbit Fld.NET_PCFG_MACSEC p && (listAt {} s.net.ports p).txSa.isSome

/-- NET registers that show the link or the sessions (R332). -/
def State.netWord (s : State) (a p : Nat) (w : Word) : Word :=
  let mac := s.hw.macBase + p
  let sess := s.net.sessions.map (·.2)
  if a = 0x400020 then
    withFields w [(Fld.NET_PSTAT_LEADER, natBits (Regs.word s.regs 0x44 0).toNat (Fld.SYS_STRAPS_LEADER.lo + p) 1), (Fld.NET_PSTAT_MACSEC, bit (s.macsecOn p))]
  else if a = 0x400048 then BitVec.ofNat 32 mac
  else if a = 0x40004C then BitVec.ofNat 32 (mac / 4294967296 % 65536)
  else withFields w [(Fld.NET_SESSIONS_OPEN, sess.length),
    (Fld.NET_SESSIONS_DEGRADED, (sess.filter fun x => x.wantsProtected && x.dual.isNone).length)]

/-- CONT registers that show the journal and the configuration (R365). -/
def State.contWord (s : State) (a : Nat) (w : Word) : Word :=
  if a = 0x41001C then BitVec.ofNat 32 s.durableIndex
  else if a = 0x410020 then BitVec.ofNat 32 (s.durableIndex / 4294967296)
  else if a = 0x410024 then withFields w [(Fld.CONT_JOURNAL_USED_PAGES, ceilDiv s.journalUsed 65536)]
  else if a = 0x410028 then BitVec.ofNat 32 s.cont.config.epoch
  else if a = 0x41002C then BitVec.ofNat 32 (s.cont.config.epoch / 4294967296)
  else withFields w [(Fld.CONT_STAGED_VALID, bit s.cont.staged.isSome)]

/-- FWU registers that show the packages (R409). -/
def State.fwuWord (s : State) (a c : Nat) (w : Word) : Word :=
  if a = 0x51000C then BitVec.ofNat 32 s.fwu.bytesHeld
  else if a = 0x510010 then BitVec.ofNat 32 (s.fwu.bytesHeld / 4294967296)
  else if a = 0x510018 then BitVec.ofNat 32 (fwVersion s.fwu.running c)
  else if a = 0x51001C then BitVec.ofNat 32 (fwVersion ((s.fwu.staged.map (·.images)).getD []) c)
  else if s.fwuState = 4 then w else 0

/-- What a register other than a selector reads now, through a set of selectors: its stored word, with the fields that show other
state. A high word or digest word is its present value, not the latched one. -/
def State.liveWord (s : State) (d : Selectors) (a : Nat) : Word :=
  let w := Regs.word s.regs a (d.copy a)
  match a with
  | 0x0 => withFields w [(Fld.SYS_ID_VARIANT, s.variantCode)]
  | 0x20000 => withFields w [(Fld.PWR_ID_MAX_W, s.maxCap / 1000)]
  | 0x20004 => withFields w [(Fld.PWR_STATUS_STEPPING, bit (s.rget Fld.PWR_STATUS_POINT != s.rget Fld.PWR_STATUS_TARGET))]
  | 0x3000C | 0x30010 | 0x30014 | 0x30018 | 0x30038 | 0x3003C => s.spotWord a (d.word 0x30008) w
  | 0x10000C => s.arrStatus w
  | 0x110008 => s.feedStatus w
  | 0x120008 => s.trimBusy 0
  | 0x12000C => s.trimBusy 32
  | 0x130008 => BitVec.ofNat 32 s.slotWord
  | 0x13000C => Regs.word s.settleLoad.regs a (d.copy a)
  | 0x20002C => withFields w [(Fld.MEM_LAYOUT_POOL_FIRST, s.poolFirst)]
  | 0x200030 => withFields w [(Fld.MEM_POOL_PAGES, s.poolPages)]
  | 0x200034 => withFields w [(Fld.MEM_FREE_CLEAR, s.clearCount)]
  | 0x21000C | 0x210010 | 0x210014 => s.descWord a (d.word 0x210008) w
  | 0x210018 => withFields w [(Fld.XLT_FREE_RUN_ENTRIES, s.freeRun)]
  | 0x220008 => (s.envelope (d.word 0x220004 % 128) (d.word 0x220004 / 256)).1
  | 0x22000C => (s.envelope (d.word 0x220004 % 128) (d.word 0x220004 / 256)).2.1
  | 0x220010 => (s.envelope (d.word 0x220004 % 128) (d.word 0x220004 / 256)).2.2
  | 0x220014 | 0x220018 | 0x22001C => s.windowWord ((a - 0x220014) / 4) (d.word 0x220004 % 128) (d.word 0x220004 / 256)
  | 0x300028 | 0x30002C | 0x300030 | 0x300034 | 0x300038 | 0x30003C => s.srvWord a (d.word 0x300024) w
  | 0x310000 =>
    withFields w [(Fld.ATT_STATE_STATE, s.reportState),
      (Fld.ATT_STATE_BLOCKS, (List.range 8).foldl (fun n m => n + s.blockStatus m * 4 ^ m) 0)]
  | 0x310004 => BitVec.ofNat 32 s.sec.reports
  | 0x320008 | 0x32000C | 0x320010 | 0x320014 | 0x32001C | 0x320020 | 0x320024 => s.vidWord a (d.word 0x320018) w
  | 0x400020 | 0x400048 | 0x40004C | 0x400070 => s.netWord a (d.copy a) w
  | 0x41001C | 0x410020 | 0x410024 | 0x410028 | 0x41002C | 0x410030 => s.contWord a w
  | 0x50000C | 0x500014 | 0x500018 | 0x50001C | 0x500020 | 0x500024 => s.secWord a w
  | 0x51000C | 0x510010 | 0x510018 | 0x51001C | 0x510020 => s.fwuWord a (d.word 0x510014) w
  | _ =>
    if 0x110040 ≤ a ∧ a < 0x110060 then s.feedGenerator ((a - 0x110040) / 4) w
    else if 0x130020 ≤ a ∧ a < 0x130050 then wordAt (s.shownDigest (d.word 0x130018)) ((a - 0x130020) / 4)
    else if 0x310010 ≤ a ∧ a < 0x310040 then wordAt (s.measurement (d.word 0x31000C)) ((a - 0x310010) / 4)
    else if 0x310040 ≤ a ∧ a < 0x310050 then wordAt s.tenant ((a - 0x310040) / 4)
    else if 0x410050 ≤ a ∧ a < 0x410080 then wordAt s.configDigest ((a - 0x410050) / 4)
    else w

/-- One register of a read, and the latches after it (R500). -/
def State.readReg (s : State) (d : Selectors) (l : Dict Word) (a : Nat) : Word × Dict Word :=
  if isLatched a then ((Dict.fetch l a).getD 0, l)
  else
    (if selectorRegs.contains a then BitVec.ofNat 32 (d.word a) else s.liveWord d a,
     (latchedBy a).foldl (fun (l : Dict Word) h => Dict.store l h (s.liveWord d h)) l)

/-- Consecutive registers in ascending order, and the latches after them. -/
def State.readRegs (s : State) (d : Selectors) (l : Dict Word) : List Nat → List Word × Dict Word
  | [] => ([], l)
  | a :: as =>
    let x := s.readReg d l a
    let y := s.readRegs d x.2 as
    (x.1 :: y.1, y.2)

end Sys2Proof.Machine
end

