-- ==== Sys2Proof/Machine/Mgmt.lean ====
section
/-! DEFINITION. Mgmt.lean: the access rules of the management space, MGMT_READ and MGMT_WRITE, writes of SYS.GATE and the
CLEAR fields ("Management address map"; R413 to R416; log entry 38). -/

namespace Sys2Proof.Machine

-- Access rules (R496 to R498).

/-- The enable bit of SYS.GATE that gates a register, through a set of selectors (R494, R498). -/
def gateOf (d : Selectors) (a : Nat) : Option Nat :=
  match a / 65536 with
  | 0x10 => some 11
  | 0x11 => some 12
  | 0x12 => some 13
  | 0x20 => some 2
  | 0x32 => some 4
  | 0x40 => if portReg a then some (5 + d.word 0x40001C) else none
  | _ => none

/-- Is a register gated (R415, R498)? -/
def State.gated (s : State) (d : Selectors) (a : Nat) : Bool :=
  match gateOf d a with
  | some i => !(Regs.word s.regs 0x10 0).getLsbD i
  | none => false

/-- Is an address a register's or a reserved offset's (R495)? -/
def addressOk (a : Nat) : Bool := blockMapped a && a % 4 == 0

/-- A register's masks; a reserved offset has none (R496). -/
def descAt (a : Nat) : RegDesc := (regDesc a).getD ⟨a, 0, 0, 0, 0, 0, 0⟩

/-- What a register or selector holds now. -/
def State.held (s : State) (d : Selectors) (a : Nat) : Word :=
  if selectorRegs.contains a then BitVec.ofNat 32 (d.word a) else s.liveWord d a

/-- A masked write's result (R496): the RW bits of the mask are written, and the W1C bits written as 1 are cleared. -/
def mergeWord (x : RegDesc) (old mask value : Word) : Word :=
  let rw := BitVec.ofNat 32 x.rw
  ((old &&& ~~~(mask &&& rw)) ||| (value &&& rw)) &&& ~~~(value &&& BitVec.ofNat 32 x.w1c)

/-- The LK bits of a register, the locked enable bits of SYS.GATE among them (R414, R496). -/
def lockedBits (x : RegDesc) (old : Word) : Word :=
  BitVec.ofNat 32 x.lk ||| (if x.addr = 0x10 then (old >>> 16) &&& 0x7FFF else 0)

/-- Is a block in use, so that its enable bit of SYS.GATE may not be cleared (R416)? -/
def State.inUse (s : State) (i : Nat) : Bool :=
  if i = 3 then !s.srv.loads.isEmpty || !s.mem.cart.spill.isEmpty
  else if i = 4 then !s.vid.contexts.isEmpty
  else if 5 ≤ i ∧ i < 11 then !(s.pathsWhere fun p => p.port == i - 5).isEmpty
  else if 11 ≤ i ∧ i < 14 then (List.range 16).any fun k => (s.slot k).state != .empty
  else false

/-- A code when a condition does not hold. -/
def need (ok : Bool) (c : Code := Code.E_RESERVED) : Option Code := if ok then none else some c

/-- The value rules of a register (R497): the refusal of a write that leaves the word `new`; `value` holds the bits written as
1, WO bits among them. -/
def State.valueRefusal (s : State) (d : Selectors) (a : Nat) (old new value : Word) : Option Code :=
  let g := fun (f : Field) => f.of new
  match a with
  | 0x10 => need (!(List.range 15).any fun i => old.getLsbD i && !new.getLsbD i && s.inUse i) Code.B_RETRY
  | 0x10010 => measRefusal new
  | 0x20014 => s.manualRefusal new
  | 0x30008 => need (decide (g Fld.THM_SEL_HS ≤ 23))
  | 0x40020 => if Fld.BIST_RUN_GO.of value = 1 then s.rawRefusal (g Fld.BIST_RUN_SLICE) (g Fld.BIST_RUN_UNIT) else none
  | 0x200018 => need (g Fld.MEM_PATROL_HOURS != 0)
  | 0x20001C => need (g Fld.MEM_CE_THRESH_THRESH != 0)
  | 0x200020 => need (decide (g Fld.MEM_CE_SEL_CHANNEL ≤ 79))
  | 0x200038 => need (decide (g Fld.MEM_KV_RESERVE_PAGES ≤ s.poolPages))
  | 0x210008 => need (decide (g Fld.XLT_DESC_SEL_OWNER ≤ 4127))
  | 0x220004 => need (decide (g Fld.BANK_SEL_MASTER ≤ 81))
  | 0x300008 => if Fld.SRV_MODE_FIXED.of value = 1 ∧ Fld.SRV_MODE_FIXED.of old = 0 then s.fixedRefusal else none
  | 0x300010 => need (decide (64 ≤ g Fld.SRV_ALLOW_BLOCK ∧ g Fld.SRV_ALLOW_LOW < g Fld.SRV_ALLOW_BLOCK))
  | 0x300014 => need (decide (s.rget Fld.SRV_GUARD_GUARD_US ≤ g Fld.SRV_FRAME_SLOT_US))
  | 0x300018 =>
    need (decide (g Fld.SRV_GUARD_GUARD_US ≤ s.rget Fld.SRV_FRAME_SLOT_US) && s.rget (Fld.PWR_OP_CEIL (g Fld.SRV_GUARD_OP)) == 64)
  | 0x400008 => need (g Fld.NET_UDP_PORT != 0)
  | 0x40000C => need (decide (g Fld.NET_WINDOW_MAX_PAGES ≤ 272 ∧ g Fld.NET_WINDOW_DEFAULT_PAGES ≤ g Fld.NET_WINDOW_MAX_PAGES))
  | 0x400010 => need (decide (g Fld.NET_RTO_MIN_US ≠ 0 ∧ g Fld.NET_RTO_MIN_US ≤ g Fld.NET_RTO_MAX_US))
  | 0x400014 => need (g Fld.NET_PROBE_IDLE_S != 0)
  | 0x40001C => need (decide (g Fld.NET_PSEL_PORT ≤ 5))
  | 0x400024 => need (g Fld.NET_PCFG_VLAN != 4095 && (g Fld.NET_PCFG_MACSEC == 0 || decide (2 ≤ d.word 0x40001C)))
  | 0x40002C => need (decide (g Fld.NET_IPV4_CFG_PREFIX ≤ 32))
  | 0x400044 => need (decide (g Fld.NET_IPV6_CFG_PREFIX ≤ 128))
  | 0x410014 => need (Fld.CONT_CTRL_HANDOVER.of value == 0 || s.rget Fld.CONT_STATUS_STANDBY == 1) Code.B_RETRY
  | 0x410018 => need (g Fld.CONT_HB_PERIOD_MS != 0 && g Fld.CONT_HB_FLUSH_S != 0)
  | 0x510008 => need (g Fld.FWU_CFG_TRIAL_S != 0)
  | 0x510014 => need (decide (1 ≤ g Fld.FWU_VSEL_COMPONENT ∧ g Fld.FWU_VSEL_COMPONENT ≤ 6))
  | _ => none

/-- A masked register write. -/
structure RegWrite where
  addr : Nat
  mask : Word
  value : Word
  deriving DecidableEq, Repr

/-- Steps 4 to 6 of R505: reserved bits, LK bits, value rules. -/
def State.fieldRefusal (s : State) (d : Selectors) (w : RegWrite) : Option Code :=
  let x := descAt w.addr
  let old := s.held d w.addr
  if w.value &&& ~~~(BitVec.ofNat 32 x.named) ≠ 0 then some Code.E_RESERVED
  else if (old ^^^ w.value) &&& w.mask &&& lockedBits x old ≠ 0 then some Code.E_LOCKED
  else s.valueRefusal d w.addr old (mergeWord x old w.mask w.value) w.value

/-- What a write leaves in the registers and the selectors, without the actions that it triggers. -/
def State.plainWrite (s : State) (d : Selectors) (w : RegWrite) : State × Selectors :=
  let new := mergeWord (descAt w.addr) (s.held d w.addr) w.mask w.value
  if selectorRegs.contains w.addr then (s, Dict.store d w.addr new.toNat)
  else if (descAt w.addr).rw + (descAt w.addr).w1c = 0 then (s, d)
  else ({ s with regs := Regs.setWord s.regs w.addr (d.copy w.addr) new }, d)

/-- SYS.GATE takes a new word (R415, R416): an enabled PCIe link powers a cartridge that is present; a gated port has no link. -/
def State.writeGate (s : State) (new : Word) : State :=
  let old := Regs.word s.regs 0x10 0
  let s1 : State := { s with regs := Regs.setWord s.regs 0x10 0 new }
  let s2 := (List.range 6).foldl (fun (s : State) p =>
    if old.getLsbD (5 + p) ∧ !new.getLsbD (5 + p) then (s.rset Fld.NET_PSTAT_LINK 0 p).rset Fld.NET_PSTAT_AN_DONE 0 p else s) s1
  if !old.getLsbD 3 ∧ new.getLsbD 3 ∧ s2.mem.cart.present ∧ !s2.mem.cart.powered then s2.checkCart.showLife else s2

/-- A write with its actions, each at the moment the write is applied (R505). -/
def State.applyWrite (s : State) (d : Selectors) (w : RegWrite) : State × Selectors :=
  let new := mergeWord (descAt w.addr) (s.held d w.addr) w.mask w.value
  let plain := s.plainWrite d w
  let s1 := plain.1
  let on := fun (f : Field) => f.of w.value == 1
  let when_ := fun (b : Bool) (f : State → State) (s : State) => if b then f s else s
  match w.addr with
  | 0x10 => (s.writeGate new, d)
  | 0x10010 => (when_ (on Fld.CLK_MEAS_CFG_START) State.startMeasure s1, d)
  | 0x20014 => (s.writeManual new, d)
  | 0x3002C => (when_ (on Fld.THM_CTRL_CLEAR) State.thmClear s1, d)
  | 0x40020 => (when_ (on Fld.BIST_RUN_GO) (fun s => s.rawGo (Fld.BIST_RUN_SLICE.of new) (Fld.BIST_RUN_UNIT.of new)) s1, d)
  | 0x100024 => (when_ (on Fld.ARR_CTRL_CLEAR) State.arrClear s1, d)
  | 0x110014 => (when_ (on Fld.FEED_CTRL_CLEAR) State.feedClear s1, d)
  | 0x120024 => (when_ (on Fld.TRIM_CTRL_CLEAR) State.trimClear s1, d)
  | 0x200014 => (when_ (on Fld.MEM_CTRL_CLEAR) State.memClear s1, d)
  | 0x21001C => (when_ (on Fld.XLT_CTRL_CLEAR) State.xltClear s1, d)
  | 0x220020 => (when_ (on Fld.BANK_CTRL_CLEAR) State.bankClear s1, d)
  | 0x300008 =>
    let s2 := s.rsetIf (on Fld.SRV_MODE_LEFT) Fld.SRV_MODE_LEFT 0
    (when_ (w.mask.getLsbD 0) (fun s => s.writeFixed (on Fld.SRV_MODE_FIXED)) s2, d)
  | 0x300040 => (when_ (on Fld.SRV_CTRL_CLEAR) State.srvClear s1, d)
  | 0x320028 => (when_ (on Fld.VID_CTRL_CLEAR) State.vidClear s1, d)
  | 0x400004 => (when_ (on Fld.NET_CTRL_APPLY) State.netApply (when_ (on Fld.NET_CTRL_CLEAR) State.netClear s1), d)
  | 0x410014 => (when_ (on Fld.CONT_CTRL_HANDOVER) State.handOver (when_ (on Fld.CONT_CTRL_CLEAR) State.contClear s1), d)
  | _ => plain

/-- A list of writes in order. -/
def State.applyWrites (s : State) (d : Selectors) : List RegWrite → State × Selectors
  | [] => (s, d)
  | w :: ws => let x := s.applyWrite d w; x.1.applyWrites x.2 ws

-- MGMT_READ and MGMT_WRITE.

/-- Answer a management message (R503, R506); a refusal is noted in SYS.MGMT (R511). -/
def State.mgmtReply (s : State) (m : Msg) (type : Nat) (c : Code) (payload : List Byte) : State :=
  let s1 := if c = Code.OK then s else (s.rset Fld.SYS_MGMT_LAST_CODE c.toNat).countHold Fld.SYS_MGMT_REFUSED
  (s1.reply m type c payload).consume m

/-- The selectors under which a MGMT_READ reads, or its refusal (R501, R502 step 5). -/
def State.overrideSel (s : State) (d : Selectors) (p : List Byte) : Except Code Selectors :=
  if u8 p 16 = 0 then .ok d
  else
    let a := u32 p 20
    let v := BitVec.ofNat 32 (u32 p 24)
    if !selectorRegs.contains a then .error Code.E_PARAM
    else match s.fieldRefusal d ⟨a, 0xFFFFFFFF, v⟩ with
      | some c => .error c
      | none => .ok (Dict.store d a v.toNat)

/-- The addresses that a MGMT_READ names. -/
def readRange (p : List Byte) : List Nat := (List.range (u16 p 4)).map fun i => u32 p 0 + 4 * i

/-- The checks of R502 in order: the selectors under which it reads, or the refusal and its index. -/
def State.readCheck (s : State) (x : Session) (p : List Byte) : Except (Code × Nat) Selectors :=
  if !s.roleAllows x.role 0x0300 then .error (Code.E_ROLE, 65535)
  else if p.length ≠ 32 then .error (Code.E_INPUT_SIZE, 65535)
  else if !(allZero p 6 2 && decide (u8 p 16 < 2) && allZero p 17 3 && allZero p 28 4 && (u8 p 16 == 1 || allZero p 20 8)) then
    .error (Code.E_RESERVED, 65535)
  else if !(addressOk (u32 p 0) && decide (1 ≤ u16 p 4 ∧ u16 p 4 ≤ 1024) &&
      (u32 p 0 + 4 * (u16 p 4 - 1)) / 65536 == u32 p 0 / 65536) then .error (Code.E_PARAM, 65535)
  else match s.overrideSel x.selectors p with
    | .error c => .error (c, 65535)
    | .ok d =>
      match (readRange p).findIdx? fun a => s.gated d a with
      | some i => .error (Code.E_GATED, i)
      | none => .ok d

/-- MGMT_READ (R501 to R503, R507, R508). -/
def mgmtRead (m : Msg) (s : State) : State :=
  if s.leftToTwin m then s.consume m
  else match s.session m.session with
    | none => s
    | some x =>
      if x.closing ∨ !s.mayActFor m.session then s
      else
        let head := fun (count index : Nat) => slice m.payload 0 4 ++ leBytes 2 count ++ leBytes 2 index ++ slice m.payload 8 8 ++ zeroBytes 16
        match s.readCheck x m.payload with
        | .error (c, i) => s.mgmtReply m 0x0300 c (head 0 i)
        | .ok d =>
          let r := s.readRegs d x.latches (readRange m.payload)
          let words := (r.1.map fun w => leBytes 4 w.toNat).flatten
          (s.onSession m.session fun x => { x with latches := r.2 }).mgmtReply m 0x0300 Code.OK
            (head r.1.length 65535 ++ words)

def execMgmtRead (m : Msg) (s : State) : Host.Outcome State Fault Refusal := .next (mgmtRead m s)

/-- The entries of a MGMT_WRITE: the write, and whether the reserved field is zero. -/
def writeEntries (p : List Byte) : List (RegWrite × Bool) :=
  (List.range (u16 p 0)).map fun i =>
    let o := 32 + 16 * i
    (⟨u32 p o, BitVec.ofNat 32 (u32 p (o + 4)), BitVec.ofNat 32 (u32 p (o + 8))⟩, allZero p (o + 12) 4)

/-- The checks of R505 on one entry. -/
def State.entryRefusal (s : State) (d : Selectors) (w : RegWrite) (reservedOk : Bool) : Option Code :=
  if !addressOk w.addr ∨ w.value &&& ~~~w.mask ≠ 0 then some Code.E_PARAM
  else if !reservedOk then some Code.E_RESERVED
  else if s.gated d w.addr then some Code.E_GATED
  else if s.twinState ≠ 0 ∧ (descAt w.addr).rw ≠ 0 then some Code.E_ROLE
  else s.fieldRefusal d w

/-- The first entry that fails and its code; each is checked against what the entries before it leave (R497, R505). -/
def State.entriesRefusal (s : State) (d : Selectors) (i : Nat) : List (RegWrite × Bool) → Option (Code × Nat)
  | [] => none
  | (w, ok) :: ws =>
    match s.entryRefusal d w ok with
    | some c => some (c, i)
    | none => let x := s.plainWrite d w; x.1.entriesRefusal x.2 (i + 1) ws

/-- The checks of R504, R505 and R508 in order: the code and the index of the entry. -/
def State.writeCheck (s : State) (x : Session) (p : List Byte) : Option (Code × Nat) :=
  if !s.roleAllows x.role 0x0301 ∨ x.wantsProtected then some (Code.E_ROLE, 65535)
  else if s.sec.switch.isSome then some (Code.B_RETRY, 65535)
  else if p.length < 32 ∨ p.length ≠ 32 + 16 * u16 p 0 then some (Code.E_INPUT_SIZE, 65535)
  else if !(allZero p 2 6 && allZero p 16 16) then some (Code.E_RESERVED, 65535)
  else if u16 p 0 = 0 ∨ 64 < u16 p 0 then some (Code.E_PARAM, 65535)
  else s.entriesRefusal x.selectors 0 (writeEntries p)

/-- MGMT_WRITE (R504 to R509). -/
def mgmtWrite (m : Msg) (s : State) : State :=
  match s.session m.session with
  | none => s
  | some x =>
    if x.closing ∨ !s.mayActFor m.session then s
    else
      let head := fun (applied index : Nat) => leBytes 2 applied ++ leBytes 2 index ++ zeroBytes 4 ++ slice m.payload 8 8 ++ zeroBytes 16
      match s.writeCheck x m.payload with
      | some (c, i) => s.mgmtReply m 0x0301 c (head 0 i)
      | none =>
        let ws := (writeEntries m.payload).map (·.1)
        let r := s.applyWrites x.selectors ws
        let s1 := r.1.onSession m.session fun x => { x with selectors := r.2 }
        let words := ws.map fun w => leBytes 4 (s1.readReg r.2 x.latches w.addr).1.toNat
        s1.mgmtReply m 0x0301 Code.OK (head ws.length 65535 ++ words.flatten)

def execMgmtWrite (m : Msg) (s : State) : Host.Outcome State Fault Refusal := .next (mgmtWrite m s)

/-- The MGMT_WRITE of one whole word of a register (R19, R504). -/
def singleWrite (m : Msg) (addr : Nat) (value : Word) : Msg :=
  { m with payload := leBytes 2 1 ++ zeroBytes 30 ++ leBytes 4 addr ++ leBytes 4 0xFFFFFFFF ++ leBytes 4 value.toNat ++ zeroBytes 4 }

/-- MANUAL_POINT_WRITE (R424): a partner's MGMT_WRITE of PWR.MANUAL, so its session's role must permit it (R28). -/
def execManualPointWrite (m : Msg) (value : Word) (s : State) : Host.Outcome State Fault Refusal :=
  .next (mgmtWrite (singleWrite m Fld.PWR_MANUAL_EN.addr value) s)

/-- The word of BIST.RUN that starts a slice on a unit (R465, R466). -/
def rawWord (slice unit : Nat) : Word :=
  Fld.BIST_RUN_GO.put (Fld.BIST_RUN_UNIT.put (Fld.BIST_RUN_SLICE.put 0 slice) unit) 1

/-- RAW_SLICE_GO (R465): a partner's MGMT_WRITE of BIST.RUN with GO, so its session's role must permit it (R28). -/
def execRawSliceGo (m : Msg) (slice unit : Nat) (s : State) : Host.Outcome State Fault Refusal :=
  .next (mgmtWrite (singleWrite m Fld.BIST_RUN_GO.addr (rawWord slice unit)) s)

-- Writes of SYS.GATE and the CLEAR fields as commands of their own.

/-- GATE_WRITE (R413 to R416): a write that R496, R414 or R416 refuses changes nothing. -/
def gateWrite (mask value : Word) (s : State) : State :=
  let w : RegWrite := ⟨0x10, mask, value &&& mask⟩
  if (s.fieldRefusal [] w).isSome then s else (s.applyWrite [] w).1

def execGateWrite (mask value : Word) (s : State) : Host.Outcome State Fault Refusal := .next (gateWrite mask value s)

/-- A CLEAR, unless its block is gated (R415). -/
def State.clearUnlessGated (s : State) (a : Nat) (f : State → State) : State := if s.gated [] a then s else f s

/-- ARR_COUNTER_CLEAR (R93). -/
def execArrCounterClear (s : State) : Host.Outcome State Fault Refusal := .next (s.clearUnlessGated 0x100024 State.arrClear)
/-- FEED_COUNTER_CLEAR (R113). -/
def execFeedCounterClear (s : State) : Host.Outcome State Fault Refusal := .next (s.clearUnlessGated 0x110014 State.feedClear)
/-- TRIM_COUNTER_CLEAR (R147). -/
def execTrimCounterClear (s : State) : Host.Outcome State Fault Refusal := .next (s.clearUnlessGated 0x120024 State.trimClear)
/-- MEM_COUNTER_CLEAR (R212). -/
def execMemCounterClear (s : State) : Host.Outcome State Fault Refusal := .next (s.clearUnlessGated 0x200014 State.memClear)
/-- XLT_COUNTER_CLEAR (R213). -/
def execXltCounterClear (s : State) : Host.Outcome State Fault Refusal := .next s.xltClear
/-- BANK_COUNTER_CLEAR (R214). -/
def execBankCounterClear (s : State) : Host.Outcome State Fault Refusal := .next s.bankClear
/-- SRV_COUNTER_CLEAR (R256). -/
def execSrvCounterClear (s : State) : Host.Outcome State Fault Refusal := .next s.srvClear
/-- VID_COUNTER_CLEAR (R302). -/
def execVidCounterClear (s : State) : Host.Outcome State Fault Refusal := .next (s.clearUnlessGated 0x320028 State.vidClear)
/-- CONT_COUNTER_CLEAR (R365). -/
def execContCounterClear (s : State) : Host.Outcome State Fault Refusal := .next s.contClear
/-- THM_COUNTER_CLEAR (R452). -/
def execThmCounterClear (s : State) : Host.Outcome State Fault Refusal := .next s.thmClear

end Sys2Proof.Machine
end

