-- ==== Sys2Proof/Machine/ConfigCmds.lean ====
section
/-! DEFINITION. ConfigCmds.lean: CONFIG_STAGE, CONFIG_ACTIVATE and HEARTBEAT (R360 to R363, R510), and the two commands at whose batch
boundary a configuration is activated. -/

namespace Sys2Proof.Machine

-- Staging (R360).

/-- The register writes of a payload. -/
def configWrites (p : List Byte) : List RegWrite :=
  (List.range (u16 p 8)).map fun i => ⟨u32 p (1600 + 8 * i), 0xFFFFFFFF, BitVec.ofNat 32 (u32 p (1604 + 8 * i))⟩

/-- The pair table of a payload. -/
def configPairs (p : List Byte) : List Nat := (List.range 32).map fun i => u8 p (16 + i)

/-- The identities of a payload. -/
def configIdentities (p : List Byte) : List (List Byte) := (List.range 32).map fun i => slice p (64 + 48 * i) 48

/-- Is a pair table symmetric, with no slot its own twin and no empty slot paired? -/
def pairsOk (pairs : List Nat) (ids : List (List Byte)) : Bool :=
  (List.range 32).all fun k =>
    let t := listAt 255 pairs k
    t == 255 || (decide (t < 32) && t != k && listAt 255 pairs t == k && listAt [] ids k != zeroBytes 48)

/-- The checks of R510 on one write: a mapped register with an RW field (R360), then steps 4 to 6 of R505. -/
def State.configRefusal (s : State) (d : Selectors) (w : RegWrite) : Option Code :=
  if !addressOk w.addr ∨ (descAt w.addr).rw = 0 then some Code.E_PARAM else s.fieldRefusal d w

/-- The first refusal of a list of writes; each is checked against what the writes before it leave. -/
def State.configWritesRefusal (s : State) (d : Selectors) : List RegWrite → Option Code
  | [] => none
  | w :: ws =>
    match s.configRefusal d w with
    | some c => some c
    | none => let x := s.plainWrite d w; x.1.configWritesRefusal x.2 ws

/-- The refusal of a CONFIG_STAGE payload. -/
def State.stageRefusal (s : State) (p : List Byte) : Option Code :=
  if !(allZero p 10 6 && allZero p 48 16) then some Code.E_RESERVED
  else if u64 p 0 ≤ s.cont.config.epoch ∨ 1024 < u16 p 8 ∨ !pairsOk (configPairs p) (configIdentities p) then some Code.E_PARAM
  else s.configWritesRefusal [] (configWrites p)

/-- The payload of a CONFIG_STAGE or CONFIG_ACTIVATE reply. -/
def configReply (epoch : Nat) (digest : List Byte) : List Byte := leBytes 8 epoch ++ zeroBytes 8 ++ digest

/-- CONFIG_STAGE (R360): an accepted payload replaces any staged one. -/
def configStage (m : Msg) (s : State) : State :=
  if !s.mayActFor m.session then s
  else s.withMsg m 0x0410 none fun s _ =>
    let p := m.payload
    if p.length < 1600 ∨ p.length ≠ 1600 + 8 * u16 p 8 then s.reply m 0x0410 Code.E_INPUT_SIZE
    else match s.stageRefusal p with
      | some c => s.reply m 0x0410 c
      | none =>
        let h := sha384 p
        let x : StagedConfig := { epoch := u64 p 0, payload := h, pairs := configPairs p, identities := configIdentities p,
                                  writes := (configWrites p).map fun w => (w.addr, w.value.toNat) }
        ({ s with cont := { s.cont with staged := some x } } : State).reply m 0x0410 Code.OK
          (configReply x.epoch (s.configDigestOf x.epoch h))

def execConfigStage (m : Msg) (s : State) : Host.Outcome State Fault Refusal := .next (configStage m s)

-- Activation (R362).

/-- The role of this module in the pair that a new pair table names (R351, R355; log entry 29): the holder stays the holder, a follower
of the same twin stays one; otherwise the module in the lower slot is the preferred holder and the other one joins. -/
def State.pairRole (s : State) (twin : Option Nat) : Nat :=
  match twin, s.mySlot with
  | some t, some k =>
    if s.twinState = 1 ∨ s.twinState = 3 then 1
    else if s.twinSlot = some t ∧ s.twinState ≠ 0 then s.twinState
    else if k < t then 1 else 4
  | _, _ => 0

/-- A follower whose pair is dissolved drops its protected sessions and their work: they stay on the holder (R362). -/
def State.dropProtected (s : State) : State :=
  let l := (s.net.sessions.filter fun x => x.2.wantsProtected).map (·.2.number)
  l.foldl (fun (s : State) n => (s.endSessionWork n).dropSession n) s

/-- The new pairs take effect: a new twin is healthy once it has joined (R355). -/
def State.takePairs (s : State) (x : StagedConfig) : State :=
  let twin := s.mySlot.bind (pairOf x.pairs)
  let same : Bool := twin == s.twinSlot && twin.isSome
  let role := s.pairRole twin
  let s0 := if role = 0 ∧ (s.twinState = 2 ∨ s.twinState = 4) then s.dropProtected else s
  let t : TwinState := if same then s0.cont.twin else { renewals := s0.cont.twin.renewals }
  let c : ContState := { s0.cont with twin := t, twinHealthy := s0.cont.twinHealthy && same,
                                      config := { s0.cont.config with pairs := x.pairs, identities := x.identities } }
  let lost : Bool := same && s.twinState == 3
  ({ s0 with cont := c } : State).rset Fld.CONT_STATUS_TWIN (if lost then 3 else role)

/-- A staged configuration takes effect: the writes in order, the new pairs. -/
def State.applyConfig (s : State) (x : StagedConfig) : State :=
  let r := s.applyWrites [] (x.writes.map fun w => ⟨w.1, 0xFFFFFFFF, BitVec.ofNat 32 w.2⟩)
  let s2 := r.1.takePairs x
  let cfg : ActiveConfig := { s2.cont.config with epoch := x.epoch, payload := x.payload }
  { s2 with cont := { s2.cont with config := cfg, configSelectors := r.2, staged := none, activating := none } }

/-- At a batch boundary, a CONFIG_ACTIVATE that waits is carried out, after its CONFIG record, and answered. -/
def State.configBoundary (s : State) : State :=
  match s.cont.activating, s.cont.staged with
  | some r, some x =>
    if s.srv.batch.isSome ∨ !s.mayAct then s
    else
      let record := s.cont.nextIndex
      let s1 := (s.journal 0 0 (.config x.epoch x.payload)).applyConfig x
      s1.replyTo r 0x0411 Code.OK (configReply x.epoch s1.configDigest) [record]
  | _, _ => s

/-- CONFIG_ACTIVATE (R362): a follower, and a module that updates its firmware, answer B_RETRY (R405). -/
def configActivate (m : Msg) (s : State) : State :=
  if !s.mayActFor m.session then s
  else s.withMsg m 0x0411 (some 32) fun s _ =>
    let p := m.payload
    if !allZero p 8 24 then s.reply m 0x0411 Code.E_RESERVED
    else match s.cont.staged with
      | none => s.reply m 0x0411 Code.E_PARAM
      | some x =>
        if u64 p 0 ≠ x.epoch then s.reply m 0x0411 Code.E_PARAM
        else if s.twinState = 2 ∨ s.twinState = 4 ∨ 3 ≤ s.fwuState ∨ s.cont.activating.isSome then s.reply m 0x0411 Code.B_RETRY
        else ({ s with cont := { s.cont with activating := some ⟨m.session, m.number, m.tag⟩ } } : State).configBoundary

def execConfigActivate (m : Msg) (s : State) : Host.Outcome State Fault Refusal := .next (configActivate m s)

/-- COAT_COMPLETE (R82, R135): the coat's effects become visible; the end of the batch is a batch boundary. -/
def execCoatComplete (coat : Nat) (s : State) : Host.Outcome State Fault Refusal := .next (coatComplete coat s).configBoundary

/-- BATCH_START (R234, R245, R246), at a batch boundary. -/
def execBatchStart (s : State) : Host.Outcome State Fault Refusal := .next (batchStart s.configBoundary)

-- HEARTBEAT (R363).

/-- A HEARTBEAT payload. -/
def State.heartbeatPayload (s : State) : List Byte :=
  leBytes 8 s.cont.config.epoch ++ s.configDigest ++ leBytes 1 s.stateByte ++ leBytes 1 s.health ++ zeroBytes 2 ++
    leBytes 4 s.boot.slowMs ++ leBytes 8 s.cont.rackStamp ++ leBytes 8 s.durableIndex ++ zeroBytes 16

/-- HEARTBEAT: every CONT.HB.PERIOD_MS milliseconds, on the rack controller's session. -/
def heartbeat (s : State) : State :=
  if !s.supActs then s else s.pushOwnAll (s.sessionsOfRole (· == 4)) 0x0412 Code.OK s.heartbeatPayload

def execHeartbeat (s : State) : Host.Outcome State Fault Refusal := .next (heartbeat s)

end Sys2Proof.Machine
end

