-- ==== Sys2Proof/Machine/TrimMem.lean ====
section
/-! DEFINITION. TrimMem.lean: the loads and stores of a trim core (R118, R119, R125; log entry 23: which elements a predicate bit of
a vector load or store governs). -/

namespace Sys2Proof.Machine

-- Scalar loads and stores.

/-- A scalar load of n bytes, sign-extended (R119, R125). -/
def State.load (s : State) (c : CoreId) (sd sa : SReg) (imm : Imm13) (n : Nat) : State :=
  s.issue c fun t x =>
    let a := x.addr sa imm 1
    if a % n ≠ 0 then t.kernelFault .align c.toNat x.pc.toNat
    else if !t.coreReads c.toNat a n then t.kernelFault .window c.toNat x.pc.toNat
    else t.onCore c.toNat fun y => y.ws sd (BitVec.ofInt 64 (sInt (8 * n) (leNat (t.coreBytes c.toNat a n))))

/-- A scalar store of the low n bytes of sd. -/
def State.store (s : State) (c : CoreId) (sd sa : SReg) (imm : Imm13) (n : Nat) : State :=
  s.issue c fun t x =>
    let a := x.addr sa imm 1
    if a % n ≠ 0 then t.kernelFault .align c.toNat x.pc.toNat
    else if !t.coreWrites c.toNat a n then t.kernelFault .window c.toNat x.pc.toNat
    else t.coreStore c.toNat a (leBytes n (x.rs sd).toNat)

/-- LB (R125): load 1 byte, sign-extended. -/
def execLb (core : CoreId) (sd sa : SReg) (imm : Imm13) (s : State) : Host.Outcome State Fault Refusal :=
  .next (s.load core sd sa imm 1)
/-- LH (R125): load 2 bytes, sign-extended. -/
def execLh (core : CoreId) (sd sa : SReg) (imm : Imm13) (s : State) : Host.Outcome State Fault Refusal :=
  .next (s.load core sd sa imm 2)
/-- LW (R125): load 4 bytes, sign-extended. -/
def execLw (core : CoreId) (sd sa : SReg) (imm : Imm13) (s : State) : Host.Outcome State Fault Refusal :=
  .next (s.load core sd sa imm 4)
/-- LD (R125): load 8 bytes. -/
def execLd (core : CoreId) (sd sa : SReg) (imm : Imm13) (s : State) : Host.Outcome State Fault Refusal :=
  .next (s.load core sd sa imm 8)
/-- SB (R125): store the low byte of sd. -/
def execSb (core : CoreId) (sd sa : SReg) (imm : Imm13) (s : State) : Host.Outcome State Fault Refusal :=
  .next (s.store core sd sa imm 1)
/-- SH (R125): store the low 2 bytes of sd. -/
def execSh (core : CoreId) (sd sa : SReg) (imm : Imm13) (s : State) : Host.Outcome State Fault Refusal :=
  .next (s.store core sd sa imm 2)
/-- SW (R125): store the low 4 bytes of sd. -/
def execSw (core : CoreId) (sd sa : SReg) (imm : Imm13) (s : State) : Host.Outcome State Fault Refusal :=
  .next (s.store core sd sa imm 4)
/-- SD (R125): store the 8 bytes of sd. -/
def execSd (core : CoreId) (sd sa : SReg) (imm : Imm13) (s : State) : Host.Outcome State Fault Refusal :=
  .next (s.store core sd sa imm 8)

-- Vector loads and stores.

/-- The bytes of a 64-byte access that a predicate enables. -/
def enabledBytes (p : BitVec 64) : List Nat := (List.range 64).filter fun i => p.getLsbD i

/-- VLD (R119, R125): 64 bytes, 64-byte aligned; a disabled byte is not read and keeps its value. -/
def vldEffect (c : CoreId) (vd : VReg) (sa : SReg) (p : PReg) (imm : Imm13) (s : State) : State :=
  s.issue c fun t x =>
    let a := x.addr sa imm 64
    let on := enabledBytes (x.rp p)
    if a % 64 ≠ 0 then t.kernelFault .align c.toNat x.pc.toNat
    else if !on.all (fun i => t.coreReads c.toNat (a + i) 1) then t.kernelFault .window c.toNat x.pc.toNat
    else
      let bytes := t.coreBytes c.toNat a 64
      t.onCore c.toNat fun y => y.wv vd (predLanes 8 (x.rp p) (x.rv vd) fun i => ((listAt 0 bytes i).toNat, 0)).1

def execVld (core : CoreId) (vd : VReg) (sa : SReg) (p : PReg) (imm : Imm13) (s : State) : Host.Outcome State Fault Refusal :=
  .next (vldEffect core vd sa p imm s)

/-- VST (R119, R125): the enabled bytes of vd. -/
def vstEffect (c : CoreId) (vd : VReg) (sa : SReg) (p : PReg) (imm : Imm13) (s : State) : State :=
  s.issue c fun t x =>
    let a := x.addr sa imm 64
    let on := enabledBytes (x.rp p)
    if a % 64 ≠ 0 then t.kernelFault .align c.toNat x.pc.toNat
    else if !on.all (fun i => t.coreWrites c.toNat (a + i) 1) then t.kernelFault .window c.toNat x.pc.toNat
    else on.foldl (fun (t : State) (i : Nat) => t.coreStore c.toNat (a + i) (leBytes 1 (laneOf 8 (x.rv vd) i))) t

def execVst (core : CoreId) (vd : VReg) (sa : SReg) (p : PReg) (imm : Imm13) (s : State) : Host.Outcome State Fault Refusal :=
  .next (vstEffect core vd sa p imm s)

/-- The register after vd. -/
def nextV (v : VReg) : VReg := v + 1

/-- VLQ8 and VLQ4 (R125): one QB block at any byte address, exactly, as FP32 to vd and vd + 1. -/
def State.loadBlock (s : State) (c : CoreId) (vd : VReg) (sa : SReg) (p : PReg) (imm : Imm13) (f : Format) : State :=
  s.issue c fun t x =>
    let a := x.addr sa imm 1
    let n := f.rowBytes 32
    let pr := x.rp p
    if natBits pr.toNat 0 16 = 0 then t
    else if !t.coreReads c.toNat a n then t.kernelFault .window c.toNat x.pc.toNat
    else
      let bytes := t.coreBytes c.toNat a n
      let ok := qbExpOk (listAt 0 bytes 0)
      let lane := fun (i : Nat) => if ok then fp32.pack (rowVal f 0 32 bytes i) else fp32.nanBits
      let lo := (predLanes 32 pr (x.rv vd) fun i => (lane i, 0)).1
      let hi := (predLanes 32 pr (x.rv (nextV vd)) fun i => (lane (16 + i), 0)).1
      t.onCore c.toNat fun y => ((y.wv vd lo).wv (nextV vd) hi).raise (flagIf (!ok) NumFlags.INVALID)

def execVlq8 (core : CoreId) (vd : VReg) (sa : SReg) (p : PReg) (imm : Imm13) (s : State) : Host.Outcome State Fault Refusal :=
  .next (s.loadBlock core vd sa p imm .qb8)
def execVlq4 (core : CoreId) (vd : VReg) (sa : SReg) (p : PReg) (imm : Imm13) (s : State) : Host.Outcome State Fault Refusal :=
  .next (s.loadBlock core vd sa p imm .qb4)

/-- VSQ8 and VSQ4 (R39, R125): the 32 FP32 lanes of vd and vd + 1 quantised and stored as a block; a disabled lane enters as +0. -/
def State.storeBlock (s : State) (c : CoreId) (vd : VReg) (sa : SReg) (p : PReg) (imm : Imm13) (f : Format) : State :=
  s.issue c fun t x =>
    let a := x.addr sa imm 1
    let pr := x.rp p
    if !t.coreWrites c.toNat a (f.rowBytes 32) then t.kernelFault .window c.toNat x.pc.toNat
    else
      let vs := (List.range 32).map fun i =>
        if pr.getLsbD (i % 16) then fp32.val (laneOf 32 (x.rv (if i < 16 then vd else nextV vd)) (i % 16))
        else FpVal.fin false 0 0
      let r := packQB f vs
      (t.coreStore c.toNat a r.1).onCore c.toNat fun y => y.raise r.2

def execVsq8 (core : CoreId) (vd : VReg) (sa : SReg) (p : PReg) (imm : Imm13) (s : State) : Host.Outcome State Fault Refusal :=
  .next (s.storeBlock core vd sa p imm .qb8)
def execVsq4 (core : CoreId) (vd : VReg) (sa : SReg) (p : PReg) (imm : Imm13) (s : State) : Host.Outcome State Fault Refusal :=
  .next (s.storeBlock core vd sa p imm .qb4)

end Sys2Proof.Machine
end

