-- ==== Sys2Proof/Machine/TrimScalar.lean ====
section
/-! DEFINITION. TrimScalar.lean: the scalar integer, scalar FP32 and branch instructions, DRAW and FLAGS (R124, R129, R131,
R132). -/

namespace Sys2Proof.Machine

/-- An instruction sd = f sa sb. -/
def State.scalar (s : State) (c : CoreId) (sd sa sb : SReg) (f : BitVec 64 → BitVec 64 → BitVec 64) : State :=
  s.onRegs c fun x => x.ws sd (f (x.rs sa) (x.rs sb))

/-- An instruction sd = f sa with an immediate of its own. -/
def State.scalarImm (s : State) (c : CoreId) (sd sa : SReg) (f : BitVec 64 → BitVec 64) : State :=
  s.onRegs c fun x => x.ws sd (f (x.rs sa))

/-- A truth value as 1 or 0. -/
def bit64 (b : Bool) : BitVec 64 := if b then 1 else 0

/-- Truncating division (R124). -/
def divS (a b : BitVec 64) : BitVec 64 := if b = 0 then BitVec.allOnes 64 else BitVec.ofInt 64 (Int.tdiv a.toInt b.toInt)
/-- Unsigned division. -/
def divU (a b : BitVec 64) : BitVec 64 := if b = 0 then BitVec.allOnes 64 else a / b
/-- The remainder of truncating division. -/
def remS (a b : BitVec 64) : BitVec 64 := if b = 0 then a else BitVec.ofInt 64 (Int.tmod a.toInt b.toInt)
/-- The unsigned remainder. -/
def remU (a b : BitVec 64) : BitVec 64 := if b = 0 then a else a % b

/-- Bits [31:0] of a register, as an FP32 pattern (R124). -/
def low32 (v : BitVec 64) : Nat := v.toNat % 2 ^ 32

/-- A scalar FP32 instruction: the result in bits [31:0] of sd and zero above, and its flags (R124, R132). -/
def State.scalarFp (s : State) (c : CoreId) (sd : SReg) (f : Core → Nat × NumFlags) : State :=
  s.onRegs c fun x => (x.ws sd (BitVec.ofNat 64 (f x).1)).raise (f x).2

/-- A shift of SHI (R124): imm16[7:6] names it and imm16[5:0] counts. -/
def shiftImm (imm : Imm16) (a : BitVec 64) : BitVec 64 :=
  let n := natBits imm.toNat 0 6
  match natBits imm.toNat 6 2 with
  | 0 => a <<< n
  | 1 => a >>> n
  | _ => a.sshiftRight n

/-- Go to an address: one outside the code region faults with WINDOW (R123). `pc` is the branch's own address. -/
def State.jumpTo (s : State) (c : CoreId) (pc target : Nat) : State :=
  if inCode target then s.onCore c.toNat fun x => { x with pc := BitVec.ofNat 32 target }
  else s.kernelFault .window c.toNat pc

/-- The target of a branch: 4 × offset16 from the branch itself (R121); one that would be negative lies outside every region. -/
def branchTarget (pc : BitVec 32) (off : Imm16) : Nat :=
  let t : Int := (pc.toNat : Int) + 4 * off.toInt
  if t < 0 then 2 ^ 32 else t.toNat

/-- A branch taken where a comparison of sa with sb holds (R129). -/
def State.branch (s : State) (c : CoreId) (sa sb : SReg) (off : Imm16) (p : BitVec 64 → BitVec 64 → Bool) : State :=
  s.issue c fun t x => if p (x.rs sa) (x.rs sb) then t.jumpTo c x.pc.toNat (branchTarget x.pc off) else t

/-- draw of R131. -/
def drawFn (seed ctr : BitVec 64) : BitVec 64 :=
  let z0 := seed + ctr * 0x9E3779B97F4A7C15
  let z1 := (z0 ^^^ (z0 >>> 30)) * 0xBF58476D1CE4E5B9
  let z2 := (z1 ^^^ (z1 >>> 27)) * 0x94D049BB133111EB
  z2 ^^^ (z2 >>> 31)

/-- ADD (R124): sd = sa + sb, modulo 2^64. -/
def execAdd (core : CoreId) (sd sa sb : SReg) (s : State) : Host.Outcome State Fault Refusal :=
  .next (s.scalar core sd sa sb fun a b => a + b)

/-- SUB (R124): sd = sa − sb, modulo 2^64. -/
def execSub (core : CoreId) (sd sa sb : SReg) (s : State) : Host.Outcome State Fault Refusal :=
  .next (s.scalar core sd sa sb fun a b => a - b)

/-- AND (R124): sd = sa AND sb. -/
def execAnd (core : CoreId) (sd sa sb : SReg) (s : State) : Host.Outcome State Fault Refusal :=
  .next (s.scalar core sd sa sb fun a b => a &&& b)

/-- OR (R124): sd = sa OR sb. -/
def execOr (core : CoreId) (sd sa sb : SReg) (s : State) : Host.Outcome State Fault Refusal :=
  .next (s.scalar core sd sa sb fun a b => a ||| b)

/-- XOR (R124): sd = sa XOR sb. -/
def execXor (core : CoreId) (sd sa sb : SReg) (s : State) : Host.Outcome State Fault Refusal :=
  .next (s.scalar core sd sa sb fun a b => a ^^^ b)

/-- SLL (R124): sa shifted left by sb[5:0]. -/
def execSll (core : CoreId) (sd sa sb : SReg) (s : State) : Host.Outcome State Fault Refusal :=
  .next (s.scalar core sd sa sb fun a b => a <<< (b.toNat % 64))

/-- SRL (R124): sa shifted right by sb[5:0], zeros in. -/
def execSrl (core : CoreId) (sd sa sb : SReg) (s : State) : Host.Outcome State Fault Refusal :=
  .next (s.scalar core sd sa sb fun a b => a >>> (b.toNat % 64))

/-- SRA (R124): sa shifted right by sb[5:0], sign in. -/
def execSra (core : CoreId) (sd sa sb : SReg) (s : State) : Host.Outcome State Fault Refusal :=
  .next (s.scalar core sd sa sb fun a b => a.sshiftRight (b.toNat % 64))

/-- MUL (R124): the low 64 bits of the product. -/
def execMul (core : CoreId) (sd sa sb : SReg) (s : State) : Host.Outcome State Fault Refusal :=
  .next (s.scalar core sd sa sb fun a b => a * b)

/-- MULH (R124): the high 64 bits of the signed product. -/
def execMulh (core : CoreId) (sd sa sb : SReg) (s : State) : Host.Outcome State Fault Refusal :=
  .next (s.scalar core sd sa sb fun a b => BitVec.ofInt 64 (a.toInt * b.toInt / (2 ^ 64 : Int)))

/-- MULHU (R124): the high 64 bits of the unsigned product. -/
def execMulhu (core : CoreId) (sd sa sb : SReg) (s : State) : Host.Outcome State Fault Refusal :=
  .next (s.scalar core sd sa sb fun a b => BitVec.ofNat 64 (a.toNat * b.toNat / 2 ^ 64))

/-- DIV (R124): truncating signed division; by zero, all ones. -/
def execDiv (core : CoreId) (sd sa sb : SReg) (s : State) : Host.Outcome State Fault Refusal :=
  .next (s.scalar core sd sa sb fun a b => divS a b)

/-- DIVU (R124): unsigned division; by zero, all ones. -/
def execDivu (core : CoreId) (sd sa sb : SReg) (s : State) : Host.Outcome State Fault Refusal :=
  .next (s.scalar core sd sa sb fun a b => divU a b)

/-- REM (R124): signed remainder; by zero, sa. -/
def execRem (core : CoreId) (sd sa sb : SReg) (s : State) : Host.Outcome State Fault Refusal :=
  .next (s.scalar core sd sa sb fun a b => remS a b)

/-- REMU (R124): unsigned remainder; by zero, sa. -/
def execRemu (core : CoreId) (sd sa sb : SReg) (s : State) : Host.Outcome State Fault Refusal :=
  .next (s.scalar core sd sa sb fun a b => remU a b)

/-- SLT (R124): 1 if sa < sb, signed. -/
def execSlt (core : CoreId) (sd sa sb : SReg) (s : State) : Host.Outcome State Fault Refusal :=
  .next (s.scalar core sd sa sb fun a b => bit64 (a.slt b))

/-- SLTU (R124): 1 if sa < sb, unsigned. -/
def execSltu (core : CoreId) (sd sa sb : SReg) (s : State) : Host.Outcome State Fault Refusal :=
  .next (s.scalar core sd sa sb fun a b => bit64 (a.ult b))

/-- MIN (R124): the signed minimum. -/
def execMin (core : CoreId) (sd sa sb : SReg) (s : State) : Host.Outcome State Fault Refusal :=
  .next (s.scalar core sd sa sb fun a b => if a.slt b then a else b)

/-- MAX (R124): the signed maximum. -/
def execMax (core : CoreId) (sd sa sb : SReg) (s : State) : Host.Outcome State Fault Refusal :=
  .next (s.scalar core sd sa sb fun a b => if a.slt b then b else a)

/-- ADDI (R124): sa plus the sign-extended immediate. -/
def execAddi (core : CoreId) (sd sa : SReg) (imm : Imm16) (s : State) : Host.Outcome State Fault Refusal :=
  .next (s.scalarImm core sd sa fun a => a + imm.signExtend 64)

/-- ANDI (R124): sa AND the zero-extended immediate. -/
def execAndi (core : CoreId) (sd sa : SReg) (imm : Imm16) (s : State) : Host.Outcome State Fault Refusal :=
  .next (s.scalarImm core sd sa fun a => a &&& imm.setWidth 64)

/-- ORI (R124): sa OR the zero-extended immediate. -/
def execOri (core : CoreId) (sd sa : SReg) (imm : Imm16) (s : State) : Host.Outcome State Fault Refusal :=
  .next (s.scalarImm core sd sa fun a => a ||| imm.setWidth 64)

/-- XORI (R124): sa XOR the zero-extended immediate. -/
def execXori (core : CoreId) (sd sa : SReg) (imm : Imm16) (s : State) : Host.Outcome State Fault Refusal :=
  .next (s.scalarImm core sd sa fun a => a ^^^ imm.setWidth 64)

/-- SHI (R124): sa shifted as the immediate names. -/
def execShi (core : CoreId) (sd sa : SReg) (imm : Imm16) (s : State) : Host.Outcome State Fault Refusal :=
  .next (s.scalarImm core sd sa fun a => shiftImm imm a)

/-- SLTI (R124): 1 if sa is below the sign-extended immediate, signed. -/
def execSlti (core : CoreId) (sd sa : SReg) (imm : Imm16) (s : State) : Host.Outcome State Fault Refusal :=
  .next (s.scalarImm core sd sa fun a => bit64 (a.slt (imm.signExtend 64)))

/-- LUI (R124): the sign-extended immediate shifted left by 16. -/
def execLui (core : CoreId) (sd : SReg) (imm : Imm16) (s : State) : Host.Outcome State Fault Refusal :=
  .next (s.onRegs core fun x => x.ws sd (imm.signExtend 64 <<< 16))

/-- FADD (R124): sa + sb, correctly rounded. -/
def execFadd (core : CoreId) (sd sa sb : SReg) (s : State) : Host.Outcome State Fault Refusal :=
  .next (s.scalarFp core sd fun x => fpAdd fp32 (low32 (x.rs sa)) (low32 (x.rs sb)))

/-- FSUB (R124): sa − sb, correctly rounded. -/
def execFsub (core : CoreId) (sd sa sb : SReg) (s : State) : Host.Outcome State Fault Refusal :=
  .next (s.scalarFp core sd fun x => fpSub fp32 (low32 (x.rs sa)) (low32 (x.rs sb)))

/-- FMUL (R124): sa × sb, correctly rounded. -/
def execFmul (core : CoreId) (sd sa sb : SReg) (s : State) : Host.Outcome State Fault Refusal :=
  .next (s.scalarFp core sd fun x => fpMul fp32 (low32 (x.rs sa)) (low32 (x.rs sb)))

/-- FDIV (R124): sa / sb, correctly rounded. -/
def execFdiv (core : CoreId) (sd sa sb : SReg) (s : State) : Host.Outcome State Fault Refusal :=
  .next (s.scalarFp core sd fun x => fpDiv fp32 (low32 (x.rs sa)) (low32 (x.rs sb)))

/-- FSQRT (R124): the square root of sa, correctly rounded. -/
def execFsqrt (core : CoreId) (sd sa : SReg) (s : State) : Host.Outcome State Fault Refusal :=
  .next (s.scalarFp core sd fun x => fpSqrt fp32 (low32 (x.rs sa)))

/-- FFMA (R124): sd + sa × sb, rounded once. -/
def execFfma (core : CoreId) (sd sa sb : SReg) (s : State) : Host.Outcome State Fault Refusal :=
  .next (s.scalarFp core sd fun x => fpFma fp32 (low32 (x.rs sa)) (low32 (x.rs sb)) (low32 (x.rs sd)))

/-- FMIN (R124): a NaN operand gives the canonical NaN; −0 is below +0. -/
def execFmin (core : CoreId) (sd sa sb : SReg) (s : State) : Host.Outcome State Fault Refusal :=
  .next (s.scalarFp core sd fun x => fpPick fp32 false (low32 (x.rs sa)) (low32 (x.rs sb)))

/-- FMAX (R124): a NaN operand gives the canonical NaN; −0 is below +0. -/
def execFmax (core : CoreId) (sd sa sb : SReg) (s : State) : Host.Outcome State Fault Refusal :=
  .next (s.scalarFp core sd fun x => fpPick fp32 true (low32 (x.rs sa)) (low32 (x.rs sb)))

/-- FEQ (R124): 1 or 0; any NaN gives 0. As FLT and FLE it raises no INVALID or INF for a NaN or infinite operand, which R52 could be
read to ask (DESIGN CHOICE, log entry 40). -/
def execFeq (core : CoreId) (sd sa sb : SReg) (s : State) : Host.Outcome State Fault Refusal :=
  .next (s.scalar core sd sa sb fun u v =>
    let a := fp32.val (low32 u)
    let b := fp32.val (low32 v)
    bit64 (fpEq a b))

/-- FLT (R124): 1 or 0; any NaN gives 0. -/
def execFlt (core : CoreId) (sd sa sb : SReg) (s : State) : Host.Outcome State Fault Refusal :=
  .next (s.scalar core sd sa sb fun u v =>
    let a := fp32.val (low32 u)
    let b := fp32.val (low32 v)
    bit64 (fpLt a b))

/-- FLE (R124): 1 or 0; any NaN gives 0. -/
def execFle (core : CoreId) (sd sa sb : SReg) (s : State) : Host.Outcome State Fault Refusal :=
  .next (s.scalar core sd sa sb fun u v =>
    let a := fp32.val (low32 u)
    let b := fp32.val (low32 v)
    bit64 (fpLt a b || fpEq a b))

/-- FCVTWS (R124): FP32 to INT32, to nearest even, saturated with OUT_SAT; NaN gives 0 and sets INVALID. -/
def execFcvtws (core : CoreId) (sd sa : SReg) (s : State) : Host.Outcome State Fault Refusal :=
  .next (s.scalarFp core sd fun x => fpToLane 32 (fp32.val (low32 (x.rs sa))))

/-- FCVTSW (R124): INT32 to FP32, to nearest even. -/
def execFcvtsw (core : CoreId) (sd sa : SReg) (s : State) : Host.Outcome State Fault Refusal :=
  .next (s.scalarFp core sd fun x => (fp32.pack (intVal (sInt 32 (low32 (x.rs sa))) 0), 0))

/-- BEQ (R129): branch if sa = sb. -/
def execBeq (core : CoreId) (sa sb : SReg) (off : Imm16) (s : State) : Host.Outcome State Fault Refusal :=
  .next (s.branch core sa sb off fun a b => a == b)

/-- BNE (R129): branch if sa ≠ sb. -/
def execBne (core : CoreId) (sa sb : SReg) (off : Imm16) (s : State) : Host.Outcome State Fault Refusal :=
  .next (s.branch core sa sb off fun a b => a != b)

/-- BLT (R129): branch if sa < sb, signed. -/
def execBlt (core : CoreId) (sa sb : SReg) (off : Imm16) (s : State) : Host.Outcome State Fault Refusal :=
  .next (s.branch core sa sb off fun a b => a.slt b)

/-- BGE (R129): branch if sa ≥ sb, signed. -/
def execBge (core : CoreId) (sa sb : SReg) (off : Imm16) (s : State) : Host.Outcome State Fault Refusal :=
  .next (s.branch core sa sb off fun a b => !a.slt b)

/-- BLTU (R129): branch if sa < sb, unsigned. -/
def execBltu (core : CoreId) (sa sb : SReg) (off : Imm16) (s : State) : Host.Outcome State Fault Refusal :=
  .next (s.branch core sa sb off fun a b => a.ult b)

/-- BGEU (R129): branch if sa ≥ sb, unsigned. -/
def execBgeu (core : CoreId) (sa sb : SReg) (off : Imm16) (s : State) : Host.Outcome State Fault Refusal :=
  .next (s.branch core sa sb off fun a b => !a.ult b)

/-- JAL (R129): sd = pc + 4, then pc += 4 × offset16. -/
def execJal (core : CoreId) (sd : SReg) (off : Imm16) (s : State) : Host.Outcome State Fault Refusal :=
  .next (s.issue core fun t x =>
    (t.onCore core.toNat fun y => y.ws sd (BitVec.ofNat 64 (x.pc.toNat + 4))).jumpTo core x.pc.toNat (branchTarget x.pc off))

/-- JR (R129): pc = sa. -/
def execJr (core : CoreId) (sa : SReg) (s : State) : Host.Outcome State Fault Refusal :=
  .next (s.issue core fun t x => t.jumpTo core x.pc.toNat (x.rs sa).toNat)

/-- DRAW (R131): sd = draw(sa, sb). -/
def execDraw (core : CoreId) (sd sa sb : SReg) (s : State) : Host.Outcome State Fault Refusal :=
  .next (s.scalar core sd sa sb drawFn)

/-- FLAGS (R132): sd = the numeric flags register, which is cleared. -/
def execFlags (core : CoreId) (sd : SReg) (s : State) : Host.Outcome State Fault Refusal :=
  .next (s.onRegs core fun x => { (x.ws sd (BitVec.ofNat 64 x.flags.toNat)) with flags := 0 })

end Sys2Proof.Machine
end

