-- ==== Sys2Proof/Machine/TrimVec.lean ====
section
/-! DEFINITION. TrimVec.lean: the vector instructions of a trim core (R116, R126 to R128; log entry 22: what their tables leave
open). An element type that an instruction does not accept cannot reach a core (R123): the command then changes nothing. -/

namespace Sys2Proof.Machine

/-- A vector instruction: each enabled lane of vd is `f` of the core and the lane's number (R116). -/
def State.lanes (s : State) (c : CoreId) (vd : VReg) (p : PReg) (w : Nat) (f : Core → Nat → Nat × NumFlags) : State :=
  s.onRegs c fun x =>
    let r := predLanes w (x.rp p) (x.rv vd) (f x)
    (x.wv vd r.1).raise r.2

/-- An integer instruction over two sources (R126): lanes wrap and raise no flag. -/
def State.vecInt (s : State) (c : CoreId) (vd va vb : VReg) (p : PReg) (et : ElemType) (f : Nat → Int → Int → Int) : State :=
  if laneFp et then s
  else
    let w := laneBits et
    s.lanes c vd p w fun x i => (intLane w (f w (laneInt w (laneOf w (x.rv va) i)) (laneInt w (laneOf w (x.rv vb) i))), 0)

/-- A shift instruction: the count is the low bits of vb's lane. -/
def State.vecShift (s : State) (c : CoreId) (vd va vb : VReg) (p : PReg) (et : ElemType) (f : Nat → Nat → Nat → Nat) : State :=
  if laneFp et then s
  else
    let w := laneBits et
    s.lanes c vd p w fun x i => (f w (laneOf w (x.rv va) i) (laneOf w (x.rv vb) i % w), 0)

/-- A floating-point instruction over vd, va and vb (R126). -/
def State.vecFp (s : State) (c : CoreId) (vd va vb : VReg) (p : PReg) (et : ElemType)
    (f : FpFmt → Nat → Nat → Nat → Nat × NumFlags) : State :=
  if !laneFp et then s
  else
    let w := laneBits et
    s.lanes c vd p w fun x i => f (laneFmt et) (laneOf w (x.rv vd) i) (laneOf w (x.rv va) i) (laneOf w (x.rv vb) i)

/-- A bitwise instruction. -/
def State.vecBits (s : State) (c : CoreId) (vd va vb : VReg) (p : PReg) (et : ElemType) (f : Nat → Nat → Nat) : State :=
  if laneFp et then s
  else
    let w := laneBits et
    s.lanes c vd p w fun x i => (f (laneOf w (x.rv va) i) (laneOf w (x.rv vb) i), 0)

/-- A lane as a value: exact, of either kind of type. -/
def laneVal (et : ElemType) (n : Nat) : FpVal := if laneFp et then (laneFmt et).val n else intVal (laneInt (laneBits et) n) 0

/-- A comparison (R126): bit i of the predicate for each enabled lane; every other bit keeps its value. It raises no INVALID or INF for
a NaN or infinite lane (DESIGN CHOICE, log entry 40). -/
def State.vecCmp (s : State) (c : CoreId) (pd : PReg) (va vb : VReg) (p : PReg) (et : ElemType) (f : FpVal → FpVal → Bool) : State :=
  s.onRegs c fun x =>
    let w := laneBits et
    let bit := fun (i : Nat) =>
      if i < laneCount et ∧ (x.rp p).getLsbD i then f (laneVal et (laneOf w (x.rv va) i)) (laneVal et (laneOf w (x.rv vb) i))
      else (x.rp pd).getLsbD i
    x.wp pd (BitVec.ofNat 64 ((List.range 64).foldl (fun n i => if bit i then n + 2 ^ i else n) 0))

/-- A predicate instruction. -/
def State.predOp (s : State) (c : CoreId) (pd pa pb : PReg) (f : BitVec 64 → BitVec 64 → BitVec 64) : State :=
  s.onRegs c fun x => x.wp pd (f (x.rp pa) (x.rp pb))

/-- A special function over FP32 lanes (R60, R61). -/
def State.vecSpecial (s : State) (c : CoreId) (vd va : VReg) (p : PReg) (fn : SpecialFn) : State :=
  s.lanes c vd p 32 fun x i => specialFn fn (laneOf 32 (x.rv va) i)

/-- The products of VDOT that join INT32 lane i (R126): lanes 4i to 4i + 3 of INT8, or 2i and 2i + 1 of INT16. -/
def dotLane (w : Nat) (a b : BitVec 512) (i : Nat) : Int :=
  (List.range (32 / w)).foldl (fun (t : Int) k =>
    t + laneInt w (laneOf w a (32 / w * i + k)) * laneInt w (laneOf w b (32 / w * i + k))) 0

/-- One lane of VCVT (R126): from one type's pattern to the other's. -/
def cvtLane (et dst : ElemType) (n : Nat) : Nat × NumFlags :=
  let w := laneBits dst
  match laneFp et, laneFp dst with
  | false, false => (intLane w (laneInt (laneBits et) n), 0)
  | false, true =>
    let f := laneFmt dst
    let r := f.pack (intVal (laneInt (laneBits et) n) 0)
    (r, flagIf (f.val r).isInf NumFlags.INF)
  | true, false => fpToLane w ((laneFmt et).val n)
  | true, true =>
    let f := laneFmt dst
    let v := (laneFmt et).val n
    let q := f.pack v
    let sat := !v.isInf && (f.val q).isInf
    let r := if sat then (if v.isNeg then f.signBit else 0) + f.maxBits else q
    (r, flagIf sat NumFlags.OUT_SAT ||| fpFlags f [v] r)

/-- The enabled lanes of a vector, in index order. -/
def enabledLanes (et : ElemType) (p : BitVec 64) (v : BitVec 512) : List Nat :=
  ((List.range (laneCount et)).filter fun i => p.getLsbD i).map (laneOf (laneBits et) v)

/-- A lane's value as a scalar (R127): sign-extended for integers, in bits [31:0] for FP. -/
def laneScalar (et : ElemType) (n : Nat) : BitVec 64 :=
  if laneFp et then BitVec.ofNat 64 n else BitVec.ofInt 64 (laneInt (laneBits et) n)

/-- VREDSUM's sum (R127, R128). -/
def redSum (et : ElemType) (l : List Nat) : BitVec 64 × NumFlags :=
  if laneFp et then
    let f := laneFmt et
    let xs := l.map fun n => fp32.pack (f.val n)
    let r := pairSum fp32 xs.length xs
    (BitVec.ofNat 64 r.1, r.2 ||| fpFlags fp32 (l.map f.val) r.1)
  else (BitVec.ofInt 64 (l.foldl (fun (t : Int) n => t + laneInt (laneBits et) n) 0), 0)

/-- The maximum or minimum of lanes under the rule of FMAX; none of no lanes. -/
def redPick (et : ElemType) (isMax : Bool) : List Nat → Option (Nat × NumFlags)
  | [] => none
  | n :: l =>
    let pick := fun (a b : Nat) =>
      if laneFp et then fpPick (laneFmt et) isMax a b
      else
        let w := laneBits et
        (if decide (laneInt w a < laneInt w b) = isMax then b else a, 0)
    some (l.foldl (fun r m => ((pick r.1 m).1, r.2 ||| (pick r.1 m).2)) (if laneFp et then pick n n else (n, 0)))

/-- VREDMAX and VREDMIN (R127): of no lanes the manual states no result, and the value is free (log entry 4). -/
def State.vecPick (s : State) (c : CoreId) (v : VReg) (sd : SReg) (p : PReg) (et : ElemType) (isMax : Bool) : State :=
  s.issue c fun t x =>
    match redPick et isMax (enabledLanes et (x.rp p) (x.rv v)) with
    | some (n, fl) => t.onCore c.toNat fun y => (y.ws sd (laneScalar et n)).raise fl
    | none => t.onCore c.toNat fun y => y.ws sd (Config.reductionOfNone isMax (laneFp et) (laneBits et))

/-- VREDARG's index (R111, R127): −1 of no lanes. As the comparisons of R124 and R126, it raises no flag on NaN or infinite
operands (log entry 40, DESIGN CHOICE). -/
def redArg (et : ElemType) (p : BitVec 64) (v : BitVec 512) : BitVec 64 :=
  let on := (List.range (laneCount et)).filter fun i => p.getLsbD i
  let vals := on.map fun i => laneVal et (laneOf (laneBits et) v i)
  if on.isEmpty then BitVec.allOnes 64 else BitVec.ofNat 64 (listAt 0 on (argmaxOf vals))

/-- VADD (R126): integer addition. -/
def execVadd (core : CoreId) (vd va vb : VReg) (p : PReg) (et : ElemType) (s : State) : Host.Outcome State Fault Refusal :=
  .next (s.vecInt core vd va vb p et fun _ a b => a + b)

/-- VSUB (R126): integer subtraction. -/
def execVsub (core : CoreId) (vd va vb : VReg) (p : PReg) (et : ElemType) (s : State) : Host.Outcome State Fault Refusal :=
  .next (s.vecInt core vd va vb p et fun _ a b => a - b)

/-- VMUL (R126): the low half of the product. -/
def execVmul (core : CoreId) (vd va vb : VReg) (p : PReg) (et : ElemType) (s : State) : Host.Outcome State Fault Refusal :=
  .next (s.vecInt core vd va vb p et fun _ a b => a * b)

/-- VMIN (R126): the signed minimum. -/
def execVmin (core : CoreId) (vd va vb : VReg) (p : PReg) (et : ElemType) (s : State) : Host.Outcome State Fault Refusal :=
  .next (s.vecInt core vd va vb p et fun _ a b => if a < b then a else b)

/-- VMAX (R126): the signed maximum. -/
def execVmax (core : CoreId) (vd va vb : VReg) (p : PReg) (et : ElemType) (s : State) : Host.Outcome State Fault Refusal :=
  .next (s.vecInt core vd va vb p et fun _ a b => if a < b then b else a)

/-- VAND (R126): bitwise. -/
def execVand (core : CoreId) (vd va vb : VReg) (p : PReg) (et : ElemType) (s : State) : Host.Outcome State Fault Refusal :=
  .next (s.vecBits core vd va vb p et fun a b => a &&& b)

/-- VOR (R126): bitwise. -/
def execVor (core : CoreId) (vd va vb : VReg) (p : PReg) (et : ElemType) (s : State) : Host.Outcome State Fault Refusal :=
  .next (s.vecBits core vd va vb p et fun a b => a ||| b)

/-- VXOR (R126): bitwise. -/
def execVxor (core : CoreId) (vd va vb : VReg) (p : PReg) (et : ElemType) (s : State) : Host.Outcome State Fault Refusal :=
  .next (s.vecBits core vd va vb p et fun a b => a ^^^ b)

/-- VDOT (R126): INT32 lane i of vd gains the sum of the products of the INT8 or INT16 lanes that it covers. -/
def execVdot (core : CoreId) (vd va vb : VReg) (p : PReg) (et : ElemType) (s : State) : Host.Outcome State Fault Refusal :=
  .next (if et = .int8 ∨ et = .int16 then
      s.lanes core vd p 32 fun x i =>
        (intLane 32 (laneInt 32 (laneOf 32 (x.rv vd) i) + dotLane (laneBits et) (x.rv va) (x.rv vb) i), 0)
    else s)

/-- VSHL (R126): left. -/
def execVshl (core : CoreId) (vd va vb : VReg) (p : PReg) (et : ElemType) (s : State) : Host.Outcome State Fault Refusal :=
  .next (s.vecShift core vd va vb p et fun w a n => a * 2 ^ n % 2 ^ w)

/-- VSHR (R126): right, sign in. -/
def execVshr (core : CoreId) (vd va vb : VReg) (p : PReg) (et : ElemType) (s : State) : Host.Outcome State Fault Refusal :=
  .next (s.vecShift core vd va vb p et fun w a n => intLane w (laneInt w a / (2 ^ n : Int)))

/-- VSHRU (R126): right, zeros in. -/
def execVshru (core : CoreId) (vd va vb : VReg) (p : PReg) (et : ElemType) (s : State) : Host.Outcome State Fault Refusal :=
  .next (s.vecShift core vd va vb p et fun _ a n => a / 2 ^ n)

/-- VFADD (R126): va + vb. -/
def execVfadd (core : CoreId) (vd va vb : VReg) (p : PReg) (et : ElemType) (s : State) : Host.Outcome State Fault Refusal :=
  .next (s.vecFp core vd va vb p et fun f _ a b => fpAdd f a b)

/-- VFSUB (R126): va − vb. -/
def execVfsub (core : CoreId) (vd va vb : VReg) (p : PReg) (et : ElemType) (s : State) : Host.Outcome State Fault Refusal :=
  .next (s.vecFp core vd va vb p et fun f _ a b => fpSub f a b)

/-- VFMUL (R126): va × vb. -/
def execVfmul (core : CoreId) (vd va vb : VReg) (p : PReg) (et : ElemType) (s : State) : Host.Outcome State Fault Refusal :=
  .next (s.vecFp core vd va vb p et fun f _ a b => fpMul f a b)

/-- VFDIV (R126): va / vb. -/
def execVfdiv (core : CoreId) (vd va vb : VReg) (p : PReg) (et : ElemType) (s : State) : Host.Outcome State Fault Refusal :=
  .next (s.vecFp core vd va vb p et fun f _ a b => fpDiv f a b)

/-- VFMA (R126): vd + va × vb, rounded once. -/
def execVfma (core : CoreId) (vd va vb : VReg) (p : PReg) (et : ElemType) (s : State) : Host.Outcome State Fault Refusal :=
  .next (s.vecFp core vd va vb p et fun f d a b => fpFma f a b d)

/-- VFMS (R126): vd − va × vb, rounded once. -/
def execVfms (core : CoreId) (vd va vb : VReg) (p : PReg) (et : ElemType) (s : State) : Host.Outcome State Fault Refusal :=
  .next (s.vecFp core vd va vb p et fun f d a b => fpFms f a b d)

/-- VFMIN (R126): the minimum, as FMIN. -/
def execVfmin (core : CoreId) (vd va vb : VReg) (p : PReg) (et : ElemType) (s : State) : Host.Outcome State Fault Refusal :=
  .next (s.vecFp core vd va vb p et fun f _ a b => fpPick f false a b)

/-- VFMAX (R126): the maximum, as FMAX. -/
def execVfmax (core : CoreId) (vd va vb : VReg) (p : PReg) (et : ElemType) (s : State) : Host.Outcome State Fault Refusal :=
  .next (s.vecFp core vd va vb p et fun f _ a b => fpPick f true a b)

/-- VFSQRT (R126): the square root of va. -/
def execVfsqrt (core : CoreId) (vd va : VReg) (p : PReg) (et : ElemType) (s : State) : Host.Outcome State Fault Refusal :=
  .next (s.vecFp core vd va va p et fun f _ a _ => fpSqrt f a)

/-- VFABS (R126): the sign bit cleared; of a NaN too, whose payload stays beside R41's canonical NaN (DESIGN CHOICE, log entry
40). -/
def execVfabs (core : CoreId) (vd va : VReg) (p : PReg) (et : ElemType) (s : State) : Host.Outcome State Fault Refusal :=
  .next (s.vecFp core vd va va p et fun f _ a _ => (a % f.signBit, 0))

/-- VFNEG (R126): the sign bit inverted; of a NaN too, whose payload stays beside R41's canonical NaN (DESIGN CHOICE, log entry
40). -/
def execVfneg (core : CoreId) (vd va : VReg) (p : PReg) (et : ElemType) (s : State) : Host.Outcome State Fault Refusal :=
  .next (s.vecFp core vd va va p et fun f _ a _ => (a ^^^ f.signBit, 0))

/-- VCEQ (R126): lanes of va and vb compared, equal. -/
def execVceq (core : CoreId) (pd : PReg) (va vb : VReg) (p : PReg) (et : ElemType) (s : State) : Host.Outcome State Fault Refusal :=
  .next (s.vecCmp core pd va vb p et fpEq)

/-- VCNE (R126): lanes of va and vb compared, not equal; a NaN is. -/
def execVcne (core : CoreId) (pd : PReg) (va vb : VReg) (p : PReg) (et : ElemType) (s : State) : Host.Outcome State Fault Refusal :=
  .next (s.vecCmp core pd va vb p et fun a b => !fpEq a b)

/-- VCLT (R126): lanes of va and vb compared, below. -/
def execVclt (core : CoreId) (pd : PReg) (va vb : VReg) (p : PReg) (et : ElemType) (s : State) : Host.Outcome State Fault Refusal :=
  .next (s.vecCmp core pd va vb p et fpLt)

/-- VCLE (R126): lanes of va and vb compared, below or equal. -/
def execVcle (core : CoreId) (pd : PReg) (va vb : VReg) (p : PReg) (et : ElemType) (s : State) : Host.Outcome State Fault Refusal :=
  .next (s.vecCmp core pd va vb p et fun a b => fpLt a b || fpEq a b)

/-- PAND (R126): over predicate registers. -/
def execPand (core : CoreId) (pd pa pb : PReg) (s : State) : Host.Outcome State Fault Refusal :=
  .next (s.predOp core pd pa pb fun a b => a &&& b)

/-- POR (R126): over predicate registers. -/
def execPor (core : CoreId) (pd pa pb : PReg) (s : State) : Host.Outcome State Fault Refusal :=
  .next (s.predOp core pd pa pb fun a b => a ||| b)

/-- PXOR (R126): over predicate registers. -/
def execPxor (core : CoreId) (pd pa pb : PReg) (s : State) : Host.Outcome State Fault Refusal :=
  .next (s.predOp core pd pa pb fun a b => a ^^^ b)

/-- PNOT (R126): the complement of a predicate register. -/
def execPnot (core : CoreId) (pd pa : PReg) (s : State) : Host.Outcome State Fault Refusal :=
  .next (s.predOp core pd pa pa fun a _ => ~~~a)

/-- VSEL (R126): va in lanes whose predicate bit is 1, vb elsewhere. -/
def execVsel (core : CoreId) (vd va vb : VReg) (p : PReg) (et : ElemType) (s : State) : Host.Outcome State Fault Refusal :=
  .next (s.onRegs core fun x =>
    x.wv vd (predLanes (laneBits et) (x.rp p) (x.rv vb) fun i => (laneOf (laneBits et) (x.rv va) i, 0)).1)

/-- VCVT (R126): lanes converted from et to another type and packed to its width from lane 0. -/
def execVcvt (core : CoreId) (vd va : VReg) (p : PReg) (et dst : ElemType) (s : State) : Host.Outcome State Fault Refusal :=
  .next (s.onRegs core fun x =>
    let n := min (laneCount et) (laneCount dst)
    let w := laneBits dst
    let l := (List.range (laneCount dst)).map fun i =>
      if i < n ∧ (x.rp p).getLsbD i then cvtLane et dst (laneOf (laneBits et) (x.rv va) i) else (laneOf w (x.rv vd) i, 0)
    (x.wv vd (vecOf w (l.map (·.1)))).raise (flagsOr (l.map (·.2))))

/-- VPERM (R126): vd[i] = va[vb[i] mod lanes]. -/
def execVperm (core : CoreId) (vd va vb : VReg) (p : PReg) (et : ElemType) (s : State) : Host.Outcome State Fault Refusal :=
  .next (s.lanes core vd p (laneBits et) fun x i =>
    (laneOf (laneBits et) (x.rv va) (laneOf (laneBits et) (x.rv vb) i % laneCount et), 0))

/-- EXP2 (R60, R61, R126). -/
def execExp2 (core : CoreId) (vd va : VReg) (p : PReg) (s : State) : Host.Outcome State Fault Refusal :=
  .next (s.vecSpecial core vd va p .exp2)

/-- RCP (R60, R61, R126). -/
def execRcp (core : CoreId) (vd va : VReg) (p : PReg) (s : State) : Host.Outcome State Fault Refusal :=
  .next (s.vecSpecial core vd va p .rcp)

/-- RSQRT (R60, R61, R126). -/
def execRsqrt (core : CoreId) (vd va : VReg) (p : PReg) (s : State) : Host.Outcome State Fault Refusal :=
  .next (s.vecSpecial core vd va p .rsqrt)

/-- LOG2 (R60, R61, R126). -/
def execLog2 (core : CoreId) (vd va : VReg) (p : PReg) (s : State) : Host.Outcome State Fault Refusal :=
  .next (s.vecSpecial core vd va p .log2)

/-- TANH (R60, R61, R126). -/
def execTanh (core : CoreId) (vd va : VReg) (p : PReg) (s : State) : Host.Outcome State Fault Refusal :=
  .next (s.vecSpecial core vd va p .tanh)

/-- SIGM (R60, R61, R126). -/
def execSigm (core : CoreId) (vd va : VReg) (p : PReg) (s : State) : Host.Outcome State Fault Refusal :=
  .next (s.vecSpecial core vd va p .sigm)

/-- GELU (R60, R61, R126). -/
def execGelu (core : CoreId) (vd va : VReg) (p : PReg) (s : State) : Host.Outcome State Fault Refusal :=
  .next (s.vecSpecial core vd va p .gelu)

/-- GELUT (R60, R61, R126). -/
def execGelut (core : CoreId) (vd va : VReg) (p : PReg) (s : State) : Host.Outcome State Fault Refusal :=
  .next (s.vecSpecial core vd va p .gelut)

/-- SILU (R60, R61, R126). -/
def execSilu (core : CoreId) (vd va : VReg) (p : PReg) (s : State) : Host.Outcome State Fault Refusal :=
  .next (s.vecSpecial core vd va p .silu)

/-- VBCAST (R127): every lane is the low bits of the scalar. -/
def execVbcast (core : CoreId) (v : VReg) (sa : SReg) (et : ElemType) (s : State) : Host.Outcome State Fault Refusal :=
  .next (s.onRegs core fun x =>
    x.wv v (vecOf (laneBits et) (List.replicate (laneCount et) ((x.rs sa).toNat % 2 ^ laneBits et))))

/-- VINS (R127): one lane is the scalar's low bits. -/
def execVins (core : CoreId) (v : VReg) (sa : SReg) (lane : Imm6) (et : ElemType) (s : State) : Host.Outcome State Fault Refusal :=
  .next (s.onRegs core fun x =>
    x.wv v (vecOf (laneBits et) ((lanesOf (laneBits et) (x.rv v)).set lane.toNat ((x.rs sa).toNat % 2 ^ laneBits et))))

/-- VEXTR (R127): one lane, sign-extended for integers and in bits [31:0] for FP. -/
def execVextr (core : CoreId) (v : VReg) (sd : SReg) (lane : Imm6) (et : ElemType) (s : State) : Host.Outcome State Fault Refusal :=
  .next (s.onRegs core fun x => x.ws sd (laneScalar et (laneOf (laneBits et) (x.rv v) lane.toNat)))

/-- VREDSUM (R127, R128): the sum of the enabled lanes. -/
def execVredsum (core : CoreId) (v : VReg) (sd : SReg) (p : PReg) (et : ElemType) (s : State) : Host.Outcome State Fault Refusal :=
  .next (s.onRegs core fun x =>
    let r := redSum et (enabledLanes et (x.rp p) (x.rv v))
    (x.ws sd r.1).raise r.2)

/-- VREDMAX (R127): the maximum of the enabled lanes. -/
def execVredmax (core : CoreId) (v : VReg) (sd : SReg) (p : PReg) (et : ElemType) (s : State) : Host.Outcome State Fault Refusal :=
  .next (s.vecPick core v sd p et true)

/-- VREDMIN (R127): the minimum of the enabled lanes. -/
def execVredmin (core : CoreId) (v : VReg) (sd : SReg) (p : PReg) (et : ElemType) (s : State) : Host.Outcome State Fault Refusal :=
  .next (s.vecPick core v sd p et false)

/-- VREDARG (R127): the index of the largest enabled lane. -/
def execVredarg (core : CoreId) (v : VReg) (sd : SReg) (p : PReg) (et : ElemType) (s : State) : Host.Outcome State Fault Refusal :=
  .next (s.onRegs core fun x => x.ws sd (redArg et (x.rp p) (x.rv v)))

/-- PCNT (R127): the predicate's 1 bits among the lanes of et. -/
def execPcnt (core : CoreId) (sd : SReg) (p : PReg) (et : ElemType) (s : State) : Host.Outcome State Fault Refusal :=
  .next (s.onRegs core fun x =>
    x.ws sd (BitVec.ofNat 64 ((List.range (laneCount et)).filter fun i => (x.rp p).getLsbD i).length))

end Sys2Proof.Machine
end

