-- ==== Sys2Proof/Machine/TrimSys.lean ====
section
/-! DEFINITION. TrimSys.lean: kernels, barriers and reductions across cores, and delivery to the collector (R117, R129, R130, R132,
R134, R135, R138 to R144, R274; log entries 22, 24 and 25). -/

namespace Sys2Proof.Machine

-- Kernels start and end (R139 to R142).

/-- A kernel's items (R141). -/
def Kernel.items (k : Kernel) (rows : Nat) : Nat := k.itemsFixed + k.itemsPerRow * rows

/-- A row record (R140). -/
def rowRecord (r : RowRec) : List Byte :=
  leBytes 4 r.tag ++ leBytes 4 r.seq ++ leBytes 8 r.seed ++ leBytes 4 r.step ++ leBytes 4 r.length

/-- The stencil of a tree (R274): 64 mask words, then 64 depth bytes. -/
def Tree.stencil (t : Tree) : List Byte :=
  let n := t.tokens.length
  let word := fun (i : Nat) =>
    if n ≤ i then 0 else (List.range n).foldl (fun w j => if t.sees n i j then w + 2 ^ j else w) 0
  ((List.range 64).map fun i => leBytes 8 (word i)).flatten ++
    ((List.range 64).map fun i => leBytes 1 (if i < n then t.depth i else 0)).flatten

/-- The stencil records of a batch (R274): one for each tree unit of more than one node, in batch-row order. -/
def State.stencils (s : State) (b : Batch) : List (List Byte) :=
  ((List.range b.units.length).map fun k =>
    match b.units[k]? with
    | none => []
    | some u =>
      match u.kind, s.seq u.seq with
      | .step, some x =>
        if u.rows ≤ 1 then []
        else [leBytes 4 ((b.rows.findIdx? fun r => r.unit == k).getD 0) ++ leBytes 2 u.rows ++ zeroBytes 58 ++ x.stepTree.stencil]
      | _, _ => []).flatten

/-- Where the stencil records start (R274): the first multiple of 64 at or after the row records. -/
def stencilBase (rows : Nat) : Nat := roundUp (0x70040 + 24 * rows) 64

/-- The argument area of a kernel (R140, R274): header, row records and stencil records. -/
def State.arguments (s : State) (w : Work) (k : Kernel) : List Byte :=
  let n := w.b.rows.length
  let st := s.stencils w.b
  let base := fun (i : Nat) => if listAt 255 k.bindings i = 255 then 0 else coreBase (w.g.binding (listAt 255 k.bindings i))
  let head := leBytes 2 w.i ++ leBytes 1 w.b.slot ++ leBytes 1 0 ++ leBytes 4 (k.items n) ++ leBytes 2 n ++
    leBytes 2 st.length ++ leBytes 4 (if st.isEmpty then 0 else stencilBase n) ++
    ((List.range 8).map fun i => leBytes 4 (base i)).flatten ++ zeroBytes 16
  let recs := (w.b.rows.map rowRecord).flatten
  if st.isEmpty then head ++ recs
  else head ++ recs ++ zeroBytes (stencilBase n - (0x70040 + 24 * n)) ++ st.flatten

/-- Does a core's host run another logical core of the pair now (R144)? -/
def State.hostTaken (s : State) (c : Nat) : Bool :=
  (List.range 64).any fun d =>
    d != c && s.physical d == s.physical c && (s.core d).onHost && (s.core d).state != .idle && (s.core d).state != .done

/-- The write window of the core at place j of a kernel's mask (R138): base and bytes. A kernel has none without a window binding, nor
through one that lies outside the core view (log entry 22). -/
def Image.window (g : Image) (k : Kernel) (j : Nat) : Nat × Nat :=
  let b := g.binding k.window
  if k.window = 255 ∨ !b.inCoreView then (0, 0) else (coreBase b + j * k.windowStride, k.windowSize)

/-- Prepare a logical core for a kernel (R139): `j` is its place in the mask, `n` the number of cores. -/
def State.launch (s : State) (w : Work) (k : Kernel) (index n : Nat) (args : List Byte) (j c : Nat) : State :=
  let bank := localBank c
  let s1 := ((s.putBank bank 0x60000 (slice w.g.code k.codeOffset k.codeSize)).clearBank bank 0 k.zeroSize).putBank bank 0x70000 args
  let share := shareOf (k.items w.b.rows.length) n j
  let win := w.g.window k j
  let hosted := !s1.hostTaken c
  let x : Core := { pc := BitVec.ofNat 32 (0x60000 + k.entry), state := .run, coat := w.i, kernel := index, first := share.1,
                    count := share.2, winBase := win.1, winSize := win.2, onHost := hosted }
  let x1 := ((((x.ws 1 (BitVec.ofNat 64 c)).ws 2 (BitVec.ofNat 64 n)).ws 3 (BitVec.ofNat 64 share.1)).ws 4
    (BitVec.ofNat 64 share.2)).ws 5 0x70000
  s1.onCore c fun y => { x1 with credits := y.credits }

/-- Has kernel k of coat j ended, or does it leave the cores of a mask alone? -/
def Work.clearOf (w : Work) (j k : Nat) (mask : BitVec 64) : Bool :=
  ((w.b.runs[j]?).any fun r => r.complete || r.kernelsEnded.contains k) ||
    (match w.g.coats[j]? with
      | none => true
      | some c =>
        match (w.g.kernelsOf c)[k]? with
        | none => true
        | some e => e.mask &&& mask == 0)

/-- May kernel i of a coat start (R142, R156)? Its coat's other work has ended, and every core of its mask has finished the kernels
before it in coat-list order; the kernels of an array, feed or attention coat run one after another. -/
def State.kernelMay (s : State) (w : Work) (i : Nat) (k : Kernel) : Bool :=
  s.kernelsMay w && !w.run.kernelsStarted.contains i &&
    ((List.range i).all fun j => w.run.kernelsEnded.contains j || (w.c.kind == 3 && w.clearOf w.i j k.mask)) &&
    ((List.range w.i).all fun j => (List.range (((w.g.coats[j]?).map (·.kernels)).getD 0)).all fun e => w.clearOf j e k.mask) &&
    (maskCores k.mask).all fun l => (s.core l).state == .idle

/-- KERNEL_START (R139 to R142): the sequencer prepares each core of a kernel of a coat, and it runs. -/
def kernelStart (coat i : Nat) (s : State) : State :=
  match s.coatAt coat with
  | none => s
  | some w =>
    match (w.g.kernelsOf w.c)[i]? with
    | none => s
    | some k =>
      if !s.kernelMay w i k then s
      else
        let cores := maskCores k.mask
        let args := s.arguments w k
        let run : KernelRun := { coat := w.i, index := i, cores := cores, unordered := k.flags % 2 = 1, limit := k.limit }
        let s0 := s.openWindows w
        let s1 : State := { s0 with trim := { s0.trim with kernels := s0.trim.kernels ++ [run] } }
        let s2 := (List.range cores.length).foldl (fun (s : State) (j : Nat) =>
          s.launch w k i cores.length args j (listAt 0 cores j)) s1
        s2.onRun w.i fun x => { x with begun := true, kernelsStarted := x.kernelsStarted ++ [i] }

def execKernelStart (coat kernel : Nat) (s : State) : Host.Outcome State Fault Refusal := .next (kernelStart coat kernel s)

/-- Put a core back to idle. -/
def Core.retire (x : Core) : Core := { x with state := .idle, onHost := true }

/-- KERNEL_END (R120, R142): every core of a kernel has executed DONE; its stores are there for all that follows. -/
def kernelEnd (coat i : Nat) (s : State) : State :=
  match s.kernelRun coat i with
  | none => s
  | some k =>
    if !(k.cores.all fun c => (s.core c).state == .done) then s
    else
      let s1 := k.cores.foldl (fun (s : State) (c : Nat) => (s.showStores (fun _ => true) c).onCore c Core.retire) s
      let s2 : State := { s1 with trim := { s1.trim with kernels := s1.trim.kernels.filter fun x => x != k } }
      (s2.count Fld.TRIM_KERNELS_COUNT).onRun coat fun x => { x with kernelsEnded := x.kernelsEnded ++ [i] }

def execKernelEnd (coat kernel : Nat) (s : State) : Host.Outcome State Fault Refusal := .next (kernelEnd coat kernel s)

/-- May a core's host switch from it (R144): it has executed DONE, waits in BAR, XRED or MSEND, or runs no kernel? -/
def Core.yields (x : Core) : Bool := x.state != .run && x.state != .allCredits

/-- The registers of a core as its context save area holds them (R144): the scalar, vector and predicate registers, the program
counter and the numeric flags, each little-endian (DESIGN CHOICE, log entry 24). -/
def Core.context (x : Core) : List Byte :=
  (x.s.toList.map fun r => leBytes 8 r.toNat).flatten ++ (x.v.toList.map fun r => leBytes 64 r.toNat).flatten ++
    (x.p.toList.map fun r => leBytes 8 r.toNat).flatten ++ leBytes 4 x.pc.toNat ++ leBytes 2 x.flags.toNat

/-- Turn a host from core u to core v (R144): u's registers are saved in its own context save area. -/
def State.turnHost (s : State) (u v : Nat) : State :=
  let s1 := s.putBank (localBank u) 0x7F800 (s.core u).context
  (s1.onCore u fun x => { x with onHost := false }).onCore v fun x => { x with onHost := true }

/-- CORE_CONTEXT_SWITCH (R144): a host turns from one of its logical cores, which has executed DONE or waits, to the other. -/
def coreContextSwitch (physical : Nat) (s : State) : State :=
  let mine := (List.range 64).filter fun c => s.physical c == physical
  match mine with
  | [a, b] =>
    if (s.core a).onHost ∧ !(s.core b).onHost ∧ (s.core a).yields then s.turnHost a b
    else if (s.core b).onHost ∧ !(s.core a).onHost ∧ (s.core b).yields then s.turnHost b a
    else s
  | _ => s

def execCoreContextSwitch (physical : Nat) (s : State) : Host.Outcome State Fault Refusal :=
  .next (coreContextSwitch physical s)

-- Barriers and reductions (R129, R130).

/-- Has another core of a core's kernel executed DONE? -/
def State.peerDone (s : State) (c : Nat) : Bool :=
  match s.kernelOf c with
  | none => false
  | some k => k.cores.any fun d => d != c && (s.core d).state == .done

/-- Does another core of a core's kernel wait in BAR or XRED? -/
def State.peerWaits (s : State) (c : Nat) : Bool :=
  match s.kernelOf c with
  | none => false
  | some k => k.cores.any fun d => d != c && ((s.core d).state == .barrier || (s.core d).state == .xred)

/-- BAR (R129): wait at the barrier; a peer that has executed DONE never reaches it (R130; log entry 25). -/
def barEffect (c : CoreId) (s : State) : State :=
  s.issue c fun t x =>
    if t.peerDone c.toNat then t.kernelFault .sync c.toNat x.pc.toNat else t.onCore c.toNat fun y => { y with state := .barrier }

def execBar (core : CoreId) (s : State) : Host.Outcome State Fault Refusal := .next (barEffect core s)

/-- BARRIER_RELEASE (R120, R129): every core of the kernel has reached the barrier. The stores that their cores have fenced become
visible. -/
def barrierRelease (coat i : Nat) (s : State) : State :=
  match s.kernelRun coat i with
  | none => s
  | some k =>
    if !(k.cores.all fun c => (s.core c).state == .barrier) then s
    else
      let s1 := k.cores.foldl (fun (s : State) (c : Nat) => s.showStores (·.fenced) c) s
      k.cores.foldl (fun (s : State) (c : Nat) => s.onCore c fun x => { x with state := .run }) s1

def execBarrierRelease (coat kernel : Nat) (s : State) : Host.Outcome State Fault Refusal := .next (barrierRelease coat kernel s)

/-- FENCE (R120, R129): the core's earlier stores are complete: others see them after the next barrier. -/
def execFence (core : CoreId) (s : State) : Host.Outcome State Fault Refusal :=
  .next (s.onRegs core fun x => { x with stores := x.stores.map fun y => { y with fenced := true } })

/-- One XRED (R130): contribute sa and wait. -/
def State.contribute (s : State) (c : CoreId) (op : XredOp) (sd sa : SReg) : State :=
  s.issue c fun t x =>
    if t.peerDone c.toNat then t.kernelFault .sync c.toNat x.pc.toNat
    else
      let t1 := t.onCore c.toNat fun y => { y with state := .xred, xred := some (op, sd, x.rs sa) }
      match t1.kernelOf c.toNat with
      | none => t1
      | some k => t1.onKernel k.coat k.index fun r => { r with arrivals := r.arrivals ++ [(c.toNat, x.rs sa)] }

/-- XRED_FSUM (R130). -/
def execXredFsum (core : CoreId) (sd sa : SReg) (s : State) : Host.Outcome State Fault Refusal :=
  .next (s.contribute core .fsum sd sa)
/-- XRED_FMAX (R130). -/
def execXredFmax (core : CoreId) (sd sa : SReg) (s : State) : Host.Outcome State Fault Refusal :=
  .next (s.contribute core .fmax sd sa)
/-- XRED_FMIN (R130). -/
def execXredFmin (core : CoreId) (sd sa : SReg) (s : State) : Host.Outcome State Fault Refusal :=
  .next (s.contribute core .fmin sd sa)
/-- XRED_ISUM (R130). -/
def execXredIsum (core : CoreId) (sd sa : SReg) (s : State) : Host.Outcome State Fault Refusal :=
  .next (s.contribute core .isum sd sa)
/-- XRED_IMAX (R130). -/
def execXredImax (core : CoreId) (sd sa : SReg) (s : State) : Host.Outcome State Fault Refusal :=
  .next (s.contribute core .imax sd sa)

/-- The left fold of FSUM in arrival order (R58, R130). -/
def foldSum (f : FpFmt) : List Nat → Nat × NumFlags
  | [] => (0, 0)
  | x :: l => l.foldl (fun r n => ((fpAdd f r.1 n).1, r.2 ||| (fpAdd f r.1 n).2)) (x, 0)

/-- The maximum or minimum of FP32 contributions, as FMAX or FMIN. -/
def foldPick (isMax : Bool) : List Nat → Nat × NumFlags
  | [] => (0, 0)
  | x :: l => l.foldl (fun r n => ((fpPick fp32 isMax r.1 n).1, r.2 ||| (fpPick fp32 isMax r.1 n).2)) (fpPick fp32 isMax x x)

/-- The result of a reduction (R130): contributions by core index and in arrival order. A floating-point sum of one
contribution makes no addition and returns its term as it stands, a NaN's payload included (log entry 40, DESIGN CHOICE). -/
def xredResult (op : XredOp) (unordered : Bool) (byCore byArrival : List (BitVec 64)) : BitVec 64 × NumFlags :=
  let fp := fun (r : Nat × NumFlags) => (BitVec.ofNat 64 r.1, r.2)
  match op with
  | .fsum => fp (if unordered then foldSum fp32 (byArrival.map low32) else pairSum fp32 byCore.length (byCore.map low32))
  | .fmax => fp (foldPick true (byCore.map low32))
  | .fmin => fp (foldPick false (byCore.map low32))
  | .isum => (byCore.foldl (fun t v => t + v) 0, 0)
  | .imax => (byCore.foldl (fun t v => if t.slt v then v else t) (byCore.headD 0), 0)

/-- XRED_COMPLETE (R130): every core of the kernel has contributed, and each receives the same result; the operation is that of
the lowest core (log entry 22). -/
def xredComplete (coat i : Nat) (s : State) : State :=
  match s.kernelRun coat i with
  | none => s
  | some k =>
    if !(k.cores.all fun c => (s.core c).state == .xred) then s
    else
      let given := k.cores.filterMap fun c => (s.core c).xred
      match given with
      | [] => s
      | (op, _, _) :: _ =>
        let r := xredResult op k.unordered (given.map fun x => x.2.2) (k.arrivals.map (·.2))
        let take := fun (x : Core) =>
          match x.xred with
          | some (_, sd, _) => { (x.ws sd r.1).raise r.2 with state := CoreRun.run, xred := none }
          | none => x
        (k.cores.foldl (fun (s : State) (c : Nat) => s.onCore c take) s).onKernel coat i fun y => { y with arrivals := [] }

def execXredComplete (coat kernel : Nat) (s : State) : Host.Outcome State Fault Refusal := .next (xredComplete coat kernel s)

-- The end of a core's part (R130, R132).

/-- The request tags with a row in a share (R132): items after the fixed ones belong to rows in order (log entry 22). -/
def shareTags (b : Batch) (k : Kernel) (first count : Nat) : List Nat :=
  let mine := (List.range b.rows.length).filter fun r =>
    let lo := k.itemsFixed + r * k.itemsPerRow
    decide (first < lo + k.itemsPerRow ∧ lo < first + count)
  (mine.filterMap fun r => (b.rows[r]?).map (·.tag)).eraseDups

/-- DONE (R130, R132): the flags that the register still holds go to the requests of the core's share. -/
def doneEffect (c : CoreId) (s : State) : State :=
  s.issue c fun t x =>
    if t.peerWaits c.toNat then t.kernelFault .sync c.toNat x.pc.toNat
    else
      let t1 := t.onCore c.toNat fun y => { y with state := .done }
      match t1.bindingOf c.toNat with
      | none => t1
      | some (w, k) =>
        (shareTags w.b k x.first x.count).foldl (fun (t : State) (tag : Nat) => t.raiseFlags w.i tag x.flags false) t1

def execDone (core : CoreId) (s : State) : Host.Outcome State Fault Refusal := .next (doneEffect core s)

-- Delivery (R134, R135).

/-- Do two byte ranges overlap? -/
def rangesMeet (a n b m : Nat) : Bool := decide (a < b + m) && decide (b < a + n)

/-- Is a delivery valid (R134, R237): its fields are in range, its tag has a row in the coat, and its output range lies in the
request's output and overlaps no earlier delivery? -/
def State.sendOk (s : State) (w : Work) (dest ctl : Nat) : Bool :=
  let len := natBits ctl 0 13
  let kind := natBits ctl 13 3
  let tag := dest / 4294967296
  let off := dest % 4294967296
  let limit := if (s.skimOf w.b tag).isSome then 320 else ((s.request tag).map (·.outSize)).getD 0
  let old := (w.run.deliveries.filter fun d => d.row == tag && !d.status).map fun d => (d.offset, d.bytes.length)
  let sent := if (s.skimOf w.b tag).isSome then [] else ((s.request tag).map (·.delivered)).getD []
  decide (1 ≤ len ∧ len ≤ 4096) && decide (ctl < 65536) && decide (kind ≤ 1) && (w.b.rows.any fun r => r.tag == tag) &&
    (if kind = 1 then len == 16
     else decide (off + len ≤ limit) && (old ++ sent).all fun d => !rangesMeet off len d.1 d.2)

/-- Deliver what an MSEND names (R134): a credit is held. `pc` is the instruction's address. -/
def State.sendSlot (s : State) (c : Nat) (sa : SReg) (pc : Nat) : State :=
  let x := s.core c
  let src := (x.rs sa).toNat
  let dest := (x.rs (sa + 1)).toNat
  let ctl := (x.rs (sa + 2)).toNat
  match s.bindingOf c with
  | none => s
  | some (w, _) =>
    if !s.sendOk w dest ctl then s.kernelFault .delivery c pc
    else if !s.coreReads c src (natBits ctl 0 13) then s.kernelFault .window c pc
    else
      let d : Delivery := ⟨dest / 4294967296, dest % 4294967296, natBits ctl 13 3 = 1, s.coreBytes c src (natBits ctl 0 13), c⟩
      (s.onRun w.i fun y => { y with deliveries := y.deliveries ++ [d] }).onCore c fun y =>
        { y with credits := y.credits - 1, send := none, state := .run }

/-- MSEND (R134): a core with no credit waits for one. -/
def msendEffect (c : CoreId) (sa : SReg) (s : State) : State :=
  s.issue c fun t x =>
    if x.credits = 0 then t.onCore c.toNat fun y => { y with state := .credit, send := some sa }
    else t.sendSlot c.toNat sa x.pc.toNat

def execMsend (core : CoreId) (sa : SReg) (s : State) : Host.Outcome State Fault Refusal := .next (msendEffect core sa s)

/-- The core whose slot the collector empties next (R135): round-robin in ascending index after the one before. -/
def State.nextSlot (s : State) : Option Nat :=
  let used := fun (c : Nat) => decide ((s.core c).credits < 4)
  ((List.range 64).map fun i => (s.trim.rr + 1 + i) % 64).find? used

/-- CREDIT_RETURN (R135): the collector has emptied the core's slot; a waiting MSEND or MWAIT goes on. -/
def creditReturn (c : CoreId) (s : State) : State :=
  let n := c.toNat
  if s.nextSlot ≠ some n then s
  else
    let s1 : State := { s with trim := { s.trim with rr := n } }
    let s2 := s1.onCore n fun x => { x with credits := x.credits + 1 }
    let x := s2.core n
    match x.state, x.send with
    | .credit, some sa => s2.sendSlot n sa (x.pc.toNat - 4)
    | .allCredits, _ => if x.credits = 4 then s2.onCore n fun y => { y with state := .run } else s2
    | _, _ => s2

def execCreditReturn (core : CoreId) (s : State) : Host.Outcome State Fault Refusal := .next (creditReturn core s)

/-- CRED (R129): the delivery credits held. -/
def execCred (core : CoreId) (sd : SReg) (s : State) : Host.Outcome State Fault Refusal :=
  .next (s.onRegs core fun x => x.ws sd (BitVec.ofNat 64 x.credits))

/-- MWAIT (R129): wait until all four credits are held again. -/
def execMwait (core : CoreId) (s : State) : Host.Outcome State Fault Refusal :=
  .next (s.onRegs core fun x => if x.credits = 4 then x else { x with state := .allCredits })

end Sys2Proof.Machine
end

