-- ==== Sys2Proof/Machine/Twin.lean ====
section
/-! DEFINITION. Twin.lean: twin pairs: mirroring, the twin lease, joining, and the partner's messages that a follower executes from
its own copy (R351 to R355, R364; log entry 29). -/

namespace Sys2Proof.Machine

-- The partner's messages on a follower (R352).

/-- The record no longer waits for the partner's message. -/
def State.unwant (s : State) (r : JRecord) : State :=
  { s with cont := { s.cont with twin := { s.cont.twin with wanting := s.cont.twin.wanting.filter (· != r) } } }

/-- The row tag of the request that a mirrored record of the holder's sequence slot belongs to: that of the newest mirrored ADMIT
record before it that names the slot and an allowance. -/
def State.admitRow (s : State) (slot index : Nat) : Option Nat :=
  ((s.cont.journal.filter fun r => decide (128 ≤ r.origin ∧ r.index < index) && r.subject == slot &&
    (match r.body with
      | .admitted _ _ _ _ _ _ al _ _ => al != 0
      | _ => false)).getLast?).map fun r => r.index % 4294967296

/-- The sequence of a request. -/
def State.seqOfRow (s : State) (row : Nat) : Option Nat :=
  (s.srv.sequences.find? fun x => x.2.row == row && !x.2.isSkim).map (·.1)

/-- The sequence of this module that a record of the holder's sequence slot is about. -/
def State.followSeq (s : State) (slot index : Nat) : Option Nat := (s.admitRow slot index).bind s.seqOfRow

/-- A sequence takes a further allowance, or, on a joiner, the tokens that it emitted before (R355); it is then to be rebuilt
(R255). Tokens whose TOKENS message the flush rule has already sent are not sent again (R241, R320). -/
def Sequence.adopt (x : Sequence) (r : JRecord) : Sequence :=
  match r.body with
  | .allow _ add => { x with allowance := x.allowance + add, allowRecord := r.index }
  | .tokens _ step ts =>
    if step ≠ x.emitted.length then x
    else
      let e := x.emitted ++ ts
      let y := { x with emitted := e, records := x.records ++ [r.index], phase := .preempted, done := 0, committed := 0 }
      if x.flush ≤ e.length - x.sent then { y with sent := e.length, ordinal := x.ordinal + 1 } else y
  | _ => x

/-- A record about a sequence acts on this module's sequence. -/
def State.adoptRecord (s : State) (r : JRecord) : State :=
  let act := fun (slot : Nat) => match s.followSeq slot r.index with
    | some q =>
      let s1 := s.onSeq q fun x => x.adopt r
      match r.body with
      | .tokens .. => { s1 with srv := { s1.srv with queue := s1.srv.queue.filter fun u => u.seq != q || u.kind == .pass } }
      | _ => s1
    | none => s
  match r.body with
  | .allow slot _ => act slot
  | .tokens slot _ _ => act slot
  | _ => s

/-- The records about a sequence that the holder wrote after the ADMIT record that is now executed. -/
def State.adoptLater (s : State) (r : JRecord) : State :=
  (s.cont.journal.filter fun x => decide (128 ≤ x.origin ∧ r.index < x.index)).foldl (fun (s : State) x =>
    let slot := match x.body with
      | .allow q _ => some q
      | .tokens q _ _ => some q
      | _ => none
    match slot with
    | some q => if s.admitRow q x.index = some (r.index % 4294967296) then s.adoptRecord x else s
    | none => s) s

/-- A partner's message whose record this module has applied is executed from its own copy, with the holder's outcome; a follower
leaves any other of a protected session to the holder. -/
def State.withHolder (s : State) (m : Msg) (mine : JRecord → Bool) (f : JRecord → State → State) (own : State → State) : State :=
  match s.cont.twin.wanting.find? fun r => r.session == m.session && mine r with
  | some r => if s.supActs then ((s.unwant r).follow r (f r)).adoptLater r else s
  | none => if s.leftToTwin m then s else own s

/-- Is a record the ADMIT or REFUSE of a message? -/
def State.recordOf (s : State) (m : Msg) (type : Nat) (r : JRecord) : Bool :=
  match s.session m.session, r.body with
  | some x, .admitted d _ _ _ _ _ _ _ _ => d == msgDigest x m type
  | some x, .refuse d _ => d == msgDigest x m type
  | _, _ => false

/-- A submission: admitted or refused as the holder's record says. -/
def State.submit (s : State) (m : Msg) (type : Nat) (f : State → State) (refuse : Code → State → State) : State :=
  s.withHolder m (s.recordOf m type) (fun r => match r.body with
    | .refuse _ c => refuse c
    | _ => f) f

def execSubmitPass (m : Msg) (s : State) : Host.Outcome State Fault Refusal :=
  .next (s.submit m 0x0100 (submitPassEffect m) (refusePass m))

def execSubmitGen (m : Msg) (s : State) : Host.Outcome State Fault Refusal :=
  .next (s.submit m 0x0101 (submitGenEffect m) (refuseGen m))

/-- CANDIDATES (R271 to R274). -/
def execCandidates (m : Msg) (s : State) : Host.Outcome State Fault Refusal :=
  let waits := (s.waitingSeq m.session (u32 m.payload 0) (u32 m.payload 4)).isSome
  .next (s.withHolder m (fun r => waits && r.body == .candidates m.payload) (fun _ => candidatesEffect m) (candidatesEffect m))

/-- CANCEL (R224). -/
def execCancel (m : Msg) (s : State) : Host.Outcome State Fault Refusal :=
  .next (s.withHolder m (fun r => r.body == .cancel (u32 m.payload 0)) (fun _ => cancelEffect m) (cancelEffect m))

/-- Is a record the BUDGET record of a message's customer? -/
def budgetOf (m : Msg) (r : JRecord) : Bool :=
  match r.body with
  | .budget cu _ _ _ => cu == u16 m.payload 0
  | _ => false

def execBudgetOpen (m : Msg) (s : State) : Host.Outcome State Fault Refusal :=
  .next (s.withHolder m (fun r => budgetOf m r && u8 m.payload 2 == 1) (fun _ => budgetOpenEffect m) (budgetOpenEffect m))

def execBudgetClose (m : Msg) (s : State) : Host.Outcome State Fault Refusal :=
  .next (s.withHolder m (fun r => budgetOf m r && u8 m.payload 2 == 2) (fun _ => budgetCloseEffect m) (budgetCloseEffect m))

def execBudgetGrant (m : Msg) (s : State) : Host.Outcome State Fault Refusal :=
  .next (s.withHolder m (budgetOf m) (fun _ => budgetGrantEffect m) (budgetGrantEffect m))

/-- Is a record the MODEL record of an event on a message's slot? -/
def modelOf (m : Msg) (ev : ModelEvent) (r : JRecord) : Bool :=
  match r.body with
  | .model e k _ => e == ev && k == u8 m.payload 0
  | _ => false

def execModelLoad (m : Msg) (s : State) : Host.Outcome State Fault Refusal :=
  .next (s.withHolder m (modelOf m .loadAdmitted) (fun _ => modelLoadEffect m) (modelLoadEffect m))

def execModelUnloadDrain (m : Msg) (s : State) : Host.Outcome State Fault Refusal :=
  .next (s.withHolder m (fun r => modelOf m .unload r && u8 m.payload 1 == 1) (fun _ => unloadDrainEffect m) (unloadDrainEffect m))

def execModelUnloadAbort (m : Msg) (s : State) : Host.Outcome State Fault Refusal :=
  .next (s.withHolder m (fun r => modelOf m .unload r && u8 m.payload 1 == 2) (fun _ => unloadAbortEffect m) (unloadAbortEffect m))

-- What every message between the twins goes through (R353, R354, R364).

/-- A MIRROR of an operation from the twin. `newer` says that the records it carries begin no earlier than beyond the CONFIG record
of a newer epoch. -/
def State.mirrorMsg (s : State) (m : Msg) (op : Nat) (newer : Bool) (body : State → State) : State :=
  let p := m.payload
  if !s.supActs ∨ (u8 p 0 ≠ op ∧ 1 ≤ u8 p 0 ∧ u8 p 0 ≤ 4) then s
  else s.withMsg m 0x0500 (if op = 2 ∨ op = 3 then some 32 else none) fun s x =>
    if p.length < 32 then s.reply m 0x0500 Code.E_INPUT_SIZE
    else if u8 p 0 ≠ op ∨ u8 p 1 ≠ 0 ∨ (op < 3 ∧ !allZero p 24 8) then s.reply m 0x0500 Code.E_RESERVED
    else if !s.fromPair x ∨ (newer ∧ s.cont.config.epoch < u64 p 16) then s.reply m 0x0500 Code.B_RETRY
    else body s

/-- A LEASE of an operation from the twin. A different digest at the same epoch: CONT.FAULT.CONFIG, and the twin counts as lost. -/
def State.leaseMsg (s : State) (m : Msg) (op : Nat) (body : State → State) : State :=
  let p := m.payload
  if !s.supActs ∨ (u8 p 0 ≠ op ∧ 1 ≤ u8 p 0 ∧ u8 p 0 ≤ 6) then s
  else s.withMsg m 0x0501 (some 96) fun s x =>
    if u8 p 0 ≠ op ∨ !allZero p 1 3 ∨ !allZero p 80 16 then s.reply m 0x0501 Code.E_RESERVED
    else if !s.fromPair x then s.reply m 0x0501 Code.B_RETRY
    else if u64 p 8 = s.cont.config.epoch ∧ slice p 32 48 ≠ s.configDigest then
      ((s.rset Fld.CONT_FAULT_CONFIG 1).loseTwin).reply m 0x0501 Code.B_RETRY
    else body s

/-- A LEASE grant or refusal from the rack controller (R354). -/
def State.rackLease (s : State) (m : Msg) (op : Nat) (body : State → State) : State :=
  let p := m.payload
  match s.session m.session with
  | none => s
  | some x =>
    if !s.supActs ∨ x.closing ∨ (u8 p 0 ≠ op ∧ 1 ≤ u8 p 0 ∧ u8 p 0 ≤ 6) then s
    else if x.role ≠ 4 then (s.reply m 0x0501 Code.E_ROLE).consume m
    else if p.length ≠ 96 then (s.reply m 0x0501 Code.E_INPUT_SIZE).consume m
    else if u8 p 0 ≠ op ∨ !allZero p 1 3 ∨ !allZero p 80 16 then (s.reply m 0x0501 Code.E_RESERVED).consume m
    else (body s).consume m

-- Records (R346, R352, R353).

/-- Work that a joiner still has to do before it has caught up (R355): messages to fetch, sequences to rebuild. -/
def State.catchingUp (s : State) : Bool :=
  !s.cont.twin.wanting.isEmpty || s.srv.sequences.any fun x => x.2.phase == .preempted || x.2.rebuild

/-- A follower acknowledges the holder's records once they are durable in its own journal; a joiner once it has caught up, from when it
is a follower. -/
def State.ackHeld (s : State) : State :=
  let n := s.heldDurable
  if !s.supActs ∨ (s.twinState ≠ 2 ∧ s.twinState ≠ 4) ∨ n ≤ s.cont.twin.acked ∨ (s.twinState = 4 ∧ s.catchingUp) then s
  else
    let s1 := s.toTwin 0x0500 (s.mirrorPayload 2 0 n 0 [])
    let s2 : State := { s1 with cont := { s1.cont with twin := { s1.cont.twin with acked := n } } }
    if s.twinState = 4 then s2.rset Fld.CONT_STATUS_TWIN 2 else s2

/-- JOURNAL_DURABLE (R346, R352, R353): the memory controller has acknowledged every granule of a record. The holder sends what its twin
does not have yet, the follower acknowledges what it now holds durable. -/
def journalDurable (index : Nat) (s : State) : State :=
  let l := s.cont.journal.map fun r => if r.index = index then { r with written := true } else r
  (({ s with cont := { s.cont with journal := l } } : State).mirrorOut).ackHeld

def execJournalDurable (index : Nat) (s : State) : Host.Outcome State Fault Refusal := .next (journalDurable index s)

/-- A session of a protected pair that the holder has closed ends (R318). -/
def State.closeMirrored (s : State) (n : Nat) : State :=
  if (s.session n).any (·.wantsProtected) then
    ((s.endSessionWork n).onSession n fun x => { x with closing := true }).endIfDone n
  else s

/-- The customer of a request's mirrored ADMIT record. -/
def State.admitCustomer (s : State) (row : Nat) : Option Nat :=
  (s.cont.journal.findSome? fun r => match r.body with
    | .admitted _ cu _ _ _ _ _ _ _ => if 128 ≤ r.origin ∧ r.index % 4294967296 = row then some cu else none
    | _ => none)

/-- The charge or refund of a record on an account. -/
def State.chargeMirrored (s : State) (r : JRecord) : State :=
  match r.body with
  | .allow slot add => match (s.admitRow slot r.index).bind s.admitCustomer with
    | some cu => s.debit cu add
    | none => s
  | .refund n => match s.admitCustomer r.subject with
    | some cu => s.putAccount cu { s.account cu with balance := min balanceMax ((s.account cu).balance + n) }
    | none => s
  | _ => s

/-- Apply one record of the holder, in index order and once (R352). What a partner's message asked for waits for this module's own copy of
the message; what the holder did of its own accord is done at once. -/
def State.applyRecord (s : State) (r : JRecord) : State :=
  if r.index ≤ s.cont.twin.applied ∧ s.cont.journal.any fun x => x.index == r.index && 128 ≤ x.origin then s
  else
    let s1 := s.mirrorIn r
    let t := s1.cont.twin
    let s2 : State := { s1 with cont := { s1.cont with twin := { t with applied := max t.applied r.index } } }
    let want : State := { s2 with cont := { s2.cont with twin := { s2.cont.twin with wanting := t.wanting ++ [r] } } }
    match r.body with
    | .admitted .. => want
    | .refuse .. => want
    | .cancel _ => want
    | .candidates _ => want
    | .budget cu b g o =>
      if r.session = 0 then s2.putAccount cu { s2.account cu with balance := b, grant := g, isOpen := o } else want
    | .model .loadCompleted _ _ => s2
    | .model _ _ _ => want
    | .session .closed _ => s2.closeMirrored r.session
    | .config e h =>
      match s2.cont.staged with
      | some x => if x.epoch = e ∧ x.payload = h then s2.applyConfig x else s2
      | none => s2
    | .allow .. => (s2.chargeMirrored r).adoptRecord r
    | .refund _ => s2.chargeMirrored r
    | .tokens .. => s2.adoptRecord r
    | _ => s2

/-- MIRROR_RECORDS (R352, R364): the records of the payload. -/
def mirrorRecords (m : Msg) (records : List JRecord) (s : State) : State :=
  if u16 m.payload 2 ≠ records.length ∨ m.payload.drop 32 ≠ (records.map recordBytes).flatten then s
  else
    let opens := records.any fun r => match r.body with
      | .config e _ => e == u64 m.payload 16
      | _ => false
    s.mirrorMsg m 1 (!opens) fun s =>
      if s.twinState ≠ 2 ∧ s.twinState ≠ 4 then s.reply m 0x0500 Code.B_RETRY
      else (records.foldl (fun (s : State) r => s.applyRecord r) s).ackHeld

def execMirrorRecords (m : Msg) (records : List JRecord) (s : State) : Host.Outcome State Fault Refusal :=
  .next (mirrorRecords m records s)

/-- MIRROR_ACK (R353, R355): the ack of the holder's highest index completes a join. -/
def mirrorAck (m : Msg) (s : State) : State :=
  s.mirrorMsg m 2 false fun s =>
    if s.twinState ≠ 1 then s
    else
      let n := u64 m.payload 8
      let c := s.cont
      let done : Bool := c.twin.joining && decide (c.twin.mirrored ≤ n)
      { s with cont := { c with twinAck := max c.twinAck (min n (c.nextIndex - 1)), twinHealthy := c.twinHealthy || done,
                                twin := { c.twin with joining := c.twin.joining && !done, lost := c.twin.lost && !done } } }

def execMirrorAck (m : Msg) (s : State) : Host.Outcome State Fault Refusal := .next (mirrorAck m s)

/-- The partner's message of a session and number that this module holds (R352). -/
def State.heldCopy (s : State) (session number : Nat) : Option Delivered :=
  (s.net.inbox ++ s.net.copies).find? fun d => d.session == session && d.number == number

/-- MIRROR_FETCH (R352, R353): the message goes back as header and payload; one that is not held is not answered. -/
def mirrorFetch (m : Msg) (s : State) : State :=
  s.mirrorMsg m 3 false fun s =>
    let n := u64 m.payload 8 % 4294967296
    match s.heldCopy n (u64 m.payload 24), s.session n with
    | some d, some x =>
      let h := partnerHeader x ⟨d.session, d.number, d.tag, d.payload⟩ d.type
      s.toTwin 0x0500 (s.mirrorPayload 4 0 n d.number (h ++ d.payload))
    | _, _ => s

def execMirrorFetch (m : Msg) (s : State) : Host.Outcome State Fault Refusal := .next (mirrorFetch m s)

/-- MIRROR_FETCHED_MESSAGE (R352): the message is delivered as if it had arrived. The command of its type executes it. -/
def mirrorFetched (m : Msg) (s : State) : State :=
  s.mirrorMsg m 4 false fun s =>
    let b := m.payload.drop 32
    let n := u32 b 8
    let number := u64 b 16
    match s.session n with
    | none => s
    | some x =>
      if number < x.nextDeliver ∨ Dict.has x.ahead number then s
      else s.settle n number (some { session := n, type := u16 b 4, number := number, tag := u32 b 24, payload := b.drop 32 })

def execMirrorFetchedMessage (m : Msg) (s : State) : Host.Outcome State Fault Refusal := .next (mirrorFetched m s)

/-- FOLLOWER_FETCH_TIMER (R352): for each session with an ADMIT record whose message is not held, the first message that this module
lacks on it is fetched. -/
def followerFetch (s : State) : State :=
  if !s.supActs ∨ (s.twinState ≠ 2 ∧ s.twinState ≠ 4) then s
  else
    let admits := s.cont.twin.wanting.filter fun r => match r.body with
      | .admitted .. => !(s.net.inbox.any fun d =>
          d.session == r.session && s.recordOf ⟨d.session, d.number, d.tag, d.payload⟩ d.type r)
      | _ => false
    ((admits.map (·.session)).eraseDups).foldl (fun (s : State) n => match s.session n with
      | some x => s.toTwin 0x0500 (s.mirrorPayload 3 0 n x.nextDeliver [])
      | none => s) s

def execFollowerFetchTimer (s : State) : Host.Outcome State Fault Refusal := .next (followerFetch s)

/-- MIRROR_ACK_TIMEOUT (R353). -/
def mirrorTimeout (s : State) : State := if s.twinState = 1 ∧ s.cont.twinHealthy ∧ s.supActs then s.loseTwin else s

def execMirrorAckTimeout (s : State) : Host.Outcome State Fault Refusal := .next (mirrorTimeout s)

-- The twin lease (R354).

/-- TWIN_LEASE_RENEW: every 10 ms. -/
def twinRenew (s : State) : State :=
  if !s.supActs ∨ s.twinState ≠ 1 ∨ s.cont.twin.released then s
  else
    let n := s.cont.twin.renewals + 1
    let s1 : State := { s with cont := { s.cont with twin := { s.cont.twin with renewals := n } } }
    (s1.toTwin 0x0501 (s1.leasePayload 1 (s1.rget Fld.CONT_TWIN_LEASE_EPOCH) s1.cont.twin.mirrored n)).mirrorOut

def execTwinLeaseRenew (s : State) : Host.Outcome State Fault Refusal := .next (twinRenew s)

/-- TWIN_LEASE_RENEW_RECEIVED: the follower acknowledges it. A renewal of a lower epoch is fenced (R339); one of a higher epoch shows a
holder that another module has become. -/
def twinRenewed (m : Msg) (s : State) : State :=
  s.leaseMsg m 1 fun s =>
    let e := u32 m.payload 4
    if e < s.rget Fld.CONT_TWIN_LEASE_EPOCH ∨ (s.twinState = 1 ∧ e = s.rget Fld.CONT_TWIN_LEASE_EPOCH) ∨ s.twinState = 0 then
      s.reply m 0x0501 Code.B_RETRY
    else
      let s1 := s.rset Fld.CONT_TWIN_LEASE_EPOCH e
      let s2 := if s1.twinState = 1 then s1.rset Fld.CONT_STATUS_TWIN (if s1.cont.twinHealthy then 2 else 4)
        else if s1.twinState = 3 then s1.rset Fld.CONT_STATUS_TWIN 4 else s1
      let t : TwinState := { s2.cont.twin with claiming := none, released := false, acting := true, joining := false, lost := false }
      let s3 : State := { s2 with cont := { s2.cont with twin := t, twinHealthy := false } }
      s3.toTwin 0x0501 (s3.leasePayload 2 e s3.heldDurable (u64 m.payload 24))

def execTwinLeaseRenewReceived (m : Msg) (s : State) : Host.Outcome State Fault Refusal := .next (twinRenewed m s)

/-- TWIN_LEASE_ACK: the renewal sent last is acknowledged. -/
def twinAckReceived (m : Msg) (s : State) : State :=
  s.leaseMsg m 2 fun s =>
    let t := s.cont.twin
    if s.twinState = 1 ∧ !t.released ∧ u64 m.payload 24 = t.renewals then
      { s with cont := { s.cont with twin := { t with acting := true } } }
    else s

def execTwinLeaseAck (m : Msg) (s : State) : Host.Outcome State Fault Refusal := .next (twinAckReceived m s)

/-- TWIN_LEASE_HOLD_LIMIT: 40 ms without an acknowledged renewal. -/
def execTwinLeaseHoldLimit (s : State) : Host.Outcome State Fault Refusal :=
  .next (if s.twinState = 1 ∧ s.supActs ∧ !s.cont.twin.released then s.releaseTwin else s)

/-- A follower claims the next epoch. -/
def State.claimNext (s : State) (lost : Bool) : State :=
  let t := s.cont.twin
  ({ s with cont := { s.cont with twin := { t with lost := t.lost || lost } } } : State).sendClaim
    ((s.rget Fld.CONT_TWIN_LEASE_EPOCH + 1) % 4294967296)

/-- TWIN_LEASE_RELEASE. -/
def twinReleased (m : Msg) (s : State) : State :=
  s.leaseMsg m 3 fun s =>
    if s.twinState ≠ 2 then s
    else if u32 m.payload 4 < s.rget Fld.CONT_TWIN_LEASE_EPOCH then s.reply m 0x0501 Code.B_RETRY
    else s.claimNext false

def execTwinLeaseRelease (m : Msg) (s : State) : Host.Outcome State Fault Refusal := .next (twinReleased m s)

/-- TWIN_LEASE_EXPIRY: 70 ms without a renewal. -/
def execTwinLeaseExpiry (s : State) : Host.Outcome State Fault Refusal :=
  .next (if s.twinState = 2 ∧ s.supActs then s.claimNext true else s)

/-- The module counters of a module that takes the twin lease: the last mirrored value + 2^32 (R321). -/
def State.twinCounters (s : State) : State :=
  let mirrored := fun (n : Nat) => s.cont.journal.foldl (fun m r => match r.body with
    | .session _ k => if r.session = n ∧ 128 ≤ r.origin then max m k else m
    | _ => m) 1
  { s with net := { s.net with sessions := s.net.sessions.map fun (k, x) =>
      (k, if x.wantsProtected then { x with counter := max x.counter (mirrored x.number + 4294967296) } else x) } }

/-- TWIN_LEASE_GRANT: the module holds the new epoch; it goes on alone if the twin is lost. -/
def twinGranted (m : Msg) (s : State) : State :=
  s.rackLease m 5 fun s =>
    let e := u32 m.payload 4
    if s.cont.twin.claiming ≠ some e ∨ s.twinState ≠ 2 then s
    else
      let t : TwinState := { s.cont.twin with claiming := none, acting := true, released := false }
      let s1 := (s.rset Fld.CONT_TWIN_LEASE_EPOCH e).twinCounters
      let s2 : State := { s1 with cont := { s1.cont with twin := t, twinHealthy := !t.lost, twinAck := t.applied } }
      if t.lost then ({ s2 with cont := { s2.cont with twin := { t with lost := true } } } : State).rset Fld.CONT_STATUS_TWIN 1 |>.loseTwin
      else s2.rset Fld.CONT_STATUS_TWIN 1

def execTwinLeaseGrant (m : Msg) (s : State) : Host.Outcome State Fault Refusal := .next (twinGranted m s)

/-- TWIN_LEASE_REFUSE: the module stays the follower. -/
def twinRefused (m : Msg) (s : State) : State :=
  s.rackLease m 6 fun s => { s with cont := { s.cont with twin := { s.cont.twin with claiming := none } } }

def execTwinLeaseRefuse (m : Msg) (s : State) : Host.Outcome State Fault Refusal := .next (twinRefused m s)

/-- PREFERRED_TWIN_LEASE_RETURN (R343, R355): the holder in the higher slot releases the lease to its healthy twin. -/
def preferredTwinReturn (s : State) : State :=
  match s.mySlot, s.twinSlot with
  | some k, some t => if s.twinState = 1 ∧ s.cont.twinHealthy ∧ s.supActs ∧ t < k ∧ !s.cont.twin.released then s.releaseTwin else s
  | _, _ => s

def execPreferredTwinLeaseReturn (s : State) : Host.Outcome State Fault Refusal := .next (preferredTwinReturn s)

-- Joining (R355).

/-- The records that a new twin needs: those of the sessions and of every live request that are bound, then the TOKENS records of every live
sequence. -/
def State.joinRecords (s : State) : List JRecord × List JRecord :=
  let live := fun (r : JRecord) => !s.recEnded r
  let bound := s.cont.journal.filter fun r => isBound r.body && (match r.body with
    | .budget .. => false
    | .model .. => false
    | .config .. => false
    | _ => live r)
  let toks := s.cont.journal.filter fun r => (match r.body with
    | .tokens .. => live r
    | _ => false)
  (bound, toks)

/-- TWIN_JOIN, step 1, on the holder: the records go to the new twin. Steps 2 to 5 are the joiner's, in the rows of what it receives. -/
def twinJoin (s : State) : State :=
  if !s.supActs ∨ s.twinState ≠ 1 ∨ s.cont.twinHealthy ∨ s.cont.twin.joining ∨ s.twinSession.isNone then s
  else
    let l := s.joinRecords
    let s1 := (s.sendRecords l.1).sendRecords l.2
    { s1 with cont := { s1.cont with twin := { s1.cont.twin with joining := true } } }

def execTwinJoin (s : State) : Host.Outcome State Fault Refusal := .next (twinJoin s)

end Sys2Proof.Machine
end

