-- ==== Sys2Proof/Machine/Dispatch.lean ====
section
/-! DEFINITION. Dispatch.lean: each command and its meaning. -/

namespace Sys2Proof.Machine

/-- The effect of a command on everything but the queue. -/
def exec (i : Instr) (s : State) : Host.Outcome State Fault Refusal :=
  match i with
  | .sessionOpen port peer wire => Sys2Proof.Machine.execSessionOpen port peer wire s
  | .sessionClose m => Sys2Proof.Machine.execSessionClose m s
  | .idleClose session => Sys2Proof.Machine.execIdleClose session s
  | .pathAdd port peer m => Sys2Proof.Machine.execPathAdd port peer m s
  | .macsecSak m => Sys2Proof.Machine.execMacsecSak m s
  | .dataFrame d => Sys2Proof.Machine.execDataFrame d s
  | .ackFrame d => Sys2Proof.Machine.execAckFrame d s
  | .probeFrame d => Sys2Proof.Machine.execProbeFrame d s
  | .pathResetFrame d => Sys2Proof.Machine.execPathResetFrame d s
  | .ackDelayExpiry session path => Sys2Proof.Machine.execAckDelayExpiry session path s
  | .retransmitTimeout session path => Sys2Proof.Machine.execRetransmitTimeout session path s
  | .probeInterval session path => Sys2Proof.Machine.execProbeInterval session path s
  | .sendMessage session => Sys2Proof.Machine.execSendMessage session s
  | .authFailTimeout session number => Sys2Proof.Machine.execAuthFailTimeout session number s
  | .phyLinkChange port up => Sys2Proof.Machine.execPhyLinkChange port up s
  | .oamFrame port status => Sys2Proof.Machine.execOamFrame port status s
  | .arpRequest a => Sys2Proof.Machine.execArpRequest a s
  | .neighborSolicitation n => Sys2Proof.Machine.execNeighborSolicitation n s
  | .icmpEcho e => Sys2Proof.Machine.execIcmpEcho e s
  | .netApply => Sys2Proof.Machine.execNetApply s
  | .submitPass m => Sys2Proof.Machine.execSubmitPass m s
  | .submitGen m => Sys2Proof.Machine.execSubmitGen m s
  | .candidates m => Sys2Proof.Machine.execCandidates m s
  | .cancel m => Sys2Proof.Machine.execCancel m s
  | .budgetOpen m => Sys2Proof.Machine.execBudgetOpen m s
  | .budgetClose m => Sys2Proof.Machine.execBudgetClose m s
  | .budgetRead m => Sys2Proof.Machine.execBudgetRead m s
  | .budgetGrant m => Sys2Proof.Machine.execBudgetGrant m s
  | .refillInterval customer => Sys2Proof.Machine.execRefillInterval customer s
  | .modelLoad m => Sys2Proof.Machine.execModelLoad m s
  | .loadStart => Sys2Proof.Machine.execLoadStart s
  | .loadWeights => Sys2Proof.Machine.execLoadWeights s
  | .loadComplete => Sys2Proof.Machine.execLoadComplete s
  | .modelUnloadDrain m => Sys2Proof.Machine.execModelUnloadDrain m s
  | .modelUnloadAbort m => Sys2Proof.Machine.execModelUnloadAbort m s
  | .slotEmptied slot => Sys2Proof.Machine.execSlotEmptied slot s
  | .queueHoldExpiry q => Sys2Proof.Machine.execQueueHoldExpiry q s
  | .requestDeadline row => Sys2Proof.Machine.execRequestDeadline row s
  | .batchStart => Sys2Proof.Machine.execBatchStart s
  | .decodingStepEnd seq => Sys2Proof.Machine.execDecodingStepEnd seq s
  | .stepCommit seq => Sys2Proof.Machine.execStepCommit seq s
  | .sequenceRebuild seq => Sys2Proof.Machine.execSequenceRebuild seq s
  | .releaseGridTick => Sys2Proof.Machine.execReleaseGridTick s
  | .fixedModeWrite on => Sys2Proof.Machine.execFixedModeWrite on s
  | .fixedModeTakesEffect => Sys2Proof.Machine.execFixedModeTakesEffect s
  | .fixedSlotStart => Sys2Proof.Machine.execFixedSlotStart s
  | .fixedSlotGuard => Sys2Proof.Machine.execFixedSlotGuard s
  | .tileFetchDone => Sys2Proof.Machine.execTileFetchDone s
  | .shadowWriteDone => Sys2Proof.Machine.execShadowWriteDone s
  | .passIssue parity => Sys2Proof.Machine.execPassIssue parity s
  | .passLanded error corrected => Sys2Proof.Machine.execPassLanded error corrected s
  | .bankDrainStart bank refuses error corrected => Sys2Proof.Machine.execBankDrainStart bank refuses error corrected s
  | .drainResume bank refuses error corrected => Sys2Proof.Machine.execDrainResume bank refuses error corrected s
  | .drainEnd bank => Sys2Proof.Machine.execDrainEnd bank s
  | .coatComplete coat => Sys2Proof.Machine.execCoatComplete coat s
  | .stripeLoadDone coat => Sys2Proof.Machine.execStripeLoadDone coat s
  | .windowGather coat => Sys2Proof.Machine.execWindowGather coat s
  | .cropAndResize coat => Sys2Proof.Machine.execCropAndResize coat s
  | .argmax coat => Sys2Proof.Machine.execArgmax coat s
  | .fusedAttention coat => Sys2Proof.Machine.execFusedAttention coat s
  | .kernelStart coat kernel => Sys2Proof.Machine.execKernelStart coat kernel s
  | .kernelEnd coat kernel => Sys2Proof.Machine.execKernelEnd coat kernel s
  | .coreContextSwitch physical => Sys2Proof.Machine.execCoreContextSwitch physical s
  | .add core sd sa sb => Sys2Proof.Machine.execAdd core sd sa sb s
  | .sub core sd sa sb => Sys2Proof.Machine.execSub core sd sa sb s
  | .and core sd sa sb => Sys2Proof.Machine.execAnd core sd sa sb s
  | .or core sd sa sb => Sys2Proof.Machine.execOr core sd sa sb s
  | .xor core sd sa sb => Sys2Proof.Machine.execXor core sd sa sb s
  | .sll core sd sa sb => Sys2Proof.Machine.execSll core sd sa sb s
  | .srl core sd sa sb => Sys2Proof.Machine.execSrl core sd sa sb s
  | .sra core sd sa sb => Sys2Proof.Machine.execSra core sd sa sb s
  | .mul core sd sa sb => Sys2Proof.Machine.execMul core sd sa sb s
  | .mulh core sd sa sb => Sys2Proof.Machine.execMulh core sd sa sb s
  | .mulhu core sd sa sb => Sys2Proof.Machine.execMulhu core sd sa sb s
  | .div core sd sa sb => Sys2Proof.Machine.execDiv core sd sa sb s
  | .divu core sd sa sb => Sys2Proof.Machine.execDivu core sd sa sb s
  | .rem core sd sa sb => Sys2Proof.Machine.execRem core sd sa sb s
  | .remu core sd sa sb => Sys2Proof.Machine.execRemu core sd sa sb s
  | .slt core sd sa sb => Sys2Proof.Machine.execSlt core sd sa sb s
  | .sltu core sd sa sb => Sys2Proof.Machine.execSltu core sd sa sb s
  | .min core sd sa sb => Sys2Proof.Machine.execMin core sd sa sb s
  | .max core sd sa sb => Sys2Proof.Machine.execMax core sd sa sb s
  | .addi core sd sa imm => Sys2Proof.Machine.execAddi core sd sa imm s
  | .andi core sd sa imm => Sys2Proof.Machine.execAndi core sd sa imm s
  | .ori core sd sa imm => Sys2Proof.Machine.execOri core sd sa imm s
  | .xori core sd sa imm => Sys2Proof.Machine.execXori core sd sa imm s
  | .shi core sd sa imm => Sys2Proof.Machine.execShi core sd sa imm s
  | .lui core sd imm => Sys2Proof.Machine.execLui core sd imm s
  | .slti core sd sa imm => Sys2Proof.Machine.execSlti core sd sa imm s
  | .fadd core sd sa sb => Sys2Proof.Machine.execFadd core sd sa sb s
  | .fsub core sd sa sb => Sys2Proof.Machine.execFsub core sd sa sb s
  | .fmul core sd sa sb => Sys2Proof.Machine.execFmul core sd sa sb s
  | .fdiv core sd sa sb => Sys2Proof.Machine.execFdiv core sd sa sb s
  | .fsqrt core sd sa => Sys2Proof.Machine.execFsqrt core sd sa s
  | .ffma core sd sa sb => Sys2Proof.Machine.execFfma core sd sa sb s
  | .fmin core sd sa sb => Sys2Proof.Machine.execFmin core sd sa sb s
  | .fmax core sd sa sb => Sys2Proof.Machine.execFmax core sd sa sb s
  | .feq core sd sa sb => Sys2Proof.Machine.execFeq core sd sa sb s
  | .flt core sd sa sb => Sys2Proof.Machine.execFlt core sd sa sb s
  | .fle core sd sa sb => Sys2Proof.Machine.execFle core sd sa sb s
  | .fcvtws core sd sa => Sys2Proof.Machine.execFcvtws core sd sa s
  | .fcvtsw core sd sa => Sys2Proof.Machine.execFcvtsw core sd sa s
  | .lb core sd sa imm => Sys2Proof.Machine.execLb core sd sa imm s
  | .lh core sd sa imm => Sys2Proof.Machine.execLh core sd sa imm s
  | .lw core sd sa imm => Sys2Proof.Machine.execLw core sd sa imm s
  | .ld core sd sa imm => Sys2Proof.Machine.execLd core sd sa imm s
  | .sb core sd sa imm => Sys2Proof.Machine.execSb core sd sa imm s
  | .sh core sd sa imm => Sys2Proof.Machine.execSh core sd sa imm s
  | .sw core sd sa imm => Sys2Proof.Machine.execSw core sd sa imm s
  | .sd core sd sa imm => Sys2Proof.Machine.execSd core sd sa imm s
  | .vld core vd sa p imm => Sys2Proof.Machine.execVld core vd sa p imm s
  | .vst core vd sa p imm => Sys2Proof.Machine.execVst core vd sa p imm s
  | .vlq8 core vd sa p imm => Sys2Proof.Machine.execVlq8 core vd sa p imm s
  | .vlq4 core vd sa p imm => Sys2Proof.Machine.execVlq4 core vd sa p imm s
  | .vsq8 core vd sa p imm => Sys2Proof.Machine.execVsq8 core vd sa p imm s
  | .vsq4 core vd sa p imm => Sys2Proof.Machine.execVsq4 core vd sa p imm s
  | .vadd core vd va vb p et => Sys2Proof.Machine.execVadd core vd va vb p et s
  | .vsub core vd va vb p et => Sys2Proof.Machine.execVsub core vd va vb p et s
  | .vmul core vd va vb p et => Sys2Proof.Machine.execVmul core vd va vb p et s
  | .vdot core vd va vb p et => Sys2Proof.Machine.execVdot core vd va vb p et s
  | .vmin core vd va vb p et => Sys2Proof.Machine.execVmin core vd va vb p et s
  | .vmax core vd va vb p et => Sys2Proof.Machine.execVmax core vd va vb p et s
  | .vand core vd va vb p et => Sys2Proof.Machine.execVand core vd va vb p et s
  | .vor core vd va vb p et => Sys2Proof.Machine.execVor core vd va vb p et s
  | .vxor core vd va vb p et => Sys2Proof.Machine.execVxor core vd va vb p et s
  | .vshl core vd va vb p et => Sys2Proof.Machine.execVshl core vd va vb p et s
  | .vshr core vd va vb p et => Sys2Proof.Machine.execVshr core vd va vb p et s
  | .vshru core vd va vb p et => Sys2Proof.Machine.execVshru core vd va vb p et s
  | .vfadd core vd va vb p et => Sys2Proof.Machine.execVfadd core vd va vb p et s
  | .vfsub core vd va vb p et => Sys2Proof.Machine.execVfsub core vd va vb p et s
  | .vfmul core vd va vb p et => Sys2Proof.Machine.execVfmul core vd va vb p et s
  | .vfma core vd va vb p et => Sys2Proof.Machine.execVfma core vd va vb p et s
  | .vfms core vd va vb p et => Sys2Proof.Machine.execVfms core vd va vb p et s
  | .vfdiv core vd va vb p et => Sys2Proof.Machine.execVfdiv core vd va vb p et s
  | .vfsqrt core vd va p et => Sys2Proof.Machine.execVfsqrt core vd va p et s
  | .vfmin core vd va vb p et => Sys2Proof.Machine.execVfmin core vd va vb p et s
  | .vfmax core vd va vb p et => Sys2Proof.Machine.execVfmax core vd va vb p et s
  | .vfabs core vd va p et => Sys2Proof.Machine.execVfabs core vd va p et s
  | .vfneg core vd va p et => Sys2Proof.Machine.execVfneg core vd va p et s
  | .vceq core pd va vb p et => Sys2Proof.Machine.execVceq core pd va vb p et s
  | .vcne core pd va vb p et => Sys2Proof.Machine.execVcne core pd va vb p et s
  | .vclt core pd va vb p et => Sys2Proof.Machine.execVclt core pd va vb p et s
  | .vcle core pd va vb p et => Sys2Proof.Machine.execVcle core pd va vb p et s
  | .pand core pd pa pb => Sys2Proof.Machine.execPand core pd pa pb s
  | .por core pd pa pb => Sys2Proof.Machine.execPor core pd pa pb s
  | .pxor core pd pa pb => Sys2Proof.Machine.execPxor core pd pa pb s
  | .pnot core pd pa => Sys2Proof.Machine.execPnot core pd pa s
  | .vsel core vd va vb p et => Sys2Proof.Machine.execVsel core vd va vb p et s
  | .vcvt core vd va p et dst => Sys2Proof.Machine.execVcvt core vd va p et dst s
  | .vperm core vd va vb p et => Sys2Proof.Machine.execVperm core vd va vb p et s
  | .exp2 core vd va p => Sys2Proof.Machine.execExp2 core vd va p s
  | .rcp core vd va p => Sys2Proof.Machine.execRcp core vd va p s
  | .rsqrt core vd va p => Sys2Proof.Machine.execRsqrt core vd va p s
  | .log2 core vd va p => Sys2Proof.Machine.execLog2 core vd va p s
  | .tanh core vd va p => Sys2Proof.Machine.execTanh core vd va p s
  | .sigm core vd va p => Sys2Proof.Machine.execSigm core vd va p s
  | .gelu core vd va p => Sys2Proof.Machine.execGelu core vd va p s
  | .gelut core vd va p => Sys2Proof.Machine.execGelut core vd va p s
  | .silu core vd va p => Sys2Proof.Machine.execSilu core vd va p s
  | .vbcast core v sa et => Sys2Proof.Machine.execVbcast core v sa et s
  | .vins core v sa lane et => Sys2Proof.Machine.execVins core v sa lane et s
  | .vextr core v sd lane et => Sys2Proof.Machine.execVextr core v sd lane et s
  | .vredsum core v sd p et => Sys2Proof.Machine.execVredsum core v sd p et s
  | .vredmax core v sd p et => Sys2Proof.Machine.execVredmax core v sd p et s
  | .vredmin core v sd p et => Sys2Proof.Machine.execVredmin core v sd p et s
  | .vredarg core v sd p et => Sys2Proof.Machine.execVredarg core v sd p et s
  | .pcnt core sd p et => Sys2Proof.Machine.execPcnt core sd p et s
  | .beq core sa sb off => Sys2Proof.Machine.execBeq core sa sb off s
  | .bne core sa sb off => Sys2Proof.Machine.execBne core sa sb off s
  | .blt core sa sb off => Sys2Proof.Machine.execBlt core sa sb off s
  | .bge core sa sb off => Sys2Proof.Machine.execBge core sa sb off s
  | .bltu core sa sb off => Sys2Proof.Machine.execBltu core sa sb off s
  | .bgeu core sa sb off => Sys2Proof.Machine.execBgeu core sa sb off s
  | .jal core sd off => Sys2Proof.Machine.execJal core sd off s
  | .jr core sa => Sys2Proof.Machine.execJr core sa s
  | .msend core sa => Sys2Proof.Machine.execMsend core sa s
  | .creditReturn core => Sys2Proof.Machine.execCreditReturn core s
  | .cred core sd => Sys2Proof.Machine.execCred core sd s
  | .mwait core => Sys2Proof.Machine.execMwait core s
  | .bar core => Sys2Proof.Machine.execBar core s
  | .barrierRelease coat kernel => Sys2Proof.Machine.execBarrierRelease coat kernel s
  | .fence core => Sys2Proof.Machine.execFence core s
  | .xredFsum core sd sa => Sys2Proof.Machine.execXredFsum core sd sa s
  | .xredFmax core sd sa => Sys2Proof.Machine.execXredFmax core sd sa s
  | .xredFmin core sd sa => Sys2Proof.Machine.execXredFmin core sd sa s
  | .xredIsum core sd sa => Sys2Proof.Machine.execXredIsum core sd sa s
  | .xredImax core sd sa => Sys2Proof.Machine.execXredImax core sd sa s
  | .xredComplete coat kernel => Sys2Proof.Machine.execXredComplete coat kernel s
  | .draw core sd sa sb => Sys2Proof.Machine.execDraw core sd sa sb s
  | .flags core sd => Sys2Proof.Machine.execFlags core sd s
  | .done core => Sys2Proof.Machine.execDone core s
  | .translationFault owner vpn write master => Sys2Proof.Machine.execTranslationFault owner vpn write master s
  | .spilledPageRestore owner vpn => Sys2Proof.Machine.execSpilledPageRestore owner vpn s
  | .tableUpdateDone => Sys2Proof.Machine.execTableUpdateDone s
  | .rangeMove owner => Sys2Proof.Machine.execRangeMove owner s
  | .pageCleared page => Sys2Proof.Machine.execPageCleared page s
  | .activationSpill => Sys2Proof.Machine.execActivationSpill s
  | .kvCartridgeSpill => Sys2Proof.Machine.execKvCartridgeSpill s
  | .uncorrectableGranule granule wrong => Sys2Proof.Machine.execUncorrectableGranule granule wrong s
  | .patrolPass corrected => Sys2Proof.Machine.execPatrolPass corrected s
  | .dqsOscillatorRead drifted => Sys2Proof.Machine.execDqsOscillatorRead drifted s
  | .zqCalibration => Sys2Proof.Machine.execZqCalibration s
  | .mr4Read code => Sys2Proof.Machine.execMr4Read code s
  | .perBankRefresh => Sys2Proof.Machine.execPerBankRefresh s
  | .bankCollision m1 m2 bank unit d1 d2 => Sys2Proof.Machine.execBankCollision m1 m2 bank unit d1 d2 s
  | .bankUncorrectable master bank unit wrong => Sys2Proof.Machine.execBankUncorrectable master bank unit wrong s
  | .videoOpen m => Sys2Proof.Machine.execVideoOpen m s
  | .videoData m => Sys2Proof.Machine.execVideoData m s
  | .videoCloseDrain m => Sys2Proof.Machine.execVideoCloseDrain m s
  | .videoCloseAbort m => Sys2Proof.Machine.execVideoCloseAbort m s
  | .pictureDecodeStart => Sys2Proof.Machine.execPictureDecodeStart s
  | .pictureDecoded pipe => Sys2Proof.Machine.execPictureDecoded pipe s
  | .pictureWatchdog pipe block => Sys2Proof.Machine.execPictureWatchdog pipe block s
  | .pictureDeliver => Sys2Proof.Machine.execPictureDeliver s
  | .pictureEncode => Sys2Proof.Machine.execPictureEncode s
  | .videoContextRestart => Sys2Proof.Machine.execVideoContextRestart s
  | .mgmtRead m => Sys2Proof.Machine.execMgmtRead m s
  | .mgmtWrite m => Sys2Proof.Machine.execMgmtWrite m s
  | .gateWrite mask value => Sys2Proof.Machine.execGateWrite mask value s
  | .arrCounterClear => Sys2Proof.Machine.execArrCounterClear s
  | .feedCounterClear => Sys2Proof.Machine.execFeedCounterClear s
  | .trimCounterClear => Sys2Proof.Machine.execTrimCounterClear s
  | .memCounterClear => Sys2Proof.Machine.execMemCounterClear s
  | .xltCounterClear => Sys2Proof.Machine.execXltCounterClear s
  | .bankCounterClear => Sys2Proof.Machine.execBankCounterClear s
  | .srvCounterClear => Sys2Proof.Machine.execSrvCounterClear s
  | .vidCounterClear => Sys2Proof.Machine.execVidCounterClear s
  | .netCounterClear => Sys2Proof.Machine.execNetCounterClear s
  | .contCounterClear => Sys2Proof.Machine.execContCounterClear s
  | .thmCounterClear => Sys2Proof.Machine.execThmCounterClear s
  | .handover => Sys2Proof.Machine.execHandover s
  | .measStart cfg => Sys2Proof.Machine.execMeasStart cfg s
  | .measDone count => Sys2Proof.Machine.execMeasDone count s
  | .manualPointWrite m value => Sys2Proof.Machine.execManualPointWrite m value s
  | .rawSliceGo m slice unit => Sys2Proof.Machine.execRawSliceGo m slice unit s
  | .healthRead m => Sys2Proof.Machine.execHealthRead m s
  | .capSet m => Sys2Proof.Machine.execCapSet m s
  | .capSettled => Sys2Proof.Machine.execCapSettled s
  | .opStep failed => Sys2Proof.Machine.execOpStep failed s
  | .voltageConfirmTimeout => Sys2Proof.Machine.execVoltageConfirmTimeout s
  | .powerInterval mw => Sys2Proof.Machine.execPowerInterval mw s
  | .throttleAssert => Sys2Proof.Machine.execThrottleAssert s
  | .throttleRelease => Sys2Proof.Machine.execThrottleRelease s
  | .throttleRampStep => Sys2Proof.Machine.execThrottleRampStep s
  | .crystalStable side ok => Sys2Proof.Machine.execCrystalStable side ok s
  | .pllLockLoss pll => Sys2Proof.Machine.execPllLockLoss pll s
  | .oscillatorCheck osc count => Sys2Proof.Machine.execOscillatorCheck osc count s
  | .tempoWindow count paced => Sys2Proof.Machine.execTempoWindow count paced s
  | .thermalInterval x => Sys2Proof.Machine.execThermalInterval x s
  | .airflowClear => Sys2Proof.Machine.execAirflowClear s
  | .flowAverage => Sys2Proof.Machine.execFlowAverage s
  | .suddenStopWatchEnd => Sys2Proof.Machine.execSuddenStopWatchEnd s
  | .suddenStopClear => Sys2Proof.Machine.execSuddenStopClear s
  | .beatWatch => Sys2Proof.Machine.execBeatWatch s
  | .frontEndReturn => Sys2Proof.Machine.execFrontEndReturn s
  | .checkpoint => Sys2Proof.Machine.execCheckpoint s
  | .leaseRenewal => Sys2Proof.Machine.execLeaseRenewal s
  | .leaseHoldLimit => Sys2Proof.Machine.execLeaseHoldLimit s
  | .standbyLeasePoll => Sys2Proof.Machine.execStandbyLeasePoll s
  | .takeover => Sys2Proof.Machine.execTakeover s
  | .replay => Sys2Proof.Machine.execReplay s
  | .preferredLeaseReturn => Sys2Proof.Machine.execPreferredLeaseReturn s
  | .journalDurable index => Sys2Proof.Machine.execJournalDurable index s
  | .mirrorRecords m records => Sys2Proof.Machine.execMirrorRecords m records s
  | .mirrorAck m => Sys2Proof.Machine.execMirrorAck m s
  | .mirrorFetch m => Sys2Proof.Machine.execMirrorFetch m s
  | .mirrorFetchedMessage m => Sys2Proof.Machine.execMirrorFetchedMessage m s
  | .followerFetchTimer => Sys2Proof.Machine.execFollowerFetchTimer s
  | .mirrorAckTimeout => Sys2Proof.Machine.execMirrorAckTimeout s
  | .twinLeaseRenew => Sys2Proof.Machine.execTwinLeaseRenew s
  | .twinLeaseRenewReceived m => Sys2Proof.Machine.execTwinLeaseRenewReceived m s
  | .twinLeaseAck m => Sys2Proof.Machine.execTwinLeaseAck m s
  | .twinLeaseHoldLimit => Sys2Proof.Machine.execTwinLeaseHoldLimit s
  | .twinLeaseRelease m => Sys2Proof.Machine.execTwinLeaseRelease m s
  | .twinLeaseExpiry => Sys2Proof.Machine.execTwinLeaseExpiry s
  | .twinLeaseGrant m => Sys2Proof.Machine.execTwinLeaseGrant m s
  | .twinLeaseRefuse m => Sys2Proof.Machine.execTwinLeaseRefuse m s
  | .twinJoin => Sys2Proof.Machine.execTwinJoin s
  | .configStage m => Sys2Proof.Machine.execConfigStage m s
  | .configActivate m => Sys2Proof.Machine.execConfigActivate m s
  | .heartbeat => Sys2Proof.Machine.execHeartbeat s
  | .flushRecord => Sys2Proof.Machine.execFlushRecord s
  | .pullSenseBreak pin => Sys2Proof.Machine.execPullSenseBreak pin s
  | .pullTwinAckWait => Sys2Proof.Machine.execPullTwinAckWait s
  | .holdupEnd => Sys2Proof.Machine.execHoldupEnd s
  | .pullPinFault => Sys2Proof.Machine.execPullPinFault s
  | .pullSenseRemade => Sys2Proof.Machine.execPullSenseRemade s
  | .attest m => Sys2Proof.Machine.execAttest m s
  | .tenantSwitch m => Sys2Proof.Machine.execTenantSwitch m s
  | .tenantSwitchAcked => Sys2Proof.Machine.execTenantSwitchAcked s
  | .tenantSwitchReset => Sys2Proof.Machine.execTenantSwitchReset s
  | .debugToken token => Sys2Proof.Machine.execDebugToken token s
  | .debugCapRemoved => Sys2Proof.Machine.execDebugCapRemoved s
  | .fwuBegin m => Sys2Proof.Machine.execFwuBegin m s
  | .fwuBlock m => Sys2Proof.Machine.execFwuBlock m s
  | .packageStaged ok => Sys2Proof.Machine.execPackageStaged ok s
  | .fwuStatus m => Sys2Proof.Machine.execFwuStatus m s
  | .fwuActivateLive m => Sys2Proof.Machine.execFwuActivateLive m s
  | .measurementCommit => Sys2Proof.Machine.execMeasurementCommit s
  | .commitTimeout => Sys2Proof.Machine.execCommitTimeout s
  | .fwuActivateReset m => Sys2Proof.Machine.execFwuActivateReset m s
  | .fwuDiscard m => Sys2Proof.Machine.execFwuDiscard m s
  | .trialExpiry => Sys2Proof.Machine.execTrialExpiry s
  | .fallback => Sys2Proof.Machine.execFallback s
  | .auxRise slots parity leader => Sys2Proof.Machine.execAuxRise slots parity leader s
  | .powerEnableRise => Sys2Proof.Machine.execPowerEnableRise s
  | .powerUpStepDone => Sys2Proof.Machine.execPowerUpStepDone s
  | .sliceBudgetExpiry slice unit report => Sys2Proof.Machine.execSliceBudgetExpiry slice unit report s
  | .sliceEnd slice unit report => Sys2Proof.Machine.execSliceEnd slice unit report s
  | .powerEnableFall => Sys2Proof.Machine.execPowerEnableFall s
  | .runtimeTestPiece region ok restored => Sys2Proof.Machine.execRuntimeTestPiece region ok restored s
  | .standbyTestStop => Sys2Proof.Machine.execStandbyTestStop s
  | .vinDip decivolts => Sys2Proof.Machine.execVinDip decivolts s
  | .vinLost => Sys2Proof.Machine.execVinLost s
  | .overvoltageShutdown decivolts => Sys2Proof.Machine.execOvervoltageShutdown decivolts s
  | .holdupCharged => Sys2Proof.Machine.execHoldupCharged s
  | .startCapWrite watts => Sys2Proof.Machine.execStartCapWrite watts s
  | .panelIdentify on => Sys2Proof.Machine.execPanelIdentify on s
  | .cartridgeInsertion x => Sys2Proof.Machine.execCartridgeInsertion x s
  | .cartridgeRemoval => Sys2Proof.Machine.execCartridgeRemoval s
  | .cartridgeLifePoll written matings devicePct readOnly => Sys2Proof.Machine.execCartridgeLifePoll written matings devicePct readOnly s
  | .frontEndInternalError side => Sys2Proof.Machine.execFrontEndInternalError side s
  | .frontEndBeatAdvance side => Sys2Proof.Machine.execFrontEndBeatAdvance side s
  | .cartridgeFailed => Sys2Proof.Machine.execCartridgeFailed s
  | .vinReturn decivolts => Sys2Proof.Machine.execVinReturn decivolts s
  | .arpReply a => Sys2Proof.Machine.execArpReply a s
  | .neighborAdvertisement n => Sys2Proof.Machine.execNeighborAdvertisement n s
  | .preferredTwinLeaseReturn => Sys2Proof.Machine.execPreferredTwinLeaseReturn s

end Sys2Proof.Machine
end

