-- ==== Sys2Proof/WellFormed.lean ====
section
/-! DEFINITION. WellFormed.lean: which operand values a command of the block can bring: register numbers and lanes that the trim
cores' formats admit (R116, R118, R121 to R127), and numbers that name a port, slot, sequence, bank or session that exists. -/

namespace Sys2Proof

/-- Is an element type an integer one (R116)? -/
def ElemType.isInt : ElemType → Bool
  | .int8 | .int16 | .int32 | .int64 => true
  | .fp16 | .bf16 | .fp32 => false

/-- Lanes of an element type in a vector register (R116). -/
def ElemType.lanes : ElemType → Nat
  | .int8 => 64 | .int16 => 32 | .int32 => 16 | .int64 => 8 | .fp16 => 32 | .bf16 => 32 | .fp32 => 16

/-- A partner message: its session number, its own number (R322) and its tag are in range. -/
def Msg.wf (m : Msg) : Bool := decide (m.session < 4294967296 ∧ m.number < 9223372036854775808 ∧ m.tag < 4294967296)

/-- A partner's address fits its family. -/
def PeerAddr.wf (p : PeerAddr) : Bool := decide (p.addr < (if p.v6 then 2 ^ 128 else 2 ^ 32) ∧ p.udp < 65536)

/-- A datagram arrives on a port that exists, with at most a jumbo frame's bytes. -/
def Datagram.wf (d : Datagram) : Bool := decide (d.port < 6 ∧ d.vlan < 4096 ∧ d.dstUdp < 65536 ∧ d.bytes.length < 65536) && d.peer.wf

/-- A thermal snapshot has one pair of readings for each of the 24 hot spots (R438). -/
def ThermalSnapshot.wf (x : ThermalSnapshot) : Bool := decide (x.a.length = 24 ∧ x.b.length = 24)

/-- A slice report's readings are none, or one pair for each hot spot (R455). -/
def SliceReport.wf (r : SliceReport) : Bool := decide (r.a.length = r.b.length ∧ (r.a.length = 0 ∨ r.a.length = 24))

/-- An array error is located in logical groups of the array, if at all (R69). -/
def ArrayError.wf (e : ArrayError) : Bool := (e.rowGroup.all fun g => decide (g < 32)) && e.colGroup.all fun g => decide (g < 32)

/-- A bank id that R202 does not reserve. -/
def bankIdOk (b : Nat) : Bool := decide (b ≤ 0x1B ∨ (0x20 ≤ b ∧ b ≤ 0x64))

/-- May a command be one that the block's surroundings bring? -/
def Instr.wf : Instr → Bool
  | .sessionOpen port peer _ => decide (port < 6) && peer.wf
  | .sessionClose m => m.wf
  | .idleClose session => decide (session < 4294967296)
  | .pathAdd port peer m => decide (port < 6) && peer.wf && m.wf
  | .macsecSak m => m.wf
  | .dataFrame d => d.wf
  | .ackFrame d => d.wf
  | .probeFrame d => d.wf
  | .pathResetFrame d => d.wf
  | .ackDelayExpiry session path => decide (session < 4294967296) && decide (path < 4294967296)
  | .retransmitTimeout session path => decide (session < 4294967296) && decide (path < 4294967296)
  | .probeInterval session _ => decide (session < 4294967296)
  | .sendMessage session => decide (session < 4294967296)
  | .authFailTimeout session number => decide (session < 4294967296) && decide (number < 9223372036854775808)
  | .phyLinkChange port _ => decide (port < 6)
  | .oamFrame port _ => decide (port < 6)
  | .arpRequest a => decide (a.port < 6)
  | .neighborSolicitation n => decide (n.port < 6)
  | .icmpEcho e => decide (e.port < 6)
  | .submitPass m => m.wf
  | .submitGen m => m.wf
  | .candidates m => m.wf
  | .cancel m => m.wf
  | .budgetOpen m => m.wf
  | .budgetClose m => m.wf
  | .budgetRead m => m.wf
  | .budgetGrant m => m.wf
  | .refillInterval customer => decide (customer < 1024)
  | .modelLoad m => m.wf
  | .modelUnloadDrain m => m.wf
  | .modelUnloadAbort m => m.wf
  | .slotEmptied slot => decide (slot < 16)
  | .queueHoldExpiry q => decide (q.slot < 16 ∧ q.phase < 3 ∧ q.priority < 256 ∧ q.bucket ≤ 16)
  | .requestDeadline row => decide (row < 4294967296)
  | .decodingStepEnd seq => decide (seq < 4096)
  | .stepCommit seq => decide (seq < 4096)
  | .sequenceRebuild seq => decide (seq < 4096)
  | .passIssue parity => (parity.all fun l => (l.1.all fun g => decide (g < 32)) && l.2.all fun g => decide (g < 32))
  | .passLanded error _ => error.all ArrayError.wf
  | .bankDrainStart bank _ error _ => (decide (bank < 2) && error.all ArrayError.wf)
  | .drainResume bank _ error _ => (decide (bank < 2) && error.all ArrayError.wf)
  | .drainEnd bank => decide (bank < 2)
  | .coatComplete coat => decide (coat < 4096)
  | .stripeLoadDone coat => decide (coat < 4096)
  | .windowGather coat => decide (coat < 4096)
  | .cropAndResize coat => decide (coat < 4096)
  | .argmax coat => decide (coat < 4096)
  | .fusedAttention coat => decide (coat < 4096)
  | .kernelStart coat kernel => decide (coat < 4096) && decide (kernel < 8)
  | .kernelEnd coat kernel => decide (coat < 4096) && decide (kernel < 8)
  | .coreContextSwitch physical => decide (physical < 64)
  | .vlq8 _ vd _ _ _ => (vd.toNat % 2 == 0)
  | .vlq4 _ vd _ _ _ => (vd.toNat % 2 == 0)
  | .vsq8 _ vd _ _ _ => (vd.toNat % 2 == 0)
  | .vsq4 _ vd _ _ _ => (vd.toNat % 2 == 0)
  | .vadd _ _ _ _ _ et => et.isInt
  | .vsub _ _ _ _ _ et => et.isInt
  | .vmul _ _ _ _ _ et => et.isInt
  | .vdot _ _ _ _ _ et => (et == .int8 || et == .int16)
  | .vmin _ _ _ _ _ et => et.isInt
  | .vmax _ _ _ _ _ et => et.isInt
  | .vand _ _ _ _ _ et => et.isInt
  | .vor _ _ _ _ _ et => et.isInt
  | .vxor _ _ _ _ _ et => et.isInt
  | .vshl _ _ _ _ _ et => et.isInt
  | .vshr _ _ _ _ _ et => et.isInt
  | .vshru _ _ _ _ _ et => et.isInt
  | .vfadd _ _ _ _ _ et => !et.isInt
  | .vfsub _ _ _ _ _ et => !et.isInt
  | .vfmul _ _ _ _ _ et => !et.isInt
  | .vfma _ _ _ _ _ et => !et.isInt
  | .vfms _ _ _ _ _ et => !et.isInt
  | .vfdiv _ _ _ _ _ et => !et.isInt
  | .vfsqrt _ _ _ _ et => !et.isInt
  | .vfmin _ _ _ _ _ et => !et.isInt
  | .vfmax _ _ _ _ _ et => !et.isInt
  | .vfabs _ _ _ _ et => !et.isInt
  | .vfneg _ _ _ _ et => !et.isInt
  | .vins _ _ _ lane et => decide (lane.toNat < et.lanes)
  | .vextr _ _ _ lane et => decide (lane.toNat < et.lanes)
  | .msend _ sa => decide (sa.toNat ≤ 29)
  | .barrierRelease coat kernel => decide (coat < 4096) && decide (kernel < 8)
  | .xredComplete coat kernel => decide (coat < 4096) && decide (kernel < 8)
  | .translationFault owner vpn _ master => decide (owner < 4128) && decide (vpn < 8388608) && decide (master < 82)
  | .spilledPageRestore owner vpn => decide (owner < 4128) && decide (vpn < 8388608)
  | .rangeMove owner => decide (owner < 4128)
  | .pageCleared page => decide (page < 4194304)
  | .uncorrectableGranule granule wrong => (decide (granule < 1073741824) && wrong.all fun x => decide (x.1 < 10 ∧ x.2.1 < 32))
  | .patrolPass corrected => (corrected.all fun x => decide (x.1 < 80))
  | .dqsOscillatorRead drifted => (drifted.all fun c => decide (c < 80))
  | .mr4Read code => decide (code < 8)
  | .bankCollision m1 m2 bank unit d1 d2 => (decide (m1 < 82 ∧ m2 < 82 ∧ m1 ≠ m2) && bankIdOk bank && decide (unit < 262144) && decide (d1.length = 64 ∧ d2.length = 64))
  | .bankUncorrectable master bank unit wrong => (decide (master < 82) && bankIdOk bank && decide (unit < 262144) && decide (wrong.length = 8))
  | .videoOpen m => m.wf
  | .videoData m => m.wf
  | .videoCloseDrain m => m.wf
  | .videoCloseAbort m => m.wf
  | .pictureDecoded pipe => decide (pipe < 4)
  | .pictureWatchdog pipe _ => decide (pipe < 4)
  | .mgmtRead m => m.wf
  | .mgmtWrite m => m.wf
  | .manualPointWrite m _ => m.wf
  | .rawSliceGo _ slice unit => decide (slice < 16) && decide (unit < 8)
  | .healthRead m => m.wf
  | .capSet m => m.wf
  | .opStep failed => (failed.all fun c => decide (c < 80))
  | .oscillatorCheck osc _ => decide (osc < 4)
  | .thermalInterval x => x.wf
  | .journalDurable index => decide (index < 18446744073709551616)
  | .mirrorRecords m records => (m.wf && decide (records.length < 65536))
  | .mirrorAck m => m.wf
  | .mirrorFetch m => m.wf
  | .mirrorFetchedMessage m => m.wf
  | .twinLeaseRenewReceived m => m.wf
  | .twinLeaseAck m => m.wf
  | .twinLeaseRelease m => m.wf
  | .twinLeaseGrant m => m.wf
  | .twinLeaseRefuse m => m.wf
  | .configStage m => m.wf
  | .configActivate m => m.wf
  | .pullSenseBreak pin => decide (pin < 2)
  | .attest m => m.wf
  | .tenantSwitch m => m.wf
  | .fwuBegin m => m.wf
  | .fwuBlock m => m.wf
  | .fwuStatus m => m.wf
  | .fwuActivateLive m => m.wf
  | .fwuActivateReset m => m.wf
  | .fwuDiscard m => m.wf
  | .auxRise slots _ _ => decide (slots < 64)
  | .sliceBudgetExpiry slice unit report => (decide (1 ≤ slice ∧ slice < 14) && decide (unit < 8) && report.wf)
  | .sliceEnd slice unit report => (decide (1 ≤ slice ∧ slice < 14) && decide (unit < 8) && report.wf)
  | .startCapWrite watts => decide (watts < 65536)
  | .cartridgeInsertion x => decide (x.carrier.length = 48)
  | .arpReply a => decide (a.port < 6)
  | .neighborAdvertisement n => decide (n.port < 6)
  | .netApply | .loadStart | .loadWeights | .loadComplete | .batchStart | .releaseGridTick | .fixedModeWrite _
  | .fixedModeTakesEffect | .fixedSlotStart | .fixedSlotGuard | .tileFetchDone | .shadowWriteDone | .add _ _ _ _
  | .sub _ _ _ _ | .and _ _ _ _ | .or _ _ _ _ | .xor _ _ _ _ | .sll _ _ _ _ | .srl _ _ _ _ | .sra _ _ _ _
  | .mul _ _ _ _ | .mulh _ _ _ _ | .mulhu _ _ _ _ | .div _ _ _ _ | .divu _ _ _ _ | .rem _ _ _ _ | .remu _ _ _ _
  | .slt _ _ _ _ | .sltu _ _ _ _ | .min _ _ _ _ | .max _ _ _ _ | .addi _ _ _ _ | .andi _ _ _ _ | .ori _ _ _ _
  | .xori _ _ _ _ | .shi _ _ _ _ | .lui _ _ _ | .slti _ _ _ _ | .fadd _ _ _ _ | .fsub _ _ _ _ | .fmul _ _ _ _
  | .fdiv _ _ _ _ | .fsqrt _ _ _ | .ffma _ _ _ _ | .fmin _ _ _ _ | .fmax _ _ _ _ | .feq _ _ _ _ | .flt _ _ _ _
  | .fle _ _ _ _ | .fcvtws _ _ _ | .fcvtsw _ _ _ | .lb _ _ _ _ | .lh _ _ _ _ | .lw _ _ _ _ | .ld _ _ _ _ | .sb _ _ _ _
  | .sh _ _ _ _ | .sw _ _ _ _ | .sd _ _ _ _ | .vld _ _ _ _ _ | .vst _ _ _ _ _ | .vceq _ _ _ _ _ _ | .vcne _ _ _ _ _ _
  | .vclt _ _ _ _ _ _ | .vcle _ _ _ _ _ _ | .pand _ _ _ _ | .por _ _ _ _ | .pxor _ _ _ _ | .pnot _ _ _
  | .vsel _ _ _ _ _ _ | .vcvt _ _ _ _ _ _ | .vperm _ _ _ _ _ _ | .exp2 _ _ _ _ | .rcp _ _ _ _ | .rsqrt _ _ _ _
  | .log2 _ _ _ _ | .tanh _ _ _ _ | .sigm _ _ _ _ | .gelu _ _ _ _ | .gelut _ _ _ _ | .silu _ _ _ _ | .vbcast _ _ _ _
  | .vredsum _ _ _ _ _ | .vredmax _ _ _ _ _ | .vredmin _ _ _ _ _ | .vredarg _ _ _ _ _ | .pcnt _ _ _ _ | .beq _ _ _ _
  | .bne _ _ _ _ | .blt _ _ _ _ | .bge _ _ _ _ | .bltu _ _ _ _ | .bgeu _ _ _ _ | .jal _ _ _ | .jr _ _ | .creditReturn _
  | .cred _ _ | .mwait _ | .bar _ | .fence _ | .xredFsum _ _ _ | .xredFmax _ _ _ | .xredFmin _ _ _ | .xredIsum _ _ _
  | .xredImax _ _ _ | .draw _ _ _ _ | .flags _ _ | .done _ | .tableUpdateDone | .activationSpill | .kvCartridgeSpill
  | .zqCalibration | .perBankRefresh | .pictureDecodeStart | .pictureDeliver | .pictureEncode | .videoContextRestart
  | .gateWrite _ _ | .arrCounterClear | .feedCounterClear | .trimCounterClear | .memCounterClear | .xltCounterClear
  | .bankCounterClear | .srvCounterClear | .vidCounterClear | .netCounterClear | .contCounterClear | .thmCounterClear
  | .handover | .measStart _ | .measDone _ | .capSettled | .voltageConfirmTimeout | .powerInterval _ | .throttleAssert
  | .throttleRelease | .throttleRampStep | .crystalStable _ _ | .pllLockLoss _ | .tempoWindow _ _ | .airflowClear
  | .flowAverage | .suddenStopWatchEnd | .suddenStopClear | .beatWatch | .frontEndReturn | .checkpoint | .leaseRenewal
  | .leaseHoldLimit | .standbyLeasePoll | .takeover | .replay | .preferredLeaseReturn | .followerFetchTimer
  | .mirrorAckTimeout | .twinLeaseRenew | .twinLeaseHoldLimit | .twinLeaseExpiry | .twinJoin | .heartbeat
  | .flushRecord | .pullTwinAckWait | .holdupEnd | .pullPinFault | .pullSenseRemade | .tenantSwitchAcked
  | .tenantSwitchReset | .debugToken _ | .debugCapRemoved | .packageStaged _ | .measurementCommit | .commitTimeout
  | .trialExpiry | .fallback | .powerEnableRise | .powerUpStepDone | .powerEnableFall | .runtimeTestPiece _ _ _
  | .standbyTestStop | .vinDip _ | .vinLost | .overvoltageShutdown _ | .holdupCharged | .panelIdentify _
  | .cartridgeRemoval | .cartridgeLifePoll _ _ _ _ | .frontEndInternalError _ | .frontEndBeatAdvance _
  | .cartridgeFailed | .vinReturn _ | .preferredTwinLeaseReturn => true

end Sys2Proof
end

