-- ==== Sys2Proof/Safety.lean ====
section
/-! DEFINITION. Safety.lean: what every command must keep, what a sound state is and what a safe run is. -/

namespace Sys2Proof.Machine

/-- What no command may spoil: the queue is `qs` and the variant `vt` (R2), which no command changes; the stored registers list
their keys in rising order; the memory stacks and the banks are in canonical form; and there are 64 logical trim cores (R115). -/
structure State.Held (s : State) (qs : List Instr) (vt : Variant) : Prop where
  pending : s.pending = qs
  variant : s.variant = vt
  regs : Dict.wf s.regs = true
  dram : Memory.wf s.mem.dram = true
  banks : Memory.wf s.mem.banks = true
  cores : s.trim.cores.length = 64

/-- A sound state: its data is in canonical form, and every waiting command is well formed. -/
structure State.Sound (s : State) : Prop where
  held : s.Held s.pending s.variant
  queue : s.pending.all (fun i => i.wf) = true

/-- A run of `n` steps is safe when no step of it ends in a fault or a refusal. -/
def Safe : Nat → State → Prop
  | 0, _ => True
  | n + 1, s => ∃ t, step s = .next t ∧ Safe n t

-- The terms of the statements.

/-- A command completes with what `P` says of the next state. -/
def Completes (i : Instr) (s : State) (P : State → Prop) : Prop := ∃ t, exec i s = .next t ∧ P t

-- One instruction of a trim core.

/-- A core may execute an instruction (R118, R123, R142, R144): it runs a kernel on its host, its program counter lies in the code
region, and its kernel's instruction limit is not reached. -/
structure State.MayIssue (s : State) (c : CoreId) : Prop where
  runs : s.coreRuns c = true
  code : 0x60000 ≤ (s.core c.toNat).pc.toNat ∧ (s.core c.toNat).pc.toNat < 0x70000
  limit : ∃ k, s.kernelOf c.toNat = some k ∧ (s.core c.toNat).executed < k.limit

/-- What an instruction of core `c` leaves alone (R115, R147): the other cores, and everything outside the trim cores, the banks, the
serving engine's batch and the instruction counter, which has advanced by one unless it is frozen. -/
structure State.Elsewhere (s t : State) (c : CoreId) : Prop where
  rest : t = { s with trim := { s.trim with cores := t.trim.cores, kernels := t.trim.kernels }, regs := t.regs, mem := t.mem,
                      srv := t.srv }
  number : t.trim.cores.length = s.trim.cores.length
  others : ∀ d : CoreId, d ≠ c → t.core d.toNat = s.core d.toNat
  words : ∀ a n, a < 2 ^ 32 → a ≠ Fld.TRIM_INSTR_LO_COUNT.addr → a ≠ Fld.TRIM_INSTR_HI_COUNT.addr →
    Regs.word t.regs a n = Regs.word s.regs a n
  counted : t.rget64 Fld.TRIM_INSTR_LO_COUNT Fld.TRIM_INSTR_HI_COUNT =
    (s.rget64 Fld.TRIM_INSTR_LO_COUNT Fld.TRIM_INSTR_HI_COUNT + (if s.rbit Fld.TRIM_CTRL_FREEZE then 0 else 1)) % 2 ^ 64

/-- Core `c` after an instruction that changes none of its registers: it has gone on to the next one (R142). -/
def State.stepped (s : State) (c : CoreId) : Core :=
  { s.core c.toNat with pc := BitVec.ofNat 32 ((s.core c.toNat).pc.toNat + 4), executed := (s.core c.toNat).executed + 1 }

/-- One instruction of core `c` has passed and went on to `pc` (R142): nothing has changed elsewhere, and of the core itself only
registers, the program counter, the count of executed instructions and the list of its waiting stores may have. -/
structure State.Passed (s t : State) (c : CoreId) (pc : Nat) : Prop where
  elsewhere : s.Elsewhere t c
  kernels : t.trim.kernels = s.trim.kernels
  srv : t.srv = s.srv
  own : t.core c.toNat = { s.core c.toNat with s := (t.core c.toNat).s, v := (t.core c.toNat).v, p := (t.core c.toNat).p,
                                               flags := (t.core c.toNat).flags, pc := BitVec.ofNat 32 pc,
                                               stores := (t.core c.toNat).stores,
                                               executed := (s.core c.toNat).executed + 1 }

/-- The scalar registers of core `c` are as before, but for `sd`, which is `v`; s0 stays zero (R115). -/
def State.ScalarIs (s t : State) (c : CoreId) (sd : SReg) (v : BitVec 64) : Prop :=
  ∀ r : SReg, (t.core c.toNat).rs r = if r = 0 then 0 else if r = sd then v else (s.core c.toNat).rs r
/-- The scalar registers of core `c` are as before. -/
def State.ScalarsSame (s t : State) (c : CoreId) : Prop := (t.core c.toNat).s = (s.core c.toNat).s
/-- The vector registers of core `c` are as before. -/
def State.VectorsSame (s t : State) (c : CoreId) : Prop := (t.core c.toNat).v = (s.core c.toNat).v
/-- The predicate registers of core `c` are as before. -/
def State.PredicatesSame (s t : State) (c : CoreId) : Prop := (t.core c.toNat).p = (s.core c.toNat).p
/-- The vector registers of core `c` other than `vd` are as before. -/
def State.VectorsBut (s t : State) (c : CoreId) (vd : VReg) : Prop :=
  ∀ r : VReg, r ≠ vd → (t.core c.toNat).rv r = (s.core c.toNat).rv r
/-- The flags of core `c` have gained `fl`. -/
def State.FlagsGain (s t : State) (c : CoreId) (fl : NumFlags) : Prop :=
  (t.core c.toNat).flags = (s.core c.toNat).flags ||| fl

/-- Lane `i` of a vector, of `w` bits (R116). -/
def lane (w : Nat) (v : BitVec 512) (i : Nat) : BitVec w := v.extractLsb' (w * i) w

/-- An instruction of core `c` has stored nothing (R120). -/
def State.NothingStored (s t : State) (c : CoreId) : Prop := t.mem = s.mem ∧ (t.core c.toNat).stores = (s.core c.toNat).stores

/-- A scalar instruction of core `c` completes (R115, R124): `sd` is `v`, the flags gain `fl`, and the core goes on to the next
instruction with every other register and the memory as before. -/
def ScalarResult (i : Instr) (s : State) (c : CoreId) (sd : SReg) (v : BitVec 64) (fl : NumFlags) : Prop :=
  Completes i s fun t =>
    s.Passed t c ((s.core c.toNat).pc.toNat + 4) ∧ s.NothingStored t c ∧ s.ScalarIs t c sd v ∧ s.VectorsSame t c ∧
      s.PredicatesSame t c ∧ s.FlagsGain t c fl

/-- A vector instruction of core `c` completes (R116, R126): each lane of `vd`, of `w` bits, is `f` of its number where the
predicate is 1 and keeps its value elsewhere; the flags gain those of the enabled lanes. -/
def LaneResult (i : Instr) (s : State) (c : CoreId) (vd : VReg) (p : PReg) (w : Nat) (f : Nat → BitVec w)
    (fl : Nat → NumFlags) : Prop :=
  Completes i s fun t =>
    s.Passed t c ((s.core c.toNat).pc.toNat + 4) ∧ s.NothingStored t c ∧ s.ScalarsSame t c ∧ s.PredicatesSame t c ∧
      s.VectorsBut t c vd ∧
      (∀ k, k < 512 / w → lane w ((t.core c.toNat).rv vd) k =
        if ((s.core c.toNat).rp p).getLsbD k then f k else lane w ((s.core c.toNat).rv vd) k) ∧
      (∀ b, ((t.core c.toNat).flags.getLsbD b = true ↔ (s.core c.toNat).flags.getLsbD b = true ∨
        ∃ k, k < 512 / w ∧ ((s.core c.toNat).rp p).getLsbD k = true ∧ (fl k).getLsbD b = true))

/-- A predicate instruction of core `c` completes (R115, R126): bit `k` of `pd` is `f k`; p0 stays all ones. -/
def PredicateResult (i : Instr) (s : State) (c : CoreId) (pd : PReg) (f : Nat → Bool) : Prop :=
  Completes i s fun t =>
    s.Passed t c ((s.core c.toNat).pc.toNat + 4) ∧ s.NothingStored t c ∧ s.ScalarsSame t c ∧ s.VectorsSame t c ∧ s.FlagsGain t c 0 ∧
      (∀ r : PReg, r ≠ pd → (t.core c.toNat).rp r = (s.core c.toNat).rp r) ∧
      (∀ k, k < 64 → ((t.core c.toNat).rp pd).getLsbD k = if pd = 0 then true else f k)

/-- A branch of core `c` completes and goes on at `pc`, with every register and the memory as before but for the link `sd`, which
is `v` (R129). -/
def JumpResult (i : Instr) (s : State) (c : CoreId) (pc : Nat) (sd : SReg) (v : BitVec 64) : Prop :=
  Completes i s fun t =>
    s.Passed t c pc ∧ s.NothingStored t c ∧ s.ScalarIs t c sd v ∧ s.VectorsSame t c ∧ s.PredicatesSame t c ∧ s.FlagsGain t c 0

-- Memory as a trim core sees it.

/-- The bank byte that a core-view address of logical core `c` names (R118, R202): the local bank, the shared scratch or a feed bank. -/
def coreKey (c a : Nat) : Option Nat :=
  if a < 0x80000 then some ((0x20 + c) * 2 ^ 24 + a)
  else if 0x10000000 ≤ a ∧ a < 0x14000000 then some ((0x10 + (a - 0x10000000) / 2 ^ 23) * 2 ^ 24 + (a - 0x10000000) % 2 ^ 23)
  else if 0x20000000 ≤ a ∧ a < 0x24000000 then some ((a - 0x20000000) / 2 ^ 22 * 2 ^ 24 + (a - 0x20000000) % 2 ^ 22)
  else none

/-- The byte that the banks hold at a core-view address of core `c`. -/
def State.coreByte (s : State) (c : CoreId) (a : Nat) : Byte := ((coreKey c.toNat a).map (Memory.byte s.mem.banks)).getD 0

/-- The byte that core `c` finds at a core-view address (R120): what the last of its own stores there put, which other cores may not
see yet, and else what the banks hold. -/
def State.seenByte (s : State) (c : CoreId) (a : Nat) : Byte :=
  if (coreKey c.toNat a).isSome then
    (s.core c.toNat).stores.foldl (fun b x => if x.addr ≤ a ∧ a < x.addr + x.bytes.length then listAt 0 x.bytes (a - x.addr) else b)
      (s.coreByte c a)
  else 0

/-- Core `c` has stored `f k` at the core-view address `a + k` for each `k` below `n` that `on` names (R120): it finds those bytes there,
and at every other address what it found before. In its local bank they stand at once, and every other byte of the banks reads as
before; a store to memory that cores share has changed no bank yet, and waits among the core's own stores, not yet fenced. -/
structure State.Stored (s t : State) (c : CoreId) (a n : Nat) (on : Nat → Bool) (f : Nat → Byte) : Prop where
  rest : t.mem = { s.mem with banks := t.mem.banks }
  others : ∀ b, (∀ k, k < n → on k = true → b ≠ a + k) → t.seenByte c b = s.seenByte c b
  own : a < 0x80000 → (t.core c.toNat).stores = (s.core c.toNat).stores ∧
    (∀ k, k < n → on k = true → t.coreByte c (a + k) = f k) ∧
    ∀ key, (∀ k, k < n → on k = true → coreKey c.toNat (a + k) ≠ some key) →
      Memory.byte t.mem.banks key = Memory.byte s.mem.banks key
  shared : 0x80000 ≤ a → t.mem = s.mem ∧ (∀ k, k < n → on k = true → t.seenByte c (a + k) = f k) ∧
    ∃ l, (t.core c.toNat).stores = (s.core c.toNat).stores ++ l ∧
      ∀ x ∈ l, x.fenced = false ∧ a ≤ x.addr ∧ x.addr + x.bytes.length ≤ a + n

/-- The store `x` of core `d` covers a bank byte. -/
def SharedStore.covers (x : SharedStore) (d key : Nat) : Prop :=
  ∃ k, coreKey d x.addr = some k ∧ k ≤ key ∧ key < k + x.bytes.length

/-- The waiting stores of some cores that a test names have reached the banks (R120): a byte that one of them covers alone is that
store's, and every byte that none covers reads as before. -/
structure State.Shown (s t : State) (cores : List Nat) (p : SharedStore → Bool) : Prop where
  rest : t.mem = { s.mem with banks := t.mem.banks }
  kept : ∀ key, (∀ d ∈ cores, ∀ x ∈ (s.core d).stores, p x = true → ¬ x.covers d key) →
    Memory.byte t.mem.banks key = Memory.byte s.mem.banks key
  bytes : ∀ d ∈ cores, ∀ x ∈ (s.core d).stores, p x = true → ∀ k j, coreKey d x.addr = some k → j < x.bytes.length →
    (∀ e ∈ cores, ∀ y ∈ (s.core e).stores, p y = true → y.covers e (k + j) → e = d ∧ y = x) →
      Memory.byte t.mem.banks (k + j) = listAt 0 x.bytes j

/-- `v` is the little-endian value of the `n` bytes that core `c` finds at `a`, sign-extended (R8, R125). -/
def State.LoadsAs (s : State) (c : CoreId) (a n : Nat) (v : BitVec 64) : Prop :=
  (∀ k, k < n → v.extractLsb' (8 * k) 8 = s.seenByte c (a + k)) ∧
    ∀ b, 8 * n ≤ b → b < 64 → v.getLsbD b = v.getLsbD (8 * n - 1)

/-- The address that a load or store of core `c` forms (R121, R125). -/
def State.coreAddr (s : State) (c : CoreId) (sa : SReg) (imm : Imm13) (scale : Nat) : Nat :=
  ((s.core c.toNat).rs sa + BitVec.ofInt 64 (imm.toInt * (scale : Int))).toNat

-- Registers, partner messages and frames.

/-- Two register fields share no bit of a stored register; each is a field with the copy that a selector names. -/
def Field.free (f g : Field × Nat) : Prop :=
  f.1.addr ≠ g.1.addr ∨ f.2 ≠ g.2 ∨ f.1.lo + f.1.width ≤ g.1.lo ∨ g.1.lo + g.1.width ≤ f.1.lo

/-- Every register field that shares no bit with a field of `l` reads as before. -/
def State.RegsBut (s t : State) (l : List (Field × Nat)) : Prop :=
  ∀ g : Field, ∀ n : Nat, g.addr < 2 ^ 32 → (∀ f ∈ l, Field.free f (g, n)) → t.rget g n = s.rget g n

/-- A partner message whose session `x` is open and not closing, whose role permits its type (R373), and whose payload has the
length that R516 fixes. -/
structure State.Hears (s : State) (m : Msg) (x : Session) (type len : Nat) : Prop where
  opened : s.session m.session = some x
  going : x.closing = false
  role : s.roleAllows x.role type = true
  length : m.payload.length = len

/-- `y` is session `x` after the module has answered the message `m` with a reply of this type, code, payload and needed records, and
has consumed it (R320, R325). -/
def Replied (x : Session) (m : Msg) (type : Nat) (code : Code) (payload : List Byte) (needs : List Nat) : Session :=
  { x with ready := x.ready ++ [{ number := m.number * 2 ^ 20, type := type, code := code, tag := m.tag, payload := payload,
                                  needs := needs }],
           rxConsumed := x.rxConsumed + 48 + m.payload.length }

/-- The message `m` of session `x` has been answered so and consumed: it has left the inbox, and no other session has changed. -/
structure State.Answers (s t : State) (m : Msg) (x : Session) (type : Nat) (code : Code) (payload : List Byte)
    (needs : List Nat) : Prop where
  session : t.session m.session = some (Replied x m type code payload needs)
  others : ∀ n, n % 16384 ≠ m.session % 16384 → t.session n = s.session n
  inbox : t.net.inbox = s.net.inbox.filter fun d => !(d.session == m.session && d.number == m.number)

/-- The message was answered with a refusal that changed nothing else. -/
def State.Refuses (s t : State) (m : Msg) (x : Session) (type : Nat) (code : Code) : Prop :=
  s.Answers t m x type code [] [] ∧ t = { s with net := t.net }

/-- The message has been answered so and consumed, the answer leaving on the release grid where there is one (R243): it waits there for
the next tick, and fixed-slot mode sends it at once. -/
def State.AnswersOnGrid (s t : State) (m : Msg) (x : Session) (type : Nat) (code : Code) (payload : List Byte) (needs : List Nat) : Prop :=
  if s.rget Fld.SRV_HOLD_GRID_US = 0 ∨ s.rget Fld.SRV_MODE_FIXED = 1 then s.Answers t m x type code payload needs ∧ t.srv = s.srv
  else t.session m.session = some { x with rxConsumed := x.rxConsumed + 48 + m.payload.length } ∧
    t.srv = { s.srv with grid := s.srv.grid ++ [⟨m.session, { number := m.number * 2 ^ 20, type := type, code := code, tag := m.tag,
                                                              payload := payload, needs := needs }⟩] } ∧
    t.net.inbox = s.net.inbox.filter fun d => !(d.session == m.session && d.number == m.number)

/-- A frame has left on a port without MACsec: it is the last one sent, and only the frame counter has changed besides. -/
structure State.Sent (s t : State) (f : TxFrame) : Prop where
  rest : t = { s with net := { s.net with tx := s.net.tx ++ [f] }, regs := t.regs }
  regs : s.RegsBut t [(Fld.NET_TX_FRAMES_COUNT, 0)]
  counted : t.rget Fld.NET_TX_FRAMES_COUNT =
    (s.rget Fld.NET_TX_FRAMES_COUNT + if s.rbit Fld.NET_CTRL_FREEZE then 0 else 1) % 2 ^ 32

/-- A port that has link, is not gated, and runs no MACsec (R307, R411, R415). -/
def State.PlainPort (s : State) (p : Nat) : Prop := s.portLive p = true ∧ s.rget Fld.NET_PCFG_MACSEC p = 0

/-- A neighbour's address is known and trusted: `mac` (R305; for how long: log entry 8). -/
def State.Knows (s : State) (port : Nat) (v6 : Bool) (ip mac : Nat) : Prop :=
  ∃ n, s.neighbor port v6 ip = some n ∧ n.mac = mac ∧ n.stale (s.now (portSide port)) = false

/-- A datagram that the module takes on a port without MACsec (R303, R305, R306): of the port's VLAN and one of its addresses, for the
QMT port, within its MTU, whole and with a right checksum. -/
structure State.Takes (s : State) (d : Datagram) : Prop where
  port : s.PlainPort d.port
  vlan : d.vlan = (s.port d.port).applied.vlan
  whole : d.options = false ∧ d.fragment = false ∧ d.badSum = false ∧ d.sec = none
  mtu : mtuOk d.port d.peer.v6 d.bytes.length = true
  udp : d.dstUdp = s.net.udpPort
  address : s.portAddress d.port d.peer.v6 d.dst = true

/-- The datagram is a frame `f` of kind `kind` on path `p` of session `x`, in the path's present epoch (R308 to R311). -/
structure State.OnPath (s : State) (d : Datagram) (f : RxFrame) (kind : Nat) (x : Session) (p : Path) : Prop where
  taken : s.Takes d
  frame : parseFrame d.bytes = some f
  kind : f.kind = kind
  session : s.session f.session = some x
  path : x.path f.path = some p
  from_ : p.port = d.port ∧ p.peer = d.peer
  fe : s.feUp p.fe = true

/-- The path `k` of session `n`. -/
def State.pathOf (s : State) (n k : Nat) : Option Path := (s.session n).bind fun x => x.path k

/-- The record that the module appends next, with this session, subject and body (R344). -/
def State.record (s : State) (session subject : Nat) (body : RecBody) (engine : Bool := false) : JRecord :=
  { index := s.cont.nextIndex, origin := s.origin engine, epoch := s.rget Fld.CONT_LEASE_EPOCH, session := session,
    subject := subject, body := body }

/-- The journal of `c` with records appended (R344). -/
def ContState.with (c : ContState) (l : List JRecord) : ContState :=
  { c with journal := c.journal ++ l, nextIndex := c.nextIndex + l.length }

/-- Session `n` holds nothing that its end would end too: no live request and no video context (R318). -/
def State.NoWork (s : State) (n : Nat) : Prop :=
  (∀ r ∈ s.srv.requests, r.2.session ≠ n) ∧ ∀ c ∈ s.vid.contexts, c.2.session ≠ n

/-- The message that a `ReplyTo` of the serving engine names has been answered, where there is one: its session has one message
more, of this type, code, payload and needed records (R320). -/
def State.Told (s t : State) (r : Option ReplyTo) (type : Nat) (code : Code) (payload : List Byte) (needs : List Nat) : Prop :=
  match r with
  | none => t.net = s.net
  | some r => ∀ y, s.session r.session = some y → t.session r.session = some { y with ready := y.ready ++
      [{ number := r.number * 2 ^ 20, type := type, code := code, tag := r.tag, payload := payload, needs := needs }] }

/-- Session `x` after the message `m` was consumed without an answer yet (R325). -/
def Heard (x : Session) (m : Msg) : Session := { x with rxConsumed := x.rxConsumed + 48 + m.payload.length }

/-- A counter register has advanced by `n`, unless its block's counters are frozen. -/
def State.Counted (s t : State) (f : Field) (n : Nat) : Prop :=
  t.rget f = (s.rget f + if s.frozen f then 0 else n) % 2 ^ f.width

/-- A counter register that holds at its greatest value has advanced by `n`, unless its block's counters are frozen. -/
def State.CountedUp (s t : State) (f : Field) (n : Nat) (sel : Nat := 0) : Prop :=
  t.rget f sel = if s.frozen f then s.rget f sel else min (s.rget f sel + n) (2 ^ f.width - 1)

/-- A fault event is pending for the health log (R393). -/
def State.Raised (t : State) (c : Code) : Prop := t.boot.eventPending = true ∧ t.boot.eventCode = c

/-- This module answers the message `m` itself (R344, R352): it acts for the session, and no record of its twin's waits for the
session's messages. -/
def State.Acts (s : State) (m : Msg) : Prop :=
  s.mayActFor m.session = true ∧ ∀ r ∈ s.cont.twin.wanting, r.session ≠ m.session

/-- Commands that are a MGMT_WRITE of one whole word of a register (R19, R504): the message as the partner sends it. -/
def wordWrite (m : Msg) (addr : Nat) (value : Word) : Msg :=
  { m with payload := leBytes 2 1 ++ zeroBytes 30 ++ leBytes 4 addr ++ leBytes 4 (2 ^ 32 - 1) ++ leBytes 4 value.toNat ++ zeroBytes 4 }

/-- A partner may write a configuration register (R28, R505, R508): its session, of role 3 and without the protected class, is open, and no
switch of the measurement root and no twin stands against it. -/
structure State.MayWrite (s : State) (m : Msg) (x : Session) : Prop where
  opened : s.session m.session = some x
  going : x.closing = false
  acts : s.mayActFor m.session = true
  role : x.role = 3 ∧ x.wantsProtected = false
  switch : s.sec.switch = none
  twin : s.twinState = 0

/-- The write of one word was refused (R504 to R506, R511): the reply names the code and the entry, and nothing else has changed. -/
def State.RefusesWrite (s t : State) (m : Msg) (x : Session) (c : Code) (entry : Nat) : Prop :=
  s.Answers t m x 0x0301 c (leBytes 2 0 ++ leBytes 2 entry ++ zeroBytes 28) [] ∧ t = { s with net := t.net, regs := t.regs } ∧
    t.rget Fld.SYS_MGMT_LAST_CODE = c.toNat ∧ s.RegsBut t [(Fld.SYS_MGMT_LAST_CODE, 0), (Fld.SYS_MGMT_REFUSED, 0)]

/-- Session `x` after the module has sent a message of its own on it, which answers none (R321). -/
def Wrote (x : Session) (type : Nat) (payload : List Byte) : Session :=
  { x with counter := x.counter + 1,
           ready := x.ready ++ [{ number := 2 ^ 63 + x.counter, type := type, code := Code.OK, payload := payload, needs := [] }] }

/-- Session `n`, which was `x`, is now `y`, and no other session has changed. -/
def State.Session1 (s t : State) (n : Nat) (y : Session) : Prop :=
  t.session n = some y ∧ ∀ k, k % 16384 ≠ n % 16384 → t.session k = s.session k

/-- An error in a pass or a drain of the coat of `w` (R90, R91): ARR.FAULT shows it and `n` corrected entries are counted. The first one
runs the coat again from its first pass, with nothing of it in the array or held for delivery; a second in the same execution stops passes,
leaves the batch's units to their replay, starts the slice and raises F_ARRAY. Nothing has left the module either way. -/
def State.ArrayFails (s : State) (i : Instr) (w : Work) (e : ArrayError) (n : Nat) : Prop :=
  let shown := fun (t : State) => s.CountedUp t Fld.ARR_ACC_CORR_COUNT n ∧ t.mem = s.mem ∧ t.srv.requests = s.srv.requests ∧
    t.cont = s.cont ∧ t.rget (match e.kind with
      | .residue => Fld.ARR_FAULT_RESIDUE
      | .uncorrectable => Fld.ARR_FAULT_UNCORR
      | .weightParity => Fld.ARR_FAULT_WPARITY) = 1
  let kept := fun (x : AccBank) => if x.pass.any fun p => decide (p.key.coat < w.i) then x else {}
  (w.run.retried = false → w.c.kind = 1 → w.run.complete = false → Completes i s fun t => shown t ∧
    t.arr = { s.arr with halves := [], shadow := none, active := none,
                         flights := s.arr.flights.filter fun f => decide (f.pass.key.coat < w.i),
                         bank0 := kept s.arr.bank0, bank1 := kept s.arr.bank1 } ∧
    ∃ b r, t.srv.batch = some b ∧ b.rows = w.b.rows ∧ b.units = w.b.units ∧ (∀ j, j < w.i → b.runs[j]? = w.b.runs[j]?) ∧
      b.runs[w.i]? = some r ∧ r.retried = true ∧ r.complete = false ∧ r.passes = w.run.passes ∧ r.issued = 0 ∧ r.landed = 0 ∧
      r.drained = 0 ∧ r.deliveries = [] ∧ r.programsDone = []) ∧
  (w.run.retried = true → Completes i s fun t => shown t ∧ t.srv.batch = none ∧ t.srv.affected = s.srv.affected ++ w.b.units ∧
    t.arr.stopped = true ∧ t.arr.flights = [] ∧ t.rget Fld.ARR_FAULT_REPEAT = 1 ∧ t.Raised Code.F_ARRAY ∧ (7, 0) ∈ t.boot.due)

/-- The registers whose fields a full reset does not put at their reset values: identity, straps, couplings, panel, the pins of J1, the
debug port, the anti-rollback counter, and those that show the cause, the cap, the coolant and the update state. -/
def outlives : List Nat :=
  [Fld.SYS_ID_GEN, Fld.SYS_STRAPS_SLOT, Fld.SYS_COUPLING_CYCLES, Fld.SYS_PANEL_IDENTIFY, Fld.SYS_J1_PS1, Fld.SEC_SECVER_VERSION,
   Fld.SEC_DEBUG_EVER, Fld.SYS_RESET_CAUSE, Fld.PWR_CAP_MW, Fld.THM_STATUS_COOLANT, Fld.FWU_STATE_STATE].map (·.addr)

/-- A full reset has run (R144, R209, R367, R405, R407, R458): sessions, memories, journal and keys are gone, and what fuses, boot flash,
pins, the identity EEPROM and the cartridge hold has outlived it. -/
structure State.Wiped (s t : State) : Prop where
  queue : t.pending = s.pending ∧ t.variant = s.variant
  work : t.net = {} ∧ t.srv = {} ∧ t.arr = {} ∧ t.trim = {} ∧ t.vid = {} ∧ t.thm = {}
  memory : t.mem = { cart := { s.mem.cart with powered := false, spill := [] } }
  journal : t.cont = { nextFlush := s.cont.nextFlush }
  trust : t.sec = { fuses := s.sec.fuses, enrolment := s.sec.enrolment, switchNumber := s.sec.switchNumber, boots := s.sec.boots + 1,
                    jobSalt := s.sec.jobSalt }
  firmware : t.fwu.running = s.fwu.confirmed ∧ t.fwu.confirmed = s.fwu.confirmed ∧ t.fwu.settings = s.fwu.settings ∧
    t.fwu.tryOnce = s.fwu.tryOnce ∧ t.fwu.blocks = []
  cap : t.rget Fld.PWR_CAP_MW = (if s.variant = .w then 480000 else 220000)
  registers : ∀ f : Field, f.addr < 2 ^ 32 → f.addr ∉ outlives → ∀ n, t.rget f n = State.reset.rget f n

end Sys2Proof.Machine
end

