-- ==== Sys2Proof/Certificates/Slice0/Obligations.lean ====
section
/-! DEFINITION. Obligations.lean: the statements about the model. Each says which rules of the manual it formalises. -/

open Sys2Proof Sys2Proof.Machine

/-- The scalar integer instructions (R124, R129, R131, R132): their register forms, then their immediate forms with DRAW, CRED and the
FLAGS instruction, which clears the flags register. -/
def Obligations.ScalarIntegers : Prop :=
  (
    ∀ (s : State) (c : CoreId) (sd sa sb : SReg), s.MayIssue c →
      let a := (s.core c.toNat).rs sa
      let b := (s.core c.toNat).rs sb
      let product : Int := a.toInt * b.toInt
      ScalarResult (.add c sd sa sb) s c sd (a + b) 0 ∧
      ScalarResult (.sub c sd sa sb) s c sd (a - b) 0 ∧
      ScalarResult (.and c sd sa sb) s c sd (a &&& b) 0 ∧
      ScalarResult (.or c sd sa sb) s c sd (a ||| b) 0 ∧
      ScalarResult (.xor c sd sa sb) s c sd (a ^^^ b) 0 ∧
      ScalarResult (.sll c sd sa sb) s c sd (a <<< b.extractLsb' 0 6) 0 ∧
      ScalarResult (.srl c sd sa sb) s c sd (a >>> b.extractLsb' 0 6) 0 ∧
      ScalarResult (.sra c sd sa sb) s c sd (a.sshiftRight' (b.extractLsb' 0 6)) 0 ∧
      ScalarResult (.mul c sd sa sb) s c sd (BitVec.ofInt 64 product) 0 ∧
      ScalarResult (.mulh c sd sa sb) s c sd ((BitVec.ofInt 128 product).extractLsb' 64 64) 0 ∧
      ScalarResult (.mulhu c sd sa sb) s c sd ((BitVec.ofNat 128 (a.toNat * b.toNat)).extractLsb' 64 64) 0 ∧
      ScalarResult (.div c sd sa sb) s c sd (if b = 0 then BitVec.allOnes 64 else a.sdiv b) 0 ∧
      ScalarResult (.divu c sd sa sb) s c sd (if b = 0 then BitVec.allOnes 64 else BitVec.ofNat 64 (a.toNat / b.toNat)) 0 ∧
      ScalarResult (.rem c sd sa sb) s c sd (if b = 0 then a else a.srem b) 0 ∧
      ScalarResult (.remu c sd sa sb) s c sd (if b = 0 then a else BitVec.ofNat 64 (a.toNat % b.toNat)) 0 ∧
      ScalarResult (.slt c sd sa sb) s c sd (if a.toInt < b.toInt then 1 else 0) 0 ∧
      ScalarResult (.sltu c sd sa sb) s c sd (if a.toNat < b.toNat then 1 else 0) 0 ∧
      ScalarResult (.min c sd sa sb) s c sd (BitVec.ofInt 64 (min a.toInt b.toInt)) 0 ∧
      ScalarResult (.max c sd sa sb) s c sd (BitVec.ofInt 64 (max a.toInt b.toInt)) 0) ∧
  (
    ∀ (s : State) (c : CoreId) (sd sa sb : SReg) (imm : Imm16), s.MayIssue c →
      let x := s.core c.toNat
      let a := x.rs sa
      let n := (imm.extractLsb' 0 6).toNat
      ScalarResult (.addi c sd sa imm) s c sd (BitVec.ofInt 64 (a.toInt + imm.toInt)) 0 ∧
      ScalarResult (.andi c sd sa imm) s c sd (a &&& BitVec.ofNat 64 imm.toNat) 0 ∧
      ScalarResult (.ori c sd sa imm) s c sd (a ||| BitVec.ofNat 64 imm.toNat) 0 ∧
      ScalarResult (.xori c sd sa imm) s c sd (a ^^^ BitVec.ofNat 64 imm.toNat) 0 ∧
      (imm.extractLsb' 6 2 = 0 → ScalarResult (.shi c sd sa imm) s c sd (a <<< n) 0) ∧
      (imm.extractLsb' 6 2 = 1 → ScalarResult (.shi c sd sa imm) s c sd (a >>> n) 0) ∧
      (imm.extractLsb' 6 2 = 2 → ScalarResult (.shi c sd sa imm) s c sd (a.sshiftRight n) 0) ∧
      ScalarResult (.slti c sd sa imm) s c sd (if a.toInt < imm.toInt then 1 else 0) 0 ∧
      ScalarResult (.lui c sd imm) s c sd (BitVec.ofInt 64 (imm.toInt * 65536)) 0 ∧
      ScalarResult (.draw c sd sa sb) s c sd
        (let z0 := a + x.rs sb * 0x9E3779B97F4A7C15
         let z1 := (z0 ^^^ (z0 >>> 30)) * 0xBF58476D1CE4E5B9
         let z2 := (z1 ^^^ (z1 >>> 27)) * 0x94D049BB133111EB
         z2 ^^^ (z2 >>> 31)) 0 ∧
      ScalarResult (.cred c sd) s c sd (BitVec.ofNat 64 x.credits) 0 ∧
      Completes (.flags c sd) s fun t =>
        s.Passed t c (x.pc.toNat + 4) ∧ s.NothingStored t c ∧ s.ScalarIs t c sd (x.flags.setWidth 64) ∧ s.VectorsSame t c ∧
          s.PredicatesSame t c ∧ (t.core c.toNat).flags = 0)

/-- The scalar FP32 instructions (R124, R132): bits [31:0] of the sources, the result zero-extended into sd, and the flags that R52
names joining the core's flags. -/
def Obligations.ScalarFloatingPoint : Prop :=
  ∀ (s : State) (c : CoreId) (sd sa sb : SReg), s.MayIssue c →
    let x := s.core c.toNat
    let a := ((x.rs sa).extractLsb' 0 32).toNat
    let b := ((x.rs sb).extractLsb' 0 32).toNat
    let d := ((x.rs sd).extractLsb' 0 32).toNat
    let u := fp32.val a
    let v := fp32.val b
    let r := fun (i : Instr) (ins : List FpVal) (out : Nat) => ScalarResult i s c sd (BitVec.ofNat 64 out) (fpFlags fp32 ins out)
    r (.fadd c sd sa sb) [u, v] (fp32.pack (fpAddVal u v)) ∧
    r (.fsub c sd sa sb) [u, v] (fp32.pack (fpAddVal u v.neg)) ∧
    r (.fmul c sd sa sb) [u, v] (fp32.pack (fpMulVal u v)) ∧
    r (.fdiv c sd sa sb) [u, v] (fpDiv fp32 a b).1 ∧
    r (.fsqrt c sd sa) [u] (fpSqrt fp32 a).1 ∧
    r (.ffma c sd sa sb) [u, v, fp32.val d] (fp32.pack (fpAddVal (fpMulVal u v) (fp32.val d))) ∧
    ((u.isNan || v.isNan) = true → r (.fmin c sd sa sb) [u, v] 0x7FC00000 ∧ r (.fmax c sd sa sb) [u, v] 0x7FC00000) ∧
    ((u.isNan || v.isNan) = false →
      let below := fpLt u v || (fpEq u v && u.isNeg && !v.isNeg)
      r (.fmin c sd sa sb) [u, v] (if below then a else b) ∧ r (.fmax c sd sa sb) [u, v] (if below then b else a)) ∧
    ScalarResult (.feq c sd sa sb) s c sd (if fpEq u v then 1 else 0) 0 ∧
    ScalarResult (.flt c sd sa sb) s c sd (if fpLt u v then 1 else 0) 0 ∧
    ScalarResult (.fle c sd sa sb) s c sd (if fpLt u v || fpEq u v then 1 else 0) 0 ∧
    (u = .nan → ScalarResult (.fcvtws c sd sa) s c sd 0 NumFlags.INVALID) ∧
    (∀ n, u = .inf n → ScalarResult (.fcvtws c sd sa) s c sd (if n then 0x80000000 else 0x7FFFFFFF)
      (NumFlags.OUT_SAT ||| NumFlags.INF)) ∧
    (∀ n m e, u = .fin n m e →
      let q := fpToInt u (-2147483648) 2147483647
      ScalarResult (.fcvtws c sd sa) s c sd (BitVec.ofNat 64 (q.1 % 4294967296).toNat) (flagIf q.2 NumFlags.OUT_SAT)) ∧
    ScalarResult (.fcvtsw c sd sa) s c sd
      (let n := ((x.rs sa).extractLsb' 0 32).toInt
       BitVec.ofNat 64 (fp32.round (decide (n < 0)) n.natAbs 0 false).1) 0

/-- The branches (R121, R129): a branch that is not taken goes on to the next instruction; a taken one, JAL and JR go to their
target, which lies in the code region. -/
def Obligations.BranchesAndJumps : Prop :=
  ∀ (s : State) (c : CoreId) (sd sa sb : SReg) (off : Imm16), s.MayIssue c →
    let x := s.core c.toNat
    let a := x.rs sa
    let b := x.rs sb
    let next := x.pc.toNat + 4
    let target : Int := (x.pc.toNat : Int) + 4 * off.toInt
    let branch := fun (i : Instr) (taken : Bool) =>
      (taken = true → 0x60000 ≤ target → target < 0x70000 → JumpResult i s c target.toNat 0 0) ∧
      (taken = false → JumpResult i s c next 0 0)
    branch (.beq c sa sb off) (decide (a = b)) ∧ branch (.bne c sa sb off) (decide (a ≠ b)) ∧
    branch (.blt c sa sb off) (decide (a.toInt < b.toInt)) ∧ branch (.bge c sa sb off) (decide (b.toInt ≤ a.toInt)) ∧
    branch (.bltu c sa sb off) (decide (a.toNat < b.toNat)) ∧ branch (.bgeu c sa sb off) (decide (b.toNat ≤ a.toNat)) ∧
    (0x60000 ≤ target → target < 0x70000 → JumpResult (.jal c sd off) s c target.toNat sd (BitVec.ofNat 64 next)) ∧
    (0x60000 ≤ a.toNat → a.toNat < 0x70000 → JumpResult (.jr c sa) s c a.toNat 0 0)

/-- The faults that an instruction raises as a defect of its kernel: WINDOW, ALIGN and WATCHDOG (R118, R119, R123, R142, R146). The
fault is set, the first one with its place (R147); the kernels stop; the coat's requests end, so that no batch runs on. A quantised block
lies at any byte address. -/
def Obligations.TrimFaults : Prop :=
  ∀ (s : State) (c : CoreId), s.coreRuns c = true → s.srv.batch ≠ none →
    let x := s.core c.toNat
    let inside := 0x60000 ≤ x.pc.toNat ∧ x.pc.toNat < 0x70000
    let faults := fun (i : Instr) (f : Field) => Completes i s fun t =>
      t.rget f = 1 ∧ t.srv.batch = none ∧ t.trim.kernels = [] ∧
        (∀ d : CoreId, (∃ k ∈ s.trim.kernels, d.toNat ∈ k.cores) → (t.core d.toNat).state = .idle) ∧
        (Regs.word s.regs Fld.TRIM_FAULT_WINDOW.addr 0 = 0 →
          t.rget Fld.TRIM_FAULT_PC_PC = x.pc.toNat ∧ t.rget Fld.TRIM_FAULT_LOC_LOGICAL = c.toNat ∧
          t.rget Fld.TRIM_FAULT_LOC_PHYSICAL = s.rget (Fld.TRIM_MAP_CORE c.toNat) ∧
          t.rget Fld.TRIM_FAULT_LOC_COAT = x.coat % 2 ^ Fld.TRIM_FAULT_LOC_COAT.width)
    (∀ sd sa sb imm, ∀ i ∈ [Instr.add c sd sa sb, .addi c sd sa imm, .fadd c sd sa sb, .bar c, .done c, .jr c sa],
      (¬ inside → faults i Fld.TRIM_FAULT_WINDOW) ∧
      (inside → (∀ k, s.kernelOf c.toNat = some k → k.limit ≤ x.executed) → faults i Fld.TRIM_FAULT_WATCHDOG)) ∧
    (s.MayIssue c → ∀ (sd sa : SReg) (vd : VReg) (p : PReg) (imm : Imm13),
      let a := s.coreAddr c sa imm 1
      let v := s.coreAddr c sa imm 64
      (a % 2 ≠ 0 → faults (.lh c sd sa imm) Fld.TRIM_FAULT_ALIGN ∧ faults (.sh c sd sa imm) Fld.TRIM_FAULT_ALIGN) ∧
      (a % 4 ≠ 0 → faults (.lw c sd sa imm) Fld.TRIM_FAULT_ALIGN ∧ faults (.sw c sd sa imm) Fld.TRIM_FAULT_ALIGN) ∧
      (a % 8 ≠ 0 → faults (.ld c sd sa imm) Fld.TRIM_FAULT_ALIGN ∧ faults (.sd c sd sa imm) Fld.TRIM_FAULT_ALIGN) ∧
      (v % 64 ≠ 0 → faults (.vld c vd sa p imm) Fld.TRIM_FAULT_ALIGN ∧ faults (.vst c vd sa p imm) Fld.TRIM_FAULT_ALIGN) ∧
      (a + 33 ≤ 0x60000 → vd.toNat % 2 = 0 →
        ∀ i ∈ [Instr.vlq8 c vd sa p imm, .vlq4 c vd sa p imm, .vsq8 c vd sa p imm, .vsq4 c vd sa p imm], Completes i s fun t =>
          s.Passed t c (x.pc.toNat + 4)) ∧
      (a % 8 = 0 → (0x60000 ≤ a ∧ a < 0x70000) ∨ (0x7F800 ≤ a ∧ a < 0x80000) →
        faults (.ld c sd sa imm) Fld.TRIM_FAULT_WINDOW ∧ faults (.lb c sd sa imm) Fld.TRIM_FAULT_WINDOW) ∧
      (a % 8 = 0 → 0x60000 ≤ a → x.winSize = 0 →
        faults (.sd c sd sa imm) Fld.TRIM_FAULT_WINDOW ∧ faults (.sb c sd sa imm) Fld.TRIM_FAULT_WINDOW) ∧
      ((x.rs sa).toNat < 0x60000 ∨ 0x70000 ≤ (x.rs sa).toNat → faults (.jr c sa) Fld.TRIM_FAULT_WINDOW))

/-- The scalar loads and stores (R119, R125): from an aligned address that the core may read, the bytes sign-extended into sd; at an aligned
address that the core may write, the low bytes of sd, and every other byte as before. Local data and the argument area may always be
read, local data always be written (R119). -/
def Obligations.ScalarLoadsAndStores : Prop :=
  (
    ∀ (s : State) (c : CoreId) (sd sa : SReg) (imm : Imm13), s.MayIssue c →
      let a := s.coreAddr c sa imm 1
      let may := fun (n : Nat) => a % n = 0 ∧ (s.coreReads c.toNat a n = true ∨ a + n ≤ 0x60000 ∨ (0x70000 ≤ a ∧ a + n ≤ 0x7F800))
      let loads := fun (i : Instr) (n : Nat) => may n → ∃ v, s.LoadsAs c a n v ∧ ScalarResult i s c sd v 0
      loads (.lb c sd sa imm) 1 ∧ loads (.lh c sd sa imm) 2 ∧ loads (.lw c sd sa imm) 4 ∧ loads (.ld c sd sa imm) 8) ∧
  (
    ∀ (s : State) (c : CoreId) (sd sa : SReg) (imm : Imm13), s.MayIssue c →
      let x := s.core c.toNat
      let a := s.coreAddr c sa imm 1
      let may := fun (n : Nat) => a % n = 0 ∧ (coreKey c.toNat a).isSome = true ∧ (s.coreWrites c.toNat a n = true ∨ a + n ≤ 0x60000)
      let stores := fun (i : Instr) (n : Nat) => may n → Completes i s fun t =>
        s.Passed t c (x.pc.toNat + 4) ∧ s.ScalarsSame t c ∧ s.VectorsSame t c ∧ s.PredicatesSame t c ∧ s.FlagsGain t c 0 ∧
          s.Stored t c a n (fun _ => true) fun k => (x.rs sd).extractLsb' (8 * k) 8
      stores (.sb c sd sa imm) 1 ∧ stores (.sh c sd sa imm) 2 ∧ stores (.sw c sd sa imm) 4 ∧ stores (.sd c sd sa imm) 8)

/-- VLD and VST (R119, R121, R125; which bytes the predicate enables: log entry 23), then VLQ8, VLQ4, VSQ8 and VSQ4 (R38, R39, R125; the
predicate of a load: log entry 23): one quantised block of 33 or 17 bytes. -/
def Obligations.VectorLoadsAndStores : Prop :=
  (
    ∀ (s : State) (c : CoreId) (vd : VReg) (sa : SReg) (p : PReg) (imm : Imm13), s.MayIssue c →
      let x := s.core c.toNat
      let a := s.coreAddr c sa imm 64
      a % 64 = 0 →
      ((∀ k, k < 64 → (x.rp p).getLsbD k = true → s.coreReads c.toNat (a + k) 1 = true) →
        LaneResult (.vld c vd sa p imm) s c vd p 8 (fun k => s.seenByte c (a + k)) fun _ => 0) ∧
      ((coreKey c.toNat a).isSome = true → (∀ k, k < 64 → (x.rp p).getLsbD k = true → s.coreWrites c.toNat (a + k) 1 = true) →
        Completes (.vst c vd sa p imm) s fun t =>
          s.Passed t c (x.pc.toNat + 4) ∧ s.ScalarsSame t c ∧ s.VectorsSame t c ∧ s.PredicatesSame t c ∧ s.FlagsGain t c 0 ∧
            s.Stored t c a 64 (fun k => (x.rp p).getLsbD k) fun k => lane 8 (x.rv vd) k)) ∧
  (
    ∀ (s : State) (c : CoreId) (vd : VReg) (sa : SReg) (p : PReg) (imm : Imm13), s.MayIssue c → vd.toNat % 2 = 0 →
      let x := s.core c.toNat
      let a := s.coreAddr c sa imm 1
      let pr := x.rp p
      let oneBank := fun (n : Nat) => ∃ key, ∀ k, k < n → coreKey c.toNat (a + k) = some (key + k)
      let load := fun (i : Instr) (n : Nat) (mant : Nat → Int) =>
        oneBank n → s.coreReads c.toNat a n = true → (∃ k, k < 16 ∧ pr.getLsbD k = true) → Completes i s fun t =>
          let e := (s.seenByte c a).toInt
          let good : Bool := decide (-64 ≤ e ∧ e ≤ 63)
          let want := fun (j : Nat) =>
            BitVec.ofNat 32 (if good then fp32.pack (intVal (mant j) e) else 0x7FC00000)
          s.Passed t c (x.pc.toNat + 4) ∧ s.NothingStored t c ∧ s.ScalarsSame t c ∧ s.PredicatesSame t c ∧
            s.FlagsGain t c (if good then 0 else NumFlags.INVALID) ∧
            (∀ r : VReg, r ≠ vd → r ≠ vd + 1 → (t.core c.toNat).rv r = x.rv r) ∧
            ∀ k, k < 16 →
              lane 32 ((t.core c.toNat).rv vd) k = (if pr.getLsbD k then want k else lane 32 (x.rv vd) k) ∧
              lane 32 ((t.core c.toNat).rv (vd + 1)) k = if pr.getLsbD k then want (16 + k) else lane 32 (x.rv (vd + 1)) k
      let store := fun (i : Instr) (n : Nat) (f : Format) =>
        oneBank n → s.coreWrites c.toNat a n = true → Completes i s fun t =>
          let vals := (List.range 32).map fun j =>
            if pr.getLsbD (j % 16) then fp32.val (lane 32 (x.rv (if j < 16 then vd else vd + 1)) (j % 16)).toNat else .fin false 0 0
          s.Passed t c (x.pc.toNat + 4) ∧ s.ScalarsSame t c ∧ s.VectorsSame t c ∧ s.PredicatesSame t c ∧
            s.FlagsGain t c (packQB f vals).2 ∧ s.Stored t c a n (fun _ => true) fun k => listAt 0 (packQB f vals).1 k
      load (.vlq8 c vd sa p imm) 33 (fun j => (s.seenByte c (a + 1 + j)).toInt) ∧
      load (.vlq4 c vd sa p imm) 17
        (fun j => (if j % 2 = 0 then (s.seenByte c (a + 1 + j / 2)).extractLsb' 0 4 else (s.seenByte c (a + 1 + j / 2)).extractLsb' 4 4).toInt) ∧
      store (.vsq8 c vd sa p imm) 33 .qb8 ∧ store (.vsq4 c vd sa p imm) 17 .qb4)

/-- The vector integer instructions (R116, R126): each enabled lane, of the element type's width, wraps; no flag is set. VDOT's lanes
are INT32. -/
def Obligations.VectorInteger : Prop :=
  ∀ (s : State) (c : CoreId) (vd va vb : VReg) (p : PReg) (et : ElemType), s.MayIssue c → et.isInt = true →
    let x := s.core c.toNat
    let w := laneBits et
    let a := fun (k : Nat) => lane w (x.rv va) k
    let b := fun (k : Nat) => lane w (x.rv vb) k
    let r := fun (i : Instr) (f : Nat → BitVec w) => LaneResult i s c vd p w f fun _ => 0
    r (.vadd c vd va vb p et) (fun k => a k + b k) ∧
    r (.vsub c vd va vb p et) (fun k => a k - b k) ∧
    r (.vmul c vd va vb p et) (fun k => a k * b k) ∧
    r (.vmin c vd va vb p et) (fun k => if (a k).toInt < (b k).toInt then a k else b k) ∧
    r (.vmax c vd va vb p et) (fun k => if (a k).toInt < (b k).toInt then b k else a k) ∧
    r (.vand c vd va vb p et) (fun k => a k &&& b k) ∧
    r (.vor c vd va vb p et) (fun k => a k ||| b k) ∧
    r (.vxor c vd va vb p et) (fun k => a k ^^^ b k) ∧
    r (.vshl c vd va vb p et) (fun k => a k <<< ((b k).toNat % w)) ∧
    r (.vshr c vd va vb p et) (fun k => (a k).sshiftRight ((b k).toNat % w)) ∧
    r (.vshru c vd va vb p et) (fun k => a k >>> ((b k).toNat % w)) ∧
    (et = .int8 → LaneResult (.vdot c vd va vb p et) s c vd p 32 (fun k =>
      let m := fun (j : Nat) => BitVec.ofInt 32 ((lane 8 (x.rv va) (4 * k + j)).toInt * (lane 8 (x.rv vb) (4 * k + j)).toInt)
      lane 32 (x.rv vd) k + m 0 + m 1 + m 2 + m 3) fun _ => 0) ∧
    (et = .int16 → LaneResult (.vdot c vd va vb p et) s c vd p 32 (fun k =>
      let m := fun (j : Nat) => BitVec.ofInt 32 ((lane 16 (x.rv va) (2 * k + j)).toInt * (lane 16 (x.rv vb) (2 * k + j)).toInt)
      lane 32 (x.rv vd) k + m 0 + m 1) fun _ => 0)

/-- The vector floating-point instructions (R116, R126): FP16, BF16 or FP32 lanes, computed exactly and rounded once; an overflow or
an invalid operation sets its flag. VFABS and VFNEG work on the sign bit. -/
def Obligations.VectorFloatingPoint : Prop :=
  ∀ (s : State) (c : CoreId) (vd va vb : VReg) (p : PReg) (et : ElemType), s.MayIssue c → et.isInt = false →
    let x := s.core c.toNat
    let w := laneBits et
    let f := laneFmt et
    let d := fun (k : Nat) => f.val (lane w (x.rv vd) k).toNat
    let a := fun (k : Nat) => f.val (lane w (x.rv va) k).toNat
    let b := fun (k : Nat) => f.val (lane w (x.rv vb) k).toNat
    let r := fun (i : Instr) (ins : Nat → List FpVal) (out : Nat → Nat) =>
      LaneResult i s c vd p w (fun k => BitVec.ofNat w (out k)) fun k => fpFlags f (ins k) (out k)
    r (.vfadd c vd va vb p et) (fun k => [a k, b k]) (fun k => f.pack (fpAddVal (a k) (b k))) ∧
    r (.vfsub c vd va vb p et) (fun k => [a k, b k]) (fun k => f.pack (fpAddVal (a k) (b k).neg)) ∧
    r (.vfmul c vd va vb p et) (fun k => [a k, b k]) (fun k => f.pack (fpMulVal (a k) (b k))) ∧
    r (.vfma c vd va vb p et) (fun k => [a k, b k, d k]) (fun k => f.pack (fpAddVal (fpMulVal (a k) (b k)) (d k))) ∧
    r (.vfms c vd va vb p et) (fun k => [a k, b k, d k]) (fun k => f.pack (fpAddVal (fpMulVal (a k) (b k)).neg (d k))) ∧
    r (.vfdiv c vd va vb p et) (fun k => [a k, b k])
      (fun k => (fpDiv f (lane w (x.rv va) k).toNat (lane w (x.rv vb) k).toNat).1) ∧
    r (.vfsqrt c vd va p et) (fun k => [a k]) (fun k => (fpSqrt f (lane w (x.rv va) k).toNat).1) ∧
    r (.vfmin c vd va vb p et) (fun k => [a k, b k]) (fun k =>
      if (a k).isNan || (b k).isNan then f.nanBits
      else if fpLt (a k) (b k) || (fpEq (a k) (b k) && (a k).isNeg && !(b k).isNeg) then (lane w (x.rv va) k).toNat
      else (lane w (x.rv vb) k).toNat) ∧
    r (.vfmax c vd va vb p et) (fun k => [a k, b k]) (fun k =>
      if (a k).isNan || (b k).isNan then f.nanBits
      else if fpLt (a k) (b k) || (fpEq (a k) (b k) && (a k).isNeg && !(b k).isNeg) then (lane w (x.rv vb) k).toNat
      else (lane w (x.rv va) k).toNat) ∧
    LaneResult (.vfabs c vd va p et) s c vd p w (fun k => (lane w (x.rv va) k).setWidth (w - 1) |>.setWidth w) (fun _ => 0) ∧
    LaneResult (.vfneg c vd va p et) s c vd p w (fun k => lane w (x.rv va) k ^^^ BitVec.intMin w) (fun _ => 0)

/-- The comparisons and the predicate instructions (R115, R126): bit k of the destination predicate for each enabled lane; other
bits keep their values. A NaN compares false except under VCNE. -/
def Obligations.ComparesAndPredicates : Prop :=
  ∀ (s : State) (c : CoreId) (pd : PReg) (va vb : VReg) (p pa pb : PReg) (et : ElemType), s.MayIssue c →
    let x := s.core c.toNat
    let w := laneBits et
    let value := fun (v : BitVec w) => if et.isInt then intVal v.toInt 0 else (laneFmt et).val v.toNat
    let a := fun (k : Nat) => value (lane w (x.rv va) k)
    let b := fun (k : Nat) => value (lane w (x.rv vb) k)
    let r := fun (i : Instr) (f : Nat → Bool) => PredicateResult i s c pd fun k =>
      if k < 512 / w ∧ (x.rp p).getLsbD k = true then f k else (x.rp pd).getLsbD k
    r (.vceq c pd va vb p et) (fun k => fpEq (a k) (b k)) ∧
    r (.vcne c pd va vb p et) (fun k => !fpEq (a k) (b k)) ∧
    r (.vclt c pd va vb p et) (fun k => fpLt (a k) (b k)) ∧
    r (.vcle c pd va vb p et) (fun k => fpLt (a k) (b k) || fpEq (a k) (b k)) ∧
    PredicateResult (.pand c pd pa pb) s c pd (fun k => (x.rp pa).getLsbD k && (x.rp pb).getLsbD k) ∧
    PredicateResult (.por c pd pa pb) s c pd (fun k => (x.rp pa).getLsbD k || (x.rp pb).getLsbD k) ∧
    PredicateResult (.pxor c pd pa pb) s c pd (fun k => (x.rp pa).getLsbD k != (x.rp pb).getLsbD k) ∧
    PredicateResult (.pnot c pd pa) s c pd (fun k => !(x.rp pa).getLsbD k)

/-- Selection, permutation and the special functions (R60, R61, R126). VSEL writes every lane; a special function takes FP32
lanes. -/
def Obligations.SelectPermuteAndSpecials : Prop :=
  ∀ (s : State) (c : CoreId) (vd va vb : VReg) (p : PReg) (et : ElemType), s.MayIssue c →
    let x := s.core c.toNat
    let w := laneBits et
    let special := fun (i : Instr) (fn : SpecialFn) => LaneResult i s c vd p 32
      (fun k => BitVec.ofNat 32 (specialFn fn (lane 32 (x.rv va) k).toNat).1) fun k => (specialFn fn (lane 32 (x.rv va) k).toNat).2
    LaneResult (.vsel c vd va vb p et) s c vd 0 w
      (fun k => if (x.rp p).getLsbD k then lane w (x.rv va) k else lane w (x.rv vb) k) (fun _ => 0) ∧
    LaneResult (.vperm c vd va vb p et) s c vd p w
      (fun k => lane w (x.rv va) ((lane w (x.rv vb) k).toNat % (512 / w))) (fun _ => 0) ∧
    special (.exp2 c vd va p) .exp2 ∧ special (.rcp c vd va p) .rcp ∧ special (.rsqrt c vd va p) .rsqrt ∧
    special (.log2 c vd va p) .log2 ∧ special (.tanh c vd va p) .tanh ∧ special (.sigm c vd va p) .sigm ∧
    special (.gelu c vd va p) .gelu ∧ special (.gelut c vd va p) .gelut ∧ special (.silu c vd va p) .silu

/-- VCVT (R124, R126): the lanes that both types have, from lane 0; lanes beyond them keep their values (log entry 22). Integers are
wrapped to a narrower type; an integer is rounded to a floating-point type to nearest; a floating-point value is rounded and
saturated to an integer, NaN giving 0; and a narrowed floating-point value beyond the range saturates at the greatest finite value.
Then movement between scalar and vector registers, the reductions of a vector and PCNT (R111, R127, R128). A sum of no lanes is +0, and
VREDARG of no lanes is −1; of no lanes VREDMAX and VREDMIN have no stated result, and their value is a free one (log entry 4). -/
def Obligations.ConversionAndMovement : Prop :=
  (
    ∀ (s : State) (c : CoreId) (vd va : VReg) (p : PReg) (et dst : ElemType), s.MayIssue c →
      let x := s.core c.toNat
      let n := laneBits et
      let w := laneBits dst
      let lim := min (512 / n) (512 / w)
      let a := fun (k : Nat) => lane n (x.rv va) k
      let v := fun (k : Nat) => (laneFmt et).val (a k).toNat
      let r := fun (f : Nat → BitVec w) (fl : Nat → NumFlags) => LaneResult (.vcvt c vd va p et dst) s c vd p w
        (fun k => if k < lim then f k else lane w (x.rv vd) k) fun k => if k < lim then fl k else 0
      (et.isInt = true → dst.isInt = true → r (fun k => (a k).signExtend w) fun _ => 0) ∧
      (et.isInt = true → dst.isInt = false →
        let q := fun k => (laneFmt dst).pack (intVal (a k).toInt 0)
        r (fun k => BitVec.ofNat w (q k)) fun k => if ((laneFmt dst).val (q k)).isInf then NumFlags.INF else 0) ∧
      (et.isInt = false → dst.isInt = true →
        let q := fun k => fpToInt (v k) (-(2 ^ (w - 1) : Nat)) ((2 ^ (w - 1) : Nat) - 1)
        r (fun k => BitVec.ofInt w (q k).1) fun k =>
          flagIf (q k).2 NumFlags.OUT_SAT ||| flagIf (v k).isNan NumFlags.INVALID ||| flagIf (v k).isInf NumFlags.INF) ∧
      (et.isInt = false → dst.isInt = false →
        let f := laneFmt dst
        let q := fun k => f.pack (v k)
        let sat := fun k => !(v k).isInf && (f.val (q k)).isInf
        let sign := fun k => if (v k).isNeg then f.signBit else 0
        r (fun k => BitVec.ofNat w (if sat k then sign k + f.maxBits else q k)) fun k =>
          flagIf (sat k) NumFlags.OUT_SAT ||| flagIf (v k).isNan NumFlags.INVALID ||| flagIf (v k).isInf NumFlags.INF)) ∧
  (
    ∀ (s : State) (c : CoreId) (v : VReg) (r : SReg) (p : PReg) (m : Imm6) (et : ElemType), s.MayIssue c →
      let x := s.core c.toNat
      let w := laneBits et
      let n := 512 / w
      let on := (List.range n).filter fun k => (x.rp p).getLsbD k
      let a := fun (k : Nat) => lane w (x.rv v) k
      let scalar := fun (k : Nat) => if et.isInt then (a k).signExtend 64 else (a k).setWidth 64
      LaneResult (.vbcast c v r et) s c v 0 w (fun _ => (x.rs r).setWidth w) (fun _ => 0) ∧
      (m.toNat < n →
        LaneResult (.vins c v r m et) s c v 0 w (fun k => if k = m.toNat then (x.rs r).setWidth w else a k) (fun _ => 0) ∧
        ScalarResult (.vextr c v r m et) s c r (scalar m.toNat) 0) ∧
      (et.isInt = true → ScalarResult (.vredsum c v r p et) s c r ((on.map fun k => (a k).signExtend 64).sum) 0) ∧
      (et.isInt = false →
        let terms := on.map fun k => fp32.pack ((laneFmt et).val (a k).toNat)
        let sum := pairSum fp32 terms.length terms
        ScalarResult (.vredsum c v r p et) s c r (BitVec.ofNat 64 sum.1)
          (sum.2 ||| fpFlags fp32 (on.map fun k => (laneFmt et).val (a k).toNat) sum.1)) ∧
      (et.isInt = true → ∀ k ∈ on,
        ((∀ j ∈ on, (a j).toInt ≤ (a k).toInt) → ScalarResult (.vredmax c v r p et) s c r (scalar k) 0) ∧
        ((∀ j ∈ on, (a k).toInt ≤ (a j).toInt) → ScalarResult (.vredmin c v r p et) s c r (scalar k) 0)) ∧
      (et.isInt = false → ∀ k ∈ on, let val := fun j => (laneFmt et).val (a j).toNat
        (∀ j ∈ on, (val j).isNan = false ∧ (val j).isInf = false) →
        ((∀ j ∈ on, fpLt (val k) (val j) = false ∧ (fpEq (val k) (val j) = true → j = k)) →
          ScalarResult (.vredmax c v r p et) s c r (scalar k) 0) ∧
        ((∀ j ∈ on, fpLt (val j) (val k) = false ∧ (fpEq (val k) (val j) = true → j = k)) →
          ScalarResult (.vredmin c v r p et) s c r (scalar k) 0)) ∧
      (et.isInt = false → ∀ k ∈ on, ((laneFmt et).val (a k).toNat).isNan = true →
        ∃ fl, ScalarResult (.vredmax c v r p et) s c r (BitVec.ofNat 64 (laneFmt et).nanBits) fl ∧ fl &&& NumFlags.INVALID ≠ 0) ∧
      (on = [] → ScalarResult (.vredmax c v r p et) s c r (Config.reductionOfNone true (laneFp et) w) 0 ∧
        ScalarResult (.vredmin c v r p et) s c r (Config.reductionOfNone false (laneFp et) w) 0) ∧
      (on = [] → ScalarResult (.vredarg c v r p et) s c r (BitVec.allOnes 64) 0) ∧
      (et.isInt = true → ∀ k ∈ on, (∀ j ∈ on, (a j).toInt < (a k).toInt ∨ ((a j).toInt = (a k).toInt ∧ k ≤ j)) →
        ScalarResult (.vredarg c v r p et) s c r (BitVec.ofNat 64 k) 0) ∧
      (et.isInt = false → ∀ k ∈ on, let val := fun j => (laneFmt et).val (a j).toNat
        ((∀ j ∈ on, (val j).isNan = false ∧ (fpLt (val j) (val k) = true ∨ (fpEq (val j) (val k) = true ∧ k ≤ j))) ∨
          ((val k).isNan = true ∧ ∀ j ∈ on, (val j).isNan = true → k ≤ j)) →
        ScalarResult (.vredarg c v r p et) s c r (BitVec.ofNat 64 k) 0) ∧
      ScalarResult (.pcnt c r p et) s c r (BitVec.ofNat 64 on.length) 0)

/-- Barriers, fences and reductions across a kernel's cores (R120, R128 to R130): a core waits in BAR and XRED, and goes on when every core
of its kernel has come, with the stores that FENCE has marked visible to all; XRED gives each core the same result. The operation of a
reduction is the one that all its cores name. -/
def Obligations.KernelSynchronisation : Prop :=
  (∀ (s : State) (c : CoreId) (sd sa : SReg) (k : KernelRun), s.MayIssue c → s.kernelOf c.toNat = some k →
    let x := s.core c.toNat
    let waits := fun (i : Instr) (y : Core) (l : List KernelRun) => Completes i s fun t =>
      s.Elsewhere t c ∧ t.mem = s.mem ∧ t.srv = s.srv ∧ t.trim.kernels = l ∧ t.core c.toNat = y
    let xred := fun (i : Instr) (op : XredOp) =>
      waits i { s.stepped c with state := .xred, xred := some (op, sd, x.rs sa) } (s.trim.kernels.map fun j =>
        if j.coat = k.coat ∧ j.index = k.index then { j with arrivals := j.arrivals ++ [(c.toNat, x.rs sa)] } else j)
    waits (.fence c) { s.stepped c with stores := x.stores.map fun y => { y with fenced := true } } s.trim.kernels ∧
    ((∀ d ∈ k.cores, d ≠ c.toNat → (s.core d).state ≠ .done) →
      waits (.bar c) { s.stepped c with state := .barrier } s.trim.kernels ∧
      xred (.xredFsum c sd sa) .fsum ∧ xred (.xredFmax c sd sa) .fmax ∧ xred (.xredFmin c sd sa) .fmin ∧
      xred (.xredIsum c sd sa) .isum ∧ xred (.xredImax c sd sa) .imax) ∧
    ((∃ d ∈ k.cores, d ≠ c.toNat ∧ (s.core d).state = .done) → ∀ i ∈ [Instr.bar c, .xredFsum c sd sa, .xredIsum c sd sa],
      Completes i s fun t => t.rget Fld.TRIM_FAULT_SYNC = 1)) ∧
  ∀ (s : State) (w i : Nat) (k : KernelRun), s.kernelRun w i = some k →
    ((∀ d ∈ k.cores, (s.core d).state = .barrier) → Completes (.barrierRelease w i) s fun t =>
      t = { s with trim := { s.trim with cores := t.trim.cores }, mem := t.mem } ∧ s.Shown t k.cores (fun x => x.fenced) ∧
        ∀ d : CoreId, t.core d.toNat =
          if d.toNat ∈ k.cores then { s.core d.toNat with state := .run, stores := (s.core d.toNat).stores.filter (!·.fenced) }
          else s.core d.toNat) ∧
    ∀ (op : XredOp) (sd : Nat → SReg) (v : Nat → BitVec 64), k.cores ≠ [] →
      (∀ d ∈ k.cores, (s.core d).state = .xred ∧ (s.core d).xred = some (op, sd d, v d)) → Completes (.xredComplete w i) s fun t =>
        ∃ (r : BitVec 64) (fl : NumFlags),
          t = { s with trim := { s.trim with cores := t.trim.cores, kernels := t.trim.kernels } } ∧
          t.trim.kernels = s.trim.kernels.map (fun j => if j.coat = w ∧ j.index = i then { j with arrivals := [] } else j) ∧
          (∀ d : CoreId, d.toNat ∉ k.cores → t.core d.toNat = s.core d.toNat) ∧
          (∀ d : CoreId, d.toNat ∈ k.cores →
            t.core d.toNat = { s.core d.toNat with s := (t.core d.toNat).s, flags := (s.core d.toNat).flags ||| fl,
                                                   state := .run, xred := none } ∧
            ∀ q : SReg, (t.core d.toNat).rs q =
              if q = 0 then 0 else if q = sd d.toNat then r else (s.core d.toNat).rs q) ∧
          (op = .isum → r = (k.cores.map v).sum ∧ fl = 0) ∧
          (op = .imax → (∃ d ∈ k.cores, r = v d) ∧ (∀ d ∈ k.cores, (v d).toInt ≤ r.toInt) ∧ fl = 0) ∧
          (op = .fsum → k.unordered = false →
            r = BitVec.ofNat 64 (pairSum fp32 k.cores.length (k.cores.map fun d => low32 (v d))).1) ∧
          (op = .fsum → k.unordered = true → ∀ (a : BitVec 64) (l : List (BitVec 64)), k.arrivals.map (·.2) = a :: l →
            r = BitVec.ofNat 64 (l.foldl (fun n b => (fpAdd fp32 n (low32 b)).1) (low32 a))) ∧
          (op = .fmax ∨ op = .fmin →
            let val := fun d => fp32.val (low32 (v d))
            ((∃ d ∈ k.cores, (val d).isNan = true) → r = 0x7FC00000) ∧
            ((∀ d ∈ k.cores, (val d).isNan = false) → ∃ e ∈ k.cores, r = BitVec.ofNat 64 (low32 (v e)) ∧
              ∀ d ∈ k.cores, (if op = .fmax then fpLt (val e) (val d) else fpLt (val d) (val e)) = false))

/-- The life of a kernel (R117, R120, R138 to R144): the sequencer prepares the cores of its mask and starts them; a core ends its part
with DONE; the kernel ends when every core has, and its stores are there for all; and a host core turns from one of its two logical
cores to the other, whose registers it saves (in what order: log entry 24). -/
def Obligations.KernelLifecycle : Prop :=
  (∀ (s : State) (i j : Nat) (w : Work) (k : Kernel), s.coatAt i = some w → (w.g.kernelsOf w.c)[j]? = some k →
    s.kernelMay w j k = true → s.trim.cores.length = 64 → k.codeSize ≤ 65536 → k.zeroSize ≤ 393216 →
    Completes (.kernelStart i j) s fun t =>
      let cores := maskCores k.mask
      let items := k.itemsFixed + k.itemsPerRow * w.b.rows.length
      t.trim.kernels = s.trim.kernels ++
        [{ coat := w.i, index := j, cores := cores, unordered := decide (k.flags % 2 = 1), limit := k.limit, arrivals := [] }] ∧
      (let goes := fun (x : CoatRun) => { x with begun := true, kernelsStarted := x.kernelsStarted ++ [j] };
        t.srv = { s.srv with batch := some { w.b with runs := listModify w.b.runs w.i goes } }) ∧
      t.regs = (s.openWindows w).regs ∧ t.mem.dram = s.mem.dram ∧
      (∀ c : CoreId, c.toNat ∉ cores → t.core c.toNat = s.core c.toNat) ∧
      ∀ (n : Nat) (c : CoreId), cores[n]? = some c.toNat →
        let x := t.core c.toNat
        let q := ceilDiv items cores.length
        x.state = .run ∧ x.pc = BitVec.ofNat 32 (0x60000 + k.entry) ∧ x.executed = 0 ∧ x.flags = 0 ∧
        (x.coat = w.i ∧ x.kernel = j ∧ x.stores = [] ∧ x.credits = (s.core c.toNat).credits) ∧
        ((∀ d : CoreId, d ≠ c → s.physical d.toNat ≠ s.physical c.toNat) → x.onHost = true) ∧
        (x.first = n * q ∧ x.count = min q (items - n * q)) ∧
        (let b := w.g.binding k.window;
          (k.window = 255 → x.winSize = 0) ∧ (k.window ≠ 255 → b.inCoreView = true →
            x.winBase = coreBase b + n * k.windowStride ∧ x.winSize = k.windowSize)) ∧
        x.rs 1 = BitVec.ofNat 64 c.toNat ∧ x.rs 2 = BitVec.ofNat 64 cores.length ∧ x.rs 3 = BitVec.ofNat 64 (n * q) ∧
        x.rs 4 = BitVec.ofNat 64 (min q (items - n * q)) ∧ x.rs 5 = 0x70000 ∧
        (∀ r : SReg, 5 < r.toNat → x.rs r = 0) ∧ (∀ r : VReg, x.rv r = 0) ∧ (∀ r : PReg, r ≠ 0 → x.rp r = 0) ∧
        (∀ o, o < k.zeroSize → t.coreByte c o = 0) ∧
        (∀ o, o < k.codeSize → t.coreByte c (0x60000 + o) = listAt 0 w.g.code (k.codeOffset + o))) ∧
  (∀ (s : State) (c : CoreId) (k : KernelRun), s.MayIssue c → s.kernelOf c.toNat = some k →
    ((∀ d ∈ k.cores, d ≠ c.toNat → (s.core d).state ≠ .barrier ∧ (s.core d).state ≠ .xred) →
      Completes (.done c) s fun t => t.core c.toNat = { s.stepped c with state := .done } ∧ t.mem = s.mem ∧
        t.trim.kernels = s.trim.kernels ∧ ∀ d : CoreId, d ≠ c → t.core d.toNat = s.core d.toNat) ∧
    ((∃ d ∈ k.cores, d ≠ c.toNat ∧ ((s.core d).state = .barrier ∨ (s.core d).state = .xred)) →
      Completes (.done c) s fun t => t.rget Fld.TRIM_FAULT_SYNC = 1)) ∧
  (∀ (s : State) (i j : Nat) (k : KernelRun), s.kernelRun i j = some k →
    (∀ d ∈ k.cores, (s.core d).state = .done) → Completes (.kernelEnd i j) s fun t =>
      t.trim.kernels = s.trim.kernels.filter (fun x => x != k) ∧ s.Shown t k.cores (fun _ => true) ∧
      t.srv = (s.onRun i fun x => { x with kernelsEnded := x.kernelsEnded ++ [j] }).srv ∧
      (s.rbit Fld.TRIM_CTRL_FREEZE = false →
        t.rget Fld.TRIM_KERNELS_COUNT = (s.rget Fld.TRIM_KERNELS_COUNT + 1) % 2 ^ Fld.TRIM_KERNELS_COUNT.width) ∧
      ∀ d : CoreId, t.core d.toNat =
        if d.toNat ∈ k.cores then { s.core d.toNat with state := .idle, onHost := true, stores := [] } else s.core d.toNat) ∧
  ∀ (s : State) (h : Nat) (a b : CoreId), a ≠ b → s.trim.cores.length = 64 →
    (∀ c : CoreId, s.rget (Fld.TRIM_MAP_CORE c.toNat) = h ↔ c = a ∨ c = b) →
    (s.core a.toNat).onHost = true → (s.core b.toNat).onHost = false →
    (s.core a.toNat).state ≠ .run → (s.core a.toNat).state ≠ .allCredits →
    Completes (.coreContextSwitch h) s fun t =>
      t = { s with trim := { s.trim with cores := t.trim.cores }, mem := { s.mem with banks := t.mem.banks } } ∧
      t.core a.toNat = { s.core a.toNat with onHost := false } ∧ t.core b.toNat = { s.core b.toNat with onHost := true } ∧
      (∀ c : CoreId, c ≠ a → c ≠ b → t.core c.toNat = s.core c.toNat) ∧
      (s.core a.toNat).context.length = 1350 ∧
      (∀ o, o < 1350 → t.coreByte a (0x7F800 + o) = listAt 0 (s.core a.toNat).context o) ∧
      ∀ key, (∀ o, o < 1350 → coreKey a.toNat (0x7F800 + o) ≠ some key) →
        Memory.byte t.mem.banks key = Memory.byte s.mem.banks key

/-- Delivery to the collector (R129, R134, R135, R237): MSEND spends a credit and hands over output bytes or a row status record, or
waits for a credit; MWAIT waits for all four; CREDIT_RETURN gives the next core its credit back and lets a waiting one go on. -/
def Obligations.DeliveryCredits : Prop :=
  ∀ (s : State) (c : CoreId), s.trim.cores.length = 64 →
    let x := s.core c.toNat
    let delivers := fun (sa : SReg) (w : Work) (P : State → Delivery → Prop) (i : Instr) =>
      let a := (x.rs sa).toNat
      let dest := (x.rs (sa + 1)).toNat
      let ctl := (x.rs (sa + 2)).toNat
      let len := ctl % 2 ^ 13
      let row := dest / 2 ^ 32
      let off := dest % 2 ^ 32
      let apart := fun (o n : Nat) => off + len ≤ o ∨ o + n ≤ off
      (1 ≤ len ∧ len ≤ 4096) → a + len ≤ 0x60000 → (∃ r ∈ w.b.rows, r.tag = row) →
      (ctl < 2 ^ 13 →
        (∀ d ∈ w.run.deliveries, d.row = row → d.status = false → apart d.offset d.bytes.length) ∧
        (∀ z, s.skimOf w.b row = some z → off + len ≤ 320) ∧
        (s.skimOf w.b row = none → ∃ q, s.request row = some q ∧ off + len ≤ q.outSize ∧ ∀ d ∈ q.delivered, apart d.1 d.2)) →
      (2 ^ 13 ≤ ctl → ctl < 2 ^ 14 ∧ len = 16) →
      Completes i s fun t =>
        ∃ d : Delivery, d.row = row ∧ d.offset = off ∧ d.status = decide (2 ^ 13 ≤ ctl) ∧ d.core = c.toNat ∧ d.bytes.length = len ∧
          (∀ k, k < len → listAt 0 d.bytes k = s.seenByte c (a + k)) ∧
          t.mem = s.mem ∧ t.trim.kernels = s.trim.kernels ∧
          t.srv = (s.onRun w.i fun y => { y with deliveries := y.deliveries ++ [d] }).srv ∧ P t d
    (s.MayIssue c → ∀ sa : SReg, sa.toNat ≤ 29 →
      let own := fun (i : Instr) (y : Core) => Completes i s fun t =>
        s.Elsewhere t c ∧ t.mem = s.mem ∧ t.srv = s.srv ∧ t.trim.kernels = s.trim.kernels ∧ t.core c.toNat = y
      (x.credits = 0 → own (.msend c sa) { s.stepped c with state := .credit, send := some sa }) ∧
      (x.credits = 4 → own (.mwait c) (s.stepped c)) ∧
      (x.credits ≠ 4 → own (.mwait c) { s.stepped c with state := .allCredits }) ∧
      (∀ w k, 0 < x.credits → s.bindingOf c.toNat = some (w, k) → delivers sa w (fun t _ =>
        s.Elsewhere t c ∧ t.core c.toNat = { s.stepped c with credits := x.credits - 1, send := none }) (.msend c sa))) ∧
    (x.credits < 4 → s.nextSlot = some c.toNat →
      (x.state ≠ .credit → Completes (.creditReturn c) s fun t =>
        t = { s with trim := { s.trim with cores := t.trim.cores, rr := c.toNat } } ∧
        t.core c.toNat = { x with credits := x.credits + 1,
                                  state := if x.state = .allCredits ∧ x.credits = 3 then .run else x.state } ∧
        ∀ d : CoreId, d ≠ c → t.core d.toNat = s.core d.toNat) ∧
      (∀ sa w k, sa.toNat ≤ 29 → x.state = .credit → x.send = some sa → s.bindingOf c.toNat = some (w, k) →
        delivers sa w (fun t _ => t.trim.rr = c.toNat ∧ t.regs = s.regs ∧
          t.core c.toNat = { x with send := none, state := .run } ∧
          ∀ d : CoreId, d ≠ c → t.core d.toNat = s.core d.toNat) (.creditReturn c))) ∧
    ((∀ d : CoreId, (s.core d.toNat).credits < 4 ↔ d = c) → s.nextSlot = some c.toNat)

/-- Links and address resolution (R303 to R305, R411): a PHY's report of link, and the duplicate address detection that a gained link
begins; an OAM status; ARP, neighbor discovery and echo; and a packet for a neighbour that is unknown, or of whose reachability nothing
has told lately (when a neighbour is asked again, and when it counts as gone: log entry 8). A frame for none of the port's addresses is
not answered. -/
def Obligations.LinksAndAddressResolution : Prop :=
  (∀ (s : State) (port : Nat), port < 6 →
    let began := s.now (portSide port)
    Completes (.phyLinkChange port false) s (fun t => t = { s with regs := t.regs } ∧
      s.RegsBut t [(Fld.NET_PSTAT_LINK, port), (Fld.NET_PSTAT_AN_DONE, port), (Fld.NET_FAULT_LINK, 0)] ∧
      t.rget Fld.NET_PSTAT_LINK port = 0 ∧ t.rget Fld.NET_PSTAT_AN_DONE port = 0 ∧ t.rget Fld.NET_FAULT_LINK = 1) ∧
    (s.rget Fld.CLK_STATUS_XA_FAIL = 0 → (s.rget Fld.CLK_STATUS_LOCK).testBit 1 = true →
      (s.rget Fld.SYS_GATE_PORT).testBit port = true → port < s.net.ports.length →
      Completes (.phyLinkChange port true) s fun t =>
        t = { s with net := { s.net with ports := t.net.ports, tx := t.net.tx }, regs := t.regs } ∧
        t.rget Fld.NET_PSTAT_LINK port = 1 ∧ t.rget Fld.NET_PSTAT_AN_DONE port = s.rget Fld.NET_PCFG_AN port ∧
        (∀ q, q ≠ port → t.port q = s.port q) ∧
        (s.rget Fld.NET_PCFG_MACSEC port = 0 →
          t.port port = { s.port port with llDuplicate := false, dadAt := some began } ∧
          s.RegsBut t [(Fld.NET_PSTAT_LINK, port), (Fld.NET_PSTAT_AN_DONE, port), (Fld.NET_TX_FRAMES_COUNT, 0)] ∧
          t.net.tx = s.net.tx ++ [{ port := port, vlan := (s.port port).applied.vlan, prio := s.rget Fld.NET_PCFG_PRIO_DATA port,
                                    mac := none, sec := none, body := .solicitation (linkLocal (s.portMac port)) }])) ∧
    (s.rget Fld.CLK_STATUS_XA_FAIL = 1 ∨ (s.rget Fld.CLK_STATUS_LOCK).testBit 1 = false ∨
        (s.rget Fld.SYS_GATE_PORT).testBit port = false → Completes (.phyLinkChange port true) s fun t => t = s) ∧
    (∀ status, port < s.net.ports.length → Completes (.oamFrame port status) s fun t =>
      t = { s with net := { s.net with ports := t.net.ports } } ∧ t.port port = { s.port port with oam := status } ∧
      ∀ q, q ≠ port → t.port q = s.port q)) ∧
  (∀ (s : State) (a : ArpPacket), s.PlainPort a.port → a.vlan = (s.port a.port).applied.vlan → a.sec = none →
    (s.portAddress a.port false a.target = false →
      Completes (.arpRequest a) s (fun t => t = s) ∧ Completes (.arpReply a) s (fun t => t = s)) ∧
    ((s.port a.port).applied.v4 = true → a.target = (s.port a.port).applied.ipv4 →
      Completes (.arpRequest a) s (fun t => s.Sent t
        { port := a.port, vlan := a.vlan, prio := s.rget Fld.NET_PCFG_PRIO_DATA a.port, mac := some a.mac, sec := none,
          body := .arpReply a.target a.mac }) ∧
      Completes (.arpReply a) s fun t => t.Knows a.port false a.ip a.mac ∧
        t.net.unresolved = s.net.unresolved.filter (fun f => !(match bodyDest f.body with
          | some (v6, b) => f.port == a.port && v6 == false && s.nextHop a.port false b == some a.ip
          | none => false)) ∧
        (t.net.unresolved = s.net.unresolved → t = { s with net := { s.net with neighbors := t.net.neighbors } }))) ∧
  (∀ (s : State) (n : NdPacket), s.PlainPort n.port → n.vlan = (s.port n.port).applied.vlan → n.sec = none →
    let own := linkLocal (s.portMac n.port)
    let answer := fun (mac : Option Nat) (dst : Nat) (t : State) => s.Sent t
      { port := n.port, vlan := n.vlan, prio := s.rget Fld.NET_PCFG_PRIO_DATA n.port, mac := mac, sec := none,
        body := .advertisement n.target dst }
    (s.portAddress n.port true n.target = true →
      (n.ip ≠ 0 → Completes (.neighborSolicitation n) s (answer (some n.mac) n.ip)) ∧
      (n.ip = 0 → (n.target ≠ own ∨ s.detecting n.port = false) →
        Completes (.neighborSolicitation n) s (answer none (0xFF02 * 2 ^ 112 + 1)))) ∧
    (s.portAddress n.port true n.target = false → n.target ≠ own → Completes (.neighborSolicitation n) s fun t => t = s) ∧
    (n.ip = 0 → n.target = own → n.mac ≠ s.portMac n.port → s.detecting n.port = true → n.port < s.net.ports.length →
      Completes (.neighborSolicitation n) s fun t =>
        t = { s with net := { s.net with ports := t.net.ports } } ∧ t.port n.port = { s.port n.port with llDuplicate := true } ∧
        ∀ q, q ≠ n.port → t.port q = s.port q) ∧
    (n.target ≠ own → Completes (.neighborAdvertisement n) s fun t =>
      ∃ x, t.neighbor n.port true n.target = some x ∧ x.mac = n.mac ∧ x.reachable = n.solicited ∧ x.probes = 0 ∧
        x.confirmedAt = s.now (portSide n.port)) ∧
    (n.target = own → n.mac ≠ s.portMac n.port → n.port < s.net.ports.length →
      Completes (.neighborAdvertisement n) s fun t =>
        t = { s with net := { s.net with ports := t.net.ports } } ∧ t.port n.port = { s.port n.port with llDuplicate := true } ∧
        ∀ q, q ≠ n.port → t.port q = s.port q)) ∧
  ∀ (s : State) (e : EchoPacket) (hop : Nat), s.PlainPort e.port → e.vlan = (s.port e.port).applied.vlan → e.sec = none →
    s.nextHop e.port e.v6 e.src = some hop →
    let frame := fun (mac : Option Nat) (b : FrameBody) =>
      ({ port := e.port, vlan := e.vlan, prio := s.rget Fld.NET_PCFG_PRIO_DATA e.port, mac := mac, sec := none, body := b } : TxFrame)
    let reply : FrameBody := .echoReply e.v6 e.src e.ident e.seq e.data
    let ask : FrameBody := if e.v6 then .solicitation hop else .arpRequest hop
    let asks := fun (t : State) => t.net.tx = s.net.tx ++ [frame none ask] ∧
      t.net.unresolved = s.net.unresolved ++ [frame none reply] ∧ t.neighbor e.port e.v6 hop = none
    let here := mtuOk e.port e.v6 e.data.length = true ∧ s.portAddress e.port e.v6 e.dst = true
    (∀ mac, here → s.Knows e.port e.v6 hop mac → Completes (.icmpEcho e) s fun t => s.Sent t (frame (some mac) reply)) ∧
    (here → s.neighbor e.port e.v6 hop = none → Completes (.icmpEcho e) s asks) ∧
    (∀ n, here → s.net.neighbors = [n] → s.neighbor e.port e.v6 hop = some n → n.stale (s.now (portSide e.port)) = true →
      (n.probes < 3 → Completes (.icmpEcho e) s fun t =>
        t.net.tx = s.net.tx ++ [frame (some n.mac) reply, frame (some n.mac) (.solicitation hop)] ∧
        t.net.neighbors = [{ n with probes := n.probes + 1 }]) ∧
      (3 ≤ n.probes → Completes (.icmpEcho e) s asks)) ∧
    (¬ here → Completes (.icmpEcho e) s fun t => t = s)

/-- MACsec (R307): a frame leaves under the transmit association with its next packet number, and one whose numbers are used up sends nothing
and sets NET.FAULT.MACSEC; then MACSEC_SAK, which installs a transmit or a receive association (which one a third receive association
replaces: log entry 8). -/
def Obligations.Macsec : Prop :=
  (
    ∀ (s : State) (a : ArpPacket), s.portLive a.port = true → s.rget Fld.NET_PCFG_MACSEC a.port = 1 →
      a.vlan = (s.port a.port).applied.vlan → a.port < s.net.ports.length →
      let x := s.port a.port
      (a.sec = none → Completes (.arpRequest a) s fun t => t = s) ∧
      ∀ g, a.sec = some g →
        ((∀ r ∈ x.rxSas, r.an = g.an → r.sci ≠ g.sci) ∨ g.ok = false → Completes (.arpRequest a) s fun t => t = s) ∧
        ∀ r, x.rxSas = [r] → r.an = g.an → r.sci = g.sci → g.ok = true →
          (g.pn + 64 ≤ r.pn ∨ g.pn ∈ r.seen → Completes (.arpRequest a) s fun t => t = s) ∧
          (r.pn < g.pn + 64 → g.pn ∉ r.seen →
            let last := if x.txSa.any (·.cipher == 2) then 2 ^ 64 - 1 else 2 ^ 32 - 1
            let heard := fun (t : State) => (∀ q, q ≠ a.port → t.port q = s.port q) ∧ ∃ r2, (t.port a.port).rxSas = [r2] ∧
              r2 = { r with pn := max r.pn g.pn, seen := r2.seen } ∧ ∀ k, k ∈ r2.seen ↔ (k = g.pn ∨ k ∈ r.seen) ∧ max r.pn g.pn < k + 64
            (s.portAddress a.port false a.target = false → Completes (.arpRequest a) s fun t => heard t ∧ t.net.tx = s.net.tx) ∧
            ∀ sa, s.portAddress a.port false a.target = true → x.txSa = some sa →
              (sa.pn ≤ last → Completes (.arpRequest a) s fun t => heard t ∧
                (t.port a.port).txSa = some { sa with pn := sa.pn + 1 } ∧
                t.net.tx = s.net.tx ++ [{ port := a.port, vlan := a.vlan, prio := s.rget Fld.NET_PCFG_PRIO_DATA a.port,
                                          mac := some a.mac, sec := some (s.portSci a.port, sa.an, sa.pn),
                                          body := .arpReply a.target a.mac }]) ∧
              (last < sa.pn → Completes (.arpRequest a) s fun t => heard t ∧ t.net.tx = s.net.tx ∧
                t.rget Fld.NET_FAULT_MACSEC = 1 ∧ s.RegsBut t [(Fld.NET_FAULT_MACSEC, 0)]))) ∧
  (
    ∀ (s : State) (m : Msg) (x : Session), s.Hears m x 5 m.payload.length →
      let p := m.payload
      let port := u8 p 0
      let sa : MacsecSa := { an := u8 p 1, cipher := u8 p 3, sci := u64 p 4, key := slice p 32 32, salt := slice p 64 12,
                             ssci := u32 p 76, pn := 0 }
      (p.length ≠ 80 ∨ port < 2 ∨ 5 < port ∨ 3 < u8 p 1 ∨ 1 < u8 p 2 ∨ u8 p 3 = 0 ∨ 2 < u8 p 3 ∨
          (u8 p 3 = 2 ∧ s.rget Fld.NET_PCFG_XPN port = 0) ∨ allZero p 12 20 = false ∨ (u8 p 2 = 0 ∧ allZero p 4 8 = false) ∨
          (u8 p 3 = 1 ∧ allZero p 64 16 = false) →
        Completes (.macsecSak m) s fun t => s.Refuses t m x 5 Code.E_PARAM) ∧
      (p.length = 80 → 2 ≤ port → port ≤ 5 → u8 p 1 ≤ 3 → (u8 p 3 = 1 ∧ allZero p 64 16 = true ∨
          u8 p 3 = 2 ∧ s.rget Fld.NET_PCFG_XPN port = 1) → allZero p 12 20 = true → port < s.net.ports.length →
        (u8 p 2 = 0 → allZero p 4 8 = true → Completes (.macsecSak m) s fun t => s.Answers t m x 5 Code.OK [] [] ∧
          t = { s with net := t.net } ∧ t.port port = { s.port port with txSa := some { sa with pn := 1 } } ∧
          ∀ q, q ≠ port → t.port q = s.port q) ∧
        (u8 p 2 = 1 → Completes (.macsecSak m) s fun t => s.Answers t m x 5 Code.OK [] [] ∧ t = { s with net := t.net } ∧
          sa ∈ (t.port port).rxSas ∧ (t.port port).txSa = (s.port port).txSa ∧
          (∀ o ∈ (t.port port).rxSas, o = sa ∨ (o ∈ (s.port port).rxSas ∧ o.an ≠ sa.an)) ∧ (t.port port).rxSas.length ≤ 2 ∧
          ∀ q, q ≠ port → t.port q = s.port q)))

/-- The timers of a path (R327, R329): the ack delay, the retransmission timeout and the probe interval. -/
def Obligations.PathTimers : Prop :=
  ∀ (s : State) (n k hop mac : Nat) (x : Session) (p : Path), s.session n = some x → x.path k = some p → s.PlainPort p.port →
    s.nextHop p.port p.peer.v6 p.peer.addr = some hop → s.Knows p.port p.peer.v6 hop mac →
    let sent := fun (t : State) (bytes : List Byte) (prio : Nat) => t.net.tx = s.net.tx ++
      [{ port := p.port, vlan := (s.port p.port).applied.vlan, prio := prio, mac := some mac, sec := none,
         body := .qmt p.peer bytes }]
    let prio := s.rget Fld.NET_PCFG_PRIO_DATA p.port
    (0 < p.ackOwed → Completes (.ackDelayExpiry n k) s fun t => t.pathOf n k = some { p with ackOwed := 0 } ∧
      sent t (ackBytes n p x.rxConsumed (s.now p.fe - p.echoAt)) prio) ∧
    (p.ackOwed = 0 → Completes (.ackDelayExpiry n k) s fun t => t = s) ∧
    (p.unacked = [] → s.feUp p.fe = true → p.txNext ≤ 4294967294 → Completes (.probeInterval n k) s fun t =>
      t.pathOf n k = some { p with txNext := p.txNext + 1, unacked := [⟨p.txNext, ⟨0, 0, 0⟩, s.now p.fe, false, 0⟩] } ∧
      sent t (probeBytes n k p.txEpoch p.txNext) prio) ∧
    (∀ f l w, p.unacked = f :: l → (∀ g ∈ l, g.packet ≠ f.packet) → 0 < f.frag.length →
      Dict.fetch x.sending f.frag.message = some w → p.txNext ≤ 4294967294 →
      let q : Path := { p with rto := min (2 * p.rto) (s.rget Fld.NET_RTO_MAX_US), expiries := p.expiries + 1,
                               cwnd := max (p.cwnd / 2) (fragMax p.port p.peer.v6), txNext := p.txNext + 1,
                               unacked := l ++ [⟨p.txNext, f.frag, s.now p.fe, true, 0⟩] }
      (p.expiries < 7 ∨ p.down = true → Completes (.retransmitTimeout n k) s fun t => t.pathOf n k = some q ∧
        t.rget Fld.NET_RETX_COUNT = (s.rget Fld.NET_RETX_COUNT + if s.rbit Fld.NET_CTRL_FREEZE then 0 else 1) % 2 ^ 32 ∧
        sent t (dataBytes n k p.txEpoch p.txNext f.frag.message f.frag.offset (slice w.bytes f.frag.offset f.frag.length))
          (s.prio p.port (leNat (slice w.bytes 4 2)))) ∧
      (7 ≤ p.expiries → p.down = false → x.paths = [p] → Completes (.retransmitTimeout n k) s fun t =>
        t.pathOf n k = some { q with down := true } ∧
        (s.rget Fld.NET_CTRL_FREEZE = 0 → s.rget Fld.NET_PATH_DOWN_COUNT < 2 ^ 32 - 1 →
          t.rget Fld.NET_PATH_DOWN_COUNT = s.rget Fld.NET_PATH_DOWN_COUNT + 1)))

/-- Frames received on a path (R309 to R311, R313, R325 to R329): the packet record, acks, probes and path resets, and fragments of
messages. -/
def Obligations.FramesReceived : Prop :=
  ∀ (s : State) (d : Datagram) (f : RxFrame) (kind : Nat) (x : Session) (p : Path), s.OnPath d f kind x p → x.closing = false →
    let n := x.number
    let heard := fun (t : State) => (t.session n).map (·.lastFrame) = some (s.now p.fe) ∧
      t.rget Fld.NET_RX_FRAMES_COUNT = (s.rget Fld.NET_RX_FRAMES_COUNT + if s.rbit Fld.NET_CTRL_FREEZE then 0 else 1) % 2 ^ 32
    -- a data frame: the first bytes of a message, in packet order
    (kind = 1 → f.epoch = p.rxEpoch → f.packet = p.rxCum + 1 → p.rxAbove = [] → p.ackOwed = 0 →
      let number := u64 f.bytes 16
      let b := f.bytes.drop 32
      x.nextDeliver ≤ number → number ≠ 0 → number < 2 ^ 43 → Dict.has x.ahead number = false →
      Dict.fetch x.assemblies number = none → u32 f.bytes 24 = 0 → 0 < b.length → b.length < 32 →
      x.rxBegun - x.rxConsumed + b.length ≤ x.window → x.counter < 2 ^ 63 - 2 → x.nextDeliver < 2 ^ 43 →
      Completes (.dataFrame d) s fun t => heard t ∧
        t.pathOf n p.number = some { p with rxCum := f.packet, ackOwed := 1, echo := f.packet, echoAt := s.now p.fe } ∧
        ∃ y a, t.session n = some y ∧ Dict.fetch y.assemblies number = some a ∧ a.wire = none ∧
          (∀ o, Dict.fetch a.held o = b[o]?) ∧ y.rxBegun = x.rxBegun ∧ y.ready = x.ready) ∧
    -- a data frame without credit is dropped unacknowledged
    (kind = 1 → f.epoch = p.rxEpoch → p.has f.packet = false →
      let number := u64 f.bytes 16
      let b := f.bytes.drop 32
      x.nextDeliver ≤ number → number ≠ 0 → number < 2 ^ 43 → Dict.has x.ahead number = false →
      Dict.fetch x.assemblies number = none → u32 f.bytes 24 = 0 → 0 < b.length → b.length < 32 →
      x.window < x.rxBegun - x.rxConsumed + b.length →
      Completes (.dataFrame d) s fun t => heard t ∧ t.pathOf n p.number = some p ∧
        (s.rget Fld.NET_CTRL_FREEZE = 0 → s.rget Fld.NET_CREDIT_VIOL_COUNT < 2 ^ 32 - 1 →
          t.rget Fld.NET_CREDIT_VIOL_COUNT = s.rget Fld.NET_CREDIT_VIOL_COUNT + 1)) ∧
    -- an ack of every frame in flight
    (kind = 2 → f.epoch = p.txEpoch → x.paths = [p] → p.toSend = [] →
      (∀ g ∈ p.unacked, g.packet ≤ u32 f.bytes 16) → (∀ g ∈ p.unacked, g.retx = true ∨ g.packet ≠ u32 f.bytes 32) →
      let gain := (p.unacked.filter fun g => g.frag.length != 0).length * fragMax p.port p.peer.v6
      Completes (.ackFrame d) s fun t => heard t ∧
        t.pathOf n p.number = some { p with unacked := [], expiries := 0, down := false, cwnd := p.cwnd + gain } ∧
        ∃ y, t.session n = some y ∧ y.txConsumed = max x.txConsumed (u64 f.bytes 24) ∧ y.sending = [] ∧ y.ready = x.ready) ∧
    -- a probe is answered with an ack
    (kind = 3 → f.epoch = p.rxEpoch → p.has f.packet = true → ∀ hop mac, s.nextHop p.port p.peer.v6 p.peer.addr = some hop →
      s.Knows p.port p.peer.v6 hop mac →
      Completes (.probeFrame d) s fun t => heard t ∧
        t.pathOf n p.number = some { p with ackOwed := 0, echo := f.packet, echoAt := s.now p.fe } ∧
        t.net.tx = s.net.tx ++ [{ port := p.port, vlan := (s.port p.port).applied.vlan,
                                  prio := s.rget Fld.NET_PCFG_PRIO_DATA p.port, mac := some mac, sec := none,
                                  body := .qmt p.peer (ackBytes n { p with ackOwed := p.ackOwed + 1, echo := f.packet,
                                                                           echoAt := s.now p.fe } x.rxConsumed 0) }]) ∧
    -- a path reset: a newer epoch clears the record, an older or equal one does not; its own number counts in the epoch it is of
    (kind = 4 →
      let e := u16 f.bytes 16
      let ahead := (e + 65536 - p.rxEpoch % 65536) % 65536
      let noted := fun (q : Path) => if q.rxEpoch = f.epoch then q.noteReceived f.packet else q
      (0 < ahead ∧ ahead < 32768 → Completes (.pathResetFrame d) s fun t => heard t ∧
        t.pathOf n p.number = some (noted { p with rxEpoch := e, rxCum := 0, rxAbove := [] }) ∧
        (f.epoch = e → f.packet = 1 → t.pathOf n p.number = some { p with rxEpoch := e, rxCum := 1, rxAbove := [] })) ∧
      (¬ (0 < ahead ∧ ahead < 32768) → Completes (.pathResetFrame d) s fun t => heard t ∧ t.pathOf n p.number = some (noted p))) ∧
    -- a frame of another kind or an older epoch is dropped
    (kind ≠ 1 → Completes (.dataFrame d) s fun t => t = { s with regs := t.regs }) ∧
    (kind = 2 → f.epoch ≠ p.txEpoch → Completes (.ackFrame d) s fun t => t = { s with regs := t.regs })

/-- A whole message in one fragment (R310, R313, R317, R319) reaches the inbox of its block or is dropped; then SEND_MESSAGE (R326, R347): the
first message whose records are durable begins once the partner's window has room for it, and holds back every later message until then. -/
def Obligations.MessagesSentAndReceived : Prop :=
  (
    (∀ (s : State) (d : Datagram) (f : RxFrame) (x : Session) (p : Path), s.OnPath d f 1 x p → x.closing = false →
      f.epoch = p.rxEpoch → p.has f.packet = false → x.ahead = [] → Dict.fetch x.assemblies x.nextDeliver = none →
      x.nextDeliver < 2 ^ 43 - 1 → x.counter < 2 ^ 63 - 2 → x.nextDeliver ≠ 0 →
      u64 f.bytes 16 = x.nextDeliver → u32 f.bytes 24 = 0 →
      let b := f.bytes.drop 32
      let len := u32 b 12
      b.length = 48 + len → u16 b 0 = 0x5451 → u16 b 2 = 256 + x.minor → u16 b 6 = 0 → u32 b 8 = x.number →
      u64 b 16 = x.nextDeliver → u16 b 28 = 0 → u16 b 30 = 0 → x.rxBegun - x.rxConsumed + (48 + len) ≤ x.window →
      u16 b 4 ∈ [0x0003, 0x0100, 0x0120, 0x0300, 0x0400, 0x0600] →
      Completes (.dataFrame d) s fun t =>
        match gcmOpen x.keyPM (nonce x.number x.nextDeliver) (b.take 32) (b.drop 32) with
        | some payload => t.net.inbox = s.net.inbox ++ [⟨x.number, u16 b 4, x.nextDeliver, u32 b 24, payload⟩] ∧
            (t.session x.number).map (·.nextDeliver) = some (x.nextDeliver + 1) ∧
            (t.session x.number).map (·.rxBegun) = some (x.rxBegun + (48 + len))
        | none => t.net.inbox = s.net.inbox ∧ (t.session x.number).map (·.nextDeliver) = some x.nextDeliver ∧
            (t.session x.number).map (·.rxBegun) = some x.rxBegun ∧
            (t.session x.number).map (fun y => y.authWait.contains x.nextDeliver) = some true) ∧
    (∀ (s : State) (d : Datagram) (f : RxFrame) (x : Session) (p : Path), s.OnPath d f 1 x p → x.closing = false →
      f.epoch = p.rxEpoch → p.has f.packet = false → x.repeats = [] →
      let b := f.bytes.drop 32
      let number := u64 f.bytes 16
      number < x.nextDeliver → number ≠ 0 → number < 2 ^ 43 → u32 f.bytes 24 = 0 → b.length = 48 + u32 b 12 →
      u16 b 0 = 0x5451 → u16 b 2 = 256 + x.minor → u16 b 6 = 0 → u32 b 8 = x.number → u64 b 16 = number → u16 b 28 = 0 → u16 b 30 = 0 →
      Completes (.dataFrame d) s fun t =>
        t.net.inbox = s.net.inbox ∧ (t.session x.number).map (·.nextDeliver) = some x.nextDeliver ∧
        (t.session x.number).map (·.rxBegun) = some x.rxBegun ∧
        match gcmOpen x.keyPM (nonce x.number number) (b.take 32) (b.drop 32) with
        | some _ => t.rget Fld.NET_DUP_MSG_COUNT =
            (s.rget Fld.NET_DUP_MSG_COUNT + if s.rbit Fld.NET_CTRL_FREEZE then 0 else 1) % 2 ^ 32
        | none => s.CountedUp t Fld.NET_AUTH_FAIL_COUNT 1) ∧
    (∀ (s : State) (d : Datagram) (f : RxFrame) (x : Session), s.Takes d → parseFrame d.bytes = some f → f.kind = 1 →
      s.session f.session = some x → f.session ≠ 0 → x.closing = false → s.feUp (portSide d.port) = true →
      (∀ p ∈ x.paths, ¬ (p.port = d.port ∧ p.peer = d.peer)) → x.ahead = [] → s.net.newPaths = [] → x.nextDeliver < 2 ^ 43 →
      let b := f.bytes.drop 32
      u64 f.bytes 16 = x.nextDeliver → u32 f.bytes 24 = 0 → b.length = 80 → x.rxBegun - x.rxConsumed + 80 ≤ x.window →
      let head := u16 b 0 = 0x5451 ∧ u16 b 2 = 256 + x.minor ∧ u16 b 6 = 0 ∧ u32 b 8 = f.session ∧ u32 b 12 = 32 ∧
        u64 b 16 = x.nextDeliver ∧ u16 b 28 = 0 ∧ u16 b 30 = 0
      (head → u16 b 4 = 4 → Completes (.dataFrame d) s fun t =>
        match gcmOpen x.keyPM (nonce x.number x.nextDeliver) (b.take 32) (b.drop 32) with
        | some payload => t.net.inbox = s.net.inbox ++ [⟨x.number, 4, x.nextDeliver, u32 b 24, payload⟩] ∧
            (t.session x.number).map (·.nextDeliver) = some (x.nextDeliver + 1) ∧
            (t.session x.number).map (·.rxBegun) = some (x.rxBegun + 80)
        | none => t = { s with regs := t.regs }) ∧
      (u16 b 4 ≠ 4 → Completes (.dataFrame d) s fun t => t = { s with regs := t.regs })) ∧
    ∀ (s : State) (d : Datagram) (f : RxFrame), s.Takes d → parseFrame d.bytes = some f → f.kind = 1 → f.session = 0 → f.path = 0 →
      u64 f.bytes 16 = 1 → u32 f.bytes 24 = 0 → (∀ o ∈ s.net.opens, ¬ (o.port = d.port ∧ o.peer = d.peer)) →
      let b := f.bytes.drop 32
      b.length = 320 → u32 b 12 = 288 →
      Completes (.dataFrame d) s fun t =>
        t = { s with net := { s.net with openInbox := s.net.openInbox ++ [⟨d.port, d.peer, b⟩] }, regs := t.regs }) ∧
  (
    ∀ (s : State) (n : Nat) (x : Session) (m : ModMsg), s.session n = some x → s.nextReady x = some m → x.closing = false →
      x.counter < 2 ^ 63 - 2 → x.nextDeliver < 2 ^ 43 → (∀ q ∈ s.srv.sequences, q.2.phase ≠ .unsent) →
      let wire := 32 + m.payload.length + if m.plain then 0 else 16
      (x.txBegun - x.txConsumed + wire ≤ x.partnerWindow → Completes (.sendMessage n) s fun t =>
        t = { s with net := t.net, regs := t.regs } ∧ ∃ y, t.session n = some y ∧ y.ready = x.ready.erase m ∧
          (∃ w, Dict.fetch y.sending m.number = some ⟨w, m.needs, m.pages⟩ ∧ w.take 32 = headerBytes x m ∧
            y.txBegun = x.txBegun + w.length) ∧
          ∀ k, k ≠ m.number → Dict.fetch y.sending k = Dict.fetch x.sending k) ∧
      (x.partnerWindow < x.txBegun - x.txConsumed + wire → Completes (.sendMessage n) s fun t =>
        t = { s with net := t.net } ∧ t.session n = some { x with ready := m :: x.ready.erase m } ∧
        t.net = { s.net with sessions := t.net.sessions } ∧
        ∀ k, k % 16384 ≠ n % 16384 → t.session k = s.session k))

/-- SESSION_OPEN (R315 to R317, R325, R515): received whole, and answered by the holder of the twin lease (a twin answers a twin's: log
entry 29), it is answered on its port with a refusal that carries the first failing
check's code, or a session opens with the role, windows and path it asks for and a SESSION record, and SESSION_ACCEPT waits for that
record. What the ciphers verify is free (log entry 3), so the two outcomes stand in the conclusion. -/
def Obligations.SessionOpening : Prop :=
  ∀ (s : State) (port : Nat) (peer : PeerAddr) (wire : List Byte) (hop mac index : Nat) (pages : List Nat) (s1 : State),
    s.supActs = true → (s.twinActs = true ∨ u8 (wire.drop 32) 2 = 5) → s.boot.step = 11 → s.rget Fld.SEC_TRNG_FAIL = 0 →
    s.PlainPort port → s.feUp (portSide port) = true →
    s.nextHop port peer.v6 peer.addr = some hop → s.Knows port peer.v6 hop mac → s.net.openInbox = [⟨port, peer, wire⟩] →
    wire.length = 320 → u16 wire 0 = 0x5451 → u16 wire 4 = 1 → u16 wire 6 = 1 → u32 wire 8 = 0 → u32 wire 12 = 288 →
    u64 wire 16 = 1 → u16 wire 28 = 0 → u16 wire 30 = 0 →
    let p := wire.drop 32
    let window := s.grantWindow (u32 p 8)
    Dict.firstFree s.net.sessions 0 16384 = some index → s.takePages (window / 65536) = some (pages, s1) →
    Completes (.sessionOpen port peer wire) s fun t =>
      match s.openRefusal (u16 wire 2) p with
      | some c =>
        t = { s with net := { s.net with openInbox := [], tx := t.net.tx }, regs := t.regs } ∧
        ∃ b, t.net.tx = s.net.tx ++ [{ port := port, vlan := (s.port port).applied.vlan,
                                       prio := s.rget Fld.NET_PCFG_PRIO_CTRL port, mac := some mac, sec := none,
                                       body := .qmt peer b }] ∧
          u16 b 36 = 2 ∧ u16 b 38 = 1 ∧ u32 b 40 = 0 ∧ u32 b 56 = u32 wire 24 ∧ u16 b 60 = c.toNat ∧
          b.drop 64 = [1, 3] ++ zeroBytes 286
      | none => ∃ y a, y.number % 16384 = index ∧ t.session y.number = some y ∧ y.role = u8 p 2 ∧ y.minor = min (u8 p 1) 3 ∧
          y.wantsProtected = (u8 p 3).testBit 0 ∧ y.window = window ∧ y.pages = pages ∧ y.partnerWindow = u32 p 4 ∧
          y.paths = [{ number := 0, port := port, fe := portSide port, home := portSide port, peer := peer }] ∧
          y.ready = [{ number := 2 ^ 20, type := 2, code := Code.OK, tag := u32 wire 24, payload := a, plain := true,
                       needs := [s.cont.nextIndex] }] ∧
          t.cont = s.cont.with [s.record y.number 0 (.session .opened 1)] ∧ t.mem = s1.mem ∧ t.srv = s.srv

/-- Closing a session and adding a path (R308, R313, R318, R323): SESSION_CLOSE is answered and journalled and ends the session's work;
the module closes an idle session with B_RETRY and one whose message stays unverified with E_AUTH_FAIL; PATH_ADD adds a path. -/
def Obligations.SessionsCloseAndGainPaths : Prop :=
  ∀ (s : State) (m : Msg) (x : Session),
    let n := m.session
    (s.Hears m x 3 32 → s.mayActFor n = true →
      (allZero m.payload 0 32 = false → Completes (.sessionClose m) s fun t => s.Refuses t m x 3 Code.E_RESERVED) ∧
      (allZero m.payload 0 32 = true → s.NoWork n → Completes (.sessionClose m) s fun t =>
        t = { s with net := t.net, cont := s.cont.with [s.record n 0 (.session .closed x.counter)] } ∧
        t.session n = some { Replied x m 3 Code.OK [] [s.cont.nextIndex] with closing := true })) ∧
    (s.session n = some x → x.closing = false → s.mayActFor n = true → s.NoWork n →
      let closed := fun (t : State) (c : Code) =>
        t.cont = s.cont.with [s.record n 0 (.session .closed x.counter)] ∧
        t.session n = some { x with counter := x.counter + 1, closing := true, ready := x.ready ++
          [{ number := 2 ^ 63 + x.counter, type := 3, code := c, payload := zeroBytes 32, needs := [s.cont.nextIndex] }] }
      Completes (.idleClose n) s (fun t => closed t Code.B_RETRY ∧ t.regs = s.regs) ∧
      (∀ k, k ∈ x.authWait → Completes (.authFailTimeout n k) s fun t => closed t Code.E_AUTH_FAIL ∧
        t.rget Fld.NET_FAULT_AUTH = 1 ∧ s.RegsBut t [(Fld.NET_FAULT_AUTH, 0)]) ∧
      (∀ k, k ∉ x.authWait → Completes (.authFailTimeout n k) s fun t => t = s)) ∧
    (∀ (port : Nat) (peer : PeerAddr), s.Hears m x 4 32 → allZero m.payload 0 32 = true →
      (4 ≤ x.paths.length → Completes (.pathAdd port peer m) s fun t => s.Refuses t m x 4 Code.E_PARAM) ∧
      (∀ q, x.paths = [q] → q.down = false → (3 ≤ x.minor ∨ 2 ≤ port ∨ portSide port = q.home) →
        let fe := if 3 ≤ x.minor ∨ port < 2 then portSide port else q.home
        let p : Path := { number := q.number + 1, port := port, fe := fe, home := fe, peer := peer }
        Completes (.pathAdd port peer m) s fun t =>
          t = { s with net := t.net, cont := s.cont.with [s.record n 0 (.session .path x.counter)] } ∧
          t.session n = some (Replied { x with paths := [q, p] } m 4 Code.OK (leBytes 2 (q.number + 1) ++ zeroBytes 30) [])) ∧
      (∀ q, x.paths = [q] → x.minor < 3 → port < 2 → portSide port ≠ q.home →
        Completes (.pathAdd port peer m) s fun t => s.Refuses t m x 4 Code.E_PARAM))

/-- The CLEAR fields (R93, R113, R147, R212 to R214, R256, R302, R332, R365, R452, R499; log entry 13): every counter of the block reads 0, and
nothing else changes; a gated block takes no write (R415). Then NET.CTRL.APPLY (R305, R306). -/
def Obligations.CounterClearsAndNetSettings : Prop :=
  (
    ∀ s : State,
      let clears := fun (i : Instr) (l : List (Field × Nat)) => Completes i s fun t =>
        t = { s with regs := t.regs } ∧ s.RegsBut t l ∧ ∀ f ∈ l, t.rget f.1 f.2 = 0
      let fields := fun (l : List Field) => l.map fun f => (f, 0)
      let on := fun (f : Field) => s.rget f = 1
      (on Fld.SYS_GATE_ARR → clears .arrCounterClear (fields
        [Fld.ARR_ACC_CORR_COUNT, Fld.ARR_PASS_COUNT_COUNT, Fld.ARR_BUSY_LO_COUNT, Fld.ARR_BUSY_HI_COUNT, Fld.ARR_STALL_WEIGHT_COUNT,
         Fld.ARR_STALL_FEED_COUNT, Fld.ARR_STALL_BANK_COUNT, Fld.ARR_STALL_DRAIN_COUNT, Fld.ARR_STALL_DEP_COUNT])) ∧
      (on Fld.SYS_GATE_FEED → clears .feedCounterClear (fields
        [Fld.FEED_ROWS_LO_COUNT, Fld.FEED_ROWS_HI_COUNT, Fld.FEED_PAD_ROWS_COUNT, Fld.FEED_LOAD_LO_COUNT, Fld.FEED_LOAD_HI_COUNT,
         Fld.FEED_STALL_PROC_COUNT, Fld.FEED_STALL_LOAD_COUNT, Fld.FEED_BOXES_COUNT])) ∧
      (on Fld.SYS_GATE_TRIM → clears .trimCounterClear (fields
        [Fld.TRIM_INSTR_LO_COUNT, Fld.TRIM_INSTR_HI_COUNT, Fld.TRIM_STALL_MEM_COUNT, Fld.TRIM_STALL_CRED_COUNT,
         Fld.TRIM_STALL_SYNC_COUNT, Fld.TRIM_KERNELS_COUNT])) ∧
      (on Fld.SYS_GATE_MEM → clears .memCounterClear
        ((List.range 80).map (fun k => (Fld.MEM_CE_COUNT_COUNT, k)) ++ fields [Fld.MEM_UE_COUNT_COUNT, Fld.MEM_READS_PEAK])) ∧
      clears .xltCounterClear (fields
        [Fld.XLT_HITS_LO_COUNT, Fld.XLT_HITS_HI_COUNT, Fld.XLT_MISSES_COUNT, Fld.XLT_MOVES_COUNT]) ∧
      clears .bankCounterClear (fields
        [Fld.BANK_CE_COUNT_COUNT, Fld.BANK_UE_COUNT_COUNT, Fld.BANK_COLLISIONS_COUNT, Fld.BANK_DMA_WAIT_COUNT]) ∧
      clears .srvCounterClear (fields
        [Fld.SRV_ADMITTED_COUNT, Fld.SRV_REFUSED_COUNT, Fld.SRV_BATCHES_COUNT, Fld.SRV_PREEMPTS_COUNT, Fld.SRV_OVERRUN_COUNT]) ∧
      clears .netCounterClear (fields
        [Fld.NET_RX_FRAMES_COUNT, Fld.NET_TX_FRAMES_COUNT, Fld.NET_RETX_COUNT, Fld.NET_DUP_MSG_COUNT, Fld.NET_AUTH_FAIL_COUNT,
         Fld.NET_LEN_ERR_COUNT, Fld.NET_CREDIT_VIOL_COUNT, Fld.NET_PATH_DOWN_COUNT]) ∧
      clears .contCounterClear (fields [Fld.CONT_TAKEOVERS_COUNT, Fld.CONT_REPLAYS_COUNT, Fld.CONT_TWIN_LOSSES_COUNT]) ∧
      Completes .thmCounterClear s (fun t => t = { s with regs := t.regs, thm := { s.thm with spots := t.thm.spots } } ∧
        s.RegsBut t (fields [Fld.THM_COUNTS_WARM, Fld.THM_COUNTS_CRIT]) ∧ t.rget Fld.THM_COUNTS_WARM = 0 ∧
        t.rget Fld.THM_COUNTS_CRIT = 0 ∧ t.thm.spots = s.thm.spots.map fun h => { h with max := none }) ∧
      (on Fld.SYS_GATE_VID → Completes .vidCounterClear s fun t => t = { s with vid := { s.vid with contexts := t.vid.contexts } } ∧
        ∀ k, t.video k = (s.video k).map fun x => { x with frames := 0, concealed := 0 }) ∧
      (∀ f i, (f, i) ∈ [(Fld.SYS_GATE_ARR, Instr.arrCounterClear), (Fld.SYS_GATE_FEED, .feedCounterClear),
          (Fld.SYS_GATE_TRIM, .trimCounterClear), (Fld.SYS_GATE_MEM, .memCounterClear), (Fld.SYS_GATE_VID, .vidCounterClear)] →
        s.rget f = 0 → Completes i s fun t => t = s)) ∧
  (
    ∀ s : State, s.net.ports.length = 6 → Completes .netApply s fun t =>
      t = { s with net := { s.net with ports := t.net.ports, udpPort := t.net.udpPort, tx := t.net.tx }, regs := t.regs } ∧
      t.net.udpPort = s.rget Fld.NET_UDP_PORT ∧
      (∀ p, p < 6 → (t.port p).applied =
        { vlan := s.rget Fld.NET_PCFG_VLAN p, v4 := s.rget Fld.NET_PCFG_V4 p == 1, ipv4 := s.rget Fld.NET_IPV4_ADDR p,
          prefix4 := s.rget Fld.NET_IPV4_CFG_PREFIX p, gateway := s.rget Fld.NET_GW4_ADDR p, v6 := s.rget Fld.NET_PCFG_V6 p == 1,
          ipv6 := s.rget (Fld.NET_IPV6_ADDR 0) p + s.rget (Fld.NET_IPV6_ADDR 1) p * 2 ^ 32 +
            s.rget (Fld.NET_IPV6_ADDR 2) p * 2 ^ 64 + s.rget (Fld.NET_IPV6_ADDR 3) p * 2 ^ 96,
          prefix6 := s.rget Fld.NET_IPV6_CFG_PREFIX p }) ∧
      (∀ p, p < 6 → s.PlainPort p → s.rget Fld.NET_PCFG_V4 p = 1 →
        { port := p, vlan := s.rget Fld.NET_PCFG_VLAN p, prio := s.rget Fld.NET_PCFG_PRIO_DATA p, mac := none, sec := none,
          body := .arpRequest (s.rget Fld.NET_IPV4_ADDR p) } ∈ t.net.tx) ∧
      ((∀ p, p < 6 → s.rget Fld.NET_PCFG_V4 p = 0) → t.net.tx = s.net.tx ∧ t.regs = s.regs))

/-- MGMT_READ (R494 to R496, R498, R500 to R503): the words of a mapped, ungated range under the session's selectors, or the refusal of
the first failing check, which SYS.MGMT notes; every reply has the field area of R503. -/
def Obligations.ManagementReads : Prop :=
  ∀ (s : State) (m : Msg) (x : Session), s.session m.session = some x → x.closing = false → s.mayActFor m.session = true →
    s.leftToTwin m = false →
    let p := m.payload
    let a := u32 p 0
    let n := u16 p 4
    let mapped := a % 4 = 0 ∧ blockMapped a = true ∧ 1 ≤ n ∧ n ≤ 1024 ∧ (a + 4 * (n - 1)) / 65536 = a / 65536
    let zeros := allZero p 6 2 = true ∧ u8 p 16 = 0 ∧ allZero p 17 15 = true
    let refused := fun (c : Code) (i : Nat) => Completes (.mgmtRead m) s fun t =>
      s.Answers t m x 0x0300 c (slice p 0 4 ++ leBytes 2 0 ++ leBytes 2 i ++ slice p 8 8 ++ zeroBytes 16) [] ∧
      t = { s with net := t.net, regs := t.regs } ∧ t.rget Fld.SYS_MGMT_LAST_CODE = c.toNat ∧
      s.RegsBut t [(Fld.SYS_MGMT_LAST_CODE, 0), (Fld.SYS_MGMT_REFUSED, 0)]
    let role := s.roleAllows x.role 0x0300
    let view := if u8 p 16 = 0 then x.selectors else Dict.store x.selectors (u32 p 20) (BitVec.ofNat 32 (u32 p 24)).toNat
    (Completes (.mgmtRead m) s fun t => ∃ (y : Session) (c : Code) (i : Nat) (ws : List Word), s.Answers t m y 0x0300 c
      (slice p 0 4 ++ leBytes 2 ws.length ++ leBytes 2 i ++ slice p 8 8 ++ zeroBytes 16 ++ (ws.map fun w => leBytes 4 w.toNat).flatten) [] ∧
      (c = Code.OK → ws.length = n) ∧ (c ≠ Code.OK → ws = []) ∧ (c ≠ Code.E_GATED → i = 65535) ∧
      (c = Code.E_GATED → s.gated view (a + 4 * i) = true ∧ ∀ j, j < i → s.gated view (a + 4 * j) = false)) ∧
    (role = false → refused Code.E_ROLE 65535) ∧
    (role = true → p.length ≠ 32 → refused Code.E_INPUT_SIZE 65535) ∧
    (role = true → p.length = 32 → (allZero p 6 2 = false ∨ 1 < u8 p 16 ∨ allZero p 17 3 = false ∨ allZero p 28 4 = false) →
      refused Code.E_RESERVED 65535) ∧
    (role = true → p.length = 32 → zeros → ¬ mapped → refused Code.E_PARAM 65535) ∧
    (role = true → p.length = 32 → zeros → mapped → a / 65536 = 0x10 → s.rget Fld.SYS_GATE_ARR = 0 → refused Code.E_GATED 0) ∧
    (role = true → p.length = 32 → zeros → mapped → a / 65536 ∈ [0, 1, 2, 3, 4, 0x13, 0x21, 0x22, 0x30, 0x31, 0x41, 0x50, 0x51] →
      Completes (.mgmtRead m) s fun t =>
        let r := s.readRegs x.selectors x.latches ((List.range n).map fun i => a + 4 * i)
        s.Answers t m { x with latches := r.2 } 0x0300 Code.OK (slice p 0 4 ++ leBytes 2 n ++ leBytes 2 65535 ++ slice p 8 8 ++
          zeroBytes 16 ++ (r.1.map fun w => leBytes 4 w.toNat).flatten) [] ∧ r.1.length = n ∧
        t = { s with net := t.net })

/-- MGMT_WRITE of one register (R496, R497, R504 to R508), then GATE_WRITE (R413 to R416): the masked enable bits of SYS.GATE are written, and
a port whose bit falls loses its link; a write that would change a locked bit, or clear one of a block in use, is refused. -/
def Obligations.ManagementAndGateWrites : Prop :=
  (
    ∀ (s : State) (m : Msg) (x : Session), s.session m.session = some x → x.closing = false → s.mayActFor m.session = true →
      let p := m.payload
      let a := u32 p 32
      let mask := BitVec.ofNat 32 (u32 p 36)
      let value := BitVec.ofNat 32 (u32 p 40)
      let refused := fun (c : Code) (i : Nat) => Completes (.mgmtWrite m) s fun t =>
        s.Answers t m x 0x0301 c (leBytes 2 0 ++ leBytes 2 i ++ zeroBytes 4 ++ slice p 8 8 ++ zeroBytes 16) [] ∧
        t = { s with net := t.net, regs := t.regs } ∧ t.rget Fld.SYS_MGMT_LAST_CODE = c.toNat ∧
        s.RegsBut t [(Fld.SYS_MGMT_LAST_CODE, 0), (Fld.SYS_MGMT_REFUSED, 0)]
      (x.role ≠ 3 ∨ x.wantsProtected = true → refused Code.E_ROLE 65535) ∧
      (x.role = 3 → x.wantsProtected = false →
        (s.sec.switch ≠ none → refused Code.B_RETRY 65535) ∧
        (s.sec.switch = none → p.length ≠ 32 + 16 * u16 p 0 → refused Code.E_INPUT_SIZE 65535) ∧
        (s.sec.switch = none → p.length = 48 → u16 p 0 = 1 → allZero p 2 6 = true → allZero p 16 16 = true →
          (a % 4 ≠ 0 ∨ blockMapped a = false ∨ value &&& ~~~mask ≠ 0 → refused Code.E_PARAM 0) ∧
          (allZero p 44 4 = true → value &&& ~~~mask = 0 →
            (a / 65536 = 0x10 → a % 4 = 0 → s.rget Fld.SYS_GATE_ARR = 0 → refused Code.E_GATED 0) ∧
            (a = 0x30000C → s.twinState ≠ 0 → refused Code.E_ROLE 0) ∧
            (a = 0x30000C → s.twinState = 0 → value &&& 0xFF000000 ≠ 0 → refused Code.E_RESERVED 0) ∧
            (a = 0x20060 ∨ a = 0x30038 → s.twinState = 0 → (s.held x.selectors a ^^^ value) &&& mask ≠ 0 → refused Code.E_LOCKED 0) ∧
            (a = 0x30000C → s.twinState = 0 → value &&& 0xFF000000 = 0 → Completes (.mgmtWrite m) s fun t =>
              let w := (Regs.word s.regs a 0 &&& ~~~(mask &&& 0x00FFFFFF)) ||| value
              Regs.word t.regs a 0 = w ∧ (∀ b k, b < 2 ^ 32 → b ≠ a → Regs.word t.regs b k = Regs.word s.regs b k) ∧
              s.Answers t m x 0x0301 Code.OK (leBytes 2 1 ++ leBytes 2 65535 ++ zeroBytes 4 ++ slice p 8 8 ++ zeroBytes 16 ++
                leBytes 4 w.toNat) [] ∧ t = { s with net := t.net, regs := t.regs }))))) ∧
  (
    ∀ (s : State) (mask value : Word),
      let old := Regs.word s.regs 0x10 0
      let new := (old &&& ~~~(mask &&& 0x7FFF)) ||| (value &&& mask &&& 0x7FFF)
      let locked := ∃ i, i < 15 ∧ old.getLsbD (16 + i) = true ∧ mask.getLsbD i = true ∧ value.getLsbD i ≠ old.getLsbD i
      let busy := ∃ i, i < 15 ∧ old.getLsbD i = true ∧ new.getLsbD i = false ∧ s.inUse i = true
      (locked ∨ busy ∨ value &&& mask &&& 0x8000 ≠ 0 → Completes (.gateWrite mask value) s fun t => t = s) ∧
      (¬ locked → ¬ busy → mask &&& 0xFFFF8000 = 0 → s.mem.cart.present = false → Completes (.gateWrite mask value) s fun t =>
        t = { s with regs := t.regs } ∧ Regs.word t.regs 0x10 0 = new ∧
        ∀ p, p < 6 → t.rget Fld.NET_PSTAT_LINK p =
          if old.getLsbD (5 + p) && !new.getLsbD (5 + p) then 0 else s.rget Fld.NET_PSTAT_LINK p))

/-- BUDGET_SET, BUDGET_GRANT and the refill (R228 to R230): an account takes the values that the message gives, with a BUDGET record
on which the reply waits; a grant applies once; a refill never lifts a balance above its cap. -/
def Obligations.BudgetAccounts : Prop :=
  ∀ (s : State) (m : Msg) (x : Session),
    let p := m.payload
    let cu := u16 p 0
    let a := s.account cu
    let top := 2 ^ 48 - 1
    let holds := fun (n c : Nat) (b : Account) (t : State) =>
      t = { s with net := t.net, srv := { s.srv with accounts := t.srv.accounts },
                   cont := s.cont.with [s.record n c (.budget c b.balance b.grant b.isOpen)] } ∧
      ∀ k, t.account k = if k = c then b else s.account k
    let values := fun (op : Nat) (b : Account) => leBytes 2 cu ++ leBytes 1 op ++ leBytes 1 b.weight ++ leBytes 4 b.interval ++
      leBytes 8 b.amount ++ leBytes 8 b.cap ++ leBytes 2 b.quota ++ zeroBytes 6 ++ leBytes 8 b.balance
    (s.Acts m → s.Hears m x 0x0120 40 →
      let op := u8 p 2
      let set := fun (i : Instr) (b : Account) => Completes i s fun t =>
        holds m.session cu b t ∧ s.Answers t m x 0x0120 Code.OK (values op b) [s.cont.nextIndex]
      (allZero p 26 6 = true → cu ≤ 1023 →
        (op = 1 → u64 p 16 ≤ top → set (.budgetOpen m)
          { a with isOpen := true, weight := if u8 p 3 = 0 then 16 else u8 p 3, interval := u32 p 4, amount := u64 p 8,
                   cap := u64 p 16, quota := u16 p 24, balance := min top (u64 p 32) }) ∧
        (op = 2 → set (.budgetClose m) { a with isOpen := false }) ∧
        (op = 3 → Completes (.budgetRead m) s fun t =>
          t = { s with net := t.net } ∧ s.Answers t m x 0x0120 Code.OK (values 3 a) [])) ∧
      (op = 1 → allZero p 26 6 = true → (1023 < cu ∨ top < u64 p 16) →
        Completes (.budgetOpen m) s fun t => s.Refuses t m x 0x0120 Code.E_PARAM) ∧
      (∀ i, i ∈ [Instr.budgetOpen m, .budgetClose m, .budgetRead m] → op = 0 ∨ 3 < op →
        Completes i s fun t => s.Refuses t m x 0x0120 Code.E_RESERVED)) ∧
    (s.Acts m → s.Hears m x 0x0121 32 → allZero p 2 2 = true → allZero p 16 16 = true →
      let number := u32 p 4
      let answer := fun (g : Nat) => leBytes 2 cu ++ zeroBytes 2 ++ leBytes 4 g ++ leBytes 8 (u64 p 8) ++ zeroBytes 16
      (1023 < cu → Completes (.budgetGrant m) s fun t => s.Refuses t m x 0x0121 Code.E_PARAM) ∧
      (cu ≤ 1023 → a.isOpen = false → Completes (.budgetGrant m) s fun t => s.Refuses t m x 0x0121 Code.E_CUSTOMER) ∧
      (cu ≤ 1023 → a.isOpen = true → number ≤ a.grant → Completes (.budgetGrant m) s fun t =>
        t = { s with net := t.net } ∧ s.Answers t m x 0x0121 Code.OK (answer a.grant) []) ∧
      (cu ≤ 1023 → a.isOpen = true → a.grant < number → Completes (.budgetGrant m) s fun t =>
        holds m.session cu { a with balance := min top (a.balance + u64 p 8), grant := number } t ∧
        s.Answers t m x 0x0121 Code.OK (answer number) [s.cont.nextIndex])) ∧
    (∀ c, let b := s.account c
      (s.supActs = true → b.isOpen = true → b.interval ≠ 0 → Completes (.refillInterval c) s fun t =>
        holds 0 c { b with balance := if b.cap < b.balance then b.balance else min b.cap (b.balance + b.amount) } t ∧
          t.net = s.net) ∧
      (b.isOpen = false ∨ b.interval = 0 → Completes (.refillInterval c) s fun t => t = s))

/-- MODEL_LOAD and MODEL_UNLOAD (R170, R171, R195, R251, R252): a load is journalled, queued behind those admitted before it, and
answered later; an unload puts its slot into UNLOADING, as abort ends the slot's requests, and a slot that nothing uses any more becomes
EMPTY, its reply waiting for the unload's record. -/
def Obligations.ModelLoadsAndUnloads : Prop :=
  ∀ (s : State) (m : Msg) (x : Session),
    let p := m.payload
    let k := u8 p 0
    let y := s.slot k
    let one := fun (n : Nat) => if n = 0 then 1 else n
    let same := fun (t : State) => ∀ j, j ≠ k → t.slot j = s.slot j
    let heard := fun (t : State) => t.session m.session = some (Heard x m)
    (s.Acts m → s.Hears m x 0x0130 32 → allZero p 1 3 = true → allZero p 20 12 = true →
      (15 < k → Completes (.modelLoad m) s fun t => s.Refuses t m x 0x0130 Code.E_PARAM) ∧
      (k ≤ 15 → y.state ≠ .empty ∨ k ∈ s.srv.loads → Completes (.modelLoad m) s fun t =>
        s.Refuses t m x 0x0130 Code.E_SLOT_BUSY) ∧
      (k ≤ 15 → y.state = .empty → k ∉ s.srv.loads → s.workRefused = false → s.cartHot = false → Completes (.modelLoad m) s fun t =>
        t = { s with net := t.net, cont := s.cont.with [s.record m.session k (.model .loadAdmitted k [])], regs := t.regs,
                     srv := { s.srv with slots := t.srv.slots, loads := s.srv.loads ++ [k], loadRecord := t.srv.loadRecord },
                     mem := { s.mem with descs := t.mem.descs } } ∧
        (s.srv.loads ≠ [] → t.regs = s.regs ∧ t.srv.loadRecord = s.srv.loadRecord) ∧
        (s.srv.loads = [] → s.srv.loadRecord = none → t.rget Fld.LATH_LOAD_SLOT = k ∧ t.rget Fld.LATH_LOAD_STEP = 1 ∧
          t.rget Fld.LATH_LOAD_BUSY = 0 ∧
          s.RegsBut t [(Fld.LATH_LOAD_SLOT, 0), (Fld.LATH_LOAD_STEP, 0), (Fld.LATH_LOAD_BUSY, 0)]) ∧
        t.slot k = { state := .loading, object := u32 p 4, passCost := one (u32 p 8), promptCost := one (u32 p 12),
                     tokenCost := one (u32 p 16), reply := some ⟨m.session, m.number, m.tag⟩, record := s.cont.nextIndex,
                     step := 1 } ∧
        t.desc (4096 + k) = { kind := 2, slot := k } ∧ t.desc (4112 + k) = { kind := 3, slot := k } ∧ same t ∧ heard t)) ∧
    (s.Acts m → s.Hears m x 0x0131 32 → allZero p 2 30 = true →
      let gone := { y with state := SlotState.unloading, reply := some ⟨m.session, m.number, m.tag⟩, record := s.cont.nextIndex }
      let unload := s.record m.session k (.model .unload k y.digest)
      (∀ i, i ∈ [(Instr.modelUnloadDrain m, 1), (.modelUnloadAbort m, 2)] → u8 p 1 = i.2 →
        (15 < k → Completes i.1 s fun t => s.Refuses t m x 0x0131 Code.E_PARAM) ∧
        (k ≤ 15 → y.state ≠ .ready → Completes i.1 s fun t => s.Refuses t m x 0x0131 Code.E_SLOT_STATE)) ∧
      (u8 p 1 = 1 → k ≤ 15 → y.state = .ready → Completes (.modelUnloadDrain m) s fun t =>
        t = { s with net := t.net, cont := s.cont.with [unload], srv := { s.srv with slots := t.srv.slots } } ∧
        t.slot k = gone ∧ same t ∧ heard t) ∧
      (u8 p 1 = 2 → k ≤ 15 → y.state = .ready → Dict.wf s.srv.requests = true →
        (∀ r ∈ s.srv.requests, r.1 = r.2.row ∧ (r.2.slot = k → r.2.seq = none)) → (∀ q ∈ s.srv.sequences, q.2.slot ≠ k) →
        Completes (.modelUnloadAbort m) s fun t =>
          t.slot k = gone ∧ same t ∧ t.srv.requests = s.srv.requests.filter (fun r => r.2.slot != k) ∧
          t.srv.sequences = s.srv.sequences ∧ unload ∈ t.cont.journal)) ∧
    ∀ j, let z := s.slot j
      (z.state = .unloading → z.reload = false → s.slotInUse j = false → Completes (.slotEmptied j) s fun t =>
        t = { s with net := t.net, srv := { s.srv with slots := t.srv.slots }, mem := t.mem } ∧ t.slot j = {} ∧
        (∀ i, i ≠ j → t.slot i = s.slot i) ∧ t.desc (4096 + j) = {} ∧ t.desc (4112 + j) = {} ∧
        t.mem.afterMarker = s.mem.afterMarker ++ s.ownerPages (4096 + j) ++ s.ownerPages (4112 + j) ∧
        s.Told t z.reply 0x0131 Code.OK [] [z.record]) ∧
      (z.state ≠ .unloading ∨ s.slotInUse j = true → Completes (.slotEmptied j) s fun t => t = s)

/-- The steps of a load (R167, R168, R170 to R172, R174, R177): the first load in order reads its image and runs checks 0 to 8, copies its
weights and runs check 9, and completes; the first failing check frees what the load took, counts a reject, leaves the slot EMPTY and
the location in LATH.ERR, and is the answer. A load is at step 5 once its completion record is durable, and the next one begins then; a load
that a partial reset met waits for REPLAY. What a signature verifies is the cipher's (log entry 3), so what checks 0 to 8 find stands in the
conclusion. -/
def Obligations.LoadsRunInOrder : Prop :=
  (∀ (s : State) (k : Nat) (rest : List Nat), s.srv.loads = k :: rest → k ≤ 15 → s.supActs = true →
    let x := s.slot k
    x.state = .loading ∨ x.state = .empty → x.reload = false →
    let shown := [(Fld.LATH_LOAD_SLOT, 0), (Fld.LATH_LOAD_STEP, 0), (Fld.LATH_LOAD_BUSY, 0)]
    let shows := fun (t : State) (step busy : Nat) =>
      t.rget Fld.LATH_LOAD_SLOT = k ∧ t.rget Fld.LATH_LOAD_STEP = step ∧ t.rget Fld.LATH_LOAD_BUSY = busy
    let fails := fun (t : State) (step : Nat) (e : LoadErr) =>
      t = { s with net := t.net, regs := t.regs, mem := t.mem, srv := { s.srv with slots := t.srv.slots, loads := t.srv.loads } } ∧
      t.slot k = {} ∧ (∀ j, j ≠ k → t.slot j = s.slot j) ∧ t.srv.loads = rest.filter (· != k) ∧
      t.desc (4096 + k) = {} ∧ t.desc (4112 + k) = {} ∧ shows t step 0 ∧ t.rget Fld.LATH_LOAD_RESULT = e.code.toNat ∧
      t.rget Fld.LATH_ERR_LOC_SECTION = e.sect % 256 ∧ t.rget Fld.LATH_ERR_LOC_RECORD = e.record % 2 ^ 24 ∧
      t.rget Fld.LATH_ERR_OFFSET_OFFSET = e.offset % 2 ^ 32 ∧ s.Counted t Fld.LATH_REJECTS_COUNT 1 ∧
      s.RegsBut t (shown ++ [(Fld.LATH_LOAD_RESULT, 0), (Fld.LATH_ERR_LOC_SECTION, 0), (Fld.LATH_ERR_LOC_RECORD, 0),
        (Fld.LATH_ERR_OFFSET_OFFSET, 0), (Fld.LATH_REJECTS_COUNT, 0)]) ∧
      s.Told t x.reply 0x0130 e.code [] [x.record]
    let failed := fun (i : Instr) (step : Nat) (e : LoadErr) => Completes i s fun t => fails t step e
    (s.srv.loadsLost = true → s.srv.loadRecord = none → ∀ i ∈ [Instr.loadStart, .loadWeights, .loadComplete],
      Completes i s fun t => t = s) ∧
    (∀ i, s.srv.loadRecord = some i → s.durable i = false → Completes .loadStart s fun t => t = s) ∧
    (s.srv.loadsLost = false → s.srv.loadRecord = none → x.step = 1 →
      let state := s.rget Fld.SEC_CART_STATE
      (s.rget Fld.SYS_GATE_PCIE = 0 → failed .loadStart 2 (.at0 Code.E_GATED)) ∧
      (s.rget Fld.SYS_GATE_PCIE = 1 → state = 3 → failed .loadStart 2 (.at0 Code.E_ENROL)) ∧
      (s.rget Fld.SYS_GATE_PCIE = 1 → state ≠ 1 → state ≠ 3 → failed .loadStart 2 (.at0 Code.E_SIGNATURE)) ∧
      (s.rget Fld.SYS_GATE_PCIE = 1 → state = 1 →
        (Dict.fetch s.mem.cart.objects x.object = none → failed .loadStart 2 (.at0 Code.E_LATH_PARAM)) ∧
        ∀ b, Dict.fetch s.mem.cart.objects x.object = some b → Completes .loadStart s fun t =>
          let g := parseImage b
          let ready := (if x.state = .empty then s.enterLoading k x else s).showLoad k 2 true
          match checkBytes s.lathSigners b with
          | some e => fails t 2 e
          | none =>
            match s.checkImage b g with
            | some e => fails t 2 e
            | none =>
              match ready.placeImage k b g with
              | none => t = ready
              | some _ => (t.slot k).image = some g ∧ (t.slot k).step = 2 ∧
                (t.slot k).pages.length = g.header.footprint - g.workPages ∧ t.cont = s.cont ∧ t.net = s.net ∧
                (t.desc (4096 + k)).kind = 2 ∧ (t.desc (4112 + k)).kind = 3 ∧ t.srv.loads = s.srv.loads ∧ shows t 3 1)) ∧
    (∀ g, s.srv.loadsLost = false → x.image = some g →
      (x.step = 2 →
        (∀ e, check9 ((Dict.fetch s.mem.cart.objects x.object).getD []) s.mem.cart.objects g = some e →
          failed .loadWeights (s.rget Fld.LATH_LOAD_STEP) e) ∧
        (check9 ((Dict.fetch s.mem.cart.objects x.object).getD []) s.mem.cart.objects g = none →
          Completes .loadWeights s fun t =>
            t = { s with regs := t.regs, mem := { s.mem with dram := t.mem.dram }, srv := { s.srv with slots := t.srv.slots } } ∧
            t.slot k = { x with step := 3 } ∧ shows t 4 1 ∧ s.RegsBut t shown)) ∧
      (x.step = 3 →
        let d := s.imageDigest k g
        Completes .loadComplete s fun t =>
          t.cont = s.cont.with [s.record ((x.reply.map (·.session)).getD 0) k (.model .loadCompleted k d)] ∧
          t.slot k = { x with state := .ready, digest := d, step := 4, reply := none, record := s.cont.nextIndex } ∧
          t.srv.loads = rest ∧ t.srv.loadRecord = some s.cont.nextIndex ∧ (t.desc (4096 + k)).readOnly = true ∧
          s.Counted t Fld.LATH_LOADS_COUNT 1 ∧ s.RegsBut t [(Fld.LATH_LOADS_COUNT, 0)] ∧
          s.Told t x.reply 0x0130 Code.OK d [s.cont.nextIndex]))) ∧
  ∀ (s : State) (i : Nat), s.srv.loads = [] → s.srv.loadRecord = some i → s.durable i = true → Completes .loadStart s fun t =>
    t = { s with regs := t.regs, srv := { s.srv with loadRecord := none } } ∧ t.rget Fld.LATH_LOAD_STEP = 5 ∧
    t.rget Fld.LATH_LOAD_BUSY = 0 ∧ t.rget Fld.LATH_LOAD_RESULT = 0 ∧ t.rget Fld.LATH_LOAD_SLOT = s.rget Fld.LATH_LOAD_SLOT ∧
    s.RegsBut t [(Fld.LATH_LOAD_SLOT, 0), (Fld.LATH_LOAD_STEP, 0), (Fld.LATH_LOAD_BUSY, 0), (Fld.LATH_LOAD_RESULT, 0)]

/-- SUBMIT_PASS (R99, R113, R217, R225 to R227, R231, R234, R243): the first failing check refuses it with a REFUSE record and a RESULT that
leaves on the release grid, and a height that does not fit is a FEED.FAULT event as well; otherwise its cost is debited, an ADMIT record is
written, the session's window passes the pages of its input to it, and its one row waits in its queue. -/
def Obligations.PassSubmission : Prop :=
  ∀ (s : State) (m : Msg) (x : Session), s.Hears m x 0x0100 m.payload.length → s.Acts m →
    let p := m.payload
    let cu := u16 p 0
    let slot := u8 p 2
    let height := u32 p 12
    let input := p.drop 32
    let a := s.account cu
    let cost := (s.slot slot).passCost
    let failing : Option Code :=
      if p.length ≠ 32 + u32 p 24 then some Code.E_INPUT_SIZE
      else if allZero p 5 3 = false ∨ allZero p 28 4 = false then some Code.E_RESERVED
      else if s.rbit Fld.MEM_STATUS_OUT then some Code.F_MEM
      else
        match s.readyImage slot with
        | none => some Code.E_SLOT_STATE
        | some g =>
          if g.header.kind ≠ 1 then some Code.E_MODEL_KIND
          else if a.isOpen = false then some Code.E_CUSTOMER
          else if s.customerAllowed x cu = false then some Code.E_ROLE
          else if s.tagLive m.session m.tag = true then some Code.E_TAG_BUSY
          else if 3 < u8 p 3 ∨ (16 < u8 p 4 ∧ u8 p 4 ≠ 255) ∨ (height ≠ 0 ∧ g.dynamic = false) then some Code.E_PARAM
          else if g.header.nondet = true ∧ x.wantsProtected = true then some Code.E_NONDET
          else if input.length ≠ g.inputSize then some Code.E_INPUT_SIZE
          else if x.partnerWindow < g.outputSize + 80 then some Code.E_WINDOW
          else if g.heightOk height = false then some Code.E_COUNT_RANGE
          else if g.inputExpsOk input = false then some Code.E_FORMAT
          else if a.balance < cost then some Code.E_BUDGET
          else if s.placeFree cu = false ∨ s.workRefused = true then some Code.B_RETRY
          else none
    let noted := [(Fld.FEED_FAULT_COUNT, 0), (Fld.FEED_FAULT_LOC_GENERATOR, 0), (Fld.FEED_FAULT_LOC_BINDING, 0), (Fld.FEED_FAULT_LOC_COAT, 0)]
    (∀ c, failing = some c → s.journalFull 128 = false → Completes (.submitPass m) s fun t =>
      t = { s with net := t.net, regs := t.regs, srv := t.srv,
                   cont := s.cont.with [s.record m.session 0 (.refuse (msgDigest x m 0x0100) c)] } ∧
      s.AnswersOnGrid t m x 0x0110 c (resultPayload 0 false (u64 p 16) []) [s.cont.nextIndex] ∧
      s.Counted t Fld.SRV_REFUSED_COUNT 1 ∧ s.RegsBut t ((Fld.SRV_REFUSED_COUNT, 0) :: if c = Code.E_COUNT_RANGE then noted else []) ∧
      (c = Code.E_COUNT_RANGE → t.rget Fld.FEED_FAULT_COUNT = 1)) ∧
    (∀ c, failing = some c → s.journalFull 128 = true → Completes (.submitPass m) s fun t =>
      t = { s with net := t.net, regs := t.regs, srv := t.srv } ∧
      s.AnswersOnGrid t m x 0x0110 Code.B_RETRY (resultPayload 0 false (u64 p 16) []) [] ∧
      s.Counted t Fld.SRV_REFUSED_COUNT 1 ∧ t.rget Fld.CONT_FAULT_JOURNAL_FULL = 1 ∧ t.rget Fld.CONT_STATUS_FULL = 1) ∧
    (∀ g inp stg s1, failing = none → s.readyImage slot = some g →
      s.takeRequestPages m.session cu (ceilDiv input.length 65536) (ceilDiv g.outputSize 65536) = some (inp, stg, s1) →
      Completes (.submitPass m) s fun t =>
        let row := s.cont.nextIndex % 2 ^ 32
        let unit : QUnit :=
          { key := { slot := slot, phase := 0, priority := u8 p 3,
                     bucket := bucketOf (u8 p 4) (if g.dynamic then height else 1) },
            kind := .pass, row := row, seq := 4294967295, rows := 1, customer := cu, admitRec := s.cont.nextIndex,
            entered := s.srv.count }
        let rec_ := s.record m.session 0 (.admitted (msgDigest x m 0x0100) cu slot (u8 p 3) (u8 p 4) cost 0 0 inp)
        t = { s with net := t.net, regs := t.regs, mem := { s1.mem with dram := t.mem.dram }, cont := s.cont.with [rec_],
                     srv := { s.srv with accounts := t.srv.accounts, requests := t.srv.requests,
                                         queue := s.srv.queue ++ [unit] } } ∧
        t.request row = some
          { row := row, session := m.session, tag := m.tag, number := m.number, gen := false, customer := cu, slot := slot,
            priority := u8 p 3, bucket := u8 p 4, deadline := s.srv.count + (if u32 p 8 = 0 then 1000000 else u32 p 8),
            height := height, stamp := u64 p 16, admitRec := s.cont.nextIndex, debit := cost, input := inp,
            inputLength := input.length, staging := stg, outSize := g.outputSize } ∧
        (∀ k, k ≠ row → t.request k = s.request k) ∧
        (∀ c, t.account c = if c = cu then { a with balance := a.balance - cost } else s.account c) ∧
        s.Counted t Fld.SRV_ADMITTED_COUNT 1 ∧ s.RegsBut t [(Fld.SRV_ADMITTED_COUNT, 0)] ∧
        t.session m.session = (s1.session m.session).map fun y => Heard y m)

/-- SUBMIT_GEN (R221, R225, R226, R231, R236, R268, R271): the first failing check refuses it with a REFUSE record; otherwise its
prompt's cost and a first allowance are debited, it takes a sequence (and one of its skim model's, where it asks for drafts), and its
first prompt chunk waits in its queue. -/
def Obligations.GenerationSubmission : Prop :=
  ∀ (s : State) (m : Msg) (x : Session), s.Hears m x 0x0101 m.payload.length → s.Acts m →
    let p := m.payload
    let cu := u16 p 0
    let slot := u8 p 2
    let flags := u8 p 5
    let skim := flags.testBit 0
    let plen := u32 p 40
    let a := s.account cu
    let y := s.slot slot
    let failing : Option Code :=
      if p.length ≠ 80 + 4 * plen then some Code.E_INPUT_SIZE
      else if 16 ≤ flags ∨ allZero p 44 4 = false then some Code.E_RESERVED
      else if s.rbit Fld.MEM_STATUS_OUT then some Code.F_MEM
      else
        match s.readyImage slot with
        | none => some Code.E_SLOT_STATE
        | some g =>
          let drafter : Bool := match (s.skimSlot g).bind s.readyImage with
            | some h => h.header.nondet
            | none => false
          if g.header.kind ≠ 2 ∨ (skim = true ∧ s.skimSlot g = none) then some Code.E_MODEL_KIND
          else if a.isOpen = false then some Code.E_CUSTOMER
          else if s.customerAllowed x cu = false then some Code.E_ROLE
          else if s.tagLive m.session m.tag = true then some Code.E_TAG_BUSY
          else if 3 < u8 p 3 ∨ (16 < u8 p 4 ∧ u8 p 4 ≠ 255) ∨ genFieldsOk p = false then some Code.E_PARAM
          else if ((flags.testBit 2 = true ∨ flags.testBit 3 = true) ∧ (g.header.nondet = false ∨ x.wantsProtected = true)) ∨
              (g.header.nondet = true ∧ x.wantsProtected = true) ∨ (skim = true ∧ drafter = true) then some Code.E_NONDET
          else if g.header.context - 1 < plen then some Code.E_CONTEXT_LIMIT
          else if a.balance < plen * y.promptCost + y.tokenCost then some Code.E_BUDGET
          else if s.placeFree cu = false ∨ s.workRefused = true ∨ s.slotsFree cu (if skim then 2 else 1) = false then
            some Code.B_RETRY
          else none
    (∀ c, failing = some c → s.journalFull 128 = false → Completes (.submitGen m) s fun t =>
      t = { s with net := t.net, regs := t.regs, srv := t.srv,
                   cont := s.cont.with [s.record m.session 0 (.refuse (msgDigest x m 0x0101) c)] } ∧
      s.AnswersOnGrid t m x 0x0112 c (stopPayload 0 9 0 (u64 p 16) 0) [s.cont.nextIndex] ∧
      s.Counted t Fld.SRV_REFUSED_COUNT 1 ∧ s.RegsBut t [(Fld.SRV_REFUSED_COUNT, 0)]) ∧
    (∀ g q q2 shared inp stg s1 s2, failing = none → s.readyImage slot = some g → s.freeSlot 0 = some q →
      (skim = true → s.freeSlot (q + 1) = some q2) →
      let prompt := (List.range plen).map fun i => u32 p (80 + 4 * i)
      s.firstPages q slot cu g prompt = some (shared, s1) → s1.takeRequestPages m.session cu (ceilDiv p.length 65536) 1 = some (inp, stg, s2) →
      Completes (.submitGen m) s fun t => ∃ seed, (flags.testBit 2 = false → seed = u64 p 24) ∧
        let row := s.cont.nextIndex % 2 ^ 32
        let cap := (g.kv.map (·.cap)).getD 0
        let allow := min (a.balance - plen * y.promptCost)
          (min (s.rget Fld.SRV_ALLOW_BLOCK * y.tokenCost) (u32 p 12 * y.tokenCost))
        let debit := plen * y.promptCost + allow
        let unit := fun (k n rows : Nat) =>
          ({ key := { slot := k, phase := 1, priority := u8 p 3, bucket := bucketOf (u8 p 4) plen }, kind := .chunk, row := row,
             seq := n, rows := rows, customer := cu, admitRec := s.cont.nextIndex, entered := s.srv.count } : QUnit)
        t.cont = s.cont.with
          [s.record m.session q (.admitted (msgDigest x m 0x0101) cu slot (u8 p 3) (u8 p 4) debit allow seed inp)] ∧
        t.request row = some
          { row := row, session := m.session, tag := m.tag, number := m.number, gen := true, customer := cu, slot := slot,
            priority := u8 p 3, bucket := u8 p 4, deadline := s.srv.count + (if u32 p 8 = 0 then 1000000 else u32 p 8),
            stamp := u64 p 16, admitRec := s.cont.nextIndex, debit := debit, input := inp, inputLength := p.length,
            staging := stg, outSize := g.outputSize, seq := some q } ∧
        t.seq q = some
          { row := row, slot := slot, prompt := prompt, seed := seed, temperature := u32 p 32, skim := skim,
            cand := flags.testBit 1, elapsed := flags.testBit 3, elapsedLimit := u32 p 36, admittedAt := s.srv.count,
            stopTokens := (List.range (u8 p 6)).map fun i => u32 p (48 + 4 * i), flush := max 1 (u8 p 7),
            tokenLimit := u32 p 12, allowance := allow, allowRecord := s.cont.nextIndex, done := shared * cap,
            shared := shared, committed := shared * cap, partner := if skim then some q2 else none } ∧
        (∀ c, t.account c = if c = cu then { a with balance := a.balance - debit } else s.account c) ∧
        s.Counted t Fld.SRV_ADMITTED_COUNT 1 ∧ t.session m.session = ((s2.session m.session).map fun y => Heard y m) ∧
        (skim = false → t.srv.queue = s.srv.queue ++ [unit slot q (min (plen - shared * cap) g.header.batchRows)]) ∧
        (skim = true → ∃ k h n, s.skimSlot g = some k ∧ s.readyImage k = some h ∧
          let from_ := n * (h.kv.map (·.cap)).getD 0
          (n = 0 ∨ from_ < plen) ∧
          t.srv.queue = s.srv.queue ++ [unit slot q (min (plen - shared * cap) g.header.batchRows),
            unit k q2 (min (plen - from_) h.header.batchRows)] ∧
          t.seq q2 = some { row := row, slot := k, prompt := prompt, seed := seed, temperature := u32 p 32,
                            tokenLimit := u32 p 12, done := from_, committed := from_, shared := n, partner := some q, isSkim := true }))

/-- CANDIDATES and CANCEL (R224, R271 to R273, R275): a valid tree is journalled, answered OK, and its step enters its queue, trimmed at
the limits; a cancellation is journalled and answered OK whether its tag is live or not, and a pass request whose batch has not started
ends with its debit refunded. -/
def Obligations.CandidatesAndCancellation : Prop :=
  ∀ (s : State) (m : Msg) (x : Session), s.Acts m →
    let p := m.payload
    (s.Hears m x 0x0102 352 → allZero p 9 23 = true →
      let n := u8 p 8
      let tree : Tree := ⟨(List.range n).map fun i => if i = 0 then 0 else u8 p (32 + i), (List.range n).map fun i => u32 p (96 + 4 * i)⟩
      let padded := u32 p 96 = 0 ∧ allZero p (32 + n) (64 - n) = true ∧ allZero p (96 + 4 * n) (256 - 4 * n) = true
      let waiting := s.waitingSeq m.session (u32 p 0) (u32 p 4)
      (waiting = none → Completes (.candidates m) s fun t => s.Refuses t m x 0x0102 Code.E_STENCIL) ∧
      ∀ q y r g, waiting = some q → s.seq q = some y → s.request y.row = some r → (s.slot y.slot).image = some g →
        (tree.valid (u8 p 32) = false ∨ ¬ padded ∨ (1 < n ∧ g.attns.all (·.stencil) = false) →
          Completes (.candidates m) s fun t => s.Refuses t m x 0x0102 Code.E_STENCIL) ∧
        (tree.valid (u8 p 32) = true → padded → n ≤ 1 ∨ g.attns.all (·.stencil) = true → s.unsentTokens y < 256 →
          Completes (.candidates m) s fun t =>
            let cut := tree.trim y.rootPos y.nEmitted g.header.context y.tokenLimit
            let unit : QUnit := { key := seqKey y r 2, kind := .step, row := y.row, seq := q, rows := cut.tokens.length,
                                  customer := r.customer, admitRec := r.admitRec, entered := s.srv.count }
            t = { s with net := t.net, cont := s.cont.with [s.record m.session q (.candidates p)],
                         srv := { s.srv with sequences := t.srv.sequences, queue := s.srv.queue ++ [unit] } } ∧
            s.Answers t m x 0x0102 Code.OK [] [s.cont.nextIndex] ∧
            t.seq q = some { y with tree := some cut, phase := .queued } ∧ ∀ k, k ≠ q → t.seq k = s.seq k)) ∧
    (s.Hears m x 0x0103 32 → allZero p 4 28 = true →
      let cancel := s.record m.session 0 (.cancel (u32 p 0))
      let mine := s.srv.requests.find? fun r => r.2.session == m.session && r.2.tag == u32 p 0
      (mine = none → Completes (.cancel m) s fun t =>
        t = { s with net := t.net, cont := s.cont.with [cancel] } ∧ s.Answers t m x 0x0103 Code.OK [] [s.cont.nextIndex]) ∧
      (∀ r, mine = some r → s.request r.1 = some r.2 → r.2.seq = none →
        (r.2.started = true → Completes (.cancel m) s fun t =>
          t = { s with net := t.net, cont := s.cont.with [cancel] } ∧ s.Answers t m x 0x0103 Code.OK [] [s.cont.nextIndex]) ∧
        (r.2.started = false → r.1 = r.2.row → 0 < r.2.debit → Completes (.cancel m) s fun t =>
          t.cont = s.cont.with [cancel, { s.record m.session r.1 (.refund r.2.debit) with index := s.cont.nextIndex + 1 },
            { s.record m.session r.1 (.complete (sha384 (resultPayload r.2.flags r.2.isEmpty r.2.stamp [])) r.2.flags
                Code.E_CANCELLED) true with index := s.cont.nextIndex + 2 }] ∧
          (t.account r.2.customer).balance = min (2 ^ 48 - 1) ((s.account r.2.customer).balance + r.2.debit) ∧
          t.request r.1 = none ∧ t.srv.queue = s.srv.queue.filter (fun u => u.row != r.1))))

/-- Queues, deadlines, the release grid and batches (R227, R234, R235, R243): a queue whose hold has expired is ready; a request whose
deadline passes before its batch starts ends with B_DEADLINE and its debit back; what is ready leaves at a tick of the grid; and a batch
starts with as many of the chosen queue's passes as fit. -/
def Obligations.QueuesAndBatches : Prop :=
  ∀ s : State,
    (∀ k : QueueKey,
      (s.unitsOf k = [] → Completes (.queueHoldExpiry k) s fun t => t = s) ∧
      ∀ u l, s.unitsOf k = u :: l →
        (u ∈ s.srv.held → Completes (.queueHoldExpiry k) s fun t => t = s) ∧
        (u ∉ s.srv.held → Completes (.queueHoldExpiry k) s fun t =>
          t = { s with srv := { s.srv with held := s.srv.held ++ [u] } } ∧ (s.slotRuns k.slot = true → t.queueReady k = true))) ∧
    (∀ row r, s.request row = some r →
      (r.started = true → Completes (.requestDeadline row) s fun t => t = s) ∧
      (r.started = false → s.mayActFor r.session = true → r.deadline < 2 ^ 64 → r.row = row → r.seq = none → 0 < r.debit →
        s.rget Fld.SRV_HOLD_GRID_US = 0 → r.mute = false → Completes (.requestDeadline row) s fun t =>
          let b := resultPayload r.flags r.isEmpty r.stamp []
          let n := s.cont.nextIndex
          t.cont = s.cont.with [s.record r.session row (.refund r.debit),
            { s.record r.session row (.complete (sha384 b) r.flags Code.B_DEADLINE) true with index := n + 1 }] ∧
          (t.account r.customer).balance = min (2 ^ 48 - 1) ((s.account r.customer).balance + r.debit) ∧ t.request row = none ∧
          t.srv.queue = s.srv.queue.filter (fun u => u.row != row) ∧
          ∀ y, s.session r.session = some y → t.session r.session = some { y with ready := y.ready ++
            [{ number := r.number * 2 ^ 20 + r.ordinal, type := 0x0110, code := Code.B_DEADLINE, tag := r.tag, payload := b,
               needs := [r.admitRec, n + 1, n], pages := r.staging }] })) ∧
    (Completes .releaseGridTick s fun t =>
      let ready := fun (g : GridMsg) => g.msg.needs.all fun i => s.durable i
      t = { s with net := t.net, srv := { s.srv with grid := s.srv.grid.filter fun g => !ready g } } ∧
      ∀ n y, s.session n = some y →
        t.session n = some { y with ready := y.ready ++ (s.srv.grid.filter fun g => g.session == n && ready g).map (·.msg) }) ∧
    (s.cont.activating = none → s.srv.batch.isSome = true ∨ s.arr.stopped = true ∨ s.srv.affected ≠ [] ∨ s.cont.quiesced = true ∨ s.rget Fld.MEM_STATUS_OUT = 1 →
      Completes .batchStart s fun t => t = s) ∧
    (s.cont.activating = none → s.srv.batch = none → s.arr.stopped = false → s.srv.affected = [] → s.cont.quiesced = false →
      s.rget Fld.MEM_STATUS_OUT = 0 → s.fwu.stopped ≠ some 6 → s.rget Fld.SRV_MODE_FIXED = 0 →
      (∀ b l, s.srv.suspended = b :: l → s.slotRuns b.slot = true → Completes .batchStart s fun t =>
        t = { s with srv := { s.srv with suspended := l, batch := some { b with suspended := true, resuming := true } } }) ∧
      ((∀ b ∈ s.srv.suspended, s.slotRuns b.slot = false) → s.chosenQueue = none → Completes .batchStart s fun t => t = s) ∧
      (∀ k g, (∀ b ∈ s.srv.suspended, s.slotRuns b.slot = false) → s.chosenQueue = some k → (s.slot k.slot).image = some g → 1 ≤ g.header.batchRows →
        (∀ u ∈ s.unitsOf k, u.kind = .pass ∧ u.rows = 1 ∧ ∃ r, s.request u.row = some r ∧ r.row = u.row) →
        Completes .batchStart s fun t => ∃ b, t.srv.batch = some b ∧ b.slot = k.slot ∧ b.phase = k.phase ∧
          b.runs.length = g.coats.length ∧ (∀ r ∈ b.runs, r.begun = false ∧ r.complete = false) ∧
          (∀ u ∈ b.units, u ∈ s.unitsOf k) ∧ b.units.length = min g.header.batchRows (s.unitsOf k).length ∧
          b.rows.map (·.tag) = b.units.map (·.row) ∧
          (∀ u ∈ b.units, ∃ r, t.request u.row = some r ∧ r.started = true) ∧
          t.srv.queue = s.srv.queue.filter (fun v => !(b.units.any fun u => v.row == u.row && v.seq == u.seq && v.kind == u.kind)) ∧
          s.Counted t Fld.SRV_BATCHES_COUNT 1))

/-- The step of a sequence (R231, R236, R239 to R241, R255, R276, R277): the accepted tokens are walked, recorded with the step's stop, and,
once the record is durable, committed; then the next step waits in its queue. A preempted sequence runs its tokens again. -/
def Obligations.DecodingSteps : Prop :=
  ∀ (s : State) (q : Nat) (x : Sequence) (r : Request) (g : Image), s.seq q = some x → s.request x.row = some r →
    (s.slot x.slot).image = some g →
    let cost := (s.slot x.slot).tokenCost
    let n := s.cont.nextIndex
    let low := s.rget Fld.SRV_ALLOW_LOW * cost
    (x.phase = .running → s.seqInBatch q = false → x.isSkim = false → r.code = 0 → r.cancelled = false → x.elapsed = false →
      x.stepTokens = [] →
      let tree := x.stepTree
      let path := tree.accept x.sampled tree.tokens.length 0
      let toks := tree.acceptedTokens x.sampled path
      let len := x.emitted.length
      ((∀ k ∈ toks, k ∉ x.stopTokens) → low + cost * toks.length ≤ x.allowance → len + toks.length < x.tokenLimit →
        x.prompt.length + len + toks.length < g.header.context → Completes (.decodingStepEnd q) s fun t =>
          t = { s with cont := s.cont.with [s.record r.session q (.tokens q len toks) true],
                       srv := { s.srv with sequences := t.srv.sequences }, mem := { s.mem with dram := t.mem.dram } } ∧
          (g.kv = none → t.mem = s.mem) ∧ (∀ k, k ≠ q → t.seq k = s.seq k) ∧
          t.seq q = some { x with allowance := x.allowance - cost * toks.length, stepTokens := toks, phase := .recorded,
                                  path := path, stepRecord := n, records := x.records ++ [n] }) ∧
      (x.tree = none →
        let tok := listAt 0 x.sampled 0
        let stops := fun (st : SeqStop) (out : List Nat) => Completes (.decodingStepEnd q) s fun t =>
          let back := x.allowance - cost * out.length
          let m := n + (if back = 0 then 1 else 2)
          t.cont = s.cont.with
            ([s.record r.session q (.tokens q len out) true] ++
             (if back = 0 then [] else [{ s.record r.session x.row (.refund back) with index := n + 1 }]) ++
             [{ s.record r.session q (.stop st.reason (len + out.length) st.token r.flags (stopCode st r.flags)) true with
                index := m }]) ∧
          (back ≠ 0 → (t.account r.customer).balance = min (2 ^ 48 - 1) ((s.account r.customer).balance + back)) ∧
          ∃ y, t.seq q = some y ∧ y.phase = .recorded ∧ y.stepTokens = out ∧ y.stop = some st ∧ y.allowance = 0
        s.mayActFor r.session = true → cost ≤ x.allowance →
        (tok ∈ x.stopTokens → stops ⟨1, tok, 0⟩ []) ∧
        (tok ∉ x.stopTokens → len + 1 = x.tokenLimit → stops ⟨2, 0, 0⟩ [tok]) ∧
        (tok ∉ x.stopTokens → len + 1 ≠ x.tokenLimit → x.prompt.length + len + 1 = g.header.context → stops ⟨3, 0, 0⟩ [tok]))) ∧
    (x.phase ≠ .running → Completes (.decodingStepEnd q) s fun t => t = s) ∧
    (∀ k y, x.phase = .running → s.seqInBatch q = false → x.isSkim = true → x.partner = some k → k ≠ q → s.seq k = some y →
      Completes (.decodingStepEnd q) s fun t =>
        t.seq q = some { x with phase := .draft, draft := [], tree := none, emitted := y.emitted,
                                committed := x.rootPos + (x.stepTree.tokens.length - 1) + 1 } ∧
        ∃ z, t.seq k = some z ∧ z.tree.isSome = true) ∧
    (x.phase ≠ .recorded ∨ s.durable x.stepRecord = false → Completes (.stepCommit q) s fun t => t = s) ∧
    (x.phase = .recorded → s.durable x.stepRecord = true → x.stop = none → x.partner = none → x.cand = false →
      x.skim = false → s.rget Fld.SRV_HOLD_GRID_US = 0 → r.mute = false →
      let out := x.emitted ++ x.stepTokens
      let y := { x with emitted := out, stepTokens := [], tree := none, sampled := [], path := [], lost := false,
                        committed := x.prompt.length + out.length - 1 }
      let toks := out.drop x.sent
      (r.cancelled = true → r.row = x.row → Completes (.stepCommit q) s fun t => t.seq q = none ∧ t.request x.row = none) ∧
      (r.cancelled = false → x.lost = true → out.length - x.sent < x.flush → Completes (.stepCommit q) s fun t =>
        t.seq q = some { y with phase := .preempted, done := 0, committed := 0 } ∧ t.cont = s.cont ∧ t.net = s.net ∧
        t.srv.queue = s.srv.queue) ∧
      (r.cancelled = false → x.lost = false → out.length - x.sent < x.flush → s.unsentTokens y < 256 →
        Completes (.stepCommit q) s fun t =>
        t.seq q = some { y with phase := .queued } ∧ t.cont = s.cont ∧ t.net = s.net ∧ t.srv.queue = s.srv.queue ++
          [{ key := seqKey y r 2, kind := .step, row := x.row, seq := q, rows := 1, customer := r.customer,
             admitRec := r.admitRec, entered := s.srv.count }]) ∧
      (r.cancelled = false → x.flush ≤ out.length - x.sent → 0 < x.flush → Completes (.stepCommit q) s fun t =>
        t.cont = s.cont ∧ (∃ z, t.seq q = some z ∧ z.emitted = out ∧ z.sent = out.length ∧ z.ordinal = x.ordinal + 1) ∧
        ∀ w, s.session r.session = some w → t.session r.session = some { w with ready := w.ready ++
          [{ number := r.number * 2 ^ 20 + x.ordinal, type := 0x0111, code := Code.OK, tag := r.tag,
             payload := tokensPayload x.sent r.stamp toks, needs := [r.admitRec, x.allowRecord] ++ x.records }] })) ∧
    (x.phase = .preempted → Completes (.sequenceRebuild q) s fun t =>
      t.seq q = some { x with rebuild := true, done := 0, committed := 0, phase := .prompt } ∧
      (∀ k, k ≠ q → t.seq k = s.seq k) ∧
      t = { s with srv := { s.srv with sequences := t.srv.sequences, queue := s.srv.queue ++
        [{ key := seqKey x r 1, kind := .chunk, row := x.row, seq := q,
           rows := min (x.prompt.length + (x.emitted.length - 1)) g.header.batchRows, customer := r.customer,
           admitRec := r.admitRec, entered := s.srv.count }] } }) ∧
    (x.phase ≠ .preempted → Completes (.sequenceRebuild q) s fun t => t = s)

/-- Fixed-slot mode (R245 to R249, R428): it is accepted where the layout has a spill area and the power cap covers the guard's operating
point, takes effect at a batch boundary, and ends at once; a slot that would start while a coat still runs is late, which counts as one
overrun, and starts when the batch has been left; the translation cache is empty at each slot's start, the first among them; less than the
guard before a slot's end no new coat begins, and a batch between two coats waits there. -/
def Obligations.FixedSlotMode : Prop :=
  ∀ s : State,
    let fixed := s.rget Fld.SRV_MODE_FIXED
    let full := (64 * s.rget (Fld.PWR_MODEL_BASE_W (s.rget Fld.SRV_GUARD_OP)) +
      s.rget (Fld.PWR_MODEL_ARRAY_W (s.rget Fld.SRV_GUARD_OP)) * s.rget (Fld.PWR_OP_CEIL (s.rget Fld.SRV_GUARD_OP))) * 1000 / 64
    let frame := fun (f : FrameState) => ({ s with srv := { s.srv with frame := f } } : State)
    (Completes (.fixedModeWrite false) s fun t => t = { s with regs := t.regs, srv := { s.srv with frame := {} } } ∧
      t.rget Fld.SRV_MODE_FIXED = 0 ∧ s.RegsBut t [(Fld.SRV_MODE_FIXED, 0)]) ∧
    (s.rget Fld.MEM_LAYOUT_SPILL_GIB = 0 ∨ s.rget Fld.PWR_CAP_MW < full ∨ fixed = 1 →
      Completes (.fixedModeWrite true) s fun t => t = s) ∧
    (s.rget Fld.MEM_LAYOUT_SPILL_GIB ≠ 0 → full ≤ s.rget Fld.PWR_CAP_MW → fixed = 0 →
      Completes (.fixedModeWrite true) s fun t => t = frame { s.srv.frame with pending := some true }) ∧
    (s.srv.frame.pending ≠ some true ∨ s.srv.batch.isSome = true → Completes .fixedModeTakesEffect s fun t => t = s) ∧
    (s.srv.frame.pending = some true → s.srv.batch = none → Completes .fixedModeTakesEffect s fun t =>
      t = { s with regs := t.regs, srv := { s.srv with frame := t.srv.frame }, mem := { s.mem with cache := [] } } ∧
      t.rget Fld.SRV_MODE_FIXED = 1 ∧
      s.RegsBut t [(Fld.SRV_MODE_FIXED, 0)] ∧ t.srv.frame.index = 0 ∧ t.srv.frame.start = s.srv.count ∧
      t.srv.frame.guarded = false ∧ t.srv.frame.late = false ∧ t.srv.frame.pending = none ∧
      t.srv.frame.quotas.map (·.1) = s.frameCustomers ∧
      ∀ e ∈ t.srv.frame.quotas, e.2.1 = 16384 / s.frameCustomers.length ∧ e.2.2.1 = 4096 / s.frameCustomers.length) ∧
    (fixed = 0 → Completes .fixedSlotStart s (fun t => t = s) ∧ Completes .fixedSlotGuard s fun t => t = s) ∧
    (fixed = 1 →
      (s.srv.batch = none → Completes .fixedSlotStart s fun t =>
        t = { frame { s.srv.frame with index := (s.srv.frame.index + 1) % (s.rget Fld.SRV_FRAME_SLOTS_M1 + 1),
                                       start := s.srv.count, guarded := false, late := false } with
              mem := { s.mem with cache := [] } }) ∧
      (s.srv.batch = none → Completes .fixedSlotGuard s fun t => t = frame { s.srv.frame with guarded := true }) ∧
      ∀ b, s.srv.batch = some b →
        let between := b.atBoundary = true ∧ b.stays = false
        let late := s.srv.frame.late
        let stays := fun (f : FrameState) =>
          ({ s with srv := { s.srv with frame := f, batch := some { b with suspended := true } } } : State)
        (between → Completes .fixedSlotStart s (fun t => t = stays { s.srv.frame with guarded := true }) ∧
          Completes .fixedSlotGuard s fun t => t = stays { s.srv.frame with guarded := true }) ∧
        (¬ between → Completes .fixedSlotGuard s fun t => t = frame { s.srv.frame with guarded := true }) ∧
        (¬ between → late = true → Completes .fixedSlotStart s fun t => t = frame { s.srv.frame with guarded := true }) ∧
        (¬ between → late = false → Completes .fixedSlotStart s fun t =>
          t = { frame { s.srv.frame with guarded := true, late := true } with regs := t.regs } ∧
          t.rget Fld.SRV_FAULT_OVERRUN = 1 ∧ s.CountedUp t Fld.SRV_OVERRUN_COUNT 1 ∧
          s.RegsBut t [(Fld.SRV_FAULT_OVERRUN, 0), (Fld.SRV_OVERRUN_COUNT, 0)]))

/-- Tiles and passes (R74, R75, R78, R80, R81, R90, R91): a tile is fetched into a free half of the weight buffer and shifted into the
shadow registers; the next pass of the oldest coat that has some left issues with its tile, its bank and its rows, and lands in order; a
first error, of a pass or of a tile that becomes active, runs the coat again from its first pass, and a second one stops passes and raises
F_ARRAY. -/
def Obligations.ArrayTilesAndPasses : Prop :=
  ∀ s : State,
    let a := s.arr
    let with_ := fun (x : ArrState) => ({ s with arr := x } : State)
    (∀ k t h u, a.stopped = false → s.nextTile = some k → s.loadTile k = some t → s.accessAll 80 (s.tilePages k) = (u, true) →
      (h = 0 ∧ (∀ x ∈ a.halves, x.1 ≠ 0) ∨ h = 1 ∧ (∃ x ∈ a.halves, x.1 = 0) ∧ ∀ x ∈ a.halves, x.1 ≠ 1) →
      Completes .tileFetchDone s fun t' => t' = { u with arr := { a with halves := a.halves ++ [(h, t)] } } ∧ u.arr = a) ∧
    ((∃ x ∈ a.halves, x.1 = 0) → (∃ x ∈ a.halves, x.1 = 1) → Completes .tileFetchDone s fun t => t = s) ∧
    (a.stopped = true ∨ s.nextTile = none → Completes .tileFetchDone s fun t => t = s) ∧
    (∀ x l, a.shadow = none → a.halves = x :: l → Completes .shadowWriteDone s fun t =>
      t = with_ { a with shadow := some x.2, halves := l }) ∧
    (a.shadow ≠ none ∨ a.halves = [] → Completes .shadowWriteDone s fun t => t = s) ∧
    (∀ w o p, s.issuing = some w → w.g.op w.c = some o → w.run.passes[w.run.issued]? = some p →
      let may := a.stopped = false ∧ s.rget Fld.ARR_REMAP_UNUSABLE = 0 ∧ s.mayWork w = true ∧ w.setFree = true ∧
        s.bankTakes p = true ∧ w.stripeThere o p = true
      (¬ may → ∀ l, Completes (.passIssue l) s fun t => t = s) ∧
      ((∀ x, a.active = some x → x.key ≠ p.key) → (∀ x, a.shadow = some x → x.key ≠ p.key) →
        ∀ l, Completes (.passIssue l) s fun t => t = s) ∧
      ∀ t : Tile, may → t.key = p.key →
        let kept := a.active = some t
        let shifted := (∀ x, a.active = some x → x.key ≠ p.key) ∧ a.shadow = some t
        (∀ u l, (s.openWindows w).reach w (67 + w.generator) (o.sources p) = (u, true) → kept ∨ shifted ∧ l = none →
          Completes (.passIssue l) s fun v =>
            let rows := u.passRows w o p
            let run := u.onRun w.i fun x => { x with begun := true, issued := x.issued + 1 }
            v = { run with regs := v.regs, srv := { run.srv with lastSet := w.g.feedSet w.i }, arr := v.arr } ∧
            v.arr = { a with active := some t, shadow := if a.active = some t then a.shadow else none,
                             flights := a.flights ++ [⟨p, rows, t⟩], nextBank := if p.first then 1 - p.bank else a.nextBank,
                             begun := true } ∧
            v.rget Fld.ARR_COAT_NOW_COAT = w.i % 2 ^ 16 ∧ u.Counted v Fld.ARR_PASS_COUNT_COUNT 1 ∧
            v.rget64 Fld.ARR_BUSY_LO_COUNT Fld.ARR_BUSY_HI_COUNT = (u.rget64 Fld.ARR_BUSY_LO_COUNT Fld.ARR_BUSY_HI_COUNT +
              if u.rbit Fld.ARR_CTRL_FREEZE then 0 else rows.length) % 2 ^ 64 ∧
            v.rget64 Fld.FEED_ROWS_LO_COUNT Fld.FEED_ROWS_HI_COUNT = (u.rget64 Fld.FEED_ROWS_LO_COUNT Fld.FEED_ROWS_HI_COUNT +
              if u.rbit Fld.FEED_CTRL_FREEZE then 0 else rows.length) % 2 ^ 64 ∧
            u.Counted v Fld.FEED_PAD_ROWS_COUNT (rows.filter FeedRow.absent).length) ∧
        (∀ l, shifted → s.ArrayFails (.passIssue (some l)) w ⟨.weightParity, l.1, l.2⟩ 0)) ∧
    (∀ e n, a.stopped = true ∨ a.flights = [] → Completes (.passLanded e n) s fun t => t = s) ∧
    ∀ f l n w o, a.flights = f :: l → s.coatAt f.pass.key.coat = some w → w.g.op w.c = some o → a.stopped = false →
      let x := a.bankOf f.pass.bank
      let own := x.phase = .filling ∧ ∃ q, x.pass = some q ∧ q.sameUnit f.pass = true
      (x.phase ≠ .free → ¬ own → ∀ e, Completes (.passLanded e n) s fun t => t = s) ∧
      (x.phase = .free ∨ own →
        (Completes (.passLanded none n) s fun t =>
          let lo := (o.part w.c f.pass.key.ntile f.pass.key.group).1 - (o.cols w.c f.pass.key.ntile).1
          let bank : AccBank :=
            { phase := if f.pass.last then .landed else .filling, pass := some f.pass,
              entries := landRows w.c.anchor lo f.tile.columns (s.landingEntries w o f) f.rows,
              scales := if x.phase = .filling then x.scales else f.tile.scales }
          t = { (s.onRun f.pass.key.coat fun y => { y with landed := y.landed + 1 }) with
                  regs := t.regs, arr := { (a.putBankOf f.pass.bank bank) with flights := l } } ∧
          s.CountedUp t Fld.ARR_ACC_CORR_COUNT n ∧ s.RegsBut t [(Fld.ARR_ACC_CORR_COUNT, 0)]) ∧
        ∀ e, s.ArrayFails (.passLanded (some e) n) w e n)

/-- Drains and the end of a coat (R77, R81, R82, R88 to R91, R236): a bank whose unit has landed drains when the port is free, the older
unit first, in order up to an entry that the destination refuses, goes on from there, and is free at its end; an entry error in a drain is
handled as one in a pass; a coat completes only when all that R82 asks for has happened, and the batch ends with its last one. -/
def Obligations.DrainsAndCoats : Prop :=
  ∀ s : State,
    (∀ bank, bank ≤ 1 →
      let x := s.arr.bankOf bank
      let y := s.arr.bankOf (1 - bank)
      (∀ r e n, x.phase ≠ .landed ∨ y.phase = .draining ∨ s.arr.stopped = true →
        Completes (.bankDrainStart bank r e n) s fun t => t = s) ∧
      (∀ r e n p q, x.phase = .landed → y.phase = .landed → x.pass = some p → y.pass = some q →
        q.key.coat < p.key.coat ∨ q.key.coat = p.key.coat ∧ q.unit < p.unit → Completes (.bankDrainStart bank r e n) s fun t => t = s) ∧
      (∀ r e n, x.phase ≠ .draining ∨ s.arr.stopped = true → Completes (.drainResume bank r e n) s fun t => t = s) ∧
      (∀ p w o f r n, x.pass = some p → s.coatAt p.key.coat = some w → w.g.op w.c = some o → Format.ofCode w.c.format = some f →
        s.arr.stopped = false →
        let drains := fun (i : Option ArrayError → Instr) =>
          (∀ u, ((s.countHold Fld.ARR_ACC_CORR_COUNT n).openWindows w).reach w 66 [(w.c.dest, true)] = (u, true) →
            Completes (i none) s fun t =>
              let stop := min x.entries.length (r.getD x.entries.length)
              t.arr = s.arr.putBankOf bank { x with phase := .draining, next := max x.next stop } ∧ s.CountedUp t Fld.ARR_ACC_CORR_COUNT n ∧
              t.srv.requests = s.srv.requests ∧ t.cont = s.cont ∧ t.net = s.net ∧ (stop ≤ x.next → t = { u with arr := t.arr })) ∧
          ∀ e, s.ArrayFails (i (some e)) w e n
        (s.arr.drains bank = true → drains fun e => .bankDrainStart bank r e n) ∧
        (x.phase = .draining → drains fun e => .drainResume bank r e n)) ∧
      (x.phase ≠ .draining ∨ x.next < x.entries.length → Completes (.drainEnd bank) s fun t => t = s) ∧
      (∀ p, x.phase = .draining → x.entries.length ≤ x.next → x.pass = some p → Completes (.drainEnd bank) s fun t =>
        t = { (s.onRun p.key.coat fun r => { r with drained := r.drained + 1 }) with arr := s.arr.putBankOf bank {} })) ∧
    (∀ i w, s.cont.activating = none → s.coatAt i = some w →
      let whole := s.mayWork w = true ∧ w.run.drained = w.run.units ∧ w.run.landed = w.run.passes.length ∧ w.programsRun = true ∧
        s.sliceRuns 9 0 = false ∧ (w.c.kind = 4 → w.run.attentionDone = true) ∧ w.run.kernelsEnded.length = w.c.kernels ∧
        s.arr.stopped = false
      let others := ∀ j, j < w.b.runs.length → j ≠ i → w.b.completed j = true
      (¬ whole → Completes (.coatComplete i) s fun t => t = s) ∧
      (whole → ¬ others → Completes (.coatComplete i) s fun t =>
        ∃ b, t.srv.batch = some b ∧ b.slot = w.b.slot ∧ b.rows = w.b.rows ∧ b.units = w.b.units ∧ b.completed i = true ∧
          (∀ j, j ≠ i → b.runs[j]? = w.b.runs[j]?) ∧ ((t.coatAt i).map (·.run.deliveries)) = some []) ∧
      (whole → others → Completes (.coatComplete i) s fun t =>
        t.srv.batch = none ∧ t.arr.active = none ∧
        ∀ u ∈ w.b.units, u.kind = .pass → (∀ r, s.request u.row = some r → r.row = u.row) → t.request u.row = none)) ∧
    ∀ i, s.cont.activating = none → s.coatAt i = none → Completes (.coatComplete i) s fun t => t = s

/-- The feed engine's own programs and the attention coat (R77, R94, R104, R106 to R112, R258 to R260): each runs once for the batch rows of
a coat that may be worked on, and is marked as run; a row without an output is empty, a box count beyond what is allowed ends its request
with E_COUNT_RANGE and writes nothing, and argmax picks the lowest index of the largest value. -/
def Obligations.FeedProgramsAndAttention : Prop :=
  ∀ (s : State) (i : Nat),
    let rest := fun (u t : State) => t.arr = u.arr ∧ t.cont = u.cont ∧ t.net = u.net ∧ t.trim = u.trim
    let begins := fun (w : Work) (t : State) (P : CoatRun → Prop) => ∃ b r, t.srv.batch = some b ∧ b.runs[w.i]? = some r ∧
      b.rows = w.b.rows ∧ b.units = w.b.units ∧ (∀ j, j ≠ w.i → b.runs[j]? = w.b.runs[j]?) ∧ r.begun = true ∧
      r.passes = w.run.passes ∧ r.issued = w.run.issued ∧ P r
    let reached := fun (w : Work) (l : List (Nat × Bool)) (u : State) => (s.openWindows w).reach w (67 + w.generator) l = (u, true)
    (∀ c kind, (c, kind) ∈ [(Instr.windowGather i, 3), (.cropAndResize i, 4), (.argmax i, 5)] → s.programDue i kind = none →
      Completes c s fun t => t = s) ∧
    (∀ w p j u, s.programDue i 3 = some (w, p, j) → reached w p.uses u → Completes (.windowGather i) s fun t => rest u t ∧
      begins w t fun x => x.programsDone = w.run.programsDone ++ [j] ∧
        ∀ r ∈ w.b.rows, p.stripeOrder (p.ho (p.height r)) = [] → r.tag ∈ x.empties) ∧
    (∀ w p j f u, s.programDue i 4 = some (w, p, j) → Format.ofCode p.format = some f → reached w p.uses u →
      let done := fun (t : State) (P : CoatRun → Prop) => rest u t ∧ begins w t fun x => x.programsDone = w.run.programsDone ++ [j] ∧ P x
      (Completes (.cropAndResize i) s fun t => done t fun _ => True) ∧
      ∀ r, w.b.rows = [r] →
        let n := leNat (u.bindRead w.b.slot w.g p.aux r ((w.g.binding p.aux).rowOff 0 p.boxBytes) 4)
        (p.maxb < n ∨ w.g.boxRoom p 0 < n → Completes (.cropAndResize i) s fun t => t.mem = u.mem ∧ t.rget Fld.FEED_FAULT_COUNT = 1 ∧
          done t fun x => x.deliveries = w.run.deliveries ∧
            ((∀ e ∈ w.run.ended, e.1 ≠ r.tag) → x.ended = w.run.ended ++ [(r.tag, Code.E_COUNT_RANGE)])) ∧
        (n ≤ p.maxb → n ≤ w.g.boxRoom p 0 → n = 0 → Completes (.cropAndResize i) s fun t => t.mem = u.mem ∧ t.regs = u.regs ∧
          done t fun x => x.deliveries = w.run.deliveries ∧ r.tag ∈ x.empties) ∧
        (n ≤ p.maxb → n ≤ w.g.boxRoom p 0 → n ≠ 0 → Completes (.cropAndResize i) s fun t => u.Counted t Fld.FEED_BOXES_COUNT n)) ∧
    (∀ w p j f u, s.programDue i 5 = some (w, p, j) → Format.ofCode p.format = some f → reached w p.uses u →
      Completes (.argmax i) s fun t => rest u t ∧ begins w t fun x => x.programsDone = w.run.programsDone ++ [j]) ∧
    (∀ vs : List FpVal, vs ≠ [] → argmaxOf vs < vs.length ∧ ∀ k, k < vs.length →
      ranksAbove (listAt .nan vs (argmaxOf vs)) (listAt .nan vs k) = false ∧
      (k < argmaxOf vs → ranksAbove (listAt .nan vs k) (listAt .nan vs (argmaxOf vs)) = true)) ∧
    (∀ w, s.coatAt i = some w →
      let loaders := (w.g.programsOf w.c).filter (·.kind == 2)
      let due := w.run.nextStripe [] ((w.run.passes.drop w.run.issued).map (·.rowStripe))
      (∀ rs u, due = some rs → loaders ≠ [] → s.mayWork w = true → w.setFree = true →
        reached w (loaders.map fun p => [(p.src, false), (p.dst, true)]).flatten u →
        Completes (.stripeLoadDone i) s fun t => rest u t ∧ begins w t fun x => x.programsDone = w.run.programsDone ∧
          x.stripeHalf rs = some rs ∧ x.stripeHalf (rs + 1) = w.run.stripeHalf (rs + 1)) ∧
      (due = none ∨ loaders = [] ∨ s.mayWork w = false ∨ w.setFree = false → Completes (.stripeLoadDone i) s fun t => t = s)) ∧
    ∀ w a f, s.coatAt i = some w → w.g.attnOf w.c = some a → attnFmt a w.c = some f →
      let own : KvShape := ⟨f.kv, 1, a.kvHeads, a.dim⟩
      let kv : KvShape := if a.paged then w.g.kv.getD own else own
      let may := w.run.attentionDone = false ∧ s.mayWork w = true ∧ s.arrayFree w = true ∧ s.arr.stopped = false ∧
        s.rget Fld.ARR_REMAP_UNUSABLE = 0
      (¬ may → Completes (.fusedAttention i) s fun t => t = s) ∧
      ∀ u1 u2 u3, may → reached w [(a.q, false), (a.k, false), (a.v, false)] u1 →
        u1.accessAll (67 + w.generator) (if a.paged then u1.kvAccesses w a kv else []) = (u2, true) →
        (u2.openWindows w).reach w 66 [(a.out, true)] = (u3, true) →
        Completes (.fusedAttention i) s fun t => t.arr = { u3.arr with active := none } ∧ t.cont = u3.cont ∧ t.net = u3.net ∧
          t.trim = u3.trim ∧ begins w t fun x => x.attentionDone = true ∧ x.programsDone = w.run.programsDone

/-- Translation, restore, move and marker (R193, R194, R196 to R200, R211, R270): TRANSLATION_FAULT is an access that translates through the
cache, which changes only its counters, or meets a fault: RANGE, INVALID and a WRITE that no sharing explains end the coat's requests, a
shared page is copied for its writer or the access is held until one is clear, and a spilled page's access is held. SPILLED_PAGE_RESTORE
brings the page back, RANGE_MOVE moves a blocked range with its entries, TABLE_UPDATE_DONE is the marker after which what the table no
longer names may be used again, and PAGE_CLEARED gives a freed page back as a clear one. -/
def Obligations.TranslationAndPages : Prop :=
  ∀ (s : State) (owner vpn : Nat),
    let x := s.desc owner
    let i := x.base + vpn
    let e := s.entry i
    let quiet := s.rget Fld.XLT_FAULT_RANGE = 0 ∧ s.rget Fld.XLT_FAULT_INVALID = 0 ∧ s.rget Fld.XLT_FAULT_WRITE = 0 ∧
      s.rget Fld.XLT_FAULT_UPDATE = 0
    let noted := fun (t : State) (f : Field) (master : Nat) => t.rget f = 1 ∧ (quiet →
      t.rget Fld.XLT_FAULT_LOC_OWNER = owner % 2 ^ 13 ∧ t.rget Fld.XLT_FAULT_LOC_MASTER = master % 2 ^ 7 ∧
      t.rget Fld.XLT_FAULT_VPN_VPN = vpn % 2 ^ 23)
    let counts := [(Fld.XLT_HITS_LO_COUNT, 0), (Fld.XLT_HITS_HI_COUNT, 0), (Fld.XLT_MISSES_COUNT, 0)]
    (∀ (write : Bool) (master : Nat),
      let refused := fun (f : Field) => Completes (.translationFault owner vpn write master) s fun t =>
        noted t f master ∧ t.Raised Code.F_XLT ∧ t.srv.batch = none ∧
        ∀ b, s.srv.batch = some b → ∀ r ∈ b.rows, ∀ q, s.request r.tag = some q → q.row = r.tag → q.seq = none →
          t.request r.tag = none
      let held := Completes (.translationFault owner vpn write master) s fun t =>
        t = { s with regs := t.regs, mem := { s.mem with cache := t.mem.cache, held := t.mem.held } } ∧ s.RegsBut t counts ∧
        t.mem.held = if (owner, vpn) ∈ s.mem.held then s.mem.held else s.mem.held ++ [(owner, vpn)]
      let denied := write = true ∧ (entryW e = false ∨ x.readOnly = true)
      (x.length ≤ vpn → refused Fld.XLT_FAULT_RANGE) ∧
      (vpn < x.length → entryC e = false → entryV e = false → refused Fld.XLT_FAULT_INVALID) ∧
      (vpn < x.length → entryC e = true → held) ∧
      (vpn < x.length → entryC e = false → entryV e = true → ¬ denied →
        Completes (.translationFault owner vpn write master) s fun t =>
          let hit := i ∈ ((Dict.fetch s.mem.cache (i % 4096)).getD [])
          t = { s with regs := t.regs, mem := { s.mem with cache := t.mem.cache } } ∧
          i ∈ (Dict.fetch t.mem.cache (i % 4096)).getD [] ∧
          (¬ hit → s.Counted t Fld.XLT_MISSES_COUNT 1 ∧ s.RegsBut t [(Fld.XLT_MISSES_COUNT, 0)] ∧
            ∀ k, k < 32 → i / 32 * 32 + k ∈ (Dict.fetch t.mem.cache ((i / 32 * 32 + k) % 4096)).getD []) ∧
          (hit → s.RegsBut t [(Fld.XLT_HITS_LO_COUNT, 0), (Fld.XLT_HITS_HI_COUNT, 0)] ∧
            t.rget64 Fld.XLT_HITS_LO_COUNT Fld.XLT_HITS_HI_COUNT = (s.rget64 Fld.XLT_HITS_LO_COUNT Fld.XLT_HITS_HI_COUNT +
              if s.rbit Fld.XLT_CTRL_FREEZE then 0 else 1) % 2 ^ 64)) ∧
      (vpn < x.length → entryC e = false → entryV e = true → denied →
        (4096 ≤ owner ∨ x.readOnly = true → refused Fld.XLT_FAULT_WRITE) ∧
        (owner < 4096 → x.readOnly = false → s.supActs = false ∨ s.takePages 1 = none → held) ∧
        (owner < 4096 → x.readOnly = false → s.supActs = true → i < 4194304 →
          ∀ p s1, s.takePages 1 = some ([p], s1) → p ≠ entryPage e →
            Completes (.translationFault owner vpn write master) s fun t =>
              let shares := leNat (s.dramBytes (entryPage e * 65536 + 20) 2)
              s.RegsBut t counts ∧ t.entry i = 3 + p * 256 ∧ t.srv = s.srv ∧ t.cont = s.cont ∧ t.mem.held = s.mem.held ∧
              (∀ k, k < 65536 → k ≠ 20 → k ≠ 21 → k < 24 ∨ 28 ≤ k →
                Memory.byte t.mem.dram (p * 65536 + k) = Memory.byte s.mem.dram (entryPage e * 65536 + k)) ∧
              leNat (t.dramBytes (p * 65536 + 20) 2) = 1 ∧ leNat (t.dramBytes (p * 65536 + 24) 4) = owner ∧
              t.mem.afterMarker = s.mem.afterMarker ++ if shares ≤ 1 then [entryPage e] else []))) ∧
    ((x.length ≤ vpn ∨ entryC e = false ∨ s.supActs = false) → Completes (.spilledPageRestore owner vpn) s fun t => t = s) ∧
    (vpn < x.length → entryC e = true → s.supActs = true → i < 4194304 →
      ∀ b p s1, Dict.fetch s.mem.cart.spill (entryCart e) = some b → b.length = 65536 → s.takePages 1 = some ([p], s1) →
        Completes (.spilledPageRestore owner vpn) s fun t =>
          t.entry i = 3 + p * 256 ∧ t.mem.cart = s.mem.cart ∧ t.mem.cartAfterMarker = s.mem.cartAfterMarker ++ [entryCart e] ∧
          (owner, vpn) ∉ t.mem.held ∧ t.dramBytes (p * 65536) 65536 = b ∧ t.srv = s.srv ∧ t.cont = s.cont) ∧
    (let free := s.srv.batch = none ∨ ∃ b, s.srv.batch = some b ∧ b.suspended = true
     let blocked := x.length ≠ 0 ∧ ∃ r ∈ s.ranges, r.1 = x.base + x.length
     (¬ free ∨ ¬ blocked ∨ s.supActs = false ∨ s.findRun (x.length + 1) = none → Completes (.rangeMove owner) s fun t => t = s) ∧
     (∀ n, free → blocked → s.supActs = true → s.findRun (x.length + 1) = some n →
       n + x.length ≤ x.base ∨ x.base + x.length ≤ n → Completes (.rangeMove owner) s fun t =>
         t = { s with regs := t.regs, mem := t.mem } ∧ t.desc owner = { x with base := n } ∧
         (∀ d, d ≠ owner → t.desc d = s.desc d) ∧ (∀ k, k < x.length → t.entry (n + k) = s.entry (x.base + k)) ∧
         s.Counted t Fld.XLT_MOVES_COUNT 1 ∧ s.RegsBut t [(Fld.XLT_MOVES_COUNT, 0)])) ∧
    (Completes .tableUpdateDone s fun t =>
      t = { s with regs := t.regs, mem := { s.mem with pool := t.mem.pool, cart := t.mem.cart, afterMarker := [], cartAfterMarker := [] } } ∧
      t.mem.cart = { s.mem.cart with spill := s.mem.cart.spill.filter fun x => !s.mem.cartAfterMarker.contains x.1 } ∧
      (∀ g, Dict.fetch t.mem.pool g =
        if g ∈ s.mem.afterMarker ∧ Dict.fetch s.mem.pool g = some .owned then some .awaiting else Dict.fetch s.mem.pool g) ∧
      t.rget Fld.MEM_CART_PAGES_PAGES = t.mem.cart.spill.length % 2 ^ 23 ∧ s.RegsBut t [(Fld.MEM_CART_PAGES_PAGES, 0)]) ∧
    ∀ page, (Dict.fetch s.mem.pool page ≠ some .awaiting → Completes (.pageCleared page) s fun t => t = s) ∧
      (Dict.fetch s.mem.pool page = some .awaiting → s.mem.held = [] → (∀ y ∈ s.net.sessions, y.2.window / 65536 ≤ y.2.pages.length ∧ s.session y.2.number = some y.2) →
        Completes (.pageCleared page) s fun t =>
        t = { s with net := t.net, mem := { s.mem with pool := Dict.remove s.mem.pool page, dram := t.mem.dram } } ∧
        (∀ n, t.session n = s.session n) ∧
        ∀ a, Memory.byte t.mem.dram a = if page * 65536 ≤ a ∧ a < page * 65536 + 65536 then 0 else Memory.byte s.mem.dram a) ∧
      (Dict.fetch s.mem.pool page = some .awaiting → Completes (.pageCleared page) s fun t =>
        t.srv = s.srv ∧ t.cont = s.cont ∧ (Dict.fetch t.mem.pool page = none ∨ Dict.fetch t.mem.pool page = some .owned))

/-- Spill (R67, R210, R211, R254, R270): a batch halted at a coat boundary leaves what its later coats read in the spill area, in the coding of
R67, which gives the same bytes back, or goes on to its end where the area has no room; an idle sequence's pages go to the cartridge, or the sequence is preempted where no usable cartridge
is present. -/
def Obligations.SpillAndRestore : Prop :=
  (∀ p : List Byte, spillDecode (ceilDiv p.length 4096) p.length (spillCode p) = p) ∧
  ∀ s : State,
    ((∀ b, s.srv.batch = some b → b.suspended = false) → Completes .activationSpill s fun t => t = s) ∧
    (∀ b g, s.srv.batch = some b → (s.slot b.slot).image = some g → b.suspended = true →
      let spilled := s.spillRanges g b
      let bytes := spilledBytes spilled
      let fits := s.spillGib ≠ 0 ∧ s.srv.spillUsed + bytes ≤ s.spillGib * 2 ^ 30
      (b.resuming = false → s.rget Fld.SRV_MODE_FIXED = 1 → fits → Completes .activationSpill s fun t =>
        t = { s with arr := t.arr, srv := { s.srv with batch := none, spillUsed := s.srv.spillUsed + bytes,
                                                       suspended := s.srv.suspended ++ [{ b with spilled := spilled }] } } ∧
        t.arr.flights = [] ∧ t.arr.halves = [] ∧ t.arr.shadow = none ∧ t.arr.bank0 = {} ∧ t.arr.bank1 = {}) ∧
      (b.resuming = false → s.rget Fld.SRV_MODE_FIXED = 1 → ¬ fits → Completes .activationSpill s fun t =>
        t = { s with srv := { s.srv with batch := some { b with suspended := false, stays := true } } }) ∧
      (b.resuming = true → Completes .activationSpill s fun t =>
        t.srv.spillUsed = s.srv.spillUsed - spilledBytes b.spilled ∧ t.mem.dram = s.mem.dram ∧
        (b.spilled = [] → t.mem = s.mem) ∧
        (∀ r, b.spilled = [r] → r.length = (spillDecode (ceilDiv r.length 4096) r.length r.coded).length →
          t.bankBytes r.bank r.offset r.length = spillDecode (ceilDiv r.length 4096) r.length r.coded) ∧
        ∃ b', t.srv.batch = some b' ∧ b'.resuming = false ∧ b'.spilled = [] ∧ b'.rows = b.rows ∧ b'.units = b.units ∧
          b'.stays = b.stays ∧ b'.runs.length = g.coats.length ∧
          (∀ k, k < g.coats.length → b.completed k = true → b'.runs[k]? = b.runs[k]?) ∧
          (b'.suspended = true ↔ s.rget Fld.SRV_MODE_FIXED = 1 ∧ s.srv.frame.guarded = true ∧ b.stays = false)) ∧
      (b.resuming = false → s.rget Fld.SRV_MODE_FIXED = 0 → Completes .activationSpill s fun t =>
        t = { s with srv := { s.srv with batch := some { b with suspended := false } } })) ∧
    (s.rget Fld.MEM_CTRL_CART_SPILL = 0 ∨ s.rget Fld.SRV_MODE_FIXED = 1 ∨ s.supActs = false ∨ s.cont.quiesced = true ∨
        s.cartHot = true ∨ s.idleVictim = none → Completes .kvCartridgeSpill s fun t => t = s) ∧
    (∀ q x r, s.rget Fld.MEM_CTRL_CART_SPILL = 1 → s.rget Fld.SRV_MODE_FIXED = 0 → s.supActs = true → s.cont.quiesced = false →
      s.cartHot = false → s.idleVictim = some q → s.seq q = some x → s.request x.row = some r →
      (s.rget Fld.SEC_CART_STATE ≠ 1 ∨ s.rget Fld.SYS_CART_LIFE_EOL = 1 ∨ s.mem.cart.readOnly = true →
        Completes .kvCartridgeSpill s fun t =>
          t.seq q = some { x with phase := .preempted, done := 0, committed := 0, shared := 0 } ∧ (t.desc q).length = 0 ∧
          t.cont = s.cont.with [s.record r.session q (.preempt q)] ∧ s.Counted t Fld.SRV_PREEMPTS_COUNT 1 ∧
          t.srv.queue = s.srv.queue.filter fun u => u.seq != q) ∧
      (s.rget Fld.SEC_CART_STATE = 1 → s.rget Fld.SYS_CART_LIFE_EOL = 0 → s.mem.cart.readOnly = false →
        let d := s.desc q
        d.base + d.length ≤ 4194304 → s.mem.cart.spill.length + d.length < 2 ^ 32 →
        (∀ k, k < d.length → entryV (s.entry (d.base + k)) = true → 512 ≤ entryPage (s.entry (d.base + k))) →
        Completes .kvCartridgeSpill s fun t => t.srv = s.srv ∧ t.cont = s.cont ∧ t.desc q = d ∧
          ∀ k, k < d.length →
            let e := s.entry (d.base + k)
            let a := entryPage e * 65536
            let f := t.entry (d.base + k)
            (entryV e = true → leNat (s.dramBytes (a + 20) 2) ≤ 1 → entryV f = false ∧ entryC f = true ∧
              Dict.fetch t.mem.cart.spill (entryCart f) = some (s.dramBytes a 65536)) ∧
            (entryV e = false ∨ 1 < leNat (s.dramBytes (a + 20) 2) → f = e)))

/-- Memory faults (R178 to R186, R201): the code corrects one wrong symbol and rebuilds a marked channel's; each channel holds its symbols of
a granule; corrected bytes are counted per channel and a channel above the threshold is marked; a second one in its group takes the memory
out of service, as an uncorrectable granule of the table region does; an uncorrectable granule is poisoned, and a pool page that held one is
retired. Calibration and refresh change nothing. The order of a codeword's symbols is log entry 42. -/
def Obligations.MemoryFaults : Prop :=
  ∀ s : State,
    let quiet := s.memQuiet = true
    let marked := fun (t : State) (c : Nat) =>
      t.channelMarked c = true ∧ t.rget Fld.MEM_FAULT_MARKED = 1 ∧ (quiet → t.rget Fld.MEM_FAULT_LOC_CHANNEL = c) ∧
      (s.memGroup (c % 8) = 0 → t.memGroup (c % 8) = 1 ∧ t.rget Fld.MEM_STATUS_OUT = s.rget Fld.MEM_STATUS_OUT ∧
        t = { s with regs := t.regs }) ∧
      (s.memGroup (c % 8) ≠ 0 → t.memGroup (c % 8) = 2 ∧ t.rget Fld.MEM_STATUS_OUT = 1)
    (s.rget Fld.MEM_CTRL_PATROL_EN = 0 → ∀ l, Completes (.patrolPass l) s fun t => t = s) ∧
    (s.rget Fld.MEM_CTRL_PATROL_EN = 1 →
      (Completes (.patrolPass []) s fun t => t = { s with regs := t.regs } ∧
        t.rget Fld.MEM_PATROL_PASSES = (s.rget Fld.MEM_PATROL_PASSES + 1) % 2 ^ 16 ∧ s.RegsBut t [(Fld.MEM_PATROL_PASSES, 0)]) ∧
      (∀ c n, c < 80 → Completes (.patrolPass [(c, n)]) s fun t => s.CountedUp t Fld.MEM_CE_COUNT_COUNT n c ∧
        t.rget Fld.MEM_PATROL_PASSES = (s.rget Fld.MEM_PATROL_PASSES + 1) % 2 ^ 16 ∧
        (n ≤ s.rget Fld.MEM_CE_THRESH_THRESH → t.channelMarked c = s.channelMarked c ∧ t = { s with regs := t.regs }) ∧
        (s.rget Fld.MEM_CE_THRESH_THRESH < n → s.channelMarked c = false → marked t c))) ∧
    Completes (.dqsOscillatorRead []) s (fun t => t = s) ∧
    (∀ c, c < 80 → s.channelMarked c = false → Completes (.dqsOscillatorRead [c]) s fun t =>
      marked t c ∧ t.rget Fld.MEM_FAULT_TRAIN = 1) ∧
    Completes .zqCalibration s (fun t => t = s) ∧ Completes .perBankRefresh s (fun t => t = s) ∧
    (∀ n, Completes (.mr4Read n) s fun t => t = { s with mem := { s.mem with mr4 := n } }) ∧
    (∀ n wrong,
      let o := granuleOutcome (s.markedIn (n % 8)) wrong
      let bad := badWords o
      let page := n / 256
      (bad = 0 → (leftOver o).all (· == 0) = true → Completes (.uncorrectableGranule n wrong) s fun t => t = { s with regs := t.regs } ∧
        s.RegsBut t ((List.range 80).map fun c => (Fld.MEM_CE_COUNT_COUNT, c)) ∧
        ∀ c, c < 80 → s.CountedUp t Fld.MEM_CE_COUNT_COUNT ((correctedAt o).filter fun p => channelAt (n % 8) p == c).length c) ∧
      (bad = 0 → Completes (.uncorrectableGranule n wrong) s fun t =>
        t = { s with regs := t.regs, mem := { s.mem with dram := t.mem.dram } } ∧
        ∀ a, a / 256 ≠ n → Memory.byte t.mem.dram a = Memory.byte s.mem.dram a) ∧
      (0 < bad → Completes (.uncorrectableGranule n wrong) s fun t =>
        n ∈ t.mem.poisoned ∧ s.CountedUp t Fld.MEM_UE_COUNT_COUNT bad ∧ t.rget Fld.MEM_FAULT_UE = 1 ∧
        (quiet → t.rget Fld.MEM_FAULT_LOC_PAGE = page % 2 ^ 22) ∧
        (page < 16384 → t.rget Fld.MEM_STATUS_OUT = 1 ∧ (s.rget Fld.MEM_STATUS_OUT = 0 →
          t.srv.batch = none ∧ t.Raised Code.F_MEM)) ∧
        (16384 ≤ page → page < 81920 → s.cont.twinHealthy = true →
          t = { s with regs := t.regs, mem := { s.mem with poisoned := t.mem.poisoned } }) ∧
        (131072 ≤ page → page < s.poolFirst → ∃ l : List Batch, t.srv.suspended = s.srv.suspended.filter (fun b => !l.contains b) ∧
          t.srv.affected = s.srv.affected ++ ((s.srv.suspended.filter fun b => l.contains b).map (·.units)).flatten ∧
          ∀ b ∈ l, 0 < spilledBytes b.spilled) ∧
        (131072 ≤ page → s.poolFirst ≤ page → page < s.poolFirst + s.poolLayout → Dict.fetch t.mem.pool page = some .retired ∧
          ∀ k, s.slotOfPage page = some k → (s.slot k).state = .ready → (t.slot k).state = .unloading ∧ (t.slot k).reload = true ∧
            (t.slot k).image = none ∧ t.srv.loads = s.srv.loads ++ [k]))) ∧
    (∀ (d : List Byte) (p : Nat) (e : Byte), d.length = 8 → p < 10 →
      rsDecode [] (putSymbol (rsEncode d) p e) = some (rsEncode d, if e = 0 then none else some p) ∧
      rsDecode [p] (putSymbol (rsEncode d) p e) = some (rsEncode d, none) ∧
      ∀ q f, q < 10 → q ≠ p → f ≠ 0 → rsDecode [p] (putSymbol (putSymbol (rsEncode d) p e) q f) = none) ∧
    ∀ (g p j : Nat), g < 2 ^ 27 * 8 → p < 10 → j < 32 →
      s.channelByte (channelAt (granuleGroup g) p) (granuleOffset g + j) = granuleSymbol (s.storedGranule g) p j

/-- Bank faults (R206 to R208): a collision is counted and the bank keeps the lower master's bytes; of a trim core it is a kernel fault, of
any other master it discards the coat, whose requests wait for replay, and raises F_BANK; a wrong bit of a subword is corrected and counted,
and an uncorrectable unit is handled as a collision is. -/
def Obligations.BankFaults : Prop :=
  ∀ (s : State) (bank unit : Nat),
    let quiet := s.rget Fld.BANK_FAULT_UE = 0 ∧ s.rget Fld.BANK_FAULT_WINDOW = 0 ∧ s.rget Fld.BANK_FAULT_COLLISION = 0
    let place := fun (t : State) (master : Nat) => quiet → t.rget Fld.BANK_FAULT_LOC_MASTER = master % 128 ∧
      t.rget Fld.BANK_FAULT_LOC_BANK = bank % 256 ∧ t.rget Fld.BANK_FAULT_ADDR_UNIT = unit % 2 ^ 18
    let discarded := fun (t : State) => t.Raised Code.F_BANK ∧ t.srv.batch = none ∧ (s.srv.batch ≠ none → t.trim.kernels = []) ∧
      t.srv.requests = s.srv.requests ∧ t.cont = s.cont ∧
      t.srv.affected = s.srv.affected ++ (s.srv.batch.map (·.units)).getD []
    (∀ m1 m2 d1 d2,
      let kept := if m1 < m2 then d1 else d2
      let inside := 64 * unit + 64 ≤ bankSize bank
      let stored := fun (t : State) => t.mem = { s.mem with banks := t.mem.banks } ∧
        (inside → t.bankBytes bank (64 * unit) 64 = kept) ∧ (¬ inside → t.mem = s.mem)
      d1.length = 64 → d2.length = 64 →
      ((max m1 m2 < 2 ∨ 65 < max m1 m2) → Completes (.bankCollision m1 m2 bank unit d1 d2) s fun t =>
        discarded t ∧ stored t ∧ place t (max m1 m2) ∧ t.rget Fld.BANK_FAULT_COLLISION = 1 ∧
        s.Counted t Fld.BANK_COLLISIONS_COUNT 1) ∧
      (2 ≤ max m1 m2 → max m1 m2 ≤ 65 → Completes (.bankCollision m1 m2 bank unit d1 d2) s fun t =>
        t.rget Fld.TRIM_FAULT_BANK = 1 ∧ t.rget Fld.BANK_FAULT_COLLISION = s.rget Fld.BANK_FAULT_COLLISION ∧
        s.Counted t Fld.BANK_COLLISIONS_COUNT 1 ∧ stored t)) ∧
    ∀ wrong : List Nat,
      let ones := (wrong.filter (· == 1)).length
      let bad := (wrong.filter fun n => 2 ≤ n).length
      (∀ master, bad = 0 → Completes (.bankUncorrectable master bank unit wrong) s fun t =>
        t = { s with regs := t.regs } ∧ s.CountedUp t Fld.BANK_CE_COUNT_COUNT ones ∧ s.RegsBut t [(Fld.BANK_CE_COUNT_COUNT, 0)]) ∧
      (0 < bad →
        let counted := fun (t : State) => s.CountedUp t Fld.BANK_UE_COUNT_COUNT bad ∧ s.CountedUp t Fld.BANK_CE_COUNT_COUNT ones ∧
          t.rget Fld.BANK_FAULT_UE = 1 ∧ t.mem = s.mem
        (∀ master, (master < 2 ∨ 65 < master) → ¬ (bank = 0x64 ∧ master = 76) →
          Completes (.bankUncorrectable master bank unit wrong) s fun t => discarded t ∧ counted t ∧ place t master ∧
            (67 ≤ master → master ≤ 74 → t.rget Fld.FEED_FAULT_BANK_UNCORR = 1)) ∧
        (∀ master, 2 ≤ master → master ≤ 65 → Completes (.bankUncorrectable master bank unit wrong) s fun t =>
          t.rget Fld.TRIM_FAULT_BANK = 1 ∧ place t master ∧ counted t) ∧
        (bank = 0x64 → Completes (.bankUncorrectable 76 bank unit wrong) s fun t =>
          t.rget Fld.VID_FAULT_ECC = 1 ∧ counted t ∧ t.srv = s.srv))

/-- VIDEO_OPEN, VIDEO_DATA and VIDEO_CLOSE (R282 to R284, R286, R287, R290, R291, R293): the first failing check is the answer; a context takes the
first free units; data is journalled and joins the stream, its credit withheld from a held context; a close as drain waits for what is
decoded, a close as abort does not. -/
def Obligations.VideoContexts : Prop :=
  ∀ (s : State) (m : Msg) (x : Session), s.supActs = true →
    let p := m.payload
    let k := u8 p 0
    let others := fun (t : State) => ∀ c, c ≠ k → t.video c = s.video c
    (s.Hears m x 0x0200 64 →
      let v := videoOf m.session p
      let image := if v.slot ≤ 15 then s.readyImage v.slot else none
      let limit := if v.kind ≤ 2 then 1990656000000 else 497664000000
      let free := s.freeUnits v.full (if v.kind ≤ 2 then v.references + 2 else 4)
      let failing : Option Code :=
        if s.rget Fld.SYS_GATE_VID = 0 then some Code.E_GATED
        else if v.kind = 0 ∨ 4 < v.kind ∨ 16 ≤ u8 p 3 ∨ allZero p 46 18 = false then some Code.E_RESERVED
        else if s.cont.quiesced = true then some Code.B_RETRY
        else if v.slot ≤ 15 ∧ image = none then some Code.E_SLOT_STATE
        else if 63 < k ∨ v.rangesOk = false ∨ (v.kind = 4 ∧ s.sourceOk v = false) ∨ v.bindingsOk image = false then
          some Code.E_VIDEO_PARAM
        else if s.video k ≠ none then some Code.E_VIDEO_STATE
        else if limit < s.videoLoad (decide (3 ≤ v.kind)) + v.maxWidth * v.maxHeight * v.frameRate ∨ free = none then
          some Code.B_RETRY
        else none
      (∀ c, failing = some c → Completes (.videoOpen m) s fun t => t = { s with net := t.net } ∧ s.Answers t m x 0x0200 c p []) ∧
      (∀ l, failing = none → free = some l → Completes (.videoOpen m) s fun t =>
        t = { s with net := t.net, vid := { s.vid with contexts := t.vid.contexts } } ∧ s.Answers t m x 0x0200 Code.OK p [] ∧
        t.video k = some { v with units := l } ∧ others t)) ∧
    (s.Hears m x 0x0201 p.length →
      (p.length ≠ 32 + u32 p 16 → Completes (.videoData m) s fun t => s.Refuses t m x 0x0201 Code.E_INPUT_SIZE) ∧
      (p.length = 32 + u32 p 16 → u8 p 1 < 2 → allZero p 2 6 = true → allZero p 20 12 = true →
        (s.video k = none → Completes (.videoData m) s fun t => s.Refuses t m x 0x0201 Code.E_VIDEO_STATE) ∧
        ∀ v, s.video k = some v →
          (v.session ≠ m.session ∨ v.state = 3 ∨ v.kind = 4 ∨ v.ended = true ∨ v.closing ≠ none →
            Completes (.videoData m) s fun t => s.Refuses t m x 0x0201 Code.E_VIDEO_STATE) ∧
          (v.session = m.session → v.state = 1 → v.kind ≤ 2 → v.ended = false → v.closing = none → s.workRefused = false →
            let chunk : VideoChunk := { message := m.number, tag := m.tag, stamp := u64 p 8, bytes := p.drop 32 }
            let w := { v with data := v.data ++ [chunk], ended := u8 p 1 == 1 }
            let n := w.complete - v.completions.length
            let y := { w with completions := v.completions ++ (List.range n).map (s.vid.completed + ·) }
            let rec_ := s.record m.session k (.video k (p.drop 32))
            let withheld := v.held = true ∨ s.fwu.stopped = some 5
            Completes (.videoData m) s fun t =>
              t = { s with net := t.net, cont := s.cont.with [rec_],
                           vid := { s.vid with contexts := t.vid.contexts, completed := s.vid.completed + n } } ∧ others t ∧
              (¬ withheld → t.video k = some y ∧ s.Answers t m x 0x0201 Code.OK [] [s.cont.nextIndex]) ∧
              (withheld → t.video k = some { y with withheld := v.withheld + (48 + p.length) } ∧
                t.session m.session = some { Replied x m 0x0201 Code.OK [] [s.cont.nextIndex] with rxConsumed := x.rxConsumed })))) ∧
    (s.Hears m x 0x0202 32 → allZero p 2 30 = true →
      (∀ i, i ∈ [(Instr.videoCloseDrain m, 1), (.videoCloseAbort m, 2)] → u8 p 1 = i.2 →
        (∀ v, s.video k = some v → v.session = m.session → v.closing = none → False) →
        Completes i.1 s fun t => s.Refuses t m x 0x0202 Code.E_VIDEO_STATE) ∧
      ∀ v, s.video k = some v → v.session = m.session → v.closing = none → (∀ c ∈ s.vid.contexts, c.2.source ≠ k ∨ c.2.kind ≠ 4) →
        (u8 p 1 = 1 → v.kind ≤ 2 → v.pictures = [] →
          (v.busy = true ∨ v.nextUnit ≠ none → Completes (.videoCloseDrain m) s fun t =>
            t = { s with net := t.net, vid := { s.vid with contexts := t.vid.contexts } } ∧ others t ∧
            t.session m.session = some (Heard x m) ∧
            t.video k = some { v with closing := some ⟨m.session, m.number, m.tag⟩ }) ∧
          (v.busy = false → v.nextUnit = none → Completes (.videoCloseDrain m) s fun t =>
            t = { s with net := t.net, vid := t.vid } ∧ t.video k = none ∧ others t ∧ s.Answers t m x 0x0202 Code.OK [] [])) ∧
        (u8 p 1 = 2 → (∀ r ∈ s.srv.requests, r.2.picture.all (·.1 != k) = true) →
          Completes (.videoCloseAbort m) s fun t =>
            t = { s with net := t.net, vid := t.vid } ∧ t.video k = none ∧ others t ∧ some k ∉ t.vid.pipes ∧
            s.Answers t m x 0x0202 Code.OK [] []))

/-- Pictures of the video engine (R280, R281, R285, R289 to R297, R300 to R302): with the video PLL locked, a free pipe takes the access unit
that was completed first; a context without a free unit is held; a decoded picture is counted or its stream stops; its time limit is a
fault; a picture is delivered when its slots are free, coded for the partner, and every decode context starts again at an access point.
What the decoders and the encoder compute is free (log entry 28). -/
def Obligations.VideoPictures : Prop :=
  ∀ s : State,
    let clocked := (s.rget Fld.CLK_STATUS_LOCK).testBit 3 = true ∧ s.fwu.stopped ≠ some 5
    let full := fun (x : VideoContext) => x.mayDecode && x.nextUnit.isSome && !x.unitFree
    let marks := fun (t : State) (c : Nat) => t.video c = (s.video c).map fun x => if full x then { x with held := true } else x
    (Dict.wf s.vid.contexts = true → ¬ clocked ∨ (∀ p ∈ s.vid.pipes, p ≠ none) → Completes .pictureDecodeStart s fun t =>
      t = { s with vid := { s.vid with contexts := t.vid.contexts } } ∧ ∀ c, marks t c) ∧
    (∀ c x k n, Dict.wf s.vid.contexts = true → clocked → s.vid.pipes.findIdx? (·.isNone) = some n → s.video c = some x →
      x.state = 1 → x.busy = false → x.held = false → x.pictures.length < x.units.length → x.nextUnit = some k →
      (∀ d ∈ s.vid.contexts, d.1 ≠ c → d.2.mayDecode = true → d.2.unitFree = true → d.2.nextUnit.all (k < ·) = true) →
      Completes .pictureDecodeStart s fun t =>
        t = { s with vid := { s.vid with contexts := t.vid.contexts, pipes := s.vid.pipes.set n (some c) } } ∧
        t.video c = some { x with busy := true, started := x.started + 1, watchdog := none, damaged := [] } ∧
        ∀ d, d ≠ c → marks t d) ∧
    (∀ pipe, (s.vid.pipes[pipe]?).bind id = none →
      Completes (.pictureDecoded pipe) s (fun t => t = s) ∧ ∀ b, Completes (.pictureWatchdog pipe b) s fun t => t = s) ∧
    (∀ pipe c x, s.vid.pipes[pipe]? = some (some c) → s.video c = some x →
      (Completes (.pictureDecoded pipe) s fun t =>
        let n := x.started - 1
        let h := Config.pictureHead x.kind x.stream n x.refPictures
        t.vid.pipes[pipe]? = some none ∧ t.mem = s.mem ∧ t.cont = s.cont ∧ (∀ y, t.video c = some y → y.busy = false) ∧
        (x.closing = none →
          match x.home n with
          | none => ∃ y, t.video c = some y ∧ y.state = 3 ∧ y.code = Code.E_VIDEO_STREAM
          | some (_, place) =>
            if x.tooMuch h = true ∨ 349525 ≤ place then ∃ y, t.video c = some y ∧ y.state = 3 ∧ y.code = Code.E_VIDEO_STREAM
            else ∃ y, t.video c = some y ∧ y.state = x.state ∧ y.seen = max x.seen (n + 1) ∧
              y.frames = if s.rget Fld.VID_CTRL_FREEZE = 1 then x.frames else (x.frames + 1) % 2 ^ 32)) ∧
      ∀ block, Completes (.pictureWatchdog pipe block) s fun t =>
        t = { s with regs := t.regs, vid := { s.vid with contexts := t.vid.contexts } } ∧ t.rget Fld.VID_FAULT_WATCHDOG = 1 ∧
        t.video c = some { x with watchdog := some ((x.watchdog.map (min block)).getD block) } ∧
        (s.rget Fld.VID_FAULT_ECC = 0 → s.rget Fld.VID_FAULT_WATCHDOG = 0 → s.rget Fld.VID_FAULT_WINDOW = 0 → c < 64 →
          t.rget Fld.VID_FAULT_LOC_CONTEXT = c ∧ t.rget Fld.VID_FAULT_LOC_PICTURE = (x.started - 1) % 2 ^ 24)) ∧
    (s.supActs = false ∨ (∀ c ∈ s.vid.contexts, c.2.due (·.deliver) = none) → Completes .pictureDeliver s fun t => t = s) ∧
    (∀ c x p g, s.supActs = true → s.vid.contexts = [(c, x)] → x.due (·.deliver) = some p → s.readyImage x.slot = some g →
      (s.slotsFor x g = none → Completes .pictureDeliver s fun t =>
        t = { s with vid := { s.vid with contexts := [(c, { x with held := true })] } }) ∧
      (∀ i n y, s.slotsFor x g = some [(i, n)] → i = x.frameBinding → x.closing = none → s.session x.session = some y →
        Completes .pictureDeliver s fun t =>
          let b := g.binding i
          let bytes := x.frameBytes g p
          let inside := insideEnvelope 76 (slotWindow b n bytes.length)
          (inside = true → t.bankBytes b.bankId (b.offset + n * b.size) bytes.length = bytes) ∧
          (inside = false → t.rget Fld.VID_FAULT_WINDOW = 1 ∧ t.Raised Code.F_BANK ∧ t.mem.banks = s.mem.banks) ∧
          ∃ z, t.video c = some z ∧ z.delivered = x.delivered ++ [p.number] ∧
            ∀ q ∈ z.pictures, q.number = p.number → q.deliver = false)) ∧
    (¬ clocked ∨ (∀ c ∈ s.vid.contexts, s.toEncode c.2 = none) → Completes .pictureEncode s fun t => t = s) ∧
    (∀ c x d y, clocked → s.vid.contexts = [(c, x)] → x.kind = 3 → x.state = 2 → x.data[x.coded]? = some d → x.closing = none →
      s.session x.session = some y → Completes .pictureEncode s fun t =>
        (∃ z, t.video c = some z ∧ z.coded = x.coded + 1 ∧ z.held = false ∧ z.recon.isSome = true) ∧
        ∃ w b, t.session x.session = some w ∧ w.ready = y.ready ++
          [{ number := d.message * 2 ^ 20 + 3, type := 0x0211, code := Code.OK, tag := d.tag,
             payload := leBytes 4 c ++ leBytes 4 x.coded ++ leBytes 4 b.length ++ zeroBytes 4 ++ leBytes 8 d.stamp ++ zeroBytes 8 ++ b }]) ∧
    Completes .videoContextRestart s fun t =>
      ∀ c x, s.video c = some x →
        (x.state ≠ 1 → t.video c = some x) ∧
        (x.state = 1 → ∃ y, t.video c = some y ∧ y.busy = false ∧ y.pictures = [] ∧ y.held = false ∧ y.started ≤ x.started ∧
          (y.started = 0 ∨ y.started ∈ x.accessPoints) ∧ y.data = x.data ∧ y.delivered = x.delivered)

/-- Power caps and operating points (R19, R28, R182, R186, R424, R425, R427, R429 to R434, R479): an accepted cap is clamped, chooses the
point and pacer of R431, and at once the pacer meets it or is 1; the module steps toward its target; the closed loop lowers the pacer for
an interval above the cap; the throttle holds the pacer at 8 and leaves fixed-slot mode. -/
def Obligations.PowerCapsAndPoints : Prop :=
  ∀ s : State,
    let point := s.rget Fld.PWR_STATUS_POINT
    let meets := fun (t : State) => t.rget Fld.PWR_PACE_EFFECTIVE ≤ 1 ∨
      t.meets (t.rget Fld.PWR_STATUS_POINT) (t.rget Fld.PWR_PACE_EFFECTIVE) t.capInForce = true
    let chosen := fun (t : State) =>
      let cap := t.capInForce
      let fits := fun (n p : Nat) => n < 8 ∧ 1 ≤ p ∧ p ≤ s.rget (Fld.PWR_OP_CEIL n) ∧ t.meets n p cap = true
      let tempo := fun (n p : Nat) => listAt 0 [300, 536, 679, 786, 893, 1000, 1125, 1250] n * p
      ((∀ n p, ¬ fits n p) ∧ t.pwr.chosenPoint = 0 ∧ t.pwr.chosenPace = 1) ∨
      (fits t.pwr.chosenPoint t.pwr.chosenPace ∧ ∀ n p, fits n p →
        tempo n p < tempo t.pwr.chosenPoint t.pwr.chosenPace ∨
        (tempo n p = tempo t.pwr.chosenPoint t.pwr.chosenPace ∧ t.pwr.chosenPoint ≤ n))
    (∀ m x, s.boot.down = false → s.Hears m x 0x0400 32 →
      let p := m.payload
      let mw := u32 p 0
      (allZero p 4 4 = true → allZero p 16 16 = true → ((1 ≤ mw ∧ mw < 140000) ∨ 480000 < mw) → Completes (.capSet m) s fun t =>
        t = { s with net := t.net } ∧ s.Answers t m x 0x0400 Code.E_PARAM (s.capPayload (u64 p 8) 0 0 0) []) ∧
      (allZero p 4 4 = true → allZero p 16 16 = true → (mw = 0 ∨ (140000 ≤ mw ∧ mw ≤ 480000)) → Completes (.capSet m) s fun t =>
        t.pwr.rackCap = (if mw = 0 then s.maxCap else min mw s.maxCap) ∧ t.rget Fld.PWR_CAP_MW = t.capInForce % 2 ^ 19 ∧
        t.rget Fld.PWR_STATUS_CLAMPED = (if s.maxCap < mw then 1 else 0) ∧ t.cont.rackStamp = u64 p 8 ∧
        t.rget Fld.PWR_COUNTS_CAPS = min (s.rget Fld.PWR_COUNTS_CAPS + 1) (2 ^ 16 - 1) ∧
        t.rget Fld.PWR_STATUS_POINT = point ∧ meets t ∧ chosen t ∧ t.mem = s.mem)) ∧
    (point ≠ s.rget Fld.PWR_STATUS_TARGET ∨ s.pwr.reply = none → Completes .capSettled s fun t => t = s) ∧
    (∀ r, s.pwr.reply = some r → point = s.rget Fld.PWR_STATUS_TARGET → Completes .capSettled s fun t =>
      let exceeded := s.pwr.overran
      let flags := (if r.clamped then 1 else 0) + (if exceeded then 2 else 0)
      let excess := if s.pwr.overrun then s.pwr.excess / 1000000 else s.rget Fld.PWR_OVERRUN_EXCESS_W
      t = { s with net := t.net, pwr := { s.pwr with reply := none } } ∧
      s.Told t (some r.reply) 0x0400 Code.OK
        (leBytes 4 (s.rget Fld.PWR_CAP_MW) ++ leBytes 4 (s.rget Fld.PWR_POWER_MW) ++ leBytes 8 r.stamp ++ leBytes 1 point ++
          leBytes 1 (s.rget Fld.PWR_PACE_EFFECTIVE) ++ leBytes 1 flags ++ [0] ++ leBytes 4 (if exceeded then s.pwr.overrunUs else 0) ++
          leBytes 2 (if exceeded then excess else 0) ++ zeroBytes 6) []) ∧
    (∀ l, s.powered = false → Completes (.opStep l) s fun t => t = s) ∧
    (∀ l, s.powered = true → Completes (.opStep l) s fun t =>
      let target := s.settlePace.rget Fld.PWR_STATUS_TARGET
      let rate := t.rget Fld.MEM_STATUS_RATE
      let same := rate = s.rget Fld.MEM_STATUS_RATE
      t.rget Fld.PWR_STATUS_POINT = (if target < point then point - 1 else if point < target then point + 1 else point) ∧
      (target ≠ point → meets t ∧ rate = s.rget (Fld.PWR_OP_RATE (t.rget Fld.PWR_STATUS_POINT))) ∧ (target = point → same) ∧
      (same → t.mem = s.mem) ∧
      (¬ same → t.mem.onFsp1 = !s.mem.onFsp1 ∧ (if s.mem.onFsp1 then t.mem.fsp0 else t.mem.fsp1) = some rate ∧
        (if s.mem.onFsp1 then t.mem.fsp1 = s.mem.fsp1 else t.mem.fsp0 = s.mem.fsp0) ∧
        (∀ c ∈ l, c < 80 → t.channelMarked c = true ∧ t.rget Fld.MEM_FAULT_TRAIN = 1))) ∧
    (point = s.rget Fld.PWR_STATUS_TARGET → Completes .voltageConfirmTimeout s fun t => t = s) ∧
    (point ≠ s.rget Fld.PWR_STATUS_TARGET → Completes .voltageConfirmTimeout s fun t =>
      t.rget Fld.PWR_FAULT_VREG = 1 ∧ t.pwr.noUp = true ∧ t.rget Fld.PWR_STATUS_TARGET ≤ t.rget Fld.PWR_STATUS_POINT ∧
      t.rget Fld.PWR_STATUS_POINT = (if s.rget Fld.PWR_STATUS_TARGET < point then point - 1 else point) ∧ meets t) ∧
    (∀ mw, Completes (.powerInterval mw) s fun t =>
      let now := s.rget Fld.PWR_PACE_CAP
      let mv := s.rget Fld.PWR_MANUAL_MV
      let scaled := s.rget Fld.PWR_MANUAL_EN = 1 ∧ s.rget Fld.PWR_MANUAL_POINT = point ∧ mv ≠ 0
      let unit := s.rget (Fld.PWR_MODEL_ARRAY_W point) * 1000 * if scaled then mv ^ 3 else 1
      let per := if scaled then s.rget (Fld.PWR_OP_MV point) ^ 3 else 1
      t.rget Fld.PWR_POWER_MW = mw % 2 ^ 19 ∧ t.mem = s.mem ∧ t.rget Fld.PWR_STATUS_POINT = point ∧
      (s.hw.powerCount < 999 → t.hw = { s.hw with powerSum := s.hw.powerSum + mw, powerCount := s.hw.powerCount + 1 }) ∧
      (999 ≤ s.hw.powerCount → t.hw = { s.hw with inputWatts := (s.hw.powerSum + mw) / 1000000, powerSum := 0, powerCount := 0 }) ∧
      (s.powered = false → t = { s with regs := t.regs, hw := t.hw } ∧ s.RegsBut t [(Fld.PWR_POWER_MW, 0)]) ∧
      (s.powered = true → s.capInForce < mw →
        t.rget Fld.PWR_PACE_CAP = min (max 1 (now - ceilDiv ((mw - s.capInForce) * 64 * per) (max unit 1))) now ∧ t.pwr.lowIntervals = 0) ∧
      (s.powered = true → mw * 64 * per + unit ≤ s.capInForce * 64 * per → s.capInForce ≥ mw → s.pwr.lowIntervals < 99 →
        t.pwr.lowIntervals = s.pwr.lowIntervals + 1 ∧ t.rget Fld.PWR_PACE_CAP = now)) ∧
    Completes .throttleAssert s (fun t => t.rget Fld.SYS_J1_THROTTLE = 1 ∧ t.rget Fld.PWR_STATUS_EMERG = 1 ∧
      t.rget Fld.PWR_PACE_EMERG = 8 ∧ t.rget Fld.PWR_PACE_EFFECTIVE ≤ 8 ∧ t.rget Fld.PWR_FAULT_EMERG = 1 ∧
      t.rget Fld.PWR_COUNTS_EMERG = min (s.rget Fld.PWR_COUNTS_EMERG + 1) (2 ^ 16 - 1) ∧ t.rget Fld.SRV_MODE_FIXED = 0 ∧
      (s.rget Fld.SRV_MODE_FIXED = 1 → t.rget Fld.SRV_MODE_LEFT = 1 ∧ t.rget Fld.SRV_MODE_CAUSE = 3) ∧ t.mem = s.mem) ∧
    Completes .throttleRelease s (fun t => t = { s with regs := t.regs } ∧ t.rget Fld.SYS_J1_THROTTLE = 0 ∧
      t.rget Fld.PWR_STATUS_EMERG = 0 ∧ s.RegsBut t [(Fld.SYS_J1_THROTTLE, 0), (Fld.PWR_STATUS_EMERG, 0)]) ∧
    (s.rget Fld.PWR_STATUS_EMERG = 1 ∨ 64 ≤ s.rget Fld.PWR_PACE_EMERG → Completes .throttleRampStep s fun t => t = s) ∧
    (s.rget Fld.PWR_STATUS_EMERG = 0 → s.rget Fld.PWR_PACE_EMERG < 64 → Completes .throttleRampStep s fun t =>
      t.rget Fld.PWR_PACE_EMERG = s.rget Fld.PWR_PACE_EMERG + 1 ∧ t.mem = s.mem) ∧
    ∀ (m : Msg) (x : Session) (w : Word),
      let wm := wordWrite m 0x20014 w
      let pace := (w.extractLsb' 4 7).toNat
      let mv := (w.extractLsb' 11 10).toNat
      let refused := fun (c : Code) (i : Nat) => Completes (.manualPointWrite m w) s fun t => s.RefusesWrite t wm x c i
      let reserved := w &&& 0xFFE00000 ≠ 0 ∨ pace = 0 ∨ 64 < pace ∨ (mv ≠ 0 ∧ (mv < 550 ∨ 850 < mv ∨ mv % 5 ≠ 0))
      let fixed := w.getLsbD 0 = true ∧ s.rget Fld.SRV_MODE_FIXED = 1
      (s.session m.session = some x → x.closing = false → s.mayActFor m.session = true → x.role ≠ 3 ∨ x.wantsProtected = true →
        refused Code.E_ROLE 65535) ∧
      (s.MayWrite m x → reserved → refused Code.E_RESERVED 0) ∧
      (s.MayWrite m x → ¬ reserved → fixed → refused Code.B_RETRY 0) ∧
      (s.MayWrite m x → ¬ reserved → ¬ fixed → Completes (.manualPointWrite m w) s fun t =>
        Regs.word t.regs 0x20014 0 = w ∧ meets t ∧ chosen t ∧ t.mem = s.mem ∧ t.rget Fld.PWR_STATUS_POINT = point ∧
        t.pwr.millivolt = (if w.getLsbD 0 = true ∧ (w.extractLsb' 1 3).toNat = point ∧ mv ≠ 0 then mv else s.rget (Fld.PWR_OP_MV point)) ∧
        s.Answers t wm x 0x0301 Code.OK (leBytes 2 1 ++ leBytes 2 65535 ++ zeroBytes 28 ++ leBytes 4 w.toNat) [])

/-- Clocks (R411, R412, R418, R421, R422): crystals and the PLLs that they feed, the loss of a PLL's lock, the checks of the oscillators,
the tempo monitor and the clock meter. -/
def Obligations.ClocksAndMeasurement : Prop :=
  ∀ s : State,
    let lock := s.rget Fld.CLK_STATUS_LOCK
    let regsOnly := fun (t : State) (l : List Field) => t = { s with regs := t.regs } ∧ s.RegsBut t (l.map fun f => (f, 0))
    (Completes (.crystalStable .a true) s fun t => regsOnly t [Fld.CLK_STATUS_XA_OK, Fld.CLK_STATUS_LOCK] ∧
      t.rget Fld.CLK_STATUS_XA_OK = 1 ∧ t.rget Fld.CLK_STATUS_LOCK = lock ||| 2) ∧
    (Completes (.crystalStable .b true) s fun t => regsOnly t [Fld.CLK_STATUS_XB_OK, Fld.CLK_STATUS_LOCK] ∧
      t.rget Fld.CLK_STATUS_XB_OK = 1 ∧ t.rget Fld.CLK_STATUS_LOCK = lock ||| 13) ∧
    (Completes (.crystalStable .a false) s fun t => regsOnly t [Fld.CLK_STATUS_XA_FAIL] ∧ t.rget Fld.CLK_STATUS_XA_FAIL = 1) ∧
    (Completes (.crystalStable .b false) s fun t => regsOnly t [Fld.CLK_STATUS_XB_FAIL] ∧ t.rget Fld.CLK_STATUS_XB_FAIL = 1) ∧
    (Completes (.pllLockLoss .memory) s fun t => (t.rget Fld.CLK_STATUS_LOCK).testBit 0 = false ∧ t.rget Fld.MEM_STATUS_OUT = 1 ∧
      (t.rget Fld.BIST_UNUSABLE_BLOCKS).testBit 15 = true ∧ t.mem = s.mem) ∧
    (Completes (.pllLockLoss .ethernet) s fun t => t = { s with regs := t.regs } ∧ t.rget Fld.CLK_STATUS_LOCK = lock &&& 13 ∧
      t.rget Fld.NET_FAULT_LINK = 1 ∧ ∀ p, p < 6 → t.rget Fld.NET_PSTAT_LINK p = 0) ∧
    (Completes (.pllLockLoss .pcie) s fun t => (t.rget Fld.CLK_STATUS_LOCK).testBit 2 = false ∧
      (s.mem.cart.present = true → t.mem.cart.powered = false ∧ t.mem.cart.objects = s.mem.cart.objects) ∧
      (s.mem.cart.present = false → t = { s with regs := t.regs } ∧ s.RegsBut t [(Fld.CLK_STATUS_LOCK, 0)])) ∧
    (Completes (.pllLockLoss .video) s fun t => regsOnly t [Fld.CLK_STATUS_LOCK] ∧ t.rget Fld.CLK_STATUS_LOCK = lock &&& 7) ∧
    (∀ osc count : Nat, osc < 4 → s.pwr.badCounts.length = 4 →
      let good := if osc < 2 then 180000 ≤ count ∧ count ≤ 220000 else 3113 ≤ count ∧ count ≤ 3440
      let bad := fun (t : State) (n : Nat) => t.pwr = { s.pwr with badCounts := t.pwr.badCounts } ∧ t.pwr.badCounts[osc]? = some n ∧
        ∀ k, k ≠ osc → t.pwr.badCounts[k]? = s.pwr.badCounts[k]?
      ((s.rget Fld.CLK_STATUS_OSC_FAIL).testBit osc = true → Completes (.oscillatorCheck osc count) s fun t => t = s) ∧
      ((s.rget Fld.CLK_STATUS_OSC_FAIL).testBit osc = false →
        (good → Completes (.oscillatorCheck osc count) s fun t => t = { s with pwr := t.pwr } ∧ bad t 0) ∧
        (¬ good → s.pwr.badCounts[osc]? = some 0 →
          Completes (.oscillatorCheck osc count) s fun t => t = { s with pwr := t.pwr } ∧ bad t 1) ∧
        (¬ good → s.pwr.badCounts[osc]? = some 1 → Completes (.oscillatorCheck osc count) s fun t =>
          let x : Side := if osc % 2 = 0 then .a else .b
          t.rget Fld.CLK_STATUS_OSC_FAIL = s.rget Fld.CLK_STATUS_OSC_FAIL ||| 2 ^ osc ∧ t.Raised Code.OK ∧ t.mem = s.mem ∧
          (osc = 0 → t.rget Fld.CLK_STATUS_FAST_SIDE = 1) ∧ (osc = 2 → t.rget Fld.CLK_STATUS_SLOW_SIDE = 1) ∧
          (osc % 2 = 0 → s.CountedUp t Fld.CLK_SWITCHES_COUNT 1) ∧
          (osc % 2 = 1 → t.rget Fld.CLK_SWITCHES_COUNT = s.rget Fld.CLK_SWITCHES_COUNT) ∧
          (x = s.active → t.cont.released = true ∧ t.cont.acting = false) ∧ (x ≠ s.active → t.sup x = .unusable) ∧
          (osc < 2 → (s.fe x).state = .up → (t.fe x).state = .starting) ∧ (2 ≤ osc → t.fe x = s.fe x)))) ∧
    (∀ count paced, Completes (.tempoWindow count paced) s fun t => regsOnly t [Fld.CLK_TEMPO_COUNT_COUNT, Fld.CLK_TEMPO_PACED_COUNT] ∧
      t.rget Fld.CLK_TEMPO_COUNT_COUNT = count % 2 ^ 32 ∧ t.rget Fld.CLK_TEMPO_PACED_COUNT = paced % 2 ^ 32) ∧
    (∀ w : Word,
      let ref := Fld.CLK_MEAS_CFG_REF.of w
      let target := Fld.CLK_MEAS_CFG_TARGET.of w
      let window := Fld.CLK_MEAS_CFG_WINDOW.of w
      (10 < ref ∨ 10 < target ∨ window = 0 → Completes (.measStart w) s fun t => t = s) ∧
      (ref ≤ 10 → target ≤ 10 → window ≠ 0 → Completes (.measStart w) s fun t =>
        t = { s with regs := t.regs, pwr := { s.pwr with measuring := true } } ∧ t.rget Fld.CLK_MEAS_CFG_REF = ref ∧
        t.rget Fld.CLK_MEAS_CFG_TARGET = target ∧ t.rget Fld.CLK_MEAS_CFG_WINDOW = window ∧ t.rget Fld.CLK_MEAS_CFG_DONE = 0 ∧
        s.RegsBut t [(Fld.CLK_MEAS_CFG_REF, 0), (Fld.CLK_MEAS_CFG_TARGET, 0), (Fld.CLK_MEAS_CFG_WINDOW, 0),
          (Fld.CLK_MEAS_CFG_DONE, 0)])) ∧
    ∀ count, (s.pwr.measuring = false → Completes (.measDone count) s fun t => t = s) ∧
      (s.pwr.measuring = true → Completes (.measDone count) s fun t =>
        t = { s with regs := t.regs, pwr := { s.pwr with measuring := false } } ∧ t.rget Fld.CLK_MEAS_CFG_DONE = 1 ∧
        t.rget Fld.CLK_MEAS_COUNT_COUNT = count % 2 ^ 32 ∧
        s.RegsBut t [(Fld.CLK_MEAS_CFG_DONE, 0), (Fld.CLK_MEAS_COUNT_COUNT, 0)])

/-- One thermal interval (R438 to R444, R447, R451): the pair rule, the model (calibrated coefficients, and the rounding of its
products, are free: log entry 35), the bands, the limits, the coolant and air caps, and the orderly halt. -/
def Obligations.ThermalInterval : Prop :=
  ∀ (s : State) (x : ThermalSnapshot),
    (s.boot.down = true → Completes (.thermalInterval x) s fun t => t = s) ∧
    (s.boot.down = false → Completes (.thermalInterval x) s fun t =>
      let near := fun (r p : Int) (n : Nat) => (r * 2 ^ n - p).natAbs < 2 ^ n
      let limit := t.rget Fld.THM_STATUS_LIMIT
      let point := t.rget Fld.THM_STATUS_POINT
      let spot := fun (i : Nat) => listAt {} t.thm.spots i
      let kind := fun (i : Nat) => if i < 16 then 0 else if i < 20 then 1 else if i < 22 then 2 else if i = 22 then 3 else 4
      let degrees := fun (l : List Nat) (i : Nat) => ((listAt 0 l (kind i) - s.rget Fld.THM_DERATE_OFFSET : Nat) : Int) * 65536
      let warm := degrees [95, 105, 85, 70, 100]
      let hot := degrees [100, 115, 95, 75, 105]
      let critical := degrees [105, 125, 100, 80, 110]
      let trip := degrees [115, 135, 105, 85, 120]
      let ref : Int := if s.variant = .w then x.inlet * 4096 else (x.inlet + x.inlet2) * 2048
      let air := x.inlet + x.inlet2
      t.mem = s.mem ∧ t.thm.spots.length = 24 ∧
      (∀ i, i < 24 →
        let h := listAt {} s.thm.spots i
        let n := spot i
        let valid := fun (prev r : Option Int) => ∃ v, r = some v ∧ -640 ≤ v ∧ v ≤ 2400 ∧ ∀ p, prev = some p → (v - p).natAbs ≤ 32
        let okA := h.faultA = false ∧ valid h.prevA (listAt none x.a i)
        let okB := h.faultB = false ∧ valid h.prevB (listAt none x.b i)
        let a := (listAt none x.a i).getD 0
        let b := (listAt none x.b i).getD 0
        let apart := (a - b).natAbs
        n.prevA = listAt none x.a i ∧ n.prevB = listAt none x.b i ∧ (¬ okA → n.faultA = true) ∧ (¬ okB → n.faultB = true) ∧
        (okA → okB → apart ≤ 48 → n.pair = 0 ∧ n.used = max a b * 4096 ∧ n.faultA = false ∧ n.faultB = false) ∧
        (okA → okB → 48 < apart → apart ≤ 160 → h.suspect < 7999 → n.pair = 1 ∧ n.used = max a b * 4096 ∧ n.suspect = h.suspect + 1 ∧
          n.faultA = false ∧ n.faultB = false) ∧
        (okA → okB → (160 < apart ∨ (48 < apart ∧ 7999 ≤ h.suspect)) → h.started = true →
          let far := (a * 4096 - h.x).natAbs ≤ (b * 4096 - h.x).natAbs
          n.pair = 2 ∧ n.used = max ((if far then a else b) * 4096) h.x ∧ (far → n.faultB = true ∧ n.faultA = false) ∧
          (¬ far → n.faultA = true ∧ n.faultB = false)) ∧
        (okA → ¬ okB → h.started = true → n.pair = 2 ∧ n.used = max (a * 4096) h.x ∧ n.faultA = false) ∧
        (¬ okA → okB → h.started = true → n.pair = 2 ∧ n.used = max (b * 4096) h.x ∧ n.faultB = false) ∧
        (¬ okA → ¬ okB → n.pair = 3 ∧ (h.started = true → n.used = h.x + 5 * 65536)) ∧
        (let x0 := if h.started then h.x else n.used
         ∃ q d e f g : Int, near q ((Config.thermalC1 i).toNat * ((s.rget Fld.PWR_POWER_MW * 65536 / 1000 : Nat) : Int)) 8 ∧
          near d ((Config.thermalR i).toNat * ((Config.thermalC0 i).toNat * 65536 + q)) 8 ∧
          near e ((Config.thermalAlpha i).toNat * (ref + d - x0)) 16 ∧ near f ((Config.thermalBeta i).toNat * (n.used - (x0 + e))) 16 ∧
          n.x = x0 + e + f ∧ n.started = true ∧ near g ((ref + d - n.x) * spotGain i) 16 ∧ n.pred = n.x + g) ∧
        n.band = (if trip i < n.used then 4 else if critical i < n.used then 3 else if hot i < n.pred then 2
          else if warm i < n.pred then 1 else 0) ∧
        n.band ≤ t.rget Fld.THM_STATUS_BAND ∧
        (n.band = 1 → limit ≤ (max 8 (8 + 56 * (hot i - n.pred) / (hot i - warm i))).toNat) ∧ (n.band = 2 → limit ≤ 8) ∧
        (3 ≤ n.band → limit ≤ 1 ∧ point = 0) ∧ (n.pair = 3 → limit ≤ 32) ∧
        (n.pair ≠ 0 → n.pair ≠ h.pair → t.rget Fld.THM_FAULT_SENSOR = 1) ∧
        (3 ≤ n.band → h.band < 3 → t.rget Fld.THM_FAULT_CRIT = 1) ∧
        (n.band = 4 → s.cont.pull = .none → t.cont.pull = .waitAck ∧ t.cont.quiesced = true ∧ t.cont.pullWhy = .trip)) ∧
      (1 ≤ s.rget Fld.THM_STATUS_LIMIT → 1 ≤ limit) ∧ limit ≤ s.rget Fld.THM_STATUS_LIMIT + 1 ∧ point ≤ s.rget Fld.THM_STATUS_POINT + 1 ∧
      (t.rget Fld.THM_STATUS_BAND ≠ 0 → point ≤ s.rget Fld.THM_STATUS_POINT) ∧ (s.thm.stopped = true → limit = 1 ∧ point = 0) ∧
      ((∀ i, i < 24 → (spot i).band = 0 ∧ (spot i).pair ≠ 3) → t.thm.stopped = false → min (s.rget Fld.THM_STATUS_LIMIT) 64 ≤ limit) ∧
      t.rget Fld.PWR_PACE_THERMAL = limit ∧ t.rget Fld.PWR_PACE_EFFECTIVE ≤ max limit 1 ∧
      (s.variant = .w →
        let cold := if 640 < x.inlet then 240000 else 0
        let flow := listAt 0 [0, 400000, 320000, 240000] s.thm.band
        t.rget Fld.THM_COOLANT_INLET = (x.inlet % 65536).toNat ∧ t.rget Fld.THM_COOLANT_OUTLET = (x.outlet % 65536).toNat ∧
        ((640 < x.inlet ∨ x.inlet < 160) → t.rget Fld.THM_FAULT_INLET = 1) ∧
        t.rget Fld.THM_CAP_MW = (if flow = 0 then cold else if cold = 0 then flow else min flow cold) ∧
        (∀ f, x.flow = some f → f < 4096 → t.rget Fld.THM_FLOW_FLOW = f) ∧
        (x.flow = none ∨ (∃ f, x.flow = some f ∧ 4000 < f) → t.thm.flowFaulted = true ∧
          (s.thm.flowFaulted = false → t.rget Fld.THM_FAULT_FLOW_SENSOR = 1)) ∧
        (∀ f, x.flow = some f → 2000 < f → f ≤ 4000 → s.thm.flowFaulted = false → t.rget Fld.THM_FAULT_FLOW_HIGH = 1) ∧
        ((800 < x.inlet ∧ 7999 ≤ s.thm.inletHot) ∨ (∃ f, x.flow = some f ∧ f < 250 ∧ s.thm.flowFaulted = false ∧
            799 ≤ s.thm.lowReadings) → t.thm.stopped = true ∧ limit = 1 ∧ point = 0 ∧ t.rget Fld.THM_STATUS_COOLANT = 4 ∧
          (s.thm.stopped = false → t.rget Fld.THM_FAULT_STOP = 1))) ∧
      (s.variant = .a → t.rget Fld.THM_STATUS_COOLANT = 5 ∧ (1440 < air → t.rget Fld.THM_FAULT_INLET = 1) ∧
        (let cap := if air ≤ 1120 then 0 else if air ≤ 1440 then 220000 - 250 * (air - 1120).toNat else 140000
         t.rget Fld.THM_CAP_MW = if t.thm.airLost = false then cap else if cap = 0 then 140000 else min cap 140000) ∧
        (t.thm.airLost = true → s.thm.airLost = false → t.rget Fld.THM_FAULT_AIRFLOW = 1)))

/-- Coolant and air (R446, R448, R449, R451): the flow bands with their hysteresis and caps, the sudden stop by ten low averages or a
climbing outlet, and the clears. -/
def Obligations.CoolantAndAirflow : Prop :=
  ∀ s : State,
    let c := s.thm
    let capOf := fun (band : Nat) (t : State) =>
      let flow := listAt 0 [0, 400000, 320000, 240000] band
      t.rget Fld.THM_CAP_MW = if flow = 0 then c.inletCap else if c.inletCap = 0 then flow else min flow c.inletCap
    let mw := s.rget Fld.PWR_POWER_MW
    let climbs := ∃ o e, c.windowOutlet = some o ∧ c.outlet = some e ∧ 48 < (e - o) * 10 ∧
      (max c.windowPower mw - min c.windowPower mw) * 10 < c.windowPower
    let stops := fun (t : State) => t.thm.stopped = true ∧ t.rget Fld.THM_STATUS_LIMIT = 1 ∧ t.rget Fld.THM_STATUS_POINT = 0 ∧
      t.rget Fld.THM_FAULT_STOP = 1 ∧ t.rget Fld.THM_STATUS_COOLANT = 4 ∧ t.Raised Code.OK ∧
      t.thm.stopUsed = (c.spots.take 16).map (·.used)
    (s.variant = .a ∨ s.boot.down = true → Completes .flowAverage s fun t => t = s) ∧
    (s.variant = .w → s.boot.down = false → c.flowCount = 0 → c.inletCap < 2 ^ 19 → Completes .flowAverage s fun t =>
      t.mem = s.mem ∧ t.thm.band = c.band ∧ t.thm.spots = c.spots ∧ t.thm.windowOutlet = c.outlet ∧ capOf c.band t ∧
      (climbs ∨ 10 ≤ c.lowAverages → c.stopped = false → stops t) ∧
      (¬ climbs → c.lowAverages < 10 → t.thm.stopped = c.stopped ∧ t.thm.stopUsed = c.stopUsed)) ∧
    (s.variant = .w → s.boot.down = false → c.flowCount ≠ 0 → c.inletCap < 2 ^ 19 → Completes .flowAverage s fun t =>
      let bandAt := fun (raised : Nat) => if (800 + raised) * c.flowCount ≤ c.flowSum then 0
        else if (650 + raised) * c.flowCount ≤ c.flowSum then 1 else if (500 + raised) * c.flowCount ≤ c.flowSum then 2 else 3
      let b := bandAt 0
      let r := bandAt 50
      t.mem = s.mem ∧ t.thm.flowSum = 0 ∧ t.thm.flowCount = 0 ∧ t.thm.spots = c.spots ∧ capOf t.thm.band t ∧
      (c.band < b → c.lowerRun < 9 → t.thm.band = c.band ∧ t.thm.lowerRun = c.lowerRun + 1) ∧
      (c.band < b → 9 ≤ c.lowerRun → t.thm.band = min c.lowerBand b) ∧
      (b ≤ c.band → r < c.band → c.higherRun < 99 → t.thm.band = c.band ∧ t.thm.higherRun = c.higherRun + 1 ∧ t.thm.lowerRun = 0) ∧
      (b ≤ c.band → r < c.band → 99 ≤ c.higherRun → t.thm.band = max c.higherBand r) ∧
      (b ≤ c.band → c.band ≤ r → t.thm.band = c.band ∧ t.thm.higherRun = 0 ∧ t.thm.lowerRun = 0) ∧
      (t.thm.band ≠ c.band → t.Raised Code.OK ∧ (0 < t.thm.band → t.rget Fld.THM_FAULT_FLOW_LOW = 1)) ∧
      (let low := c.flowSum < 250 * c.flowCount
       t.thm.lowAverages = (if low then c.lowAverages + 1 else 0) ∧
       (climbs ∨ (low ∧ 9 ≤ c.lowAverages) → c.stopped = false → stops t) ∧
       (¬ climbs → ¬ (low ∧ 9 ≤ c.lowAverages) → t.thm.stopped = c.stopped ∧ t.thm.stopUsed = c.stopUsed))) ∧
    (c.stopped = false → Completes .suddenStopWatchEnd s (fun t => t = s) ∧ Completes .suddenStopClear s (fun t => t = s)) ∧
    (c.stopped = true → Completes .suddenStopWatchEnd s fun t => t = { s with thm := { c with watchEnded := true } }) ∧
    (c.stopped = true → s.variant = .w → s.boot.down = false → c.band < 8 → Completes .suddenStopClear s fun t =>
      t = { s with regs := t.regs, thm := { c with stopped := false, stopUsed := [], watchEnded := false, lowReadings := 0,
                                                   lowAverages := 0 } } ∧
      t.rget Fld.THM_STATUS_COOLANT = c.band ∧ s.RegsBut t [(Fld.THM_STATUS_COOLANT, 0)]) ∧
    (c.airLost = false ∨ s.boot.down = true → Completes .airflowClear s fun t => t = s) ∧
    (c.airLost = true → s.boot.down = false → s.variant = .a → c.inletCap < 2 ^ 19 → Completes .airflowClear s fun t =>
      t.thm.airLost = false ∧ t.rget Fld.THM_FAULT_AIRFLOW = 0 ∧ t.rget Fld.THM_CAP_MW = c.inletCap ∧ t.mem = s.mem ∧
      t.thm.spots = c.spots)

/-- The front-end pair (R335, R336): beats are counted and watched; a front end that shows no beat for 1 ms, or an internal error, is
held in reset and its paths on ports 2 to 5 pass to the other, which gives them back after 1 s of clean health. -/
def Obligations.FrontEndPair : Prop :=
  ∀ s : State,
    let live := fun (x : Side) => (s.fe x).state = .up ∨ (s.fe x).state = .clean
    let named := fun (n k : Nat) (f : Path → Prop) => ∀ e ∈ s.net.sessions, e.2.number = n → ∀ q ∈ e.2.paths, q.number = k → f q
    let restarts := fun (t : State) (x : Side) =>
      (t.fe x).state = .starting ∧ (t.fe x).beat = (s.fe x).beat ∧ t.rget (if x = .a then Fld.NET_FAULT_FE_A else Fld.NET_FAULT_FE_B) = 1 ∧
      t.rget (if x = .a then Fld.NET_FE_A else Fld.NET_FE_B) = 1 ∧ (12, if x = .a then 0 else 1) ∈ t.boot.due ∧
      (∀ b, s.srv.batch = some b → (b.runs.any fun r => !r.deliveries.isEmpty) = true → t.srv.batch = none ∧ ∀ u ∈ b.units, u ∈ t.srv.affected) ∧
      ∀ n k p, s.pathOf n k = some p → ∃ q, t.pathOf n k = some q ∧ q.port = p.port ∧ q.peer = p.peer ∧
        (live (otherSide x) → named n k (fun q => q.fe = x ∧ 2 ≤ q.port) → q.fe = otherSide x ∧ q.down = false) ∧
        (named n k (fun q => q.fe = x ∧ q.port < 2) → q.fe = x ∧ q.down = true) ∧
        (named n k (fun q => q.fe = otherSide x) → q.fe = p.fe ∧ q.down = p.down ∧ q.txEpoch = p.txEpoch)
    (∀ x, live x → Completes (.frontEndInternalError x) s fun t => restarts t x ∧ t.fe (otherSide x) = s.fe (otherSide x)) ∧
    (∀ x, ¬ live x → Completes (.frontEndInternalError x) s (fun t => t = s) ∧ Completes (.frontEndBeatAdvance x) s fun t => t = s) ∧
    (∀ x, live x → Completes (.frontEndBeatAdvance x) s fun t => t = { s with cont := t.cont, regs := t.regs } ∧
      t.fe x = { s.fe x with beat := ((s.fe x).beat + 1) % 2 ^ 32 } ∧ t.fe (otherSide x) = s.fe (otherSide x)) ∧
    (s.cont.acting = false → Completes .beatWatch s fun t => t = s) ∧
    (s.cont.acting = true → Completes .beatWatch s fun t => ∀ x,
      (¬ live x → t.fe x = s.fe x) ∧
      (live x → (s.fe x).beat ≠ (s.fe x).seen → t.fe x = { s.fe x with seen := (s.fe x).beat, still := 0 }) ∧
      (live x → (s.fe x).beat = (s.fe x).seen → (s.fe x).still < 750 → t.fe x = { s.fe x with still := (s.fe x).still + 250 }) ∧
      (live x → (s.fe x).beat = (s.fe x).seen → 750 ≤ (s.fe x).still → (t.fe x).state = .starting ∧
        t.rget (if x = .a then Fld.NET_FAULT_FE_A else Fld.NET_FAULT_FE_B) = 1)) ∧
    ((s.fe .a).state ≠ .clean → (s.fe .b).state ≠ .clean → Completes .frontEndReturn s fun t => t = s) ∧
    Completes .frontEndReturn s fun t => t.mem = s.mem ∧ t.srv = s.srv ∧ ∀ x,
      ((s.fe x).state ≠ .clean → t.fe x = s.fe x) ∧
      ((s.fe x).state = .clean → t.fe x = { s.fe x with state := .up, seen := (s.fe x).beat, still := 0 } ∧
        ∀ n k p, s.pathOf n k = some p → named n k (fun q => q.home = x) →
          ∃ q, t.pathOf n k = some q ∧ q.fe = x ∧ q.down = false ∧ q.port = p.port ∧ q.home = x)

/-- The supervisor pair (R321, R337, R338, R340, R342, R343, R346, R350): the lease, its renewals, claims and release, checkpoints, the
takeover, the hand-over, and the replay of affected work. -/
def Obligations.SupervisorsAndReplay : Prop :=
  ∀ s : State,
    let epoch := s.rget Fld.CONT_LEASE_EPOCH
    let other := otherSide s.active
    let checkpointed := fun (t : State) =>
      let c : ContState := s.cont
      let counters := s.net.sessions.map fun x => (x.1, x.2.counter)
      let d := sha384 (s.checkpointBytes (c.nextIndex - 1))
      t.cont.checkpoints = c.checkpoints.set c.nextCheckpoint (some ⟨c.nextIndex - 1, counters, d⟩) ∧
      t.cont.journal <:+ c.journal ++ [s.record 0 0 (.checkpoint c.nextCheckpoint d (c.nextIndex - 1))] ∧
      t.cont.nextCheckpoint = 1 - c.nextCheckpoint ∧ t.cont.nextIndex = c.nextIndex + 1 ∧ t.srv = s.srv ∧ t.regs = s.regs ∧
      t.mem = { s.mem with descCopy := s.mem.descs.map fun x => (x.1, x.2.bytes) } ∧ t.net = { s.net with copies := t.net.copies }
    let restarted := fun (t : State) => ∀ k ∈ s.srv.loads, (s.slot k).state = .loading → 2 ≤ (s.slot k).step →
      (t.slot k).state = .empty ∧ (t.slot k).step = 1
    let released := fun (t : State) => t.cont.released = true ∧ t.cont.acting = false ∧ t.cont.returnAsked = false
    let claims := fun (t : State) =>
      t.rget Fld.CONT_LEASE_EPOCH = (epoch + 1) % 2 ^ 32 ∧ t.active = other ∧ t.cont.claimed = some ((epoch + 1) % 2 ^ 32) ∧
      t.cont.byRelease = s.cont.released ∧ t.cont.acting = false ∧ t.cont.released = false ∧ t.sup other = .holder ∧
      (∃ r, t.cont.journal = s.cont.journal ++ [r] ∧ r.index = s.cont.nextIndex ∧ r.epoch = (epoch + 1) % 2 ^ 32 ∧
        r.body = .lease ((epoch + 1) % 2 ^ 32)) ∧ t.srv = s.srv ∧ t.net = s.net ∧ t.mem = s.mem
    let handsOver := fun (i : Instr) =>
      (s.sup other ≠ .standby → Completes i s fun t => t = s) ∧
      (s.sup other = .standby → s.holderActs = true → Completes i s fun t => checkpointed t ∧ released t) ∧
      (s.sup other = .standby → s.holderActs = false → Completes i s fun t => t = { s with cont := { s.cont with returnAsked := true } })
    (s.holderActs = false → Completes .checkpoint s fun t => t = s) ∧
    (s.holderActs = true → Completes .checkpoint s fun t => checkpointed t ∧ (s.cont.returnAsked = true → released t) ∧
      (s.cont.returnAsked = false → t.cont.released = s.cont.released ∧ t.cont.acting = s.cont.acting)) ∧
    (s.sup other = .holder → Completes .leaseRenewal s fun t => t.sup other = .testing ∧
      t.srv = { s.srv with loadsLost := t.srv.loadsLost } ∧ t.net = s.net ∧
      (13, if other = .a then 0 else 1) ∈ t.boot.due ∧ t.rget Fld.CONT_RENEWALS_COUNT = s.rget Fld.CONT_RENEWALS_COUNT) ∧
    (s.sup other ≠ .holder → (s.sup s.active ≠ .holder ∨ s.cont.released = true ∨ s.boot.down = true) →
      Completes .leaseRenewal s fun t => t = s) ∧
    (s.sup other ≠ .holder → s.sup s.active = .holder → s.cont.released = false → s.boot.down = false →
      Completes .leaseRenewal s fun t =>
        t = { s with regs := t.regs, cont := { s.cont with acting := s.cont.claimed.isNone } } ∧
        t.rget Fld.CONT_RENEWALS_COUNT = (s.rget Fld.CONT_RENEWALS_COUNT + 1) % 2 ^ 32 ∧ s.RegsBut t [(Fld.CONT_RENEWALS_COUNT, 0)]) ∧
    Completes .leaseHoldLimit s (fun t => t = { s with cont := { s.cont with acting := false } }) ∧
    (s.sup other ≠ .standby ∨ s.boot.down = true → Completes .standbyLeasePoll s fun t => t = s) ∧
    (s.sup other = .standby → s.boot.down = false →
      let n := s.rget Fld.CONT_RENEWALS_COUNT
      (s.cont.released = true → Completes .standbyLeasePoll s claims) ∧
      (s.cont.released = false → n ≠ s.cont.standbyCount → Completes .standbyLeasePoll s fun t =>
        t = { s with cont := { s.cont with standbyCount := n, standbyPolls := 0 }, boot := { s.boot with testStopped := false } }) ∧
      (s.cont.released = false → n = s.cont.standbyCount → s.cont.standbyPolls < 69 → Completes .standbyLeasePoll s fun t =>
        t = { s with cont := { s.cont with standbyPolls := s.cont.standbyPolls + 1 } }) ∧
      (s.cont.released = false → n = s.cont.standbyCount → 69 ≤ s.cont.standbyPolls → Completes .standbyLeasePoll s claims)) ∧
    (s.cont.claimed = none ∨ s.boot.down = true → Completes .takeover s fun t => t = s) ∧
    (s.cont.claimed ≠ none → s.boot.down = false → Completes .takeover s fun t =>
      t.cont.claimed = none ∧ t.cont.acting = true ∧ t.cont.journal = s.cont.journal ∧ t.srv.queue = s.srv.queue ∧
      t.srv.requests = s.srv.requests ∧ restarted t ∧
      (s.cont.byRelease = true → t.net = s.net ∧ t.rget Fld.CONT_TAKEOVERS_COUNT = s.rget Fld.CONT_TAKEOVERS_COUNT) ∧
      (s.cont.byRelease = false → s.CountedUp t Fld.CONT_TAKEOVERS_COUNT 1 ∧ t.rget Fld.CONT_FAULT_TAKEOVER = 1 ∧
        ∀ n x, s.session n = some x → ∃ k, t.session n = some { x with counter := k } ∧ x.counter ≤ k ∧ 2 ^ 20 ≤ k ∧
          (s.newestCheckpoint = none → ∀ r ∈ s.cont.journal, r.session = n → 0 < r.index → ∀ e c, r.body = .session e c →
            c + 2 ^ 20 ≤ k))) ∧
    handsOver .handover ∧
    (s.active = s.preferred → Completes .preferredLeaseReturn s fun t => t = s) ∧
    (s.active ≠ s.preferred → handsOver .preferredLeaseReturn) ∧
    (∀ n, s.twinState = 0 ∨ s.twinState = 3 → Completes (.journalDurable n) s fun t =>
      t = { s with cont := { s.cont with journal := s.cont.journal.map fun r => if r.index = n then { r with written := true } else r } }) ∧
    ((s.srv.affected = [] ∧ s.srv.loadsLost = false) ∨ s.supActs = false ∨ s.sliceRuns 7 0 = true ∨ s.sliceRuns 9 0 = true →
      Completes .replay s fun t => t = s) ∧
    (s.srv.affected = [] → s.srv.loadsLost = true → s.supActs = true → s.sliceRuns 7 0 = false → s.sliceRuns 9 0 = false →
      Completes .replay s fun t => t.srv.loadsLost = false ∧ restarted t ∧ t.srv.queue = s.srv.queue ∧ t.srv.requests = s.srv.requests ∧
        t.srv.sequences = s.srv.sequences ∧ t.cont = s.cont) ∧
    (s.srv.affected ≠ [] → s.supActs = true → s.sliceRuns 7 0 = false → s.sliceRuns 9 0 = false → Completes .replay s fun t =>
      t.srv.affected = [] ∧ t.srv.loadsLost = false ∧ t.Raised Code.F_REPLAYED ∧ t.net = s.net ∧ t.cont = s.cont ∧
      (s.srv.loadsLost = true → restarted t) ∧
      (∀ u r, s.srv.affected = [u] → u.kind = .pass → s.request u.row = some r → r.row = u.row →
        t.srv.queue = s.srv.queue ++ [u] ∧ t.request u.row = some { r with started := false, flags := 0, isEmpty := false, delivered := [] } ∧
        s.CountedUp t Fld.CONT_REPLAYS_COUNT 1) ∧
      (∀ u x, s.srv.affected = [u] → u.kind ≠ .pass → s.seq u.seq = some x → x.phase ≠ .stopped →
        s.CountedUp t Fld.CONT_REPLAYS_COUNT 1 ∧ t.srv.queue = s.srv.queue.filter (fun v => v.seq != u.seq || v.kind == .pass) ∧
        t.seq u.seq = some (if x.phase = .recorded ∧ (s.durable x.stepRecord = true ∨ x.stop.isSome = true) then { x with lost := true } else
          { x with phase := .preempted, done := 0, committed := 0, shared := 0, sampled := [], path := [], stepTokens := [],
                   allowance := x.allowance + x.stepTokens.length * (s.slot x.slot).tokenCost })))

/-- Mirroring between twins (R352, R353, R355): records, acknowledgements, fetches and fetched messages, the loss of a twin, and the join
of a new one (what the manual leaves to this model of them: log entry 29). -/
def Obligations.MirroringBetweenTwins : Prop :=
  ∀ (s : State) (m : Msg) (x : Session),
    let n := m.session
    let p := m.payload
    let twin := s.twinState
    let c := s.cont
    let mirror := fun (op : Nat) => s.supActs = true ∧ s.Hears m x 0x0500 p.length ∧ 32 ≤ p.length ∧ u8 p 0 = op ∧ u8 p 1 = 0 ∧
      (op < 3 → allZero p 24 8 = true)
    let twins := s.fromPair x = true
    let opened := fun (l : List JRecord) => u64 p 16 ≤ c.config.epoch ∨ (l.any fun r => match r.body with
      | .config e _ => e == u64 p 16
      | _ => false) = true
    let heard := fun (t : State) => s.Session1 t n (Heard x m)
    (∀ l, (u16 p 2 ≠ l.length ∨ p.drop 32 ≠ (l.map recordBytes).flatten) → Completes (.mirrorRecords m l) s fun t => t = s) ∧
    (∀ l, u16 p 2 = l.length → p.drop 32 = (l.map recordBytes).flatten → mirror 1 →
      (¬ twins ∨ (twin ≠ 2 ∧ twin ≠ 4) ∨ ¬ opened l → Completes (.mirrorRecords m l) s fun t => s.Refuses t m x 0x0500 Code.B_RETRY) ∧
      (∀ r, l = [r] → twins → opened l → twin = 2 → c.twin.applied < r.index → (∀ q ∈ c.journal, q.index ≠ r.index) → r.session ≠ n →
        let grown := fun (t : State) => t.cont.twin.applied = r.index ∧ t.cont.nextIndex = max c.nextIndex (r.index + 1) ∧
          t.cont.journal = c.journal ++ [{ r with origin := r.origin % 128 + 128, written := false }] ∧
          ∃ y, t.session n = some y ∧ y.rxConsumed = (Heard x m).rxConsumed
        (recType r.body = 1 → Completes (.mirrorRecords m l) s fun t =>
          grown t ∧ t.cont.twin.wanting = c.twin.wanting ++ [r] ∧ t.srv = s.srv ∧ t.mem = s.mem) ∧
        (∀ cu b g o, r.session = 0 → r.body = .budget cu b g o → Completes (.mirrorRecords m l) s fun t =>
          grown t ∧ t.account cu = { s.account cu with balance := b, grant := g, isOpen := o } ∧ t.mem = s.mem ∧
          ∀ k, k ≠ cu → t.account k = s.account k) ∧
        (∀ e, r.body = .lease e → Completes (.mirrorRecords m l) s fun t =>
          grown t ∧ t.cont.twin.wanting = c.twin.wanting ∧ t.srv = s.srv ∧ t.mem = s.mem))) ∧
    (mirror 2 → twins →
      (twin ≠ 1 → Completes (.mirrorAck m) s fun t => heard t ∧ t = { s with net := t.net }) ∧
      (twin = 1 → Completes (.mirrorAck m) s fun t => heard t ∧ t = { s with net := t.net, cont := t.cont } ∧
        t.cont.twinAck = max c.twinAck (min (u64 p 8) (c.nextIndex - 1)) ∧
        (c.twin.joining = true → c.twin.mirrored ≤ u64 p 8 → t.cont.twinHealthy = true ∧ t.cont.twin.joining = false) ∧
        (c.twin.joining = false ∨ u64 p 8 < c.twin.mirrored → t.cont.twinHealthy = c.twinHealthy ∧ t.cont.twin = c.twin))) ∧
    (mirror 3 → twins →
      let k := u64 p 8 % 2 ^ 32
      (s.heldCopy k (u64 p 24) = none → Completes (.mirrorFetch m) s fun t => heard t ∧ t = { s with net := t.net }) ∧
      (∀ d y, s.heldCopy k (u64 p 24) = some d → s.session k = some y → s.twinSession = some n → Completes (.mirrorFetch m) s fun t =>
        t = { s with net := t.net } ∧ s.Session1 t n (Heard (Wrote x 0x0500 (s.mirrorPayload 4 0 k d.number
          (partnerHeader y ⟨d.session, d.number, d.tag, d.payload⟩ d.type ++ d.payload))) m))) ∧
    (mirror 4 → twins →
      let b := p.drop 32
      let k := u32 b 8
      let d : Delivered := { session := k, type := u16 b 4, number := u64 b 16, tag := u32 b 24, payload := b.drop 32 }
      (s.session k = none → Completes (.mirrorFetchedMessage m) s fun t => heard t ∧ t = { s with net := t.net }) ∧
      (∀ y, s.session k = some y → k % 16384 ≠ n % 16384 →
        (d.number < y.nextDeliver → Completes (.mirrorFetchedMessage m) s fun t => heard t ∧ t = { s with net := t.net }) ∧
        (d.number = y.nextDeliver → Dict.fetch y.ahead d.number = none → Completes (.mirrorFetchedMessage m) s fun t =>
          t = { s with net := t.net } ∧ t.session n = some (Heard x m) ∧ d ∈ t.net.inbox))) ∧
    (s.supActs = false ∨ (twin ≠ 2 ∧ twin ≠ 4) ∨ c.twin.wanting = [] → Completes .followerFetchTimer s fun t => t = s) ∧
    (∀ r y, s.supActs = true → (twin = 2 ∨ twin = 4) → c.twin.wanting = [r] → s.net.inbox = [] →
      recType r.body = 1 → s.session r.session = some y → s.session n = some x → s.twinSession = some n →
      Completes .followerFetchTimer s fun t => t = { s with net := t.net } ∧
        s.Session1 t n (Wrote x 0x0500 (s.mirrorPayload 3 0 r.session y.nextDeliver []))) ∧
    (twin ≠ 1 ∨ c.twinHealthy = false ∨ s.supActs = false → Completes .mirrorAckTimeout s fun t => t = s) ∧
    (twin = 1 → c.twinHealthy = true → s.supActs = true → Completes .mirrorAckTimeout s fun t =>
      t = { s with regs := t.regs, cont := { c with twinHealthy := false, twin := { c.twin with lost := true, joining := false } } } ∧
      t.rget Fld.CONT_FAULT_TWIN_LOST = 1 ∧ t.rget Fld.CONT_STATUS_TWIN = 3 ∧ s.CountedUp t Fld.CONT_TWIN_LOSSES_COUNT 1) ∧
    (s.supActs = false ∨ twin ≠ 1 ∨ c.twinHealthy = true ∨ c.twin.joining = true ∨ s.twinSession = none →
      Completes .twinJoin s fun t => t = s) ∧
    (s.supActs = true → twin = 1 → c.twinHealthy = false → c.twin.joining = false → s.session n = some x → s.twinSession = some n →
      (s.joinRecords = ([], []) → Completes .twinJoin s fun t =>
        t = { s with cont := { c with twin := { c.twin with joining := true } } }) ∧
      (∀ r, s.joinRecords = ([r], []) → Completes .twinJoin s fun t => t = { s with net := t.net, cont := { c with twin :=
          { c.twin with joining := true, mirrored := max c.twin.mirrored r.index } } } ∧
        s.Session1 t n (Wrote x 0x0500 (s.mirrorPayload 1 1 r.index 0 (recordBytes r)))))

/-- The twin lease (R343, R354): renewals, acknowledgements, release, claims, grants and refusals, and what a module does that sees another
configuration digest. -/
def Obligations.TwinLease : Prop :=
  ∀ (s : State) (m : Msg) (x : Session),
    let n := m.session
    let p := m.payload
    let twin := s.twinState
    let c := s.cont
    let epoch := s.rget Fld.CONT_TWIN_LEASE_EPOCH
    let lease := fun (op : Nat) => s.supActs = true ∧ s.Hears m x 0x0501 96 ∧ u8 p 0 = op ∧ allZero p 1 3 = true ∧ allZero p 80 16 = true
    let agrees := s.fromPair x = true ∧ (u64 p 8 = c.config.epoch → slice p 32 48 = s.configDigest)
    let heard := fun (t : State) => s.Session1 t n (Heard x m)
    let releases := fun (i : Instr) => s.session n = some x → s.twinSession = some n → Completes i s fun t =>
      t = { s with net := t.net, cont := { c with twin := { c.twin with acting := false, released := true } } } ∧
      s.Session1 t n (Wrote x 0x0501 (s.leasePayload 3 epoch c.twin.mirrored c.twin.renewals))
    let claims := fun (t : State) (k : Nat) (y : Session) (lost : Bool) =>
      let next := (epoch + 1) % 2 ^ 32
      t = { s with net := t.net, cont := { c with twin := { c.twin with claiming := some next, lost := c.twin.lost || lost } } } ∧
      t.session k = some (Wrote y 0x0501 (s.leasePayload 4 next c.twin.applied 0))
    (s.supActs = false ∨ twin ≠ 1 ∨ c.twin.released = true → Completes .twinLeaseRenew s fun t => t = s) ∧
    (s.supActs = true → twin = 1 → c.twin.released = false → s.session n = some x → s.twinSession = some n →
      s.boundAbove c.twin.mirrored = [] → Completes .twinLeaseRenew s fun t =>
        t = { s with net := t.net, cont := { c with twin := { c.twin with renewals := c.twin.renewals + 1 } } } ∧
        s.Session1 t n (Wrote x 0x0501 (s.leasePayload 1 epoch c.twin.mirrored (c.twin.renewals + 1)))) ∧
    (lease 1 → agrees →
      let e := u32 p 4
      (e < epoch ∨ (twin = 1 ∧ e = epoch) ∨ twin = 0 → Completes (.twinLeaseRenewReceived m) s fun t =>
        s.Refuses t m x 0x0501 Code.B_RETRY) ∧
      (epoch ≤ e → (twin = 1 → epoch < e) → twin ≠ 0 → s.twinSession = some n → Completes (.twinLeaseRenewReceived m) s fun t =>
        t = { s with net := t.net, regs := t.regs, cont := t.cont } ∧ t.rget Fld.CONT_TWIN_LEASE_EPOCH = e ∧
        t.twinState = (if twin = 1 then (if c.twinHealthy = true then 2 else 4) else if twin = 3 then 4 else twin) ∧
        t.cont.twin.claiming = none ∧ t.cont.twin.lost = false ∧ t.cont.twin.applied = c.twin.applied ∧ t.cont.journal = c.journal ∧
        s.Session1 t n (Heard (Wrote x 0x0501 (s.leasePayload 2 e s.heldDurable (u64 p 24))) m))) ∧
    (lease 1 → s.fromPair x = true → u64 p 8 = c.config.epoch → slice p 32 48 ≠ s.configDigest →
      Completes (.twinLeaseRenewReceived m) s fun t => s.Answers t m x 0x0501 Code.B_RETRY [] [] ∧ t.rget Fld.CONT_FAULT_CONFIG = 1 ∧
        t.rget Fld.CONT_FAULT_TWIN_LOST = 1 ∧ t.cont.twin.lost = true ∧ t.cont.twinHealthy = false ∧ (twin = 1 → t.twinState = 3)) ∧
    (lease 2 → agrees →
      (twin = 1 → c.twin.released = false → u64 p 24 = c.twin.renewals → Completes (.twinLeaseAck m) s fun t => heard t ∧
        t = { s with net := t.net, cont := { c with twin := { c.twin with acting := true } } }) ∧
      (twin ≠ 1 ∨ c.twin.released = true ∨ u64 p 24 ≠ c.twin.renewals → Completes (.twinLeaseAck m) s fun t => heard t ∧
        t = { s with net := t.net })) ∧
    (twin ≠ 1 ∨ s.supActs = false ∨ c.twin.released = true → Completes .twinLeaseHoldLimit s fun t => t = s) ∧
    (twin = 1 → s.supActs = true → c.twin.released = false → releases .twinLeaseHoldLimit) ∧
    (lease 3 → agrees →
      (twin ≠ 2 → Completes (.twinLeaseRelease m) s fun t => heard t ∧ t = { s with net := t.net }) ∧
      (twin = 2 → u32 p 4 < epoch → Completes (.twinLeaseRelease m) s fun t => s.Refuses t m x 0x0501 Code.B_RETRY) ∧
      (∀ k y, twin = 2 → epoch ≤ u32 p 4 → s.sessionsOfRole (· == 4) = [k] → s.session k = some y → k % 16384 ≠ n % 16384 →
        Completes (.twinLeaseRelease m) s fun t => claims t k y false ∧ t.session n = some (Heard x m))) ∧
    (twin ≠ 2 ∨ s.supActs = false → Completes .twinLeaseExpiry s fun t => t = s) ∧
    (∀ k y, twin = 2 → s.supActs = true → s.sessionsOfRole (· == 4) = [k] → s.session k = some y →
      Completes .twinLeaseExpiry s fun t => claims t k y true) ∧
    (s.supActs = true → s.session n = some x → x.closing = false → x.role = 4 → p.length = 96 → allZero p 1 3 = true →
        allZero p 80 16 = true →
      (u8 p 0 = 5 →
        let e := u32 p 4
        (c.twin.claiming ≠ some e ∨ twin ≠ 2 → Completes (.twinLeaseGrant m) s fun t => heard t ∧ t = { s with net := t.net }) ∧
        (c.twin.claiming = some e → twin = 2 → Completes (.twinLeaseGrant m) s fun t =>
          t = { s with net := t.net, regs := t.regs, cont := t.cont } ∧ t.rget Fld.CONT_TWIN_LEASE_EPOCH = e ∧
          t.cont.twin.claiming = none ∧ t.cont.twinAck = c.twin.applied ∧ t.cont.journal = c.journal ∧
          t.cont.twinHealthy = !c.twin.lost ∧ t.twinState = (if c.twin.lost = true then 3 else 1) ∧
          (c.twin.lost = true → t.rget Fld.CONT_FAULT_TWIN_LOST = 1 ∧ s.CountedUp t Fld.CONT_TWIN_LOSSES_COUNT 1) ∧
          ∀ k y, s.session k = some y → k % 16384 ≠ n % 16384 → ∃ w, t.session k = some { y with counter := w } ∧ y.counter ≤ w ∧
            (y.wantsProtected = true → 2 ^ 32 ≤ w))) ∧
      (u8 p 0 = 6 → Completes (.twinLeaseRefuse m) s fun t => heard t ∧
        t = { s with net := t.net, cont := { c with twin := { c.twin with claiming := none } } })) ∧
    (∀ k t, s.mySlot = some k → s.twinSlot = some t → twin = 1 → c.twinHealthy = true → s.supActs = true → t < k →
      c.twin.released = false → releases .preferredTwinLeaseReturn) ∧
    (twin ≠ 1 ∨ c.twinHealthy = false ∨ s.supActs = false ∨ s.twinSlot = none ∨ c.twin.released = true ∨
        (∃ k t, s.mySlot = some k ∧ s.twinSlot = some t ∧ k ≤ t) → Completes .preferredTwinLeaseReturn s fun t => t = s)

/-- Configuration and heartbeat (R360 to R363): a staged payload is checked and kept, an activation takes effect at a batch boundary after its
CONFIG record, and the heartbeat goes to the rack controller. -/
def Obligations.ConfigurationAndHeartbeat : Prop :=
  ∀ (s : State) (m : Msg) (x : Session),
    let n := m.session
    let p := m.payload
    let c := s.cont
    (s.mayActFor n = true → s.Hears m x 0x0410 p.length →
      let e := u64 p 0
      let count := u16 p 8
      let reserved := allZero p 10 6 = true ∧ allZero p 48 16 = true
      let pairs := ∀ k, k < 32 → u8 p (16 + k) = 255 ∨ (u8 p (16 + k) < 32 ∧ u8 p (16 + k) ≠ k ∧ u8 p (16 + u8 p (16 + k)) = k ∧
        slice p (64 + 48 * k) 48 ≠ zeroBytes 48)
      let writes := (List.range count).map fun i =>
        (⟨u32 p (1600 + 8 * i), 0xFFFFFFFF, BitVec.ofNat 32 (u32 p (1604 + 8 * i))⟩ : RegWrite)
      (p.length < 1600 ∨ p.length ≠ 1600 + 8 * count → Completes (.configStage m) s fun t => s.Refuses t m x 0x0410 Code.E_INPUT_SIZE) ∧
      (1600 ≤ p.length → p.length = 1600 + 8 * count →
        (¬ reserved → Completes (.configStage m) s fun t => s.Refuses t m x 0x0410 Code.E_RESERVED) ∧
        (reserved → (e ≤ c.config.epoch ∨ 1024 < count ∨ ¬ pairs) → Completes (.configStage m) s fun t =>
          s.Refuses t m x 0x0410 Code.E_PARAM) ∧
        (reserved → c.config.epoch < e → count ≤ 1024 → pairs →
          (∀ r, s.configWritesRefusal [] writes = some r → Completes (.configStage m) s fun t => s.Refuses t m x 0x0410 r) ∧
          (s.configWritesRefusal [] writes = none → Completes (.configStage m) s fun t =>
            t = { s with net := t.net, cont := { c with staged := t.cont.staged } } ∧
            s.Answers t m x 0x0410 Code.OK (leBytes 8 e ++ zeroBytes 8 ++ s.configDigestOf e (sha384 p)) [] ∧
            ∃ y, t.cont.staged = some y ∧ y.epoch = e ∧ y.payload = sha384 p ∧ y.writes = writes.map (fun w => (w.addr, w.value.toNat)) ∧
              y.pairs = (List.range 32).map (fun k => u8 p (16 + k)) ∧
              y.identities = (List.range 32).map fun k => slice p (64 + 48 * k) 48)))) ∧
    (s.mayActFor n = true → s.Hears m x 0x0411 32 →
      let free := s.twinState ≠ 2 ∧ s.twinState ≠ 4 ∧ s.rget Fld.FWU_STATE_STATE < 3 ∧ c.activating = none
      (allZero p 8 24 = false → Completes (.configActivate m) s fun t => s.Refuses t m x 0x0411 Code.E_RESERVED) ∧
      (allZero p 8 24 = true → (∀ y, c.staged = some y → u64 p 0 ≠ y.epoch) → Completes (.configActivate m) s fun t =>
        s.Refuses t m x 0x0411 Code.E_PARAM) ∧
      (∀ y, allZero p 8 24 = true → c.staged = some y → u64 p 0 = y.epoch →
        (¬ free → Completes (.configActivate m) s fun t => s.Refuses t m x 0x0411 Code.B_RETRY) ∧
        (free → s.srv.batch ≠ none → Completes (.configActivate m) s fun t => s.Session1 t n (Heard x m) ∧
          t = { s with net := t.net, cont := { c with activating := some ⟨n, m.number, m.tag⟩ } }) ∧
        (free → s.srv.batch = none → s.mayAct = true → y.writes = [] → s.mySlot.bind (pairOf y.pairs) = none →
          Completes (.configActivate m) s fun t => t = { s with net := t.net, regs := t.regs, cont := t.cont } ∧
            t.cont.config = { epoch := y.epoch, payload := y.payload, pairs := y.pairs, identities := y.identities } ∧
            t.cont.staged = none ∧ t.cont.activating = none ∧ t.twinState = 0 ∧
            t.cont.journal = c.journal ++ [s.record 0 0 (.config y.epoch y.payload)] ∧ t.cont.nextIndex = c.nextIndex + 1 ∧
            s.RegsBut t [(Fld.CONT_STATUS_TWIN, 0)] ∧ s.Answers t m x 0x0411 Code.OK
              (leBytes 8 y.epoch ++ zeroBytes 8 ++ s.configDigestOf y.epoch y.payload) [c.nextIndex]))) ∧
    (s.supActs = false → Completes .heartbeat s fun t => t = s) ∧
    (∀ k y, s.supActs = true → s.sessionsOfRole (· == 4) = [k] → s.session k = some y → Completes .heartbeat s fun t =>
      t = { s with net := t.net } ∧ s.Session1 t k (Wrote y 0x0412 (leBytes 8 c.config.epoch ++
        s.configDigestOf c.config.epoch c.config.payload ++ leBytes 1 (s.rget Fld.CONT_STATUS_ACTIVE +
          2 * (if s.rget Fld.CONT_STATUS_STANDBY = 1 then 1 else 0) + 4 * s.twinState + 32 * s.rget Fld.CONT_STATUS_FULL) ++
        leBytes 1 s.health ++ zeroBytes 2 ++ leBytes 4 s.boot.slowMs ++ leBytes 8 c.rackStamp ++ leBytes 8 s.durableIndex ++
        zeroBytes 16)))

/-- The tray pull (R357 to R359, R450, R474, R477, R478): pull-sense starts it, unless the pin is marked faulted; the twin lease is released
and the flush record written; an orderly halt or a power-off ends it; a pin fault or remade pins call it off. -/
def Obligations.TrayPullAndFlushRecord : Prop :=
  ∀ s : State,
    let c := s.cont
    let cart := s.mem.cart
    let writable := cart.present = true ∧ cart.powered = true ∧ cart.readOnly = false ∧ s.rget Fld.SEC_CART_STATE = 1
    let record : FlushRecord :=
      { identity := identityDigest, tenant := s.tenant, epoch := c.config.epoch, index := c.nextIndex - 1, health := s.boot.log
        accounts := s.srv.accounts.map fun (k, a) =>
          { customer := k, isOpen := a.isOpen, weight := a.weight, interval := a.interval, amount := a.amount, cap := a.cap
            quota := a.quota, balance := a.balance, grant := a.grant } }
    let pin := fun (k : Nat) => if k = 0 then Fld.SYS_J1_PS1 else Fld.SYS_J1_PS2
    let mark := fun (k : Nat) => if k = 0 then Fld.SYS_J1_PS1_FAULT else Fld.SYS_J1_PS2_FAULT
    let flushed := fun (t : State) =>
      (¬ writable → t.rget Fld.CONT_FAULT_FLUSH = 1 ∧ t.mem = s.mem ∧ t.cont.nextFlush = c.nextFlush) ∧
      (writable → t.cont.nextFlush = 1 - c.nextFlush ∧
        t.mem = { s.mem with cart := if c.nextFlush = 0 then { cart with flush0 := some record } else { cart with flush1 := some record } })
    let off := fun (t : State) (cause : Nat) => t.boot.down = true ∧ t.boot.ended = some cause ∧ t.boot.due = [] ∧
      t.net.sessions = [] ∧ t.srv.batch = none
    let calledOff := fun (t : State) => t.rget Fld.CONT_STATUS_PULL = 0 ∧ t.cont.pull = .none ∧ t.cont.quiesced = s.sec.switch.isSome ∧
      t.mem = s.mem ∧ t.srv = s.srv ∧ t.net = s.net
    (s.supActs = false ∨ c.pull = .flushed ∨ c.pull = .held → Completes .flushRecord s fun t => t = s) ∧
    (s.supActs = true → (c.pull = .none ∨ c.pull = .waitAck) → Completes .flushRecord s fun t =>
      flushed t ∧ t.srv = s.srv ∧ t.net = s.net ∧ t.boot = s.boot) ∧
    (∀ k, 2 ≤ k ∨ s.boot.down = true → Completes (.pullSenseBreak k) s fun t => t = s) ∧
    (∀ k, k < 2 → s.boot.down = false →
      (s.rget (mark k) = 1 → Completes (.pullSenseBreak k) s fun t => t = { s with regs := t.regs } ∧ t.rget (pin k) = 0 ∧
        s.RegsBut t [(pin k, 0)]) ∧
      (s.rget (mark k) = 0 → c.pull = .none → Completes (.pullSenseBreak k) s fun t =>
        t.rget (pin k) = 0 ∧ t.rget Fld.CONT_STATUS_PULL = 1 ∧ t.cont.quiesced = true ∧ t.cont.pull = .waitAck ∧
        t.cont.pullWhy = .sense ∧ t.cont.journal = c.journal ∧ t.mem = s.mem ∧ t.srv = s.srv ∧ t.boot = s.boot ∧
        (s.twinState ≠ 1 → t.net = s.net) ∧ (s.twinState = 1 → t.cont.twin.released = true ∧ t.cont.twin.acting = false) ∧
        (∀ y k, s.twinState = 1 → s.twinSession = some k → s.session k = some y → s.boundAbove c.twinAck = [] →
          s.Session1 t k (Wrote y 0x0501 (s.leasePayload 3 (s.rget Fld.CONT_TWIN_LEASE_EPOCH) c.twin.mirrored c.twin.renewals))))) ∧
    (c.pull ≠ .waitAck ∨ s.boot.down = true → Completes .pullTwinAckWait s fun t => t = s) ∧
    (c.pull = .waitAck → s.boot.down = false → Completes .pullTwinAckWait s fun t => flushed t ∧ t.cont.pull = .flushed ∧
      (c.pullWhy = .sense → t.net = s.net ∧ t.srv = s.srv ∧ t.boot = s.boot) ∧
      (c.pullWhy = .trip ∨ c.pullWhy = .suddenStop → off t 6 ∧ t.rget Fld.SYS_J1_FAULT_OUT = 1 ∧ t.rget Fld.THM_STATUS_HALTED = 1 ∧
        t.rget Fld.THM_FAULT_HALT = 1 ∧ t.rget Fld.PWR_PACE_EFFECTIVE = 1 ∧ t.hw.cause = (if c.pullWhy = .trip then 1 else 2)) ∧
      (c.pullWhy = .powerOff → off t 1 ∧ t.hw.cause = 5)) ∧
    (c.pull ≠ .flushed ∨ s.boot.down = true → Completes .holdupEnd s fun t => t = s) ∧
    (c.pull = .flushed → s.boot.down = false → Completes .holdupEnd s fun t => off t 5 ∧ t.cont.pull = .held ∧ t.mem = s.mem ∧
      t.regs = s.regs) ∧
    (s.pulling = false ∨ s.rget Fld.SYS_J1_PS1 = s.rget Fld.SYS_J1_PS2 ∨ s.hw.vinLow = true → Completes .pullPinFault s fun t => t = s) ∧
    (∀ k, k < 2 → s.pulling = true → s.hw.vinLow = false → s.rget (pin k) = 0 → s.rget (pin (1 - k)) = 1 → Completes .pullPinFault s fun t =>
      t.rget (mark k) = 1 ∧ calledOff t ∧ t.Raised Code.OK) ∧
    (s.pulling = false → Completes .pullSenseRemade s fun t => t = { s with regs := t.regs } ∧ t.rget Fld.SYS_J1_PS1 = 1 ∧
      t.rget Fld.SYS_J1_PS2 = 1 ∧ s.RegsBut t [(Fld.SYS_J1_PS1, 0), (Fld.SYS_J1_PS2, 0)]) ∧
    (s.pulling = true → Completes .pullSenseRemade s fun t => t.rget Fld.SYS_J1_PS1 = 1 ∧ t.rget Fld.SYS_J1_PS2 = 1 ∧
      t.rget Fld.CONT_FAULT_PULL = 1 ∧ calledOff t)

/-- Trust (R372, R376 to R382, R384 to R386, R389, R390, R480, R489): reports, answered at once or held for a commit; the tenant switch from its
checks to its reset; debug tokens and the tamper mark. -/
def Obligations.AttestationTenantsAndDebug : Prop :=
  ∀ (s : State) (m : Msg) (x : Session),
    let n := m.session
    let p := m.payload
    let turned := fun (i : Instr) (type : Nat) (c : Code) => Completes i s fun t => s.Refuses t m x type c
    (s.leftToTwin m = true → s.session n = some x → Completes (.attest m) s fun t =>
      s.Session1 t n (Heard x m) ∧ t = { s with net := t.net }) ∧
    (s.leftToTwin m = false → (s.mayActFor n = false ∨ s.rget Fld.SEC_TRNG_FAIL = 1 ∨ s.sec.switch.any (·.step == 6) = true) →
      Completes (.attest m) s fun t => t = s) ∧
    (s.leftToTwin m = false → s.mayActFor n = true → s.rget Fld.SEC_TRNG_FAIL = 0 → s.sec.switch.any (·.step == 6) = false →
      s.Hears m x 0x0600 64 →
      (4 ≤ u8 p 32 ∨ allZero p 33 31 = false → turned (.attest m) 0x0601 Code.E_RESERVED) ∧
      (u8 p 32 < 4 → allZero p 33 31 = true →
        (s.fwu.stopped ≠ none → Completes (.attest m) s fun t => s.Session1 t n (Heard x m) ∧
          t = { s with net := t.net, regs := t.regs, sec := { s.sec with held := s.sec.held ++ [⟨⟨n, m.number, m.tag⟩, slice p 0 32, u8 p 32⟩] } } ∧
          s.Counted t Fld.ATT_HELD_COUNT 1 ∧ s.RegsBut t [(Fld.ATT_HELD_COUNT, 0)]) ∧
        (s.fwu.stopped = none → Completes (.attest m) s fun t =>
          t = { s with net := t.net, sec := { s.sec with reports := s.sec.reports + 1 } } ∧
          s.Answers t m x 0x0601 Code.OK (s.attestReport x.salt (slice p 0 32) (u8 p 32)) []))) ∧
    (s.mayActFor n = true → s.Hears m x 0x0602 5264 →
      let busy := 3 ≤ s.rget Fld.FWU_STATE_STATE ∨ s.sec.switch ≠ none
      let formed := switchReservedOk p = true ∧ switchRangeOk p = true
      let platform := slice p 4848 97
      let tenant := slice p 5056 97
      let accepted : SwitchRun :=
        { step := 2, reply := ⟨n, m.number, m.tag⟩, number := u64 p 8
          newOwner := if u8 p 2 = 1 then some (slice p 128 48) else none
          firstOwner := if s.sec.fuses = [] then some (sha384 platform) else none
          enrolment :=
            { tenant := slice p 64 16, digest := sha384 p, isEmpty := decide (u8 p 5 = 0)
              rack := (List.range (u8 p 3)).map fun i => slice p (176 + 48 * i) 48
              cartridges := (List.range (u8 p 4)).map fun i => slice p (560 + 48 * i) 48
              entries := (List.range (u8 p 5)).map fun i =>
                let o := 752 + 64 * i
                { key := slice p o 48, role := u8 p (o + 48), lath := (u8 p (o + 49)).testBit 0, first := u16 p (o + 50)
                  last := u16 p (o + 52) } } }
      let outcome : Option Code :=
        if slice p 16 48 ≠ identityDigest then some Code.E_PARAM
        else if s.sec.fuses ≠ [] ∧ s.sec.fuses.getLast? ≠ some (sha384 platform) then some Code.E_ENROL
        else if verifies (p.take 4960) (slice p 4960 48) (slice p 5008 48) platform = false then some Code.E_SIGNATURE
        else if u64 p 8 ≤ s.sec.switchNumber then some Code.E_PARAM
        else if u8 p 5 ≠ 0 ∧ (sha384 tenant ≠ slice p 80 48 ∨
            verifies (p.take 5168) (slice p 5168 48) (slice p 5216 48) tenant = false) then some Code.E_SIGNATURE
        else if u8 p 2 = 1 ∧ 8 < s.sec.fuses.length + (if s.unowned = true then 2 else 1) then some Code.E_LOCKED
        else if s.twinSlot ≠ none then some Code.E_PARAM
        else none
      (busy → turned (.tenantSwitch m) 0x0602 Code.B_RETRY) ∧
      (¬ busy →
        (switchReservedOk p = false → turned (.tenantSwitch m) 0x0602 Code.E_RESERVED) ∧
        (switchReservedOk p = true → switchRangeOk p = false → turned (.tenantSwitch m) 0x0602 Code.E_PARAM) ∧
        (formed → Completes (.tenantSwitch m) s fun t =>
          (∀ c, outcome = some c → s.Answers t m x 0x0602 c [] [] ∧ t = { s with net := t.net, regs := t.regs } ∧
            (c = Code.E_SIGNATURE → t.rget Fld.SEC_FAULT_SIGNATURE = 1 ∧ s.RegsBut t [(Fld.SEC_FAULT_SIGNATURE, 0)]) ∧
            (c ≠ Code.E_SIGNATURE → t.regs = s.regs)) ∧
          (outcome = none →
            t.cont.quiesced = true ∧ t.srv.batch = none ∧ t.srv.queue = [] ∧ t.srv.suspended = [] ∧ t.srv.affected = [] ∧
            t.sec = { s.sec with switch := some accepted } ∧
            (s.srv.requests = [] → s.vid.contexts = [] → t.mem = s.mem ∧ s.Session1 t n (Heard x m)))))) ∧
    (s.sec.switch.any (·.step == 2) = false → Completes .tenantSwitchAcked s fun t => t = s) ∧
    (∀ r, s.sec.switch = some r → r.step = 2 → Completes .tenantSwitchAcked s fun t =>
      t = { s with sec := t.sec, mem := t.mem, net := t.net, free := t.free } ∧
      t.sec = { s.sec with fuses := (s.sec.fuses ++ r.firstOwner.toList ++ r.newOwner.toList).take 8, enrolment := some r.enrolment,
                           switchNumber := r.number, jobSalt := t.sec.jobSalt, switch := some { r with step := 6 } } ∧
      t.mem = { s.mem with cart := { s.mem.cart with flush0 := none, flush1 := none } } ∧
      s.Told t (some r.reply) 0x0602 Code.OK r.enrolment.digest []) ∧
    (s.sec.switch.any (·.step == 6) = false → s.fwu.resetDue = false → Completes .tenantSwitchReset s fun t => t = s) ∧
    (s.sec.switch.any (·.step == 6) = true → s.rget Fld.FWU_STATE_STATE < 3 → Completes .tenantSwitchReset s fun t =>
      s.Wiped t ∧ t.rget Fld.SYS_RESET_CAUSE = 2) ∧
    (s.sec.switch.any (·.step == 6) = false → s.fwu.resetDue = true → s.rget Fld.FWU_STATE_STATE < 3 →
      Completes .tenantSwitchReset s fun t => s.Wiped t ∧ t.rget Fld.SYS_RESET_CAUSE = 3) ∧
    (∀ k : List Byte,
      let good := k.length = 288 ∧ u32 k 0 = 0x47424451 ∧ (u8 k 4 = 1 ∨ u8 k 4 = 2) ∧ allZero k 5 3 = true ∧ allZero k 161 31 = true ∧
        s.emptyTenant = true ∧ u64 k 8 = s.sec.boots ∧ slice k 16 48 = identityDigest ∧
        s.sec.fuses.getLast? = some (sha384 (slice k 64 97)) ∧
        verifies (k.take 192) (slice k 192 48) (slice k 240 48) (slice k 64 97) = true
      (s.boot.step ≠ 2 ∨ s.boot.down = true → Completes (.debugToken k) s fun t => t = s) ∧
      (s.boot.step = 2 → s.boot.down = false → Completes (.debugToken k) s fun t =>
        (¬ good → t = { s with regs := t.regs } ∧ t.rget Fld.SEC_FAULT_DEBUG = 1 ∧ s.RegsBut t [(Fld.SEC_FAULT_DEBUG, 0)]) ∧
        (good → u8 k 4 = 1 → t = { s with regs := t.regs } ∧ t.rget Fld.SEC_DEBUG_LEVEL = 1 ∧ t.rget Fld.SEC_DEBUG_EVER = 1 ∧
          s.RegsBut t [(Fld.SEC_DEBUG_LEVEL, 0), (Fld.SEC_DEBUG_EVER, 0)]) ∧
        (good → u8 k 4 = 2 → t.rget Fld.SEC_DEBUG_LEVEL = 2 ∧ t.sec.keys = [] ∧ t.mem.dram = [] ∧ t.mem.banks = [] ∧
          t.boot.down = true ∧ t.sec.fuses = s.sec.fuses ∧ t.hw = s.hw))) ∧
    Completes .debugCapRemoved s fun t => t.rget Fld.SYS_J1_TAMPER = 1 ∧ s.RegsBut t [(Fld.SYS_J1_TAMPER, 0)] ∧
      t = { s with regs := t.regs, hw := { s.hw with tamper := if s.hw.tamper = 2 ^ 32 - 1 then s.hw.couplings % 2 ^ 32 else s.hw.tamper } }

/-- Firmware update (R382, R396 to R407): packages are received in blocks, checked and staged; activation, live or by reset, changes the
components in the order of R402 with a measurement commit for each; the trial confirms the update or falls back. -/
def Obligations.FirmwareUpdate : Prop :=
  ∀ (s : State) (m : Msg) (x : Session),
    let p := m.payload
    let f := s.fwu
    let state := s.rget Fld.FWU_STATE_STATE
    let speaks := fun (type len : Nat) => s.mayActFor m.session = true ∧ s.Hears m x type len ∧ ∀ q ∈ x.paths, q.port < 2
    let replies := fun (t : State) (type : Nat) (c : Code) => s.Answers t m x type c t.fwuStatus []
    let only := fun (i : Instr) (type : Nat) (c : Code) => Completes i s fun t => t = { s with net := t.net } ∧ replies t type c
    let dropped : FwuState := { f with length := 0, blockSize := 0, digest := [], blocks := [], writing := none }
    let images := (f.staged.map (·.images)).getD []
    let follows := fun (t : State) (done : List Nat) =>
      let left := [3, 4, 5, 6, 2].filter fun c => images.any (fun i => i.component == c) && !done.contains c
      (left = [] → t.rget Fld.FWU_STATE_STATE = 4 ∧ t.rget Fld.FWU_STATE_STEP = 6 ∧ t.rget Fld.FWU_STATE_RESULT = 0 ∧
        t.rget Fld.FWU_TRIAL_MS = 0 ∧ s.CountedUp t Fld.FWU_COUNTS_ACTIVATIONS 1) ∧
      (∀ c l, left = c :: l → c ≠ 2 → t.rget Fld.FWU_STATE_STATE = 3 ∧ t.fwu.stopped = some c ∧
        t.rget Fld.FWU_STATE_STEP = (if c = 3 then 1 else if c = 4 then 2 else if c = 5 then 3 else 4)) ∧
      (∀ l, left = 2 :: l → (t.rget Fld.FWU_STATE_STATE = 3 ∨ t.rget Fld.FWU_STATE_STATE = 5) ∧ t.fwu.stopped = none ∧
        t.rget Fld.FWU_STATE_STEP = 5)
    let fallsBack := fun (i : Instr) => Completes i s fun t =>
      t.rget Fld.FWU_STATE_STATE = 2 ∧ t.rget Fld.FWU_STATE_FELL_BACK = 1 ∧ t.rget Fld.FWU_STATE_STEP = 0 ∧ t.rget Fld.FWU_TRIAL_MS = 0 ∧
      t.rget Fld.FWU_FAULT_FALLBACK = 1 ∧ s.CountedUp t Fld.FWU_COUNTS_FALLBACKS 1 ∧ t.fwu.stopped = none ∧ t.fwu.committed = [] ∧
      t.fwu.staged = f.staged ∧ t.fwu.confirmed = f.confirmed ∧ t.sec.held = [] ∧ t.mem = s.mem ∧
      (f.committed = [] → t.fwu.running = f.running ∧ t.sec.meas = s.sec.meas)
    (s.mayActFor m.session = true → s.Hears m x 0x0700 64 → (∃ q ∈ x.paths, 2 ≤ q.port) → only (.fwuBegin m) 0x0700 Code.E_ROLE) ∧
    (speaks 0x0700 64 →
      let sizes := 1024 ≤ u64 p 0 ∧ u64 p 0 ≤ 67108864 ∧ u32 p 8 ∈ [65536, 131072, 262144, 524288, 1048576]
      (3 ≤ state → only (.fwuBegin m) 0x0700 Code.B_RETRY) ∧
      (state < 3 → allZero p 12 4 = false → only (.fwuBegin m) 0x0700 Code.E_RESERVED) ∧
      (state < 3 → allZero p 12 4 = true → ¬ sizes → only (.fwuBegin m) 0x0700 Code.E_PARAM) ∧
      (state < 3 → allZero p 12 4 = true → sizes → Completes (.fwuBegin m) s fun t => replies t 0x0700 Code.OK ∧
        t = { s with net := t.net, regs := t.regs, fwu := t.fwu } ∧ t.rget Fld.FWU_STATE_STATE = 1 ∧ s.RegsBut t [(Fld.FWU_STATE_STATE, 0)] ∧
        t.fwu = { dropped with length := u64 p 0, blockSize := u32 p 8, digest := slice p 16 48, staged := none })) ∧
    (speaks 0x0701 p.length →
      let off := u64 p 0
      let size := u32 p 8
      let placed := state = 1 ∧ off % f.blockSize = 0 ∧ off < f.length ∧ size = min f.blockSize (f.length - off)
      (p.length ≠ 32 + size → only (.fwuBlock m) 0x0701 Code.E_INPUT_SIZE) ∧
      (p.length = 32 + size → allZero p 12 20 = false → only (.fwuBlock m) 0x0701 Code.E_RESERVED) ∧
      (p.length = 32 + size → allZero p 12 20 = true → ¬ placed → only (.fwuBlock m) 0x0701 Code.E_PARAM) ∧
      (p.length = 32 + size → allZero p 12 20 = true → placed →
        (∀ d, Dict.fetch f.blocks off = some d → only (.fwuBlock m) 0x0701 (if d = p.drop 32 then Code.OK else Code.E_PARAM)) ∧
        (Dict.fetch f.blocks off = none →
          let g : FwuState := { f with blocks := Dict.store f.blocks off (p.drop 32) }
          let whole := (g.blocks.map (·.2)).flatten
          (g.bytesHeld ≠ f.length ∨ f.writing ≠ none → Completes (.fwuBlock m) s fun t => replies t 0x0701 Code.OK ∧
            t = { s with net := t.net, fwu := g }) ∧
          (g.bytesHeld = f.length → f.writing = none → Completes (.fwuBlock m) s fun t => replies t 0x0701 Code.OK ∧
            (∀ k, s.packageCheck whole f.digest = .ok k → t = { s with net := t.net, fwu := { g with writing := some k } }) ∧
            (∀ c w, s.packageCheck whole f.digest = .error (c, w) →
              t = { s with net := t.net, regs := t.regs, fwu := dropped } ∧ t.rget Fld.FWU_STATE_STATE = 0 ∧
              t.rget Fld.FWU_STATE_RESULT = c.toNat ∧ ∀ e, w = some e → t.rget e = 1))))) ∧
    (∀ ok, f.writing = none ∨ state ≠ 1 → Completes (.packageStaged ok) s fun t => t = s) ∧
    (∀ k, f.writing = some k → state = 1 →
      (Completes (.packageStaged true) s fun t => t = { s with regs := t.regs, fwu := { dropped with staged := some k } } ∧
        t.rget Fld.FWU_STATE_STATE = 2 ∧ t.rget Fld.FWU_STATE_RESULT = 0) ∧
      (Completes (.packageStaged false) s fun t => t = { s with regs := t.regs, fwu := dropped } ∧ t.rget Fld.FWU_STATE_STATE = 0 ∧
        t.rget Fld.FWU_STATE_RESULT = Code.F_MEM.toNat ∧ t.rget Fld.FWU_FAULT_FLASH = 1)) ∧
    (speaks 0x0703 0 → only (.fwuStatus m) 0x0703 Code.OK) ∧
    (∀ (mode : Nat) (i : Instr), (mode, i) ∈ [(1, Instr.fwuActivateLive m), (2, .fwuActivateReset m), (3, .fwuDiscard m)] →
      speaks 0x0702 64 →
      (u8 p 0 ≠ mode → 1 ≤ u8 p 0 → u8 p 0 ≤ 3 → Completes i s fun t => t = s) ∧
      ((u8 p 0 = 0 ∨ 3 < u8 p 0 ∨ (u8 p 0 = mode ∧ (allZero p 1 7 = false ∨ allZero p 56 8 = false))) → only i 0x0702 Code.E_RESERVED) ∧
      (u8 p 0 = mode → allZero p 1 7 = true → allZero p 56 8 = true →
        (f.staged = none ∨ (∃ k, f.staged = some k ∧ slice p 8 48 ≠ k.digest) ∨ s.twinSlot ≠ none → only i 0x0702 Code.E_PARAM) ∧
        (∀ k, f.staged = some k → slice p 8 48 = k.digest → s.twinSlot = none →
          (mode = 1 → (∃ g ∈ k.images, g.component = 1) → only i 0x0702 Code.E_PARAM) ∧
          (mode = 1 → (∀ g ∈ k.images, g.component ≠ 1) → (state ≠ 2 ∨ f.resetDue = true) → only i 0x0702 Code.B_RETRY) ∧
          (mode = 1 → (∀ g ∈ k.images, g.component ≠ 1) → state = 2 → f.resetDue = false → Completes i s fun t =>
            follows t [] ∧ t.fwu.committed = [] ∧ t.fwu.staged = f.staged ∧ t.mem = s.mem ∧
            ∃ y, t.session m.session = some y ∧ y.rxConsumed = (Heard x m).rxConsumed) ∧
          (mode = 2 → (state ≠ 2 ∨ f.resetDue = true) → only i 0x0702 Code.B_RETRY) ∧
          (mode = 2 → state = 2 → f.resetDue = false → Completes i s fun t => replies t 0x0702 Code.OK ∧
            t = { s with net := t.net, fwu := { f with tryOnce := true, resetDue := true } }) ∧
          (mode = 3 → state = 2 → Completes i s fun t => replies t 0x0702 Code.OK ∧ t.rget Fld.FWU_STATE_STATE = 0 ∧
            t.rget Fld.FWU_STATE_FELL_BACK = 0 ∧ t = { s with net := t.net, regs := t.regs, fwu :=
              { f with staged := none, tryOnce := false, resetDue := false } }) ∧
          (mode = 3 → (state = 3 ∨ state = 4) → Completes i s fun t => replies t 0x0702 Code.OK ∧ t.rget Fld.FWU_STATE_STATE = 5 ∧
            t.rget Fld.FWU_FAULT_FALLBACK = 1 ∧ t = { s with net := t.net, regs := t.regs }) ∧
          (mode = 3 → state < 2 ∨ 4 < state → only i 0x0702 Code.B_RETRY)))) ∧
    (f.stopped = none ∨ f.staged = none ∨ state ≠ 3 → Completes .measurementCommit s fun t => t = s) ∧
    (∀ c g, f.stopped = some c → f.staged ≠ none → state = 3 → images.find? (·.component == c) = some g → s.newImageRuns c = true →
      s.sec.held = [] → c < s.sec.meas.length → Completes .measurementCommit s fun t =>
        t.fwu.committed = f.committed ++ [c] ∧ t.fwu.running = f.running.filter (·.component != g.component) ++ [g] ∧
        t.sec.meas = s.sec.meas.set c (slice g.measurement 0 48) ∧ follows t (f.committed ++ [c]) ∧ t.mem = s.mem) ∧
    (∀ c, f.stopped = some c → s.newImageRuns c = false → Completes .measurementCommit s fun t => t = s) ∧
    (f.stopped = none ∨ state ≠ 3 → Completes .commitTimeout s fun t => t = s) ∧
    (f.stopped ≠ none → state = 3 → fallsBack .commitTimeout) ∧
    (state < 3 ∨ 5 < state → Completes .fallback s fun t => t = s) ∧ (3 ≤ state → state ≤ 5 → fallsBack .fallback) ∧
    (f.staged = none ∨ state ≠ 4 → Completes .trialExpiry s fun t => t = s) ∧
    ∀ k, f.staged = some k → state = 4 → k.security < 2 ^ 16 → Completes .trialExpiry s fun t =>
      t = { s with regs := t.regs, fwu := { f with confirmed := f.running, staged := none, committed := [], settings := t.fwu.settings } } ∧
      t.rget Fld.FWU_STATE_STATE = 0 ∧ t.rget Fld.FWU_STATE_FELL_BACK = 0 ∧
      t.rget Fld.SEC_SECVER_VERSION = max (s.rget Fld.SEC_SECVER_VERSION) k.security ∧ t.fwu.settings.isSome = true

/-- Start-up, self-test and health (R414, R453 to R466, R468, R472 to R475, R482): the power pins, the ten steps of start-up, the end of a
slice and what it does to its block, run-time pieces, raw slices and the health report. -/
def Obligations.StartUpAndSelfTest : Prop :=
  ∀ s : State,
    let b := s.boot
    let regsOnly := fun (t : State) (l : List Field) => t = { s with regs := t.regs } ∧ s.RegsBut t (l.map fun f => (f, 0))
    let ended := fun (t : State) (cause : Nat) => t.boot.down = true ∧ t.boot.step = 0 ∧ t.boot.due = [] ∧ t.boot.ended = some cause ∧
      t.net.sessions = [] ∧ t.net.inbox = [] ∧ t.srv.batch = none ∧ t.mem = s.mem
    let begun := fun (t : State) (k : Nat) (due : List (Nat × Nat)) => t.boot.step = k ∧ t.boot.due = due ∧
      (due ≠ [] → t.rget Fld.BIST_STATUS_BUSY = 1)
    (∀ slots parity leader, slots < 32 → Completes (.auxRise slots parity leader) s fun t =>
      let ones := ((List.range 5).filter fun i => slots.testBit i).length + (if parity then 1 else 0)
      ended t 0 ∧ t.rget Fld.SYS_STRAPS_PARITY_OK = ones % 2 ∧ t.rget Fld.SYS_STRAPS_SLOT = (if ones % 2 = 1 then slots else 255) ∧
      t.rget Fld.SYS_STRAPS_LEADER = (if leader then 1 else 0) ∧ t.rget Fld.SYS_PANEL_IDENTIFY = 0 ∧ t.hw.startCap = 0 ∧ t.hw.cause = 0 ∧
      (s.variant = .a → t.hw.couplings = s.hw.couplings) ∧
      (s.variant = .w → t.hw.couplings = s.hw.couplings + 1 ∧ t.rget Fld.SYS_COUPLING_CYCLES = min (s.hw.couplings + 1) 65535 ∧
        t.rget Fld.SYS_COUPLING_WORN = (if 200 ≤ s.hw.couplings + 1 then 1 else 0) ∧
        (s.hw.couplings + 1 = 180 ∨ s.hw.couplings + 1 = 200 → t.hw.wearEvent = true))) ∧
    (s.hw.status.getLsbD 3 = true → (s.hw.inputVolts < 400 ∨ 600 < s.hw.inputVolts) → Completes .powerEnableRise s fun t =>
      regsOnly t [Fld.SYS_J1_PWR_EN] ∧ t.rget Fld.SYS_J1_PWR_EN = 1) ∧
    ((s.hw.status.getLsbD 3 = false ∨ (400 ≤ s.hw.inputVolts ∧ s.hw.inputVolts ≤ 600)) → Completes .powerEnableRise s fun t => t.boot.step = 1 ∧
      t.boot.due = [] ∧ t.boot.down = false ∧ t.net = {} ∧ t.srv = {} ∧
      t.mem = { cart := { s.mem.cart with powered := false, spill := [] } } ∧ t.sec.boots = s.sec.boots + 1 ∧ t.sec.keys = [] ∧
      t.sec.enrolment = s.sec.enrolment ∧ t.rget Fld.SYS_J1_PWR_EN = 1 ∧ t.rget Fld.SEC_DEBUG_EVER = 0 ∧
      (s.rget Fld.FWU_STATE_STATE < 3 → t.rget Fld.SYS_RESET_CAUSE = b.ended.getD 1 % 16)) ∧
    (b.down = true → Completes .powerEnableFall s fun t => regsOnly t [Fld.SYS_J1_PWR_EN] ∧ t.rget Fld.SYS_J1_PWR_EN = 0) ∧
    (b.down = false → b.step = 11 → s.cont.pull = .none → Completes .powerEnableFall s fun t => t.rget Fld.SYS_J1_PWR_EN = 0 ∧
      t.cont.pull = .waitAck ∧ t.cont.pullWhy = .powerOff ∧ t.cont.quiesced = true ∧ t.boot = b ∧ t.mem = s.mem) ∧
    (b.down = false → b.step ≠ 11 → Completes .powerEnableFall s fun t => ended t 1 ∧ t.rget Fld.SYS_J1_PWR_EN = 0) ∧
    (b.down = true ∨ b.due ≠ [] ∨ b.step = 0 ∨ 10 < b.step → Completes .powerUpStepDone s fun t => t = s) ∧
    (b.down = false → b.due = [] →
      (b.step = 1 → Completes .powerUpStepDone s fun t => begun t 2 [] ∧ t.rget Fld.SYS_HOLDUP_CHARGING = 1 ∧ t.mem = s.mem) ∧
      (b.step = 2 → Completes .powerUpStepDone s fun t => begun t 3 [(0, 0), (1, 0), (2, 0), (3, 0)] ∧
        t.rget Fld.BANK_CLEARED_DONE = 1 ∧ t.sec.meas = s.sec.meas.set 0 (slice Config.romDigest 0 48) ∧
        (∀ k, k < 5 → (Dict.has t.sec.keys k = true ↔ s.rget Fld.SEC_DEBUG_LEVEL ≠ 1 ∨ k < 3))) ∧
      (b.step = 3 → Completes .powerUpStepDone s fun t => begun t 4 [(4, 0)] ∧ t.mem = s.mem) ∧
      (b.step = 4 → Completes .powerUpStepDone s fun t => begun t 5 [] ∧ t = { s with boot := t.boot }) ∧
      (b.step = 5 → Completes .powerUpStepDone s fun t => begun t 6 [(5, 0), (6, 0)] ∧ t.fwu.tryOnce = false ∧
        (s.fwu.tryOnce = false → t.fwu = s.fwu ∧ t.rget Fld.FWU_STATE_STATE = s.rget Fld.FWU_STATE_STATE) ∧
        (s.fwu.tryOnce = true → t.rget Fld.FWU_STATE_STATE = 4 ∧ s.CountedUp t Fld.FWU_COUNTS_ACTIVATIONS 1 ∧
          ∀ k, s.fwu.staged = some k → k.images.all (fun i => t.fwu.committed.contains i.component) = true)) ∧
      (b.step = 6 → Completes .powerUpStepDone s fun t => begun t 7 [(7, 0), (8, 0), (9, 0), (10, 0)] ∧ t.mem = s.mem) ∧
      (b.step = 7 → Completes .powerUpStepDone s fun t => begun t 8 [(11, 6)] ∧ t.mem = s.mem) ∧
      (b.step = 8 → Completes .powerUpStepDone s fun t => begun t 9 [(12, 0), (12, 1), (13, 0), (13, 1)] ∧
        t.rget Fld.SEC_LOCK_DONE = 1 ∧ (∀ i, i ∈ [0, 1, 2, 14] → (t.rget Fld.SYS_GATE_LOCK).testBit i = true) ∧
        t.rget Fld.SYS_GATE_ARR = 1 ∧ t.rget Fld.SYS_GATE_MEM = 1 ∧ t.rget Fld.SYS_GATE_FEED = 1 ∧ t.rget Fld.SYS_GATE_TRIM = 1 ∧
        t.rget Fld.SYS_GATE_DEBUG = (if s.rget Fld.SEC_DEBUG_LEVEL = 1 then 1 else 0) ∧
        (s.rget Fld.BIST_UNUSABLE_BLOCKS = 0 → t.rget Fld.SYS_GATE_PORT = 63 ∧ t.rget Fld.SYS_GATE_VID = 1 ∧ t.rget Fld.SYS_GATE_PCIE = 1) ∧
        (∀ p, p < 6 → (s.rget Fld.BIST_UNUSABLE_BLOCKS).testBit (5 + p) = true → (t.rget Fld.SYS_GATE_PORT).testBit p = false) ∧
        (∀ x, (t.fe x).state = .starting ∧ t.sup x = .testing)) ∧
      (b.step = 9 → Completes .powerUpStepDone s fun t => begun t 10 [] ∧
        (s.sup .a ≠ .standby → s.sup .b ≠ .standby → t.cont.journal = s.cont.journal) ∧
        (s.sup .a = .standby ∨ s.sup .b = .standby →
          let e := (s.rget Fld.CONT_LEASE_EPOCH + 1) % 2 ^ 32
          t.rget Fld.CONT_LEASE_EPOCH = e ∧ t.cont.acting = true ∧ t.sup t.active = .holder ∧
          (s.sup s.preferred = .standby → t.active = s.preferred) ∧
          ∃ r, t.cont.journal = s.cont.journal ++ [r] ∧ r.body = .lease e ∧ r.index = s.cont.nextIndex)) ∧
      (b.step = 10 → Completes .powerUpStepDone s fun t => t.rget Fld.BIST_STATUS_DONE = 1 ∧
        t.rget Fld.BIST_BOOT_MS_MS = min b.slowMs 65535 ∧
        (s.hw.wearEvent = true → t.boot.eventPending = true) ∧
        (s.canServe = true → begun t 11 [] ∧ t.boot.down = false ∧ t.mem = s.mem) ∧
        (s.canServe = false → t.boot.down = true ∧ t.boot.ended = some 7 ∧ t.rget Fld.BIST_STATUS_HALTED = 1 ∧
          t.rget Fld.SYS_J1_FAULT_OUT = 1 ∧ t.rget Fld.PWR_PACE_EFFECTIVE = 1 ∧ t.rget Fld.PWR_STATUS_POINT = 0 ∧ t.hw.cause = 3))) ∧
    (∀ (k u : Nat) (r : SliceReport) (i : Instr) (late : Bool),
      (i, late) ∈ [(Instr.sliceEnd k u r, false), (.sliceBudgetExpiry k u r, true)] →
      let q : SliceReport := { r with ok := r.ok && !late }
      let passed := s.sliceResult k q ≠ 2
      (((k, u) ∉ b.due) → Completes i s fun t => t = s) ∧
      ((k, u) ∈ b.due → k < 14 → Completes i s fun t =>
        t.rget (Fld.BIST_RESULT k) = s.sliceResult k q ∧ t.rget (Fld.BIST_OVERTIME k) = (if late then 1 else 0) ∧
        (late = true → t.rget Fld.BIST_FAULT_OVERTIME = 1) ∧ (s.sliceResult k q = 2 → t.rget Fld.BIST_FAULT_SLICE = 1) ∧
        (k = 1 ∨ k = 6 ∨ k = 12 ∨ k = 13 → s.sliceResult k q = if q.ok = true then 0 else 2) ∧
        (k = 1 → ¬ passed → t.pwr.noUp = true ∧ t.rget Fld.PWR_FAULT_VREG = 1) ∧
        (k = 3 → t.rget Fld.SEC_TRNG_FAIL = (if passed then 0 else 1)) ∧
        (k = 4 → t.mem.banks = []) ∧
        (k = 5 → s.rget Fld.CLK_STATUS_XB_FAIL = 1 ∨ q.ok = false → t.rget Fld.MEM_STATUS_OUT = 1) ∧
        (k = 7 → ¬ passed → t.rget Fld.ARR_REMAP_UNUSABLE = 1 ∧ (t.rget Fld.BIST_UNUSABLE_BLOCKS).testBit 0 = true) ∧
        (k = 7 → passed → t.arr = {} ∧ t.rget Fld.ARR_REMAP_RESIDUE_EN = 1 ∧ t.rget Fld.ARR_REMAP_ROW_GROUP = min (listAt 32 q.failed 0) 32 ∧
          t.rget Fld.ARR_REMAP_COL_GROUP = min (listAt 32 q.cols 0) 32) ∧
        (k = 10 → ¬ passed → t.rget Fld.SYS_GATE_VID = 0 ∧ (t.rget Fld.BIST_UNUSABLE_BLOCKS).testBit 3 = true) ∧
        (k = 12 → u < 2 → passed → b.step ≤ 10 → s.fwu.stopped ≠ some 3 → (t.fe (if u = 0 then .a else .b)).state = .up) ∧
        (k = 12 → u < 2 → passed → 10 < b.step → s.fwu.stopped ≠ some 3 → (t.fe (if u = 0 then .a else .b)).state = .clean) ∧
        (k = 13 → u < 2 → ¬ passed → t.sup (if u = 0 then .a else .b) = .unusable ∧
          (t.rget Fld.BIST_UNUSABLE_BLOCKS).testBit (13 + u) = true) ∧
        (k = 13 → u < 2 → passed → s.sideFailed (if u = 0 then .a else .b) = false →
          t.sup (if u = 0 then .a else .b) = .standby))) ∧
    (∀ k ok restored,
      (s.regionTested k = false → Completes (.runtimeTestPiece k ok restored) s fun t => t = s) ∧
      (s.regionTested k = true → Completes (.runtimeTestPiece k ok restored) s fun t =>
        t.rget Fld.BIST_RT_PIECES = (s.rget Fld.BIST_RT_PIECES + 1) % 2 ^ 16 ∧ t.mem = s.mem ∧ t.arr = s.arr ∧ t.srv = s.srv ∧
        (restored = false → t.rget Fld.BIST_FAULT_RESTORE = 1) ∧ (ok = false → t.rget Fld.BIST_FAULT_RUNTIME = 1) ∧
        (1 ≤ k → k ≤ 4 → t.rget (listAt Fld.BIST_SPARE_ROW_OK [Fld.BIST_SPARE_ROW_OK, Fld.BIST_SPARE_ROW_OK, Fld.BIST_SPARE_COL_OK,
          Fld.BIST_SPARE_SUB0_OK, Fld.BIST_SPARE_SUB1_OK] k) = (if ok then 1 else 0)) ∧
        (k = 0 → ok = false → t.sup (otherSide s.active) = .unusable))) ∧
    Completes .standbyTestStop s (fun t => t = { s with boot := { b with testStopped := true } }) ∧
    (∀ (m : Msg) (x : Session) (k u : Nat), k < 16 → u < 8 →
      let wm := wordWrite m 0x40020 (rawWord k u)
      let refused := fun (c : Code) (i : Nat) => Completes (.rawSliceGo m k u) s fun t => s.RefusesWrite t wm x c i
      let side : Side := if u = 0 then .a else .b
      let shape := (k ∈ [7, 8, 9, 10] → u = 0) ∧ (k = 11 → u < 6) ∧ (k = 12 ∨ k = 13 → u < 2) ∧ 7 ≤ k ∧ k ≤ 13
      let inUse := (7 ≤ k ∧ k ≤ 9 ∧ ∃ i, i < 16 ∧ (s.slot i).state ≠ .empty) ∨ (k = 10 ∧ s.vid.contexts ≠ []) ∨
        (k = 11 ∧ (s.pathsWhere fun p => p.port == u) ≠ []) ∨ (k = 13 ∧ (side = s.active ∨ s.sup side ≠ .standby))
      let waits := b.due ≠ [] ∨ s.rget Fld.SRV_MODE_FIXED = 1 ∨ inUse
      let runs := fun (t : State) => t.boot.raw = some (k, u) ∧ t.boot.due = [(k, u)] ∧ t.rget Fld.BIST_RUN_SLICE = k ∧
        t.rget Fld.BIST_RUN_UNIT = u ∧ t.rget Fld.BIST_RUN_RES_DONE = 0 ∧ t.rget Fld.BIST_STATUS_BUSY = 1 ∧
        t.rget Fld.BIST_STATUS_SLICE = k ∧ s.CountedUp t Fld.SYS_RESET_PARTIAL 1 ∧ t.mem = s.mem
      (s.session m.session = some x → x.closing = false → s.mayActFor m.session = true → x.role ≠ 3 ∨ x.wantsProtected = true →
        refused Code.E_ROLE 65535) ∧
      (s.MayWrite m x → ¬ shape → refused Code.E_PARAM 0) ∧
      (s.MayWrite m x → shape → waits → refused Code.B_RETRY 0) ∧
      (s.MayWrite m x → shape → ¬ waits → k < 12 → Completes (.rawSliceGo m k u) s fun t => runs t ∧
        ∃ v : Word, v.toNat % 256 = k + 16 * u ∧
          s.Answers t wm x 0x0301 Code.OK (leBytes 2 1 ++ leBytes 2 65535 ++ zeroBytes 28 ++ leBytes 4 v.toNat) []) ∧
      (s.MayWrite m x → shape → ¬ waits → k = 12 → (s.fe side).state = .up → Completes (.rawSliceGo m k u) s fun t =>
        (t.fe side).state = .starting ∧ t.boot.raw = some (12, u) ∧ (12, u) ∈ t.boot.due) ∧
      (s.MayWrite m x → shape → ¬ waits → k = 13 → Completes (.rawSliceGo m k u) s fun t => runs t ∧ t.sup side = .testing)) ∧
    ∀ m x, s.Hears m x 0x0302 32 →
      (b.down = true → Completes (.healthRead m) s fun t => t = s) ∧
      (b.down = false → allZero m.payload 8 24 = false → Completes (.healthRead m) s fun t => s.Refuses t m x 0x0302 Code.E_RESERVED) ∧
      (b.down = false → allZero m.payload 8 24 = true → Completes (.healthRead m) s fun t =>
        let r := s.healthReport (u64 m.payload 0)
        listAt 0 r 1 = (if s.variant = .w then 0x57 else 0x41) ∧
        (∀ k, k < r.length → listAt 0 (userReport r) k =
          if 68 ≤ k ∧ k ≤ 77 ∨ 104 ≤ k ∧ k ≤ 106 ∨ 108 ≤ k ∧ k ≤ 111 then 0 else listAt 0 r k) ∧
        (x.role ≠ 4 → t = { s with net := t.net }) ∧
        (x.role = 4 → t = { s with net := t.net, cont := { s.cont with rackStamp := u64 m.payload 0 } }) ∧
        s.Answers t m x 0x0302 Code.OK (if x.role = 1 then userReport r else r) [])

/-- The module's hardware (R211, R333, R471, R473, R475, R476, R479, R483, R486, R487): input power, the hold-up store, the sideband, and the
cartridge bay with its identity check, its life and its loss. -/
def Obligations.PowerInputAndCartridge : Prop :=
  ∀ s : State,
    let c := s.mem.cart
    let status := fun (t : State) (bit : Nat) => t.hw.status.getLsbD bit
    let same := fun (t : State) (bit : Nat) => ∀ k, k < 8 → k ≠ bit → status t k = s.hw.status.getLsbD k
    let stopped := fun (t : State) (cause : Nat) => t.boot.down = true ∧ t.boot.ended = some cause ∧ t.boot.due = [] ∧
      t.net.sessions = [] ∧ t.srv.batch = none ∧ t.mem = s.mem ∧ t.cont = s.cont
    let life := fun (t : State) (d : Cartridge) =>
      let used := max (d.written / 80000000000000) (max (d.matings * 100 / 500) d.devicePct)
      t.rget Fld.SYS_CART_WRITTEN_GB = min (d.written / 1000000000) (2 ^ 32 - 1) ∧ t.rget Fld.SYS_CART_LIFE_USED_PCT = min used 255 ∧
      t.rget Fld.SYS_CART_LIFE_WARN = (if 90 ≤ used then 1 else 0) ∧
      t.rget Fld.SYS_CART_LIFE_EOL = (if 8000000000000000 ≤ d.written ∨ 500 ≤ d.matings ∨ 100 ≤ d.devicePct then 1 else 0) ∧
      t.rget Fld.SYS_CART_LIFE_READ_ONLY = (if d.readOnly then 1 else 0) ∧ t.rget Fld.SYS_CART_LIFE_CYCLES = min d.matings 65535 ∧
      (90 ≤ used → s.rget Fld.SYS_CART_LIFE_WARN = 0 → t.Raised Code.OK)
    let lost := fun (t : State) => t.rget Fld.SEC_CART_STATE = 0 ∧
      (s.spilledSeqs = [] → s.srv.loads = [] → t.srv = s.srv ∧ t.net = s.net ∧ t.cont = s.cont ∧ t.boot = s.boot) ∧
      (∀ q ∈ s.spilledSeqs, t.Raised Code.F_REPLAYED) ∧
      ∀ q y, s.spilledSeqs = [q] → s.srv.loads = [] → s.seq q = some y → y.phase ≠ .stopped → y.phase ≠ .recorded →
        s.CountedUp t Fld.CONT_REPLAYS_COUNT 1 ∧ ∃ z, t.seq q = some z ∧ z.phase = .preempted ∧ z.committed = 0
    (∀ v, (v < 380 → Completes (.vinDip v) s fun t => t = { s with hw := t.hw } ∧ t.hw.vinLow = true ∧ t.hw.inputVolts = v ∧
        status t 4 = true ∧ same t 4 ∧ t.hw.alert = true) ∧
      (380 ≤ v → Completes (.vinDip v) s fun t => t = { s with hw := { s.hw with inputVolts := v } })) ∧
    (∀ v, (v ≤ 395 → Completes (.vinReturn v) s fun t => t = { s with hw := { s.hw with inputVolts := v } }) ∧
      (395 < v → Completes (.vinReturn v) s fun t => t = { s with hw := t.hw, regs := t.regs } ∧ t.hw.vinLow = false ∧ t.hw.inputVolts = v ∧
        status t 4 = false ∧ same t 4 ∧
        (s.hw.vinLow = true → s.boot.down = false → s.rget Fld.SYS_J1_PS1 = 1 → s.rget Fld.SYS_J1_PS2 = 1 →
          s.CountedUp t Fld.SYS_J1_DIPS 1 ∧ s.RegsBut t [(Fld.SYS_J1_DIPS, 0)]) ∧
        (s.hw.vinLow = false ∨ s.boot.down = true ∨ s.rget Fld.SYS_J1_PS1 = 0 ∨ s.rget Fld.SYS_J1_PS2 = 0 → t.regs = s.regs))) ∧
    (s.hw.vinLow = false ∨ s.boot.down = true → Completes .vinLost s fun t => t = s) ∧
    (s.hw.vinLow = true → s.boot.down = false → Completes .vinLost s fun t => stopped t 5 ∧ status t 0 = false ∧ t.regs = s.regs) ∧
    (∀ v, (v ≤ 620 → Completes (.overvoltageShutdown v) s fun t => t = { s with hw := { s.hw with inputVolts := v } }) ∧
      (620 < v → Completes (.overvoltageShutdown v) s fun t => stopped t 8 ∧ t.hw.cause = 4 ∧ t.hw.inputVolts = v ∧ status t 0 = false ∧
        status t 3 = true ∧ t.hw.alert = true ∧ t.rget Fld.SYS_J1_FAULT_OUT = 1 ∧ s.RegsBut t [(Fld.SYS_J1_FAULT_OUT, 0)])) ∧
    (s.boot.down = true → Completes .holdupCharged s fun t => t = s) ∧
    (s.boot.down = false → Completes .holdupCharged s fun t => t = { s with regs := t.regs, hw := t.hw } ∧ status t 6 = true ∧ same t 6 ∧
      t.rget Fld.SYS_HOLDUP_READY = 1 ∧ t.rget Fld.SYS_HOLDUP_CHARGING = 0 ∧ t.rget Fld.SYS_HOLDUP_VOLTS = 90 ∧
      s.RegsBut t [(Fld.SYS_HOLDUP_READY, 0), (Fld.SYS_HOLDUP_CHARGING, 0), (Fld.SYS_HOLDUP_VOLTS, 0)]) ∧
    (∀ w, (140 ≤ w → w ≤ 480 → Completes (.startCapWrite w) s fun t => t = { s with hw := { s.hw with startCap := w } }) ∧
      (w < 140 ∨ 480 < w → Completes (.startCapWrite w) s fun t => t = { s with hw := { s.hw with startCap := 0 } })) ∧
    (∀ on, Completes (.panelIdentify on) s fun t => t = { s with regs := t.regs } ∧ t.rget Fld.SYS_PANEL_IDENTIFY = (if on then 1 else 0) ∧
      s.RegsBut t [(Fld.SYS_PANEL_IDENTIFY, 0)]) ∧
    (∀ x, c.present = true → Completes (.cartridgeInsertion x) s fun t => t = s) ∧
    (∀ x, c.present = false → Completes (.cartridgeInsertion x) s fun t =>
      let d := t.mem.cart
      t.srv = s.srv ∧ t.net = s.net ∧ t.cont = s.cont ∧ d.present = true ∧ d.carrier = x.carrier ∧ d.genuine = x.genuine ∧
      d.written = x.written * 512000 ∧ d.matings = x.matings ∧ d.devicePct = x.devicePct ∧ d.readOnly = x.readOnly ∧
      (∀ k b, x.objects = [(k, b)] → Dict.fetch d.objects k = some b) ∧
      (s.boot.down = true ∨ s.rget Fld.SYS_GATE_PCIE = 0 → t.regs = s.regs ∧ d.powered = false) ∧
      (s.boot.down = false → s.rget Fld.SYS_GATE_PCIE = 1 → d.powered = true ∧ life t d ∧
        (x.genuine = false → t.rget Fld.SEC_CART_STATE = 2) ∧
        (x.genuine = true → s.sec.enrolment = none → t.rget Fld.SEC_CART_STATE = 1) ∧
        (∀ e, x.genuine = true → s.sec.enrolment = some e →
          (e.cartridges = [] ∨ x.carrier ∈ e.cartridges → t.rget Fld.SEC_CART_STATE = 1) ∧
          (e.cartridges ≠ [] → x.carrier ∉ e.cartridges → t.rget Fld.SEC_CART_STATE = 3)))) ∧
    (c.present = false → Completes .cartridgeRemoval s (fun t => t = s) ∧ Completes .cartridgeFailed s fun t => t = s) ∧
    (c.present = true → Completes .cartridgeRemoval s fun t => t.mem.cart = {} ∧ lost t) ∧
    (c.present = true → c.powered = false → Completes .cartridgeFailed s fun t => t = s) ∧
    (c.present = true → c.powered = true → Completes .cartridgeFailed s fun t => lost t ∧
      t.mem.cart = { c with powered := false, spill := [] }) ∧
    ∀ written matings pct ro,
      (c.present = false ∨ c.powered = false → Completes (.cartridgeLifePoll written matings pct ro) s fun t => t = s) ∧
      (c.present = true → c.powered = true → Completes (.cartridgeLifePoll written matings pct ro) s fun t =>
        let d : Cartridge := { c with written := written * 512000, matings := matings, devicePct := pct, readOnly := ro }
        t = { s with regs := t.regs, mem := { s.mem with cart := d }, boot := t.boot } ∧ life t d)

/-- A step takes the command at the front of the queue and runs it on the state with the queue's rest. -/
def Obligations.StepRunsTheFrontCommand : Prop :=
  ∀ (c : Instr) (rest : List Instr) (s : State), step { s with pending := c :: rest } = exec c { s with pending := rest }

/-- On an empty queue a step lets a microsecond pass (the model's choice, log entry 6): the serving counter, the interval counters of
the front ends that run, an overrun's length, and, at each thousandth microsecond, the slow counter and a trial's (R406). -/
def Obligations.EmptyQueueIdles : Prop :=
  ∀ s : State, s.pending = [] → ∃ t, step s = .next t ∧
    let ms : Bool := (s.srv.count + 1) % 1000 == 0
    let ticks := fun (f : FrontEnd) => { f with interval := if f.state = .down then f.interval else f.interval + 1 }
    t = { s with srv := { s.srv with count := (s.srv.count + 1) % 2 ^ 64 }, regs := t.regs, pwr := t.pwr,
                 cont := { s.cont with feA := ticks s.cont.feA, feB := ticks s.cont.feB },
                 boot := { s.boot with slowMs := s.boot.slowMs + if ms then 1 else 0 } } ∧
    t.pwr = { s.pwr with overrunUs := s.pwr.overrunUs + if s.pwr.overrun then 1 else 0 } ∧
    (ms = false ∨ s.rget Fld.FWU_STATE_STATE ≠ 4 → t.regs = s.regs) ∧
    (ms = true → s.rget Fld.FWU_STATE_STATE = 4 → t.rget Fld.FWU_TRIAL_MS = (s.rget Fld.FWU_TRIAL_MS + 1) % 2 ^ 32 ∧
      s.RegsBut t [(Fld.FWU_TRIAL_MS, 0)])

/-- The state after reset (R12, R115, R212, R365, R436, R452): no command waits, no session is open, no model is loaded, memory lists
nothing, and the registers hold the reset values of their tables; it is sound. -/
def Obligations.ResetState : Prop :=
  State.reset.Sound ∧ State.reset.pending = [] ∧ State.reset.mem.dram = [] ∧ State.reset.mem.banks = [] ∧
  State.reset.net.sessions = [] ∧ State.reset.cont.journal = [] ∧ State.reset.srv.requests = [] ∧ State.reset.srv.accounts = [] ∧
  (∀ k, k < 16 → (State.reset.slot k).state = .empty) ∧
  (∀ c : CoreId, (State.reset.core c.toNat).pc = 0 ∧ ∀ r : SReg, (State.reset.core c.toNat).rs r = 0) ∧
  (∀ f v, (f, v) ∈ [(Fld.THM_STATUS_LIMIT, 64), (Fld.THM_STATUS_POINT, 7), (Fld.THM_ID_HOTSPOTS, 24), (Fld.THM_ID_SENSORS, 48),
      (Fld.THM_STATUS_HALTED, 0), (Fld.THM_FAULT_STOP, 0), (Fld.ARR_REMAP_ROW_GROUP, 32), (Fld.ARR_REMAP_COL_GROUP, 32),
      (Fld.CONT_STATUS_TWIN, 0), (Fld.CONT_HB_PERIOD_MS, 100), (Fld.CONT_HB_FLUSH_S, 60), (Fld.FWU_STATE_STATE, 0),
      (Fld.BIST_STATUS_DONE, 0), (Fld.BIST_UNUSABLE_BLOCKS, 0), (Fld.MEM_STATUS_OUT, 0), (Fld.NET_UDP_PORT, 47100),
      (Fld.CLK_MEAS_CFG_WINDOW, 38400), (Fld.SRV_MODE_FIXED, 0), (Fld.PWR_PACE_THERMAL, 64)] → State.reset.rget f = v)

/-- From every sound state the next step answers a sound state, which waits for one command less and is of the same variant: no
command stops the block, and none breaks the canonical form of registers, memory stacks and banks or the number of trim cores (R2, R115). -/
def Obligations.EveryStepKeepsSoundness : Prop :=
  ∀ s : State, s.Sound → ∃ t, step s = .next t ∧ t.Sound ∧ t.pending = s.pending.tail ∧ t.variant = s.variant
end

