-- ==== Sys2Proof/Laws/Maps.lean ====
section
/-! SUPPORT. Maps.lean: the laws of `Dict`, `Tab` and `Memory`: reading after writing, and the canonical form that every
operation keeps. -/

namespace Sys2Proof.Machine

-- Reading after writing.

theorem Dict.fetch_store {α : Type} (d : Dict α) (k j : Nat) (v : α) :
    Dict.fetch (Dict.store d k v) j = if k = j then some v else Dict.fetch d j := by
  induction d with
  | nil => simp [Dict.store, Dict.fetch]
  | cons x r ih => obtain ⟨k', v'⟩ := x; grind [Dict.store, Dict.fetch]

@[simp] theorem Dict.fetch_store_self {α : Type} (d : Dict α) (k : Nat) (v : α) :
    Dict.fetch (Dict.store d k v) k = some v := by simp [Dict.fetch_store]

theorem Dict.fetch_store_other {α : Type} (d : Dict α) (k j : Nat) (v : α) (h : k ≠ j) :
    Dict.fetch (Dict.store d k v) j = Dict.fetch d j := by simp [Dict.fetch_store, h]

theorem Dict.fetch_remove_other {α : Type} (d : Dict α) (k j : Nat) (h : k ≠ j) :
    Dict.fetch (Dict.remove d k) j = Dict.fetch d j := by
  induction d with
  | nil => rfl
  | cons x r ih => obtain ⟨k', v'⟩ := x; grind [Dict.remove, Dict.fetch]

/-- All keys of a canonical map's tail lie above its head's. -/
theorem Dict.wf_above {α : Type} (k : Nat) (v : α) (r : Dict α) (h : Dict.wf ((k, v) :: r) = true) :
    ∀ x ∈ r, k < x.1 := by
  induction r generalizing k v with
  | nil => simp
  | cons y r ih =>
    obtain ⟨k', v'⟩ := y
    simp only [Dict.wf, Bool.and_eq_true, decide_eq_true_eq] at h
    intro x hx
    rcases List.mem_cons.1 hx with rfl | hx
    · exact h.1
    · exact Nat.lt_trans h.1 (ih k' v' h.2 x hx)

theorem Dict.wf_tail {α : Type} (x : Nat × α) (r : Dict α) (h : Dict.wf (x :: r) = true) : Dict.wf r = true := by
  cases r with
  | nil => rfl
  | cons y r => simp only [Dict.wf, Bool.and_eq_true] at h; exact h.2

theorem Dict.wf_cons {α : Type} (k : Nat) (v : α) (r : Dict α) (h : ∀ x ∈ r, k < x.1) (hr : Dict.wf r = true) :
    Dict.wf ((k, v) :: r) = true := by
  cases r with
  | nil => rfl
  | cons y r =>
    obtain ⟨k', v'⟩ := y
    simp only [Dict.wf, Bool.and_eq_true, decide_eq_true_eq]
    exact ⟨h _ (List.mem_cons_self ..), hr⟩

@[simp] theorem Dict.fetch_remove_self {α : Type} (d : Dict α) (k : Nat) : Dict.fetch (Dict.remove d k) k = none := by
  induction d with
  | nil => rfl
  | cons x r ih => obtain ⟨k', v'⟩ := x; grind [Dict.remove, Dict.fetch]

theorem Dict.mem_store {α : Type} (d : Dict α) (k : Nat) (v : α) (x : Nat × α) (h : x ∈ Dict.store d k v) :
    x = (k, v) ∨ x ∈ d := by
  induction d with
  | nil => simpa [Dict.store] using h
  | cons y r ih => obtain ⟨k', v'⟩ := y; grind [Dict.store]

theorem Dict.mem_remove {α : Type} (d : Dict α) (k : Nat) (x : Nat × α) (h : x ∈ Dict.remove d k) : x ∈ d := by
  induction d with
  | nil => simp [Dict.remove] at h
  | cons y r ih => obtain ⟨k', v'⟩ := y; grind [Dict.remove]

-- The canonical form.

theorem Dict.wf_store {α : Type} (d : Dict α) (k : Nat) (v : α) (h : Dict.wf d = true) :
    Dict.wf (Dict.store d k v) = true := by
  induction d with
  | nil => rfl
  | cons x r ih =>
    obtain ⟨k', v'⟩ := x
    have h1 := Dict.wf_above _ _ _ h
    have h2 := Dict.wf_tail _ _ h
    unfold Dict.store
    split
    · rename_i lt
      refine Dict.wf_cons _ _ _ (fun x hx => ?_) h
      rcases List.mem_cons.1 hx with rfl | hx
      · exact lt
      · exact Nat.lt_trans lt (h1 x hx)
    · split
      · rename_i e; exact Dict.wf_cons _ _ _ (e ▸ h1) h2
      · refine Dict.wf_cons _ _ _ (fun x hx => ?_) (ih h2)
        rcases Dict.mem_store r k v x hx with rfl | hx
        · simp only; omega
        · exact h1 x hx

theorem Dict.wf_remove {α : Type} (d : Dict α) (k : Nat) (h : Dict.wf d = true) : Dict.wf (Dict.remove d k) = true := by
  induction d with
  | nil => rfl
  | cons x r ih =>
    obtain ⟨k', v'⟩ := x
    have h1 := Dict.wf_above _ _ _ h
    have h2 := Dict.wf_tail _ _ h
    unfold Dict.remove
    split
    · exact ih h2
    · exact Dict.wf_cons _ _ _ (fun x hx => h1 x (Dict.mem_remove r k x hx)) (ih h2)

theorem Dict.wf_filter {α : Type} (d : Dict α) (p : Nat × α → Bool) (h : Dict.wf d = true) : Dict.wf (d.filter p) = true := by
  induction d with
  | nil => rfl
  | cons x r ih =>
    obtain ⟨k', v'⟩ := x
    have h1 := Dict.wf_above _ _ _ h
    have h2 := ih (Dict.wf_tail _ _ h)
    rw [List.filter_cons]
    split
    · exact Dict.wf_cons _ _ _ (fun x hx => h1 x (List.mem_filter.1 hx).1) h2
    · exact h2

theorem Tab.wf_write {α : Type} [DecidableEq α] (dflt : α) (t : Tab α) (k : Nat) (v : α) (h : Tab.wf dflt t = true) :
    Tab.wf dflt (Tab.write dflt t k v) = true := by
  simp only [Tab.wf, Bool.and_eq_true, List.all_eq_true] at *
  unfold Tab.write
  split
  · exact ⟨Dict.wf_remove t k h.1, fun x hx => h.2 x (Dict.mem_remove t k x hx)⟩
  · refine ⟨Dict.wf_store t k v h.1, fun x hx => ?_⟩
    rcases Dict.mem_store t k v x hx with rfl | hx
    · simpa
    · exact h.2 x hx

theorem Tab.read_write {α : Type} [DecidableEq α] (dflt : α) (t : Tab α) (k j : Nat) (v : α) :
    Tab.read dflt (Tab.write dflt t k v) j = if k = j then v else Tab.read dflt t j := by
  unfold Tab.read Tab.write
  by_cases e : k = j
  · subst e
    split
    · rename_i e; simp [e]
    · simp
  · split
    · simp [Dict.fetch_remove_other t k j e]
    · simp [Dict.fetch_store_other t k j v e]

-- Memory.

theorem Memory.wf_nil : Memory.wf [] = true := rfl

theorem Memory.wf_put (m : Memory) (a : Nat) (b : Byte) (h : m.wf = true) : (m.put a b).wf = true := Tab.wf_write _ m a b h

theorem Memory.wf_putBytes (m : Memory) (a : Nat) (l : List Byte) (h : m.wf = true) : (m.putBytes a l).wf = true := by
  induction l generalizing m a with
  | nil => exact h
  | cons b l ih => exact ih _ _ (Memory.wf_put m a b h)

theorem Memory.wf_clear (m : Memory) (a n : Nat) (h : m.wf = true) : (m.clear a n).wf = true := by
  simp only [Memory.wf, Tab.wf, Bool.and_eq_true, List.all_eq_true] at *
  exact ⟨Dict.wf_filter m _ h.1, fun x hx => h.2 x (List.mem_filter.1 hx).1⟩

theorem Memory.byte_put (m : Memory) (a j : Nat) (b : Byte) :
    (m.put a b).byte j = if a = j then b else m.byte j := Tab.read_write _ m a j b

theorem Memory.byte_put_other (m : Memory) (a j : Nat) (b : Byte) (h : a ≠ j) : (m.put a b).byte j = m.byte j := by
  simp [Memory.byte_put, h]

theorem Memory.byte_putBytes_other (m : Memory) (a j : Nat) (l : List Byte) (h : j < a ∨ a + l.length ≤ j) :
    (m.putBytes a l).byte j = m.byte j := by
  induction l generalizing m a with
  | nil => rfl
  | cons b l ih =>
    simp only [List.length_cons] at h
    unfold Memory.putBytes
    rw [ih _ _ (by omega), Memory.byte_put_other m a j b (by omega)]

theorem Memory.byte_putBytes (m : Memory) (a i : Nat) (l : List Byte) (hi : i < l.length) :
    (m.putBytes a l).byte (a + i) = l[i] := by
  induction l generalizing m a i with
  | nil => simp at hi
  | cons b l ih =>
    unfold Memory.putBytes
    cases i with
    | zero =>
      rw [Memory.byte_putBytes_other _ _ _ _ (by omega), Memory.byte_put]
      simp
    | succ i =>
      have := ih (m.put a b) (a + 1) i (by simpa using hi)
      rw [show a + (i + 1) = a + 1 + i by omega, this]
      simp

theorem Dict.fetch_filter_kept {α : Type} (d : Dict α) (p : Nat → Bool) (k : Nat) (h : p k = true) :
    Dict.fetch (d.filter fun x => p x.1) k = Dict.fetch d k := by
  induction d with
  | nil => rfl
  | cons x r ih => obtain ⟨k', v'⟩ := x; grind [Dict.fetch]

theorem Dict.fetch_filter_gone {α : Type} (d : Dict α) (p : Nat → Bool) (k : Nat) (h : p k = false) :
    Dict.fetch (d.filter fun x => p x.1) k = none := by
  induction d with
  | nil => rfl
  | cons x r ih => obtain ⟨k', v'⟩ := x; grind [Dict.fetch]

/-- Clearing a range sets its bytes to zero and leaves every other byte. -/
theorem Memory.byte_clear (m : Memory) (a n j : Nat) :
    (m.clear a n).byte j = if a ≤ j ∧ j < a + n then 0 else m.byte j := by
  unfold Memory.byte Memory.clear Tab.read Dict.keep
  by_cases h : a ≤ j ∧ j < a + n
  · rw [Dict.fetch_filter_gone m (fun k => decide (k < a ∨ a + n ≤ k)) j (by simp; omega)]
    simp [h, Memory.blank]
  · rw [Dict.fetch_filter_kept m (fun k => decide (k < a ∨ a + n ≤ k)) j (by simp; omega)]
    simp [h]

end Sys2Proof.Machine
end

