-- ==== Sys2Proof/Laws/Regs.lean ====
section
/-! SUPPORT. Regs.lean: the laws of register fields: what a field reads after a field has been set. -/

namespace Sys2Proof.Machine

theorem testBit_natBits (n lo w i : Nat) : (natBits n lo w).testBit i = (decide (i < w) && n.testBit (lo + i)) := by
  simp [natBits, Nat.testBit_mod_two_pow, Nat.testBit_shiftRight]

/-- Bit i of a field's mask. -/
theorem Field.testBit_mask (f : Field) (i : Nat) (h : f.lo + f.width ≤ 32) :
    f.mask.toNat.testBit i = (decide (f.lo ≤ i) && decide (i < f.lo + f.width)) := by
  have e : ((2 ^ f.width - 1) * 2 ^ f.lo).testBit i = (decide (f.lo ≤ i) && decide (i < f.lo + f.width)) := by
    rw [Nat.testBit_mul_two_pow, Nat.testBit_two_pow_sub_one]
    by_cases h1 : f.lo ≤ i
    · simp [h1]; omega
    · simp [h1]
  unfold Field.mask
  rw [BitVec.toNat_ofNat, Nat.testBit_mod_two_pow, e]
  by_cases h1 : i < 32
  · simp [h1]
  · simp [h1]; omega

/-- Bit i of a word with one field changed. -/
theorem Field.testBit_put (f : Field) (w : Word) (v i : Nat) (h : f.lo + f.width ≤ 32) :
    (f.put w v).toNat.testBit i =
      if f.lo ≤ i ∧ i < f.lo + f.width then v.testBit (i - f.lo) else w.toNat.testBit i := by
  unfold Field.put
  rw [BitVec.toNat_or, BitVec.toNat_and, Nat.testBit_or, Nat.testBit_and, BitVec.toNat_not, BitVec.toNat_ofNat,
    Nat.testBit_mod_two_pow, Nat.testBit_mul_two_pow, Nat.testBit_mod_two_pow,
    show 2 ^ 32 - 1 - f.mask.toNat = 2 ^ 32 - (f.mask.toNat + 1) by omega, Nat.testBit_two_pow_sub_succ f.mask.isLt,
    Field.testBit_mask f i h]
  by_cases h1 : f.lo ≤ i ∧ i < f.lo + f.width
  · have : i < 32 := by omega
    have : i - f.lo < f.width := by omega
    simp [*]
  · by_cases h2 : i < 32
    · have : ¬ (f.lo ≤ i ∧ i - f.lo < f.width) := by omega
      simp only [h1, if_false, h2, decide_true, Bool.true_and]
      by_cases h3 : f.lo ≤ i
      · have h4 : ¬ i < f.lo + f.width := by omega
        have h5 : ¬ i - f.lo < f.width := by omega
        simp [h3, h4, h5]
      · simp [h3]
    · have h3 : w.toNat.testBit i = false := Nat.testBit_lt_two_pow (Nat.lt_of_lt_of_le w.isLt (Nat.pow_le_pow_right (by omega) (by omega)))
      simp [h1, h2, h3]

/-- A field reads what was put in it, cut to its width. -/
theorem Field.of_put (f : Field) (w : Word) (v : Nat) (h : f.lo + f.width ≤ 32) : f.of (f.put w v) = v % 2 ^ f.width := by
  apply Nat.eq_of_testBit_eq
  intro i
  rw [Field.of, testBit_natBits, Field.testBit_put f w v _ h, Nat.testBit_mod_two_pow]
  by_cases h1 : i < f.width
  · simp [h1]
  · simp [h1]

/-- A field of the same word whose bits lie elsewhere keeps its value. -/
theorem Field.of_put_other (f g : Field) (w : Word) (v : Nat) (h : f.lo + f.width ≤ 32)
    (d : f.lo + f.width ≤ g.lo ∨ g.lo + g.width ≤ f.lo) : g.of (f.put w v) = g.of w := by
  apply Nat.eq_of_testBit_eq
  intro i
  rw [Field.of, Field.of, testBit_natBits, testBit_natBits, Field.testBit_put f w v _ h]
  by_cases h1 : i < g.width
  · have : ¬ (f.lo ≤ g.lo + i ∧ g.lo + i < f.lo + f.width) := by omega
    simp [h1, this]
  · simp [h1]

/-- The stored word of a register after a word is stored. -/
theorem Regs.word_setWord (r : Regs) (a n b m : Nat) (v : Word) (ha : a < 2 ^ 32) (hb : b < 2 ^ 32) :
    Regs.word (Regs.setWord r a n v) b m = if a = b ∧ n = m then v else Regs.word r b m := by
  unfold Regs.word Regs.setWord
  by_cases e : a = b ∧ n = m
  · obtain ⟨rfl, rfl⟩ := e
    split
    · rename_i e; simp [e]
    · simp
  · have hk : regKey a n ≠ regKey b m := by simp only [regKey]; omega
    rw [if_neg e]
    split
    · rw [Dict.fetch_remove_other _ _ _ hk]
    · rw [Dict.fetch_store_other _ _ _ _ hk]

/-- A field reads what it was set to, cut to its width. -/
theorem Regs.get_set (r : Regs) (f : Field) (v sel : Nat) (h : f.lo + f.width ≤ 32) (ha : f.addr < 2 ^ 32) :
    Regs.get (Regs.set r f v sel) f sel = v % 2 ^ f.width := by
  rw [Regs.get, Regs.set, Regs.word_setWord _ _ _ _ _ _ ha ha, if_pos ⟨rfl, rfl⟩, Field.of_put f _ v h]

/-- Two fields share no bit of one stored word. -/
def Field.apart (f g : Field) (sel sel' : Nat) : Bool :=
  decide (f.addr ≠ g.addr ∨ sel ≠ sel' ∨ f.lo + f.width ≤ g.lo ∨ g.lo + g.width ≤ f.lo)

/-- A field apart from the one that was set keeps its value. -/
theorem Regs.get_set_other (r : Regs) (f g : Field) (v sel sel' : Nat) (h : f.lo + f.width ≤ 32) (hf : f.addr < 2 ^ 32)
    (hg : g.addr < 2 ^ 32) (d : f.apart g sel sel' = true) : Regs.get (Regs.set r f v sel) g sel' = Regs.get r g sel' := by
  rw [Regs.get, Regs.set, Regs.word_setWord _ _ _ _ _ _ hf hg]
  simp only [Field.apart, decide_eq_true_eq] at d
  split
  · rename_i e
    obtain ⟨e1, e2⟩ := e
    rw [Field.of_put_other f g _ v h (by omega), Regs.get, e1, e2]
  · rfl

end Sys2Proof.Machine
end

