-- ==== Sys2Proof/Laws/Held.lean ====
section
/-! SUPPORT. Held.lean: the ways in which a state that keeps `State.Held` is made from another. -/

namespace Sys2Proof.Machine

/-- A state made by changing fields that `State.Held` does not speak of. -/
theorem Held.upd {s : State} {qs vt fr net cont srv arr trim mem vid sec fwu pwr thm boot hw} (h : s.Held qs vt)
    (hd : MemState.dram mem = s.mem.dram) (hb : MemState.banks mem = s.mem.banks) (hc : TrimState.cores trim = s.trim.cores) :
    (State.mk s.pending fr s.variant s.regs net cont srv arr trim mem vid sec fwu pwr thm boot hw).Held qs vt :=
  ⟨h.pending, h.variant, h.regs, hd ▸ h.dram, hb ▸ h.banks, hc ▸ h.cores⟩

/-- A walk over a list whose every step keeps it. -/
theorem foldl_held {α : Type} {f : State → α → State} {l : List α} {s : State} {qs vt}
    (hf : ∀ s a, s.Held qs vt → (f s a).Held qs vt) (h : s.Held qs vt) : (l.foldl f s).Held qs vt := by
  induction l generalizing s with
  | nil => exact h
  | cons a l ih => exact ih (hf _ _ h)

theorem Regs.wf_setWord (r : Regs) (a n : Nat) (v : Word) (h : Dict.wf r = true) : Dict.wf (Regs.setWord r a n v) = true := by
  unfold Regs.setWord
  split
  · exact Dict.wf_remove _ _ h
  · exact Dict.wf_store _ _ _ h

end Sys2Proof.Machine
end

