-- ==== Sys2Proof/Laws/HeldBase.lean ====
section
/-! SUPPORT. HeldBase.lean: every operation and command of the operations over registers, the journal, sessions, pages, translation and banks keeps `State.Held`. -/

set_option linter.all false


namespace Sys2Proof.Machine

theorem State.rset_held (s : State) (f : Field) (n sel : Nat) {qs vt} (h : s.Held qs vt) : (s.rset f n sel).Held qs vt :=
  { h with regs := Regs.wf_setWord _ _ _ _ h.regs }

theorem State.rsetIf_held (s : State) (b : Bool) (f : Field) (v : Nat) (sel : Nat) {qs vt} (hyp : s.Held qs vt) : (State.rsetIf s b f v sel).Held qs vt := by
  unfold State.rsetIf
  (try dsimp only)
  repeat' (first | (with_reducible first | assumption | apply State.rset_held) | split | intro _ | dsimp only)

theorem State.count_held (s : State) (f : Field) (n : Nat) (sel : Nat) {qs vt} (hyp : s.Held qs vt) : (State.count s f n sel).Held qs vt := by
  unfold State.count
  (try dsimp only)
  repeat' (first | (with_reducible first | assumption | apply State.rset_held) | split | intro _ | dsimp only)

theorem State.countHold_held (s : State) (f : Field) (n : Nat) (sel : Nat) {qs vt} (hyp : s.Held qs vt) : (State.countHold s f n sel).Held qs vt := by
  unfold State.countHold
  (try dsimp only)
  repeat' (first | (with_reducible first | assumption | apply State.rset_held) | split | intro _ | dsimp only)

theorem State.rset64_held (s : State) (lo hi : Field) (v : Nat) {qs vt} (hyp : s.Held qs vt) : (State.rset64 s lo hi v).Held qs vt := by
  unfold State.rset64
  (try dsimp only)
  repeat' (first | (with_reducible first | assumption | apply State.rset_held) | split | intro _ | dsimp only)

theorem State.count64_held (s : State) (lo hi : Field) (n : Nat) {qs vt} (hyp : s.Held qs vt) : (State.count64 s lo hi n).Held qs vt := by
  unfold State.count64
  (try dsimp only)
  repeat' (first | (with_reducible first | assumption | apply State.rset64_held) | split | intro _ | dsimp only)

theorem State.draw_held (s : State) {qs vt} (hyp : s.Held qs vt) : (State.draw s).2.Held qs vt := by
  unfold State.draw
  (try dsimp only)
  repeat' (first | (with_reducible first | assumption) | split | intro _ | dsimp only | refine Held.upd ?_ rfl rfl rfl)
theorem State.draw_held' (s : State) {qs vt t b}  (e : State.draw s = (b, t)) (hyp : s.Held qs vt) : t.Held qs vt := by
  have x := State.draw_held s  hyp
  rw [e] at x; exact x

theorem State.journal_held (s : State) (session subject : Nat) (body : RecBody) (engine : Bool) {qs vt} (hyp : s.Held qs vt) : (State.journal s session subject body engine).Held qs vt := by
  unfold State.journal
  (try dsimp only)
  repeat' (first | (with_reducible first | assumption) | split | intro _ | dsimp only | refine Held.upd ?_ rfl rfl rfl)

theorem State.putSession_held (s : State) (x : Session) {qs vt} (hyp : s.Held qs vt) : (State.putSession s x).Held qs vt := by
  unfold State.putSession
  (try dsimp only)
  repeat' (first | (with_reducible first | assumption) | split | intro _ | dsimp only | refine Held.upd ?_ rfl rfl rfl)

theorem State.onSession_held (s : State) (n : Nat) (f : Session → Session) {qs vt} (hyp : s.Held qs vt) : (State.onSession s n f).Held qs vt := by
  unfold State.onSession
  (try dsimp only)
  repeat' (first | (with_reducible first | assumption | apply State.putSession_held) | split | intro _ | dsimp only | refine Held.upd ?_ rfl rfl rfl)

theorem State.pushMsg_held (s : State) (session : Nat) (msg : ModMsg) {qs vt} (hyp : s.Held qs vt) : (State.pushMsg s session msg).Held qs vt := by
  unfold State.pushMsg
  (try dsimp only)
  repeat' (first | (with_reducible first | assumption | apply State.onSession_held) | split | intro _ | dsimp only | refine Held.upd ?_ rfl rfl rfl)

theorem State.reply_held (s : State) (m : Msg) (type : Nat) (code : Code) (payload : List Byte) (needs : List Nat) {qs vt} (hyp : s.Held qs vt) : (State.reply s m type code payload needs).Held qs vt := by
  unfold State.reply
  (try dsimp only)
  repeat' (first | (with_reducible first | assumption | apply State.pushMsg_held) | split | intro _ | dsimp only)

theorem State.replyTo_held (s : State) (r : ReplyTo) (type : Nat) (code : Code) (payload : List Byte) (needs : List Nat) {qs vt} (hyp : s.Held qs vt) : (State.replyTo s r type code payload needs).Held qs vt := by
  unfold State.replyTo
  (try dsimp only)
  repeat' (first | (with_reducible first | assumption | apply State.pushMsg_held) | split | intro _ | dsimp only)

theorem State.pushOwn_held (s : State) (session type : Nat) (code : Code) (payload : List Byte) (needs : List Nat) {qs vt} (hyp : s.Held qs vt) : (State.pushOwn s session type code payload needs).Held qs vt := by
  unfold State.pushOwn
  (try dsimp only)
  repeat' (first | (with_reducible first | assumption | apply State.putSession_held) | split | intro _ | dsimp only | refine Held.upd ?_ rfl rfl rfl)

theorem State.pushGrid_held (s : State) (session : Nat) (msg : ModMsg) {qs vt} (hyp : s.Held qs vt) : (State.pushGrid s session msg).Held qs vt := by
  unfold State.pushGrid
  (try dsimp only)
  repeat' (first | (with_reducible first | assumption | apply State.pushMsg_held) | split | intro _ | dsimp only | refine Held.upd ?_ rfl rfl rfl)

theorem State.consume_held (s : State) (m : Msg) {qs vt} (hyp : s.Held qs vt) : (State.consume s m).Held qs vt := by
  unfold State.consume
  (try dsimp only)
  repeat' (first | (with_reducible first | assumption | apply State.onSession_held) | split | intro _ | dsimp only | refine Held.upd ?_ rfl rfl rfl)

theorem State.pushOwnAll_held (s : State) (l : List Nat) (type : Nat) (code : Code) (payload : List Byte) {qs vt} (hyp : s.Held qs vt) : (State.pushOwnAll s l type code payload).Held qs vt := by
  unfold State.pushOwnAll
  (try dsimp only)
  repeat' (first | (with_reducible first | assumption | apply State.pushOwn_held | refine foldl_held (fun _ _ _ => ?_) ?_) | split | intro _ | dsimp only)

theorem State.takePages_held (s : State) (n : Nat) {l : List Nat} {t : State} (e : s.takePages n = some (l, t)) {qs vt} (h : s.Held qs vt) : t.Held qs vt := by
  unfold State.takePages at e
  dsimp only at e
  split at e <;> split at e <;> cases e <;> exact Held.upd h rfl rfl rfl

theorem State.freePool_held (s : State) (l : List Nat) {qs vt} (hyp : s.Held qs vt) : (State.freePool s l).Held qs vt := by
  unfold State.freePool
  (try dsimp only)
  repeat' (first | (with_reducible first | assumption | refine foldl_held (fun _ _ _ => ?_) ?_) | split | intro _ | dsimp only | refine Held.upd ?_ rfl rfl rfl)

theorem State.putPages_go_wf (l : List Nat) (b : List Byte) (m : Memory) (o : Nat) (h : m.wf = true) :
    (State.putPages.go l m o b).wf = true := by
  induction b generalizing m o with
  | nil => exact h
  | cons x xs ih =>
    unfold State.putPages.go
    apply ih
    split
    · exact Memory.wf_put _ _ _ h
    · exact h
theorem State.putPages_held (s : State) (l : List Nat) (off : Nat) (b : List Byte) {qs vt} (h : s.Held qs vt) : (s.putPages l off b).Held qs vt :=
  { h with dram := State.putPages_go_wf _ _ _ _ h.dram }

theorem State.withMsg_held (s : State) (m : Msg) (type : Nat) (len : Option Nat) (body : State → Session → State) (more : Session → Bool) (refuse : State → Session → Code → State) {qs vt} (hbody : ∀ x0 x1, x0.Held qs vt → (body x0 x1).Held qs vt) (hrefuse : ∀ x0 x1 x2, x0.Held qs vt → (refuse x0 x1 x2).Held qs vt) (hyp : s.Held qs vt) : (State.withMsg s m type len body more refuse).Held qs vt := by
  unfold State.withMsg
  (try dsimp only)
  repeat' (first | (with_reducible first | assumption | apply hbody | apply hrefuse | apply State.reply_held | apply State.consume_held) | split | intro _ | dsimp only | refine Held.upd ?_ rfl rfl rfl)

theorem State.putSlot_held (s : State) (k : Nat) (x : ModelSlot) {qs vt} (hyp : s.Held qs vt) : (State.putSlot s k x).Held qs vt := by
  unfold State.putSlot
  (try dsimp only)
  repeat' (first | (with_reducible first | assumption) | split | intro _ | dsimp only | refine Held.upd ?_ rfl rfl rfl)

theorem State.enterFallback_held (s : State) {qs vt} (hyp : s.Held qs vt) : (State.enterFallback s).Held qs vt := by
  unfold State.enterFallback
  (try dsimp only)
  repeat' (first | (with_reducible first | assumption | apply State.rset_held) | split | intro _ | dsimp only)

theorem State.healthEvent_held (s : State) (code : Code) (source : Nat) {qs vt} (hyp : s.Held qs vt) : (State.healthEvent s code source).Held qs vt := by
  unfold State.healthEvent
  (try dsimp only)
  repeat' (first | (with_reducible first | assumption | apply State.enterFallback_held) | split | intro _ | dsimp only | refine Held.upd ?_ rfl rfl rfl)

theorem State.startSlice_held (s : State) (k unit : Nat) {qs vt} (hyp : s.Held qs vt) : (State.startSlice s k unit).Held qs vt := by
  unfold State.startSlice
  (try dsimp only)
  repeat' (first | (with_reducible first | assumption | apply State.rset_held | apply State.rsetIf_held | apply State.countHold_held) | split | intro _ | dsimp only | refine Held.upd ?_ rfl rfl rfl)

theorem State.postHealth_held (s : State) {qs vt} (hyp : s.Held qs vt) : (State.postHealth s).Held qs vt := by
  unfold State.postHealth
  (try dsimp only)
  repeat' (first | (with_reducible first | assumption | apply State.pushOwnAll_held) | split | intro _ | dsimp only | refine Held.upd ?_ rfl rfl rfl)

theorem State.sendHealth_held (s : State) {qs vt} (hyp : s.Held qs vt) : (State.sendHealth s).Held qs vt := by
  unfold State.sendHealth
  repeat' (first | (with_reducible first | assumption | apply State.postHealth_held | apply State.healthEvent_held) | split | refine Held.upd ?_ rfl rfl rfl)

theorem State.putBank_held (s : State) (b o : Nat) (p : List Byte) {qs vt} (h : s.Held qs vt) : (s.putBank b o p).Held qs vt :=
  { h with banks := Memory.wf_putBytes _ _ _ h.banks }

theorem State.clearBank_held (s : State) (b o n : Nat) {qs vt} (h : s.Held qs vt) : (s.clearBank b o n).Held qs vt :=
  { h with banks := Memory.wf_clear _ _ _ h.banks }

theorem State.putDram_held (s : State) (a : Nat) (b : List Byte) {qs vt} (h : s.Held qs vt) : (s.putDram a b).Held qs vt :=
  { h with dram := Memory.wf_putBytes _ _ _ h.dram }

theorem State.deliverGranule_held (s : State) (g : Nat) (e : List Byte) {qs vt} (hyp : s.Held qs vt) : (State.deliverGranule s g e).Held qs vt := by
  unfold State.deliverGranule
  (try dsimp only)
  repeat' (first | (with_reducible first | assumption | apply State.putDram_held) | split | intro _ | dsimp only)

theorem State.xltFault_held (s : State) (f : Field) (owner vpn master : Nat) {qs vt} (hyp : s.Held qs vt) : (State.xltFault s f owner vpn master).Held qs vt := by
  unfold State.xltFault
  (try dsimp only)
  repeat' (first | (with_reducible first | assumption | apply State.rset_held) | split | intro _ | dsimp only)

theorem State.cacheDrop_held (s : State) (i : Nat) {qs vt} (hyp : s.Held qs vt) : (State.cacheDrop s i).Held qs vt := by
  unfold State.cacheDrop
  (try dsimp only)
  repeat' (first | (with_reducible first | assumption) | split | intro _ | dsimp only | refine Held.upd ?_ rfl rfl rfl)

theorem State.updateEntry_held (s : State) (owner vpn i e : Nat) {qs vt} (hyp : s.Held qs vt) : (State.updateEntry s owner vpn i e).Held qs vt := by
  unfold State.updateEntry
  (try dsimp only)
  repeat' (first | (with_reducible first | assumption | apply State.healthEvent_held | apply State.putDram_held | apply State.xltFault_held | apply State.cacheDrop_held) | split | intro _ | dsimp only)

theorem State.lookup_held (s : State) (i : Nat) {qs vt} (h : s.Held qs vt) : (s.lookup i).Held qs vt := by
  unfold State.lookup
  extract_lets touch
  split
  · exact State.count64_held _ _ _ _ (Held.upd h rfl rfl rfl)
  · exact State.count_held _ _ _ _ (Held.upd h rfl rfl rfl)

theorem State.putDesc_held (s : State) (d : Nat) (x : Desc) {qs vt} (hyp : s.Held qs vt) : (State.putDesc s d x).Held qs vt := by
  unfold State.putDesc
  (try dsimp only)
  repeat' (first | (with_reducible first | assumption) | split | intro _ | dsimp only | refine Held.upd ?_ rfl rfl rfl)

theorem State.copyEntries_held (s : State) (a b n : Nat) {qs vt} (h : s.Held qs vt) : (s.copyEntries a b n).Held qs vt := by
  induction n generalizing s a b with
  | zero => exact h
  | succ n ih => unfold State.copyEntries; exact ih _ _ _ (State.cacheDrop_held _ _ (State.cacheDrop_held _ _ (State.putDram_held _ _ _ (State.putDram_held _ _ _ h))))

theorem State.moveRange_held (s : State) (d len : Nat) {t : State} (e : s.moveRange d len = some t) {qs vt} (h : s.Held qs vt) : t.Held qs vt := by
  unfold State.moveRange at e
  dsimp only at e
  split at e
  · cases e
  · cases e
    exact State.count_held _ _ _ _ (State.putDesc_held _ _ _ (State.copyEntries_held _ _ _ _ h))

theorem State.roomFor_held (s : State) (d len : Nat) {t : State} (e : s.roomFor d len = some t) {qs vt} (h : s.Held qs vt) : t.Held qs vt := by
  unfold State.roomFor at e
  dsimp only at e
  split at e
  · cases e; exact h
  · split at e
    · obtain ⟨b, -, rfl⟩ := Option.map_eq_some_iff.1 e
      exact State.putDesc_held _ _ _ h
    · split at e
      · cases e; exact h
      · exact State.moveRange_held _ _ _ e h

theorem State.mapPages_held (s : State) (d vpn : Nat) (w : Bool) (l : List Nat) {qs vt} (h : s.Held qs vt) : (s.mapPages d vpn w l).Held qs vt := by
  induction l generalizing s vpn with
  | nil => exact h
  | cons p l ih => unfold State.mapPages; exact ih _ _ (State.updateEntry_held _ _ _ _ _ h)

theorem State.grow_held (s : State) (d n : Nat) {t : State} (e : s.grow d n = some t) {qs vt} (h : s.Held qs vt) : t.Held qs vt := by
  unfold State.grow at e
  dsimp only at e
  split at e
  · cases e
  · split at e
    · cases e
    · cases e
      exact State.mapPages_held _ _ _ _ _ (State.putDesc_held _ _ _ (State.takePages_held _ _ (by assumption) (State.roomFor_held _ _ _ (by assumption) h)))

theorem State.mapRange_held (s : State) (d kind slot : Nat) (ro : Bool) (l : List Nat) {t : State} (e : s.mapRange d kind slot ro l = some t) {qs vt} (h : s.Held qs vt) : t.Held qs vt := by
  unfold State.mapRange at e
  split at e
  · cases e
  · cases e
    exact State.mapPages_held _ _ _ _ _ (State.putDesc_held _ _ _ h)

theorem State.freeMapped_held (s : State) (l : List Nat) {qs vt} (hyp : s.Held qs vt) : (State.freeMapped s l).Held qs vt := by
  unfold State.freeMapped
  (try dsimp only)
  repeat' (first | (with_reducible first | assumption) | split | intro _ | dsimp only | refine Held.upd ?_ rfl rfl rfl)

theorem State.freeCartSlot_held (s : State) (c : Nat) {qs vt} (hyp : s.Held qs vt) : (State.freeCartSlot s c).Held qs vt := by
  unfold State.freeCartSlot
  (try dsimp only)
  repeat' (first | (with_reducible first | assumption) | split | intro _ | dsimp only | refine Held.upd ?_ rfl rfl rfl)

theorem State.releaseKvPage_held (s : State) (p : Nat) {qs vt} (hyp : s.Held qs vt) : (State.releaseKvPage s p).Held qs vt := by
  unfold State.releaseKvPage
  (try dsimp only)
  repeat' (first | (with_reducible first | assumption | apply State.putDram_held | apply State.freeMapped_held) | split | intro _ | dsimp only)

theorem State.showCartPages_held (s : State) {qs vt} (hyp : s.Held qs vt) : (State.showCartPages s).Held qs vt := by
  unfold State.showCartPages
  (try dsimp only)
  repeat' (first | (with_reducible first | assumption | apply State.rset_held) | split | intro _ | dsimp only)

theorem State.shrink_held (s : State) (d keep : Nat) {qs vt} (h : s.Held qs vt) : (s.shrink d keep).Held qs vt := by
  unfold State.shrink
  extract_lets x idx s1 s2
  have h1 : s1.Held qs vt := by
    refine foldl_held (fun t k ht => ?_) h
    extract_lets e t1 t2
    refine State.cacheDrop_held _ _ (State.putDram_held _ _ _ ?_)
    have h1 : t1.Held qs vt := by
      unfold t1
      split
      · exact State.releaseKvPage_held _ _ ht
      · exact ht
    unfold t2
    split
    · exact State.freeCartSlot_held _ _ h1
    · exact h1
  exact State.showCartPages_held _ (State.putDesc_held _ _ _ (Held.upd h1 rfl rfl rfl))

theorem State.releaseSlotRange_held (s : State) (d : Nat) {qs vt} (hyp : s.Held qs vt) : (State.releaseSlotRange s d).Held qs vt := by
  unfold State.releaseSlotRange
  (try dsimp only)
  repeat' (first | (with_reducible first | assumption | apply State.putDram_held | apply State.cacheDrop_held | apply State.putDesc_held | apply State.freeMapped_held | refine foldl_held (fun _ _ _ => ?_) ?_) | split | intro _ | dsimp only)

theorem State.putOwner_held (s : State) (d va : Nat) (l : List Byte) {qs vt} (h : s.Held qs vt) : (s.putOwner d va l).Held qs vt := by
  induction l generalizing s va with
  | nil => exact h
  | cons b l ih =>
    unfold State.putOwner
    apply ih
    split
    · exact { h with dram := Memory.wf_put _ _ _ h.dram }
    · exact h

theorem State.putAccount_held (s : State) (cu : Nat) (a : Account) {qs vt} (hyp : s.Held qs vt) : (State.putAccount s cu a).Held qs vt := by
  unfold State.putAccount
  (try dsimp only)
  repeat' (first | (with_reducible first | assumption) | split | intro _ | dsimp only | refine Held.upd ?_ rfl rfl rfl)

theorem State.debit_held (s : State) (cu n : Nat) {qs vt} (hyp : s.Held qs vt) : (State.debit s cu n).Held qs vt := by
  unfold State.debit
  (try dsimp only)
  repeat' (first | (with_reducible first | assumption | apply State.putAccount_held) | split | intro _ | dsimp only | refine Held.upd ?_ rfl rfl rfl)

theorem State.refund_held (s : State) (session row cu n : Nat) {qs vt} (hyp : s.Held qs vt) : (State.refund s session row cu n).1.Held qs vt := by
  unfold State.refund
  (try dsimp only)
  repeat' (first | (with_reducible first | assumption | apply State.journal_held | apply State.putAccount_held) | split | intro _ | dsimp only | refine Held.upd ?_ rfl rfl rfl)
theorem State.refund_held' (s : State) (session row cu n : Nat) {qs vt t b}  (e : State.refund s session row cu n = (t, b)) (hyp : s.Held qs vt) : t.Held qs vt := by
  have x := State.refund_held s session row cu n  hyp
  rw [e] at x; exact x

theorem State.enqueue_held (s : State) (u : QUnit) {qs vt} (hyp : s.Held qs vt) : (State.enqueue s u).Held qs vt := by
  unfold State.enqueue
  (try dsimp only)
  repeat' (first | (with_reducible first | assumption) | split | intro _ | dsimp only | refine Held.upd ?_ rfl rfl rfl)

theorem State.dequeueRow_held (s : State) (row : Nat) {qs vt} (hyp : s.Held qs vt) : (State.dequeueRow s row).Held qs vt := by
  unfold State.dequeueRow
  (try dsimp only)
  repeat' (first | (with_reducible first | assumption) | split | intro _ | dsimp only | refine Held.upd ?_ rfl rfl rfl)

theorem State.putRequest_held (s : State) (r : Request) {qs vt} (hyp : s.Held qs vt) : (State.putRequest s r).Held qs vt := by
  unfold State.putRequest
  (try dsimp only)
  repeat' (first | (with_reducible first | assumption) | split | intro _ | dsimp only | refine Held.upd ?_ rfl rfl rfl)

theorem State.onRequest_held (s : State) (row : Nat) (f : Request → Request) {qs vt} (hyp : s.Held qs vt) : (State.onRequest s row f).Held qs vt := by
  unfold State.onRequest
  (try dsimp only)
  repeat' (first | (with_reducible first | assumption | apply State.putRequest_held) | split | intro _ | dsimp only | refine Held.upd ?_ rfl rfl rfl)

theorem State.dropRequest_held (s : State) (r : Request) {qs vt} (hyp : s.Held qs vt) : (State.dropRequest s r).Held qs vt := by
  unfold State.dropRequest
  (try dsimp only)
  repeat' (first | (with_reducible first | assumption | apply State.freePool_held | apply State.dequeueRow_held) | split | intro _ | dsimp only | refine Held.upd ?_ rfl rfl rfl)

theorem State.endPass_held (s : State) (row : Nat) (code : Code) (refunded : Bool) {qs vt} (hyp : s.Held qs vt) : (State.endPass s row code refunded).Held qs vt := by
  unfold State.endPass
  (try dsimp only)
  repeat' (first | (with_reducible first | assumption | apply State.journal_held | apply State.pushGrid_held | apply State.freePool_held | apply State.debit_held | apply State.refund_held | apply State.dropRequest_held) | split | refine State.refund_held' _ _ _ _ _ (by assumption) ?_ | intro _ | dsimp only | refine Held.upd ?_ rfl rfl rfl)

theorem State.putSeq_held (s : State) (q : Nat) (x : Sequence) {qs vt} (hyp : s.Held qs vt) : (State.putSeq s q x).Held qs vt := by
  unfold State.putSeq
  (try dsimp only)
  repeat' (first | (with_reducible first | assumption) | split | intro _ | dsimp only | refine Held.upd ?_ rfl rfl rfl)

theorem State.onSeq_held (s : State) (q : Nat) (f : Sequence → Sequence) {qs vt} (hyp : s.Held qs vt) : (State.onSeq s q f).Held qs vt := by
  unfold State.onSeq
  (try dsimp only)
  repeat' (first | (with_reducible first | assumption | apply State.putSeq_held) | split | intro _ | dsimp only | refine Held.upd ?_ rfl rfl rfl)

theorem State.sendTokens_held (s : State) (q : Nat) {qs vt} (hyp : s.Held qs vt) : (State.sendTokens s q).Held qs vt := by
  unfold State.sendTokens
  (try dsimp only)
  repeat' (first | (with_reducible first | assumption | apply State.pushGrid_held | apply State.putSeq_held) | split | intro _ | dsimp only | refine Held.upd ?_ rfl rfl rfl)

theorem State.dropSeq_held (s : State) (q : Nat) {qs vt} (hyp : s.Held qs vt) : (State.dropSeq s q).Held qs vt := by
  unfold State.dropSeq
  (try dsimp only)
  repeat' (first | (with_reducible first | assumption | apply State.shrink_held) | split | intro _ | dsimp only | refine Held.upd ?_ rfl rfl rfl)

theorem State.recordStop_held (s : State) (q : Nat) (stop : SeqStop) (back : Nat) {qs vt} (hyp : s.Held qs vt) : (State.recordStop s q stop back).Held qs vt := by
  unfold State.recordStop
  (try dsimp only)
  repeat' (first | (with_reducible first | assumption | apply State.journal_held | apply State.refund_held | apply State.putSeq_held) | split | refine State.refund_held' _ _ _ _ _ (by assumption) ?_ | intro _ | dsimp only | refine Held.upd ?_ rfl rfl rfl)

theorem State.finishSeq_held (s : State) (q : Nat) {qs vt} (hyp : s.Held qs vt) : (State.finishSeq s q).Held qs vt := by
  unfold State.finishSeq
  (try dsimp only)
  repeat' (first | (with_reducible first | assumption | apply State.pushGrid_held | apply State.freePool_held | apply State.dropRequest_held | apply State.sendTokens_held | apply State.dropSeq_held) | split | intro _ | dsimp only | refine Held.upd ?_ rfl rfl rfl)

theorem State.endSeq_held (s : State) (q : Nat) (stop : SeqStop) {qs vt} (hyp : s.Held qs vt) : (State.endSeq s q stop).Held qs vt := by
  unfold State.endSeq
  (try dsimp only)
  repeat' (first | (with_reducible first | assumption | apply State.putSeq_held | apply State.recordStop_held | apply State.finishSeq_held) | split | intro _ | dsimp only | refine Held.upd ?_ rfl rfl rfl)

theorem State.cancelSeq_held (s : State) (q : Nat) {qs vt} (hyp : s.Held qs vt) : (State.cancelSeq s q).Held qs vt := by
  unfold State.cancelSeq
  (try dsimp only)
  repeat' (first | (with_reducible first | assumption | apply State.onRequest_held | apply State.endSeq_held) | split | intro _ | dsimp only | refine Held.upd ?_ rfl rfl rfl)

theorem State.cancelRequest_held (s : State) (row : Nat) {qs vt} (hyp : s.Held qs vt) : (State.cancelRequest s row).Held qs vt := by
  unfold State.cancelRequest
  (try dsimp only)
  repeat' (first | (with_reducible first | assumption | apply State.endPass_held | apply State.cancelSeq_held) | split | intro _ | dsimp only | refine Held.upd ?_ rfl rfl rfl)

theorem State.failRequest_held (s : State) (row : Nat) (code : Code) (reason : Nat) {qs vt} (hyp : s.Held qs vt) : (State.failRequest s row code reason).Held qs vt := by
  unfold State.failRequest
  (try dsimp only)
  repeat' (first | (with_reducible first | assumption | apply State.endPass_held | apply State.endSeq_held) | split | intro _ | dsimp only | refine Held.upd ?_ rfl rfl rfl)

theorem State.putVideo_held (s : State) (c : Nat) (x : VideoContext) {qs vt} (hyp : s.Held qs vt) : (State.putVideo s c x).Held qs vt := by
  unfold State.putVideo
  (try dsimp only)
  repeat' (first | (with_reducible first | assumption) | split | intro _ | dsimp only | refine Held.upd ?_ rfl rfl rfl)

theorem State.dropVideo_held (s : State) (c : Nat) {qs vt} (hyp : s.Held qs vt) : (State.dropVideo s c).Held qs vt := by
  unfold State.dropVideo
  (try dsimp only)
  repeat' (first | (with_reducible first | assumption) | split | intro _ | dsimp only | refine Held.upd ?_ rfl rfl rfl)

theorem State.abortVideo_held (s : State) (c : Nat) {qs vt} (hyp : s.Held qs vt) : (State.abortVideo s c).Held qs vt := by
  unfold State.abortVideo
  (try dsimp only)
  repeat' (first | (with_reducible first | assumption | apply State.cancelRequest_held | apply State.dropVideo_held | refine foldl_held (fun _ _ _ => ?_) ?_) | split | intro _ | dsimp only | refine Held.upd ?_ rfl rfl rfl)

theorem State.endSessionWork_held (s : State) (n : Nat) {qs vt} (hyp : s.Held qs vt) : (State.endSessionWork s n).Held qs vt := by
  unfold State.endSessionWork
  (try dsimp only)
  repeat' (first | (with_reducible first | assumption | apply State.onRequest_held | apply State.cancelRequest_held | apply State.abortVideo_held | refine foldl_held (fun _ _ _ => ?_) ?_) | split | intro _ | dsimp only | refine Held.upd ?_ rfl rfl rfl)

theorem State.closeSession_held (s : State) (n : Nat) (code : Code) {qs vt} (hyp : s.Held qs vt) : (State.closeSession s n code).Held qs vt := by
  unfold State.closeSession
  (try dsimp only)
  repeat' (first | (with_reducible first | assumption | apply State.journal_held | apply State.onSession_held | apply State.pushOwn_held | apply State.endSessionWork_held) | split | intro _ | dsimp only | refine Held.upd ?_ rfl rfl rfl)

theorem State.seqLimit_held (s : State) (n : Nat) {qs vt} (hyp : s.Held qs vt) : (State.seqLimit s n).Held qs vt := by
  unfold State.seqLimit
  (try dsimp only)
  repeat' (first | (with_reducible first | assumption | apply State.closeSession_held) | split | intro _ | dsimp only | refine Held.upd ?_ rfl rfl rfl)

theorem State.trimJournal_held (s : State) {qs vt} (hyp : s.Held qs vt) : (State.trimJournal s).Held qs vt := by
  unfold State.trimJournal
  (try dsimp only)
  repeat' (first | (with_reducible first | assumption | apply State.journal_held | refine foldl_held (fun _ _ _ => ?_) ?_) | split | intro _ | dsimp only | refine Held.upd ?_ rfl rfl rfl)

theorem State.showLoad_held (s : State) (k step : Nat) (busy : Bool) {qs vt} (hyp : s.Held qs vt) : (State.showLoad s k step busy).Held qs vt := by
  unfold State.showLoad
  (try dsimp only)
  repeat' (first | (with_reducible first | assumption | apply State.rset_held) | split | intro _ | dsimp only)

theorem State.settleLoad_held (s : State) {qs vt} (hyp : s.Held qs vt) : (State.settleLoad s).Held qs vt := by
  unfold State.settleLoad
  (try dsimp only)
  repeat' (first | (with_reducible first | assumption | apply State.rset_held | apply State.showLoad_held) | split | intro _ | dsimp only | refine Held.upd ?_ rfl rfl rfl)

theorem State.showFirst_held (s : State) (k : Nat) {qs vt} (hyp : s.Held qs vt) : (State.showFirst s k).Held qs vt := by
  unfold State.showFirst
  (try dsimp only)
  repeat' (first | (with_reducible first | assumption | apply State.showLoad_held) | split | intro _ | dsimp only)

theorem State.enterLoading_held (s : State) (k : Nat) (x : ModelSlot) {qs vt} (hyp : s.Held qs vt) : (State.enterLoading s k x).Held qs vt := by
  unfold State.enterLoading
  (try dsimp only)
  repeat' (first | (with_reducible first | assumption | apply State.putSlot_held | apply State.putDesc_held) | split | intro _ | dsimp only | refine Held.upd ?_ rfl rfl rfl)

end Sys2Proof.Machine
end

