-- ==== Sys2Proof/Laws/HeldServe.lean ====
section
/-! SUPPORT. HeldServe.lean: every operation and command of request serving keeps `State.Held`. -/

set_option linter.all false


namespace Sys2Proof.Machine

theorem State.writeHeaders_held (s : State) (q : Nat) (k : KvShape) (customer from_ : Nat) {qs vt} (hyp : s.Held qs vt) : (State.writeHeaders s q k customer from_).Held qs vt := by
  unfold State.writeHeaders
  (try dsimp only)
  repeat' (first | (with_reducible first | assumption | apply State.putDram_held | refine foldl_held (fun _ _ _ => ?_) ?_) | split | intro _ | dsimp only)

theorem State.ensureChunks_held (s : State) (q : Nat) (k : KvShape) (customer chunks : Nat) {t : State} {qs vt}  (e : State.ensureChunks s q k customer chunks = some t) (hyp : s.Held qs vt) : t.Held qs vt := by
  unfold State.ensureChunks at e
  (try dsimp only at e)
  (repeat' split at e) <;> first | (cases e; done) | (cases e; repeat' (first | (with_reducible first | assumption | apply State.writeHeaders_held) | split | refine State.grow_held _ _ _ (by assumption) ?_ | intro _ | dsimp only)) | (obtain ⟨_, hx, e2⟩ := Option.map_eq_some_iff.1 e; clear e; cases e2; (repeat' (first | (with_reducible first | assumption | apply State.writeHeaders_held) | split | refine State.grow_held _ _ _ (by assumption) ?_ | intro _ | dsimp only)); done) | (repeat' (first | (with_reducible first | assumption | apply State.writeHeaders_held) | split | refine State.grow_held _ _ _ (by assumption) ?_ | intro _ | dsimp only))

theorem State.sharePages_held (s : State) (q o n : Nat) {t : State} {qs vt}  (e : State.sharePages s q o n = some t) (hyp : s.Held qs vt) : t.Held qs vt := by
  unfold State.sharePages at e
  (try dsimp only at e)
  (repeat' split at e) <;> first | (cases e; done) | (cases e; repeat' (first | (with_reducible first | assumption | apply State.putDram_held | apply State.updateEntry_held | apply State.putDesc_held | refine foldl_held (fun _ _ _ => ?_) ?_) | split | refine State.roomFor_held _ _ _ (by assumption) ?_ | intro _ | dsimp only | refine Held.upd ?_ rfl rfl rfl)) | (obtain ⟨_, hx, e2⟩ := Option.map_eq_some_iff.1 e; clear e; cases e2; (repeat' (first | (with_reducible first | assumption | apply State.putDram_held | apply State.updateEntry_held | apply State.putDesc_held | refine foldl_held (fun _ _ _ => ?_) ?_) | split | refine State.roomFor_held _ _ _ (by assumption) ?_ | intro _ | dsimp only | refine Held.upd ?_ rfl rfl rfl)); done) | (repeat' (first | (with_reducible first | assumption | apply State.putDram_held | apply State.updateEntry_held | apply State.putDesc_held | refine foldl_held (fun _ _ _ => ?_) ?_) | split | refine State.roomFor_held _ _ _ (by assumption) ?_ | intro _ | dsimp only | refine Held.upd ?_ rfl rfl rfl))

theorem State.queueChunk_held (s : State) (q : Nat) {qs vt} (hyp : s.Held qs vt) : (State.queueChunk s q).Held qs vt := by
  unfold State.queueChunk
  (try dsimp only)
  repeat' (first | (with_reducible first | assumption | apply State.count_held | apply State.enqueue_held | apply State.putSeq_held) | split | intro _ | dsimp only | refine Held.upd ?_ rfl rfl rfl)

theorem State.queueDraft_held (s : State) (main : Nat) {qs vt} (hyp : s.Held qs vt) : (State.queueDraft s main).Held qs vt := by
  unfold State.queueDraft
  (try dsimp only)
  repeat' (first | (with_reducible first | assumption | apply State.count_held | apply State.enqueue_held | apply State.putSeq_held | apply State.queueChunk_held) | split | intro _ | dsimp only | refine Held.upd ?_ rfl rfl rfl)

theorem State.queueStep_held (s : State) (q : Nat) {qs vt} (hyp : s.Held qs vt) : (State.queueStep s q).Held qs vt := by
  unfold State.queueStep
  (try dsimp only)
  repeat' (first | (with_reducible first | assumption | apply State.count_held | apply State.enqueue_held | apply State.putSeq_held | apply State.queueDraft_held) | split | intro _ | dsimp only | refine Held.upd ?_ rfl rfl rfl)

theorem State.wakeUnsent_held (s : State) {qs vt} (hyp : s.Held qs vt) : (State.wakeUnsent s).Held qs vt := by
  unfold State.wakeUnsent
  (try dsimp only)
  repeat' (first | (with_reducible first | assumption | apply State.queueStep_held | refine foldl_held (fun _ _ _ => ?_) ?_) | split | intro _ | dsimp only)

theorem State.noteFull_held (s : State) {qs vt} (hyp : s.Held qs vt) : (State.noteFull s).Held qs vt := by
  unfold State.noteFull
  (try dsimp only)
  repeat' (first | (with_reducible first | assumption | apply State.rset_held) | split | intro _ | dsimp only)

theorem State.refillWindow_held (s : State) (n : Nat) {qs vt} (hyp : s.Held qs vt) : (State.refillWindow s n).Held qs vt := by
  unfold State.refillWindow
  (try dsimp only)
  repeat' (first | (with_reducible first | assumption | apply State.onSession_held) | split | refine State.takePages_held _ _ (by assumption) ?_ | intro _ | dsimp only | refine Held.upd ?_ rfl rfl rfl)

theorem State.refillWindows_held (s : State) {qs vt} (hyp : s.Held qs vt) : (State.refillWindows s).Held qs vt := by
  unfold State.refillWindows
  (try dsimp only)
  repeat' (first | (with_reducible first | assumption | apply State.refillWindow_held | refine foldl_held (fun _ _ _ => ?_) ?_) | split | intro _ | dsimp only)

theorem State.takeRequestPages_held (s : State) (session cu input staging : Nat) {l l2 : List Nat} {t : State} {qs vt}  (e : State.takeRequestPages s session cu input staging = some (l, l2, t)) (hyp : s.Held qs vt) : t.Held qs vt := by
  unfold State.takeRequestPages at e
  (try dsimp only at e)
  (repeat' split at e) <;> first | (cases e; done) | (cases e; repeat' (first | (with_reducible first | assumption | apply State.onSession_held | apply State.refillWindow_held) | split | refine State.takePages_held _ _ (by assumption) ?_ | intro _ | dsimp only | refine Held.upd ?_ rfl rfl rfl)) | (obtain ⟨_, hx, e2⟩ := Option.map_eq_some_iff.1 e; clear e; cases e2; (repeat' (first | (with_reducible first | assumption | apply State.onSession_held | apply State.refillWindow_held) | split | refine State.takePages_held _ _ (by assumption) ?_ | intro _ | dsimp only | refine Held.upd ?_ rfl rfl rfl)); done) | (repeat' (first | (with_reducible first | assumption | apply State.onSession_held | apply State.refillWindow_held) | split | refine State.takePages_held _ _ (by assumption) ?_ | intro _ | dsimp only | refine Held.upd ?_ rfl rfl rfl))

theorem State.admitPass_held (s : State) (u : Submission) (height : Nat) {t : State} {qs vt}  (e : State.admitPass s u height = .ok t) (hyp : s.Held qs vt) : t.Held qs vt := by
  unfold State.admitPass at e
  (try dsimp only at e)
  (repeat' split at e) <;> first | (cases e; done) | (cases e; repeat' (first | (with_reducible first | assumption | apply State.count_held | apply State.journal_held | apply State.putPages_held | apply State.debit_held | apply State.enqueue_held | apply State.putRequest_held) | split | refine State.takeRequestPages_held _ _ _ _ _ (by assumption) ?_ | intro _ | dsimp only | refine Held.upd ?_ rfl rfl rfl)) | (obtain ⟨_, hx, e2⟩ := Option.map_eq_some_iff.1 e; clear e; cases e2; (repeat' (first | (with_reducible first | assumption | apply State.count_held | apply State.journal_held | apply State.putPages_held | apply State.debit_held | apply State.enqueue_held | apply State.putRequest_held) | split | refine State.takeRequestPages_held _ _ _ _ _ (by assumption) ?_ | intro _ | dsimp only | refine Held.upd ?_ rfl rfl rfl)); done) | (repeat' (first | (with_reducible first | assumption | apply State.count_held | apply State.journal_held | apply State.putPages_held | apply State.debit_held | apply State.enqueue_held | apply State.putRequest_held) | split | refine State.takeRequestPages_held _ _ _ _ _ (by assumption) ?_ | intro _ | dsimp only | refine Held.upd ?_ rfl rfl rfl))

theorem State.noteCount_held (s : State) (generator binding coat : Nat) {qs vt} (hyp : s.Held qs vt) : (State.noteCount s generator binding coat).Held qs vt := by
  unfold State.noteCount
  (try dsimp only)
  repeat' (first | (with_reducible first | assumption | apply State.rset_held) | split | intro _ | dsimp only)

theorem State.noteHeight_held (s : State) (slot h : Nat) (c : Code) {qs vt} (hyp : s.Held qs vt) : (State.noteHeight s slot h c).Held qs vt := by
  unfold State.noteHeight
  (try dsimp only)
  repeat' (first | (with_reducible first | assumption | apply State.rset_held | apply State.noteCount_held) | split | intro _ | dsimp only | refine Held.upd ?_ rfl rfl rfl)

theorem State.refuseWork_held (s : State) (m : Msg) (x : Session) (type replyType : Nat) (c : Code) (payload : List Byte) {qs vt} (hyp : s.Held qs vt) : (State.refuseWork s m x type replyType c payload).Held qs vt := by
  unfold State.refuseWork
  (try dsimp only)
  repeat' (first | (with_reducible first | assumption | apply State.count_held | apply State.journal_held | apply State.pushGrid_held | apply State.noteFull_held) | split | intro _ | dsimp only | refine Held.upd ?_ rfl rfl rfl)

theorem State.mirrorIn_held (s : State) (r : JRecord) {qs vt} (hyp : s.Held qs vt) : (State.mirrorIn s r).Held qs vt := by
  unfold State.mirrorIn
  (try dsimp only)
  repeat' (first | (with_reducible first | assumption | apply State.journal_held) | split | intro _ | dsimp only | refine Held.upd ?_ rfl rfl rfl)

theorem State.follow_held (s : State) (r : JRecord) (f : State → State) {qs vt} (hf : ∀ x0, x0.Held qs vt → (f x0).Held qs vt) (hyp : s.Held qs vt) : (State.follow s r f).Held qs vt := by
  unfold State.follow
  (try dsimp only)
  repeat' (first | (with_reducible first | assumption | apply hf | apply State.rset_held | apply State.journal_held) | split | intro _ | dsimp only | refine Held.upd ?_ rfl rfl rfl)

theorem passRefusal_held (m : Msg) (s : State) (x : Session) (c : Code) {qs vt} (hyp : s.Held qs vt) : (passRefusal m s x c).Held qs vt := by
  unfold passRefusal
  (try dsimp only)
  repeat' (first | (with_reducible first | assumption | apply State.noteHeight_held | apply State.refuseWork_held) | split | intro _ | dsimp only)

theorem genRefusal_held (m : Msg) (s : State) (x : Session) (c : Code) {qs vt} (hyp : s.Held qs vt) : (genRefusal m s x c).Held qs vt := by
  unfold genRefusal
  (try dsimp only)
  repeat' (first | (with_reducible first | assumption | apply State.refuseWork_held) | split | intro _ | dsimp only)

theorem submitPassEffect_held (m : Msg) (s : State) {qs vt} (hyp : s.Held qs vt) : (submitPassEffect m s).Held qs vt := by
  unfold submitPassEffect
  (try dsimp only)
  repeat' (first | (with_reducible first | assumption | apply State.withMsg_held | apply passRefusal_held) | split | refine State.admitPass_held _ _ _ (by assumption) ?_ | intro _ | dsimp only | refine Held.upd ?_ rfl rfl rfl)

theorem refusePass_held (m : Msg) (c : Code) (s : State) {qs vt} (hyp : s.Held qs vt) : (refusePass m c s).Held qs vt := by
  unfold refusePass
  (try dsimp only)
  repeat' (first | (with_reducible first | assumption | apply State.withMsg_held | apply passRefusal_held) | split | intro _ | dsimp only)

theorem State.sharedPages_held (s : State) (q slot customer : Nat) (g : Image) (prompt : List Nat) {l : Nat} {t : State} (e : s.sharedPages q slot customer g prompt = some (l, t)) {qs vt} (h : s.Held qs vt) : t.Held qs vt := by
  unfold State.sharedPages at e
  dsimp only at e
  split at e
  · cases e; exact State.putDesc_held _ _ _ h
  · obtain ⟨w, hw, e2⟩ := Option.map_eq_some_iff.1 e
    cases e2
    exact State.sharePages_held _ _ _ _ hw (State.putDesc_held _ _ _ h)

theorem State.firstPages_held (s : State) (q slot customer : Nat) (g : Image) (prompt : List Nat) {l : Nat} {t : State} (e : s.firstPages q slot customer g prompt = some (l, t)) {qs vt} (h : s.Held qs vt) : t.Held qs vt := by
  unfold State.firstPages at e
  split at e
  · cases e
  · cases e
    rename_i r _ hr
    exact State.sharedPages_held _ _ _ _ _ _ hr h
  · rename_i hr _
    obtain ⟨w, hw, e2⟩ := Option.map_eq_some_iff.1 e
    cases e2
    exact State.ensureChunks_held _ _ _ _ _ hw (State.sharedPages_held _ _ _ _ _ _ hr h)

theorem except_of_ite {ε α : Type} {c : Prop} [Decidable c] {x : ε} {y : Except ε α} {t : α} (e : (if c then .error x else y) = .ok t) : y = .ok t := by
  split at e
  · cases e
  · exact e
theorem State.admitGen_held (s : State) (u : Submission) (p : List Byte) {t : State} (e : s.admitGen u p = .ok t) {qs vt} (h : s.Held qs vt) : t.Held qs vt := by
  unfold State.admitGen at e
  extract_lets flags skim at e
  split at e
  · cases e
  · extract_lets slot plen limit bal nd prompt at e
    iterate 6 (replace e := except_of_ite e)
    split at e
    · cases e
    · split at e
      · cases e
      · split at e
        · cases e
        · rename_i e1 _ _ _ _ e2
          have h2 := State.takeRequestPages_held _ _ _ _ _ e2 (State.firstPages_held _ _ _ _ _ _ e1 h)
          cases e
          dsimp only
          with_reducible apply State.count_held
          have h3 : ∀ (x : State), x.Held qs vt → ∀ q k y z k2, (((x.putSeq q y).onSeq k z).putDesc q k2 |>.queueChunk q).Held qs vt := fun x hx q k y z k2 =>
            State.queueChunk_held _ _ (State.putDesc_held _ _ _ (State.onSeq_held _ _ _ (State.putSeq_held _ _ _ hx)))
          have h4 : ∀ (x : State), x.Held qs vt → ∀ r q y, (((x.putRequest r).putSeq q y).queueChunk q).Held qs vt := fun x hx r q y =>
            State.queueChunk_held _ _ (State.putSeq_held _ _ _ (State.putRequest_held _ _ hx))
          have h5 : ∀ (x : State), x.Held qs vt → ∀ l p c d a b r, (((x.putPages l 0 p).debit c d).journal a b r).Held qs vt := fun x hx l p c d a b r =>
            State.journal_held _ _ _ _ _ (State.debit_held _ _ _ (State.putPages_held _ _ _ _ hx))
          have h6 : ∀ (x : State) q k c g p, x.Held qs vt → ∀ d, ((x.sharedPages q k c g p).getD (0, x.putDesc q d)).2.Held qs vt := fun x q k c g p hx d => by
            cases hs : x.sharedPages q k c g p with
            | none => exact State.putDesc_held _ _ _ hx
            | some w => exact State.sharedPages_held _ _ _ _ _ _ hs hx
          repeat' (first | (with_reducible first | assumption | apply h4 | apply h5 | apply h6 | apply State.draw_held | apply State.queueChunk_held | apply State.onSeq_held | apply State.putSeq_held) | split)

theorem submitGenEffect_held (m : Msg) (s : State) {qs vt} (hyp : s.Held qs vt) : (submitGenEffect m s).Held qs vt := by
  unfold submitGenEffect
  (try dsimp only)
  repeat' (first | (with_reducible first | assumption | apply State.withMsg_held | apply genRefusal_held) | split | refine State.admitGen_held _ _ _ (by assumption) ?_ | intro _ | dsimp only | refine Held.upd ?_ rfl rfl rfl)

theorem refuseGen_held (m : Msg) (c : Code) (s : State) {qs vt} (hyp : s.Held qs vt) : (refuseGen m c s).Held qs vt := by
  unfold refuseGen
  (try dsimp only)
  repeat' (first | (with_reducible first | assumption | apply State.withMsg_held | apply genRefusal_held) | split | intro _ | dsimp only)

theorem State.preempt_held (s : State) (q : Nat) {qs vt} (hyp : s.Held qs vt) : (State.preempt s q).Held qs vt := by
  unfold State.preempt
  (try dsimp only)
  repeat' (first | (with_reducible first | assumption | apply State.count_held | apply State.journal_held | apply State.putDesc_held | apply State.shrink_held | apply State.putSeq_held) | split | intro _ | dsimp only | refine Held.upd ?_ rfl rfl rfl)

theorem State.preemptFor_held (s : State) (q c w n : Nat) {qs vt} (h : s.Held qs vt) : (s.preemptFor q c w n).Held qs vt := by
  induction n generalizing s with
  | zero => exact h
  | succ n ih =>
    unfold State.preemptFor
    dsimp only
    split
    · exact h
    · split
      · exact h
      · exact ih _ (State.preempt_held _ _ h)

theorem State.unitPages_held (s : State) (q : Nat) (positions : Nat) {qs vt} (hyp : s.Held qs vt) : (State.unitPages s q positions).1.Held qs vt := by
  unfold State.unitPages
  (try dsimp only)
  repeat' (first | (with_reducible first | assumption | apply State.rset_held | apply State.endSeq_held | apply State.preemptFor_held) | split | refine State.ensureChunks_held _ _ _ _ _ (by assumption) ?_ | intro _ | dsimp only | refine Held.upd ?_ rfl rfl rfl)
theorem State.unitPages_held' (s : State) (q : Nat) (positions : Nat) {qs vt t b}  (e : State.unitPages s q positions = (t, b)) (hyp : s.Held qs vt) : t.Held qs vt := by
  have x := State.unitPages_held s q positions  hyp
  rw [e] at x; exact x

theorem State.setCounts_held (s : State) (q from_ committed tree : Nat) {qs vt} (hyp : s.Held qs vt) : (State.setCounts s q from_ committed tree).Held qs vt := by
  unfold State.setCounts
  (try dsimp only)
  repeat' (first | (with_reducible first | assumption | apply State.putDram_held | refine foldl_held (fun _ _ _ => ?_) ?_) | split | intro _ | dsimp only | refine Held.upd ?_ rfl rfl rfl)

theorem State.copyEntry_held (s : State) (q : Nat) (k : KvShape) (src dst : Nat) {qs vt} (hyp : s.Held qs vt) : (State.copyEntry s q k src dst).Held qs vt := by
  unfold State.copyEntry
  (try dsimp only)
  repeat' (first | (with_reducible first | assumption | apply State.putDram_held | refine foldl_held (fun _ _ _ => ?_) ?_) | split | intro _ | dsimp only | refine Held.upd ?_ rfl rfl rfl)

theorem State.topUp_held (s : State) (q cost : Nat) {qs vt} (hyp : s.Held qs vt) : (State.topUp s q cost).Held qs vt := by
  unfold State.topUp
  (try dsimp only)
  repeat' (first | (with_reducible first | assumption | apply State.journal_held | apply State.debit_held | apply State.putSeq_held) | split | intro _ | dsimp only | refine Held.upd ?_ rfl rfl rfl)

theorem State.stopWalk_held (s : State) (q cost context : Nat) (l : List Nat) {qs vt} (h : s.Held qs vt) : (s.stopWalk q cost context l).1.Held qs vt := by
  induction l generalizing s with
  | nil => exact h
  | cons a l ih =>
    unfold State.stopWalk
    split
    · exact h
    · dsimp only
      have h1 := fun x => State.putSeq_held s q x h
      split
      · exact h
      · split
        · exact h
        · split
          · exact h1 _
          · split
            · exact h1 _
            · exact ih _ (State.topUp_held _ _ _ (h1 _))

theorem State.compact_held (s : State) (q root depth : Nat) (path : List Nat) {qs vt} (hyp : s.Held qs vt) : (State.compact s q root depth path).Held qs vt := by
  unfold State.compact
  (try dsimp only)
  repeat' (first | (with_reducible first | assumption | apply State.copyEntry_held | refine foldl_held (fun _ _ _ => ?_) ?_) | split | intro _ | dsimp only | refine Held.upd ?_ rfl rfl rfl)

theorem State.commitPages_held (s : State) (q root next : Nat) {qs vt} (hyp : s.Held qs vt) : (State.commitPages s q root next).Held qs vt := by
  unfold State.commitPages
  (try dsimp only)
  repeat' (first | (with_reducible first | assumption | apply State.shrink_held | apply State.setCounts_held) | split | intro _ | dsimp only | refine Held.upd ?_ rfl rfl rfl)

theorem State.takeDraft_held (s : State) (q : Nat) (x : Sequence) {qs vt} (hyp : s.Held qs vt) : (State.takeDraft s q x).Held qs vt := by
  unfold State.takeDraft
  (try dsimp only)
  repeat' (first | (with_reducible first | assumption | apply State.putSeq_held | apply State.queueStep_held | apply State.compact_held | apply State.commitPages_held) | split | intro _ | dsimp only | refine Held.upd ?_ rfl rfl rfl)

theorem stepEndEffect_held (q : Nat) (s : State) {qs vt} (hyp : s.Held qs vt) : (stepEndEffect q s).Held qs vt := by
  unfold stepEndEffect
  (try dsimp only)
  repeat' (first | (with_reducible first | assumption | apply State.count_held | apply State.journal_held | apply State.putSeq_held | apply State.recordStop_held | apply State.topUp_held | apply State.stopWalk_held | apply State.compact_held | apply State.takeDraft_held) | split | intro _ | dsimp only | refine Held.upd ?_ rfl rfl rfl)

theorem execDecodingStepEnd_held (seq : Nat) (s : State) {qs vt} (hyp : s.Held qs vt) : ∃ t, execDecodingStepEnd seq s = .next t ∧ t.Held qs vt :=
  ⟨_, rfl, stepEndEffect_held _ _ hyp⟩

theorem stepCommitEffect_held (q : Nat) (s : State) {qs vt} (hyp : s.Held qs vt) : (stepCommitEffect q s).Held qs vt := by
  unfold stepCommitEffect
  (try dsimp only)
  repeat' (first | (with_reducible first | assumption | apply State.putSeq_held | apply State.onSeq_held | apply State.sendTokens_held | apply State.finishSeq_held | apply State.endSeq_held | apply State.queueStep_held | apply State.commitPages_held) | split | intro _ | dsimp only | refine Held.upd ?_ rfl rfl rfl)

theorem execStepCommit_held (seq : Nat) (s : State) {qs vt} (hyp : s.Held qs vt) : ∃ t, execStepCommit seq s = .next t ∧ t.Held qs vt :=
  ⟨_, rfl, stepCommitEffect_held _ _ hyp⟩

theorem rebuildEffect_held (q : Nat) (s : State) {qs vt} (hyp : s.Held qs vt) : (rebuildEffect q s).Held qs vt := by
  unfold rebuildEffect
  (try dsimp only)
  repeat' (first | (with_reducible first | assumption | apply State.putSeq_held | apply State.queueChunk_held) | split | intro _ | dsimp only | refine Held.upd ?_ rfl rfl rfl)

theorem execSequenceRebuild_held (seq : Nat) (s : State) {qs vt} (hyp : s.Held qs vt) : ∃ t, execSequenceRebuild seq s = .next t ∧ t.Held qs vt :=
  ⟨_, rfl, rebuildEffect_held _ _ hyp⟩

theorem candidatesEffect_held (m : Msg) (s : State) {qs vt} (hyp : s.Held qs vt) : (candidatesEffect m s).Held qs vt := by
  unfold candidatesEffect
  (try dsimp only)
  repeat' (first | (with_reducible first | assumption | apply State.journal_held | apply State.reply_held | apply State.withMsg_held | apply State.onSeq_held | apply State.queueStep_held) | split | intro _ | dsimp only | refine Held.upd ?_ rfl rfl rfl)

theorem cancelEffect_held (m : Msg) (s : State) {qs vt} (hyp : s.Held qs vt) : (cancelEffect m s).Held qs vt := by
  unfold cancelEffect
  (try dsimp only)
  repeat' (first | (with_reducible first | assumption | apply State.journal_held | apply State.reply_held | apply State.withMsg_held | apply State.cancelRequest_held) | split | intro _ | dsimp only | refine Held.upd ?_ rfl rfl rfl)

theorem State.budgetDone_held (s : State) (m : Msg) (cu op : Nat) (a : Account) {qs vt} (hyp : s.Held qs vt) : (State.budgetDone s m cu op a).Held qs vt := by
  unfold State.budgetDone
  (try dsimp only)
  repeat' (first | (with_reducible first | assumption | apply State.journal_held | apply State.reply_held | apply State.putAccount_held) | split | intro _ | dsimp only)

theorem State.budgetSet_held (s : State) (m : Msg) (op : Nat) (body : State → Nat → Account → State) {qs vt} (hbody : ∀ x0 x1 x2, x0.Held qs vt → (body x0 x1 x2).Held qs vt) (hyp : s.Held qs vt) : (State.budgetSet s m op body).Held qs vt := by
  unfold State.budgetSet
  (try dsimp only)
  repeat' (first | (with_reducible first | assumption | apply hbody | apply State.reply_held | apply State.withMsg_held) | split | intro _ | dsimp only)

theorem budgetOpenEffect_held (m : Msg) (s : State) {qs vt} (hyp : s.Held qs vt) : (budgetOpenEffect m s).Held qs vt := by
  unfold budgetOpenEffect
  (try dsimp only)
  repeat' (first | (with_reducible first | assumption | apply State.budgetDone_held | apply State.budgetSet_held) | split | intro _ | dsimp only | refine Held.upd ?_ rfl rfl rfl)

theorem budgetCloseEffect_held (m : Msg) (s : State) {qs vt} (hyp : s.Held qs vt) : (budgetCloseEffect m s).Held qs vt := by
  unfold budgetCloseEffect
  (try dsimp only)
  repeat' (first | (with_reducible first | assumption | apply State.budgetDone_held | apply State.budgetSet_held) | split | intro _ | dsimp only | refine Held.upd ?_ rfl rfl rfl)

theorem budgetReadEffect_held (m : Msg) (s : State) {qs vt} (hyp : s.Held qs vt) : (budgetReadEffect m s).Held qs vt := by
  unfold budgetReadEffect
  (try dsimp only)
  repeat' (first | (with_reducible first | assumption | apply State.reply_held | apply State.budgetSet_held) | split | intro _ | dsimp only)

theorem execBudgetRead_held (m : Msg) (s : State) {qs vt} (hyp : s.Held qs vt) : ∃ t, execBudgetRead m s = .next t ∧ t.Held qs vt :=
  ⟨_, rfl, budgetReadEffect_held _ _ hyp⟩

theorem budgetGrantEffect_held (m : Msg) (s : State) {qs vt} (hyp : s.Held qs vt) : (budgetGrantEffect m s).Held qs vt := by
  unfold budgetGrantEffect
  (try dsimp only)
  repeat' (first | (with_reducible first | assumption | apply State.journal_held | apply State.reply_held | apply State.withMsg_held | apply State.putAccount_held) | split | intro _ | dsimp only | refine Held.upd ?_ rfl rfl rfl)

theorem refillEffect_held (cu : Nat) (s : State) {qs vt} (hyp : s.Held qs vt) : (refillEffect cu s).Held qs vt := by
  unfold refillEffect
  (try dsimp only)
  repeat' (first | (with_reducible first | assumption | apply State.journal_held | apply State.putAccount_held) | split | intro _ | dsimp only | refine Held.upd ?_ rfl rfl rfl)

theorem execRefillInterval_held (customer : Nat) (s : State) {qs vt} (hyp : s.Held qs vt) : ∃ t, execRefillInterval customer s = .next t ∧ t.Held qs vt :=
  ⟨_, rfl, refillEffect_held _ _ hyp⟩

theorem modelLoadEffect_held (m : Msg) (s : State) {qs vt} (hyp : s.Held qs vt) : (modelLoadEffect m s).Held qs vt := by
  unfold modelLoadEffect
  (try dsimp only)
  repeat' (first | (with_reducible first | assumption | apply State.journal_held | apply State.reply_held | apply State.withMsg_held | apply State.settleLoad_held | apply State.showFirst_held | apply State.enterLoading_held | apply State.noteFull_held) | split | intro _ | dsimp only | refine Held.upd ?_ rfl rfl rfl)

theorem State.modelUnload_held (s : State) (m : Msg) (mode : Nat) (body : State → Nat → State) {qs vt} (hbody : ∀ x0 x1, x0.Held qs vt → (body x0 x1).Held qs vt) (hyp : s.Held qs vt) : (State.modelUnload s m mode body).Held qs vt := by
  unfold State.modelUnload
  (try dsimp only)
  repeat' (first | (with_reducible first | assumption | apply hbody | apply State.journal_held | apply State.reply_held | apply State.withMsg_held | apply State.putSlot_held) | split | intro _ | dsimp only | refine Held.upd ?_ rfl rfl rfl)

theorem unloadDrainEffect_held (m : Msg) (s : State) {qs vt} (hyp : s.Held qs vt) : (unloadDrainEffect m s).Held qs vt := by
  unfold unloadDrainEffect
  (try dsimp only)
  repeat' (first | (with_reducible first | assumption | apply State.modelUnload_held) | split | intro _ | dsimp only)

theorem unloadAbortEffect_held (m : Msg) (s : State) {qs vt} (hyp : s.Held qs vt) : (unloadAbortEffect m s).Held qs vt := by
  unfold unloadAbortEffect
  (try dsimp only)
  repeat' (first | (with_reducible first | assumption | apply State.onSeq_held | apply State.dropSeq_held | apply State.failRequest_held | apply State.queueStep_held | apply State.modelUnload_held | refine foldl_held (fun _ _ _ => ?_) ?_) | split | intro _ | dsimp only | refine Held.upd ?_ rfl rfl rfl)

theorem slotEmptiedEffect_held (k : Nat) (s : State) {qs vt} (hyp : s.Held qs vt) : (slotEmptiedEffect k s).Held qs vt := by
  unfold slotEmptiedEffect
  (try dsimp only)
  repeat' (first | (with_reducible first | assumption | apply State.reply_held | apply State.replyTo_held | apply State.putSlot_held | apply State.releaseSlotRange_held) | split | intro _ | dsimp only | refine Held.upd ?_ rfl rfl rfl)

theorem execSlotEmptied_held (slot : Nat) (s : State) {qs vt} (hyp : s.Held qs vt) : ∃ t, execSlotEmptied slot s = .next t ∧ t.Held qs vt :=
  ⟨_, rfl, slotEmptiedEffect_held _ _ hyp⟩

theorem holdExpiryEffect_held (k : QueueKey) (s : State) {qs vt} (hyp : s.Held qs vt) : (holdExpiryEffect k s).Held qs vt := by
  unfold holdExpiryEffect
  (try dsimp only)
  repeat' (first | (with_reducible first | assumption) | split | intro _ | dsimp only | refine Held.upd ?_ rfl rfl rfl)

theorem execQueueHoldExpiry_held (q : QueueKey) (s : State) {qs vt} (hyp : s.Held qs vt) : ∃ t, execQueueHoldExpiry q s = .next t ∧ t.Held qs vt :=
  ⟨_, rfl, holdExpiryEffect_held _ _ hyp⟩

theorem deadlineEffect_held (row : Nat) (s : State) {qs vt} (hyp : s.Held qs vt) : (deadlineEffect row s).Held qs vt := by
  unfold deadlineEffect
  (try dsimp only)
  repeat' (first | (with_reducible first | assumption | apply State.debit_held | apply State.endPass_held | apply State.recordStop_held | apply State.finishSeq_held) | split | intro _ | dsimp only | refine Held.upd ?_ rfl rfl rfl)

theorem execRequestDeadline_held (row : Nat) (s : State) {qs vt} (hyp : s.Held qs vt) : ∃ t, execRequestDeadline row s = .next t ∧ t.Held qs vt :=
  ⟨_, rfl, deadlineEffect_held _ _ hyp⟩

theorem gridTickEffect_held (s : State) {qs vt} (hyp : s.Held qs vt) : (gridTickEffect s).Held qs vt := by
  unfold gridTickEffect
  (try dsimp only)
  repeat' (first | (with_reducible first | assumption | apply State.pushMsg_held | refine foldl_held (fun _ _ _ => ?_) ?_) | split | intro _ | dsimp only | refine Held.upd ?_ rfl rfl rfl)

theorem execReleaseGridTick_held (s : State) {qs vt} (hyp : s.Held qs vt) : ∃ t, execReleaseGridTick s = .next t ∧ t.Held qs vt :=
  ⟨_, rfl, gridTickEffect_held _ hyp⟩

theorem State.writeFixed_held (s : State) (on : Bool) {qs vt} (hyp : s.Held qs vt) : (State.writeFixed s on).Held qs vt := by
  unfold State.writeFixed
  (try dsimp only)
  repeat' (first | (with_reducible first | assumption | apply State.rset_held) | split | intro _ | dsimp only | refine Held.upd ?_ rfl rfl rfl)

theorem execFixedModeWrite_held (on : Bool) (s : State) {qs vt} (hyp : s.Held qs vt) : ∃ t, execFixedModeWrite on s = .next t ∧ t.Held qs vt :=
  ⟨_, rfl, State.writeFixed_held _ _ hyp⟩

theorem fixedTakesEffect_held (s : State) {qs vt} (hyp : s.Held qs vt) : (fixedTakesEffect s).Held qs vt := by
  unfold fixedTakesEffect
  (try dsimp only)
  repeat' (first | (with_reducible first | assumption | apply State.rset_held | apply State.count_held | refine foldl_held (fun _ _ _ => ?_) ?_) | split | intro _ | dsimp only | refine Held.upd ?_ rfl rfl rfl)

theorem execFixedModeTakesEffect_held (s : State) {qs vt} (hyp : s.Held qs vt) : ∃ t, execFixedModeTakesEffect s = .next t ∧ t.Held qs vt :=
  ⟨_, rfl, fixedTakesEffect_held _ hyp⟩

theorem State.haltBatch_held (s : State) {qs vt} (hyp : s.Held qs vt) : (State.haltBatch s).Held qs vt := by
  unfold State.haltBatch
  (try dsimp only)
  repeat' (first | (with_reducible first | assumption) | split | intro _ | dsimp only | refine Held.upd ?_ rfl rfl rfl)

theorem fixedSlotStart_held (s : State) {qs vt} (hyp : s.Held qs vt) : (fixedSlotStart s).Held qs vt := by
  unfold fixedSlotStart
  (try dsimp only)
  repeat' (first | (with_reducible first | assumption | apply State.rset_held | apply State.count_held | apply State.countHold_held | apply State.haltBatch_held) | split | intro _ | dsimp only | refine Held.upd ?_ rfl rfl rfl)

theorem execFixedSlotStart_held (s : State) {qs vt} (hyp : s.Held qs vt) : ∃ t, execFixedSlotStart s = .next t ∧ t.Held qs vt :=
  ⟨_, rfl, fixedSlotStart_held _ hyp⟩

theorem fixedSlotGuard_held (s : State) {qs vt} (hyp : s.Held qs vt) : (fixedSlotGuard s).Held qs vt := by
  unfold fixedSlotGuard
  (try dsimp only)
  repeat' (first | (with_reducible first | assumption | apply State.haltBatch_held) | split | intro _ | dsimp only | refine Held.upd ?_ rfl rfl rfl)

theorem execFixedSlotGuard_held (s : State) {qs vt} (hyp : s.Held qs vt) : ∃ t, execFixedSlotGuard s = .next t ∧ t.Held qs vt :=
  ⟨_, rfl, fixedSlotGuard_held _ hyp⟩

theorem State.leaveFixed_held (s : State) (cause : Nat) {qs vt} (hyp : s.Held qs vt) : (State.leaveFixed s cause).Held qs vt := by
  unfold State.leaveFixed
  (try dsimp only)
  repeat' (first | (with_reducible first | assumption | apply State.rset_held) | split | intro _ | dsimp only | refine Held.upd ?_ rfl rfl rfl)

end Sys2Proof.Machine
end

