-- ==== Sys2Proof/Laws/HeldArray.lean ====
section
/-! SUPPORT. HeldArray.lean: every operation and command of the matrix array, the feed engine, attention and the batches keeps `State.Held`. -/

set_option linter.all false


namespace Sys2Proof.Machine

theorem State.onBatch_held (s : State) (f : Batch → Batch) {qs vt} (hyp : s.Held qs vt) : (State.onBatch s f).Held qs vt := by
  unfold State.onBatch
  (try dsimp only)
  repeat' (first | (with_reducible first | assumption) | split | intro _ | dsimp only | refine Held.upd ?_ rfl rfl rfl)

theorem State.onRun_held (s : State) (i : Nat) (f : CoatRun → CoatRun) {qs vt} (hyp : s.Held qs vt) : (State.onRun s i f).Held qs vt := by
  unfold State.onRun
  (try dsimp only)
  repeat' (first | (with_reducible first | assumption | apply State.onBatch_held) | split | intro _ | dsimp only | refine Held.upd ?_ rfl rfl rfl)

theorem State.bindWrite_held (s : State) (w : Work) (i : Nat) (r : RowRec) (off : Nat) (p : List Byte) {qs vt} (hyp : s.Held qs vt) : (State.bindWrite s w i r off p).Held qs vt := by
  unfold State.bindWrite
  (try dsimp only)
  repeat' (first | (with_reducible first | assumption | apply State.putBank_held | apply State.putOwner_held | apply State.onRun_held) | split | intro _ | dsimp only | refine Held.upd ?_ rfl rfl rfl)

theorem State.raiseFlags_held (s : State) (i row : Nat) (f : NumFlags) (array : Bool) {qs vt} (hyp : s.Held qs vt) : (State.raiseFlags s i row f array).Held qs vt := by
  unfold State.raiseFlags
  (try dsimp only)
  repeat' (first | (with_reducible first | assumption | apply State.rsetIf_held | apply State.onRun_held) | split | intro _ | dsimp only)

theorem State.endRow_held (s : State) (i row : Nat) (c : Code) {qs vt} (hyp : s.Held qs vt) : (State.endRow s i row c).Held qs vt := by
  unfold State.endRow
  (try dsimp only)
  repeat' (first | (with_reducible first | assumption | apply State.onRun_held) | split | intro _ | dsimp only | refine Held.upd ?_ rfl rfl rfl)

theorem State.emptyRow_held (s : State) (i row : Nat) {qs vt} (hyp : s.Held qs vt) : (State.emptyRow s i row).Held qs vt := by
  unfold State.emptyRow
  (try dsimp only)
  repeat' (first | (with_reducible first | assumption | apply State.onRun_held) | split | intro _ | dsimp only | refine Held.upd ?_ rfl rfl rfl)

theorem State.stopKernels_held (s : State) (p : KernelRun → Bool) {qs vt} (h : s.Held qs vt) : (s.stopKernels p).Held qs vt :=
  { h with cores := by simpa [State.stopKernels] using h.cores }

theorem State.planBatch_held (s : State) {qs vt} (hyp : s.Held qs vt) : (State.planBatch s).Held qs vt := by
  unfold State.planBatch
  (try dsimp only)
  repeat' (first | (with_reducible first | assumption) | split | intro _ | dsimp only | refine Held.upd ?_ rfl rfl rfl)

theorem State.redoCoat_held (s : State) (w : Work) {qs vt} (hyp : s.Held qs vt) : (State.redoCoat s w).Held qs vt := by
  unfold State.redoCoat
  (try dsimp only)
  repeat' (first | (with_reducible first | assumption | apply State.onRun_held | refine foldl_held (fun _ _ _ => ?_) ?_) | split | intro _ | dsimp only | refine Held.upd ?_ rfl rfl rfl)

theorem State.release_held (s : State) (b : Batch) (i : Nat) (d : Delivery) {qs vt} (hyp : s.Held qs vt) : (State.release s b i d).Held qs vt := by
  unfold State.release
  (try dsimp only)
  repeat' (first | (with_reducible first | assumption | apply State.putPages_held | apply State.onRequest_held | apply State.onSeq_held | apply State.raiseFlags_held | apply State.endRow_held) | split | intro _ | dsimp only | refine Held.upd ?_ rfl rfl rfl)

theorem State.settleRow_held (s : State) (run : CoatRun) (c : Coat) (row : Nat) {qs vt} (hyp : s.Held qs vt) : (State.settleRow s run c row).Held qs vt := by
  unfold State.settleRow
  (try dsimp only)
  repeat' (first | (with_reducible first | assumption | apply State.putRequest_held | apply State.endPass_held | refine foldl_held (fun _ _ _ => ?_) ?_) | split | intro _ | dsimp only | refine Held.upd ?_ rfl rfl rfl)

theorem State.freeFrames_held (s : State) (rows : List RowRec) {qs vt} (hyp : s.Held qs vt) : (State.freeFrames s rows).Held qs vt := by
  unfold State.freeFrames
  (try dsimp only)
  repeat' (first | (with_reducible first | assumption) | split | intro _ | dsimp only | refine Held.upd ?_ rfl rfl rfl)

theorem State.endChunk_held (s : State) (u : QUnit) {qs vt} (hyp : s.Held qs vt) : (State.endChunk s u).Held qs vt := by
  unfold State.endChunk
  (try dsimp only)
  repeat' (first | (with_reducible first | assumption | apply State.putSeq_held | apply State.onSeq_held | apply State.endSeq_held | apply State.queueChunk_held | apply State.queueDraft_held | apply State.queueStep_held | apply State.setCounts_held) | split | intro _ | dsimp only | refine Held.upd ?_ rfl rfl rfl)

theorem State.endUnit_held (s : State) (u : QUnit) {qs vt} (hyp : s.Held qs vt) : (State.endUnit s u).Held qs vt := by
  unfold State.endUnit
  (try dsimp only)
  repeat' (first | (with_reducible first | assumption | apply State.putSeq_held) | split | intro _ | dsimp only | refine Held.upd ?_ rfl rfl rfl)

theorem State.closeUnit_held (s : State) (u : QUnit) {qs vt} (hyp : s.Held qs vt) : (State.closeUnit s u).Held qs vt := by
  unfold State.closeUnit
  (try dsimp only)
  repeat' (first | (with_reducible first | assumption | apply State.endPass_held | apply State.endChunk_held | apply State.endUnit_held) | split | intro _ | dsimp only | refine Held.upd ?_ rfl rfl rfl)

theorem State.endBatch_held (s : State) {qs vt} (hyp : s.Held qs vt) : (State.endBatch s).Held qs vt := by
  unfold State.endBatch
  (try dsimp only)
  repeat' (first | (with_reducible first | assumption | apply State.freeFrames_held | apply State.closeUnit_held | refine foldl_held (fun _ _ _ => ?_) ?_) | split | intro _ | dsimp only | refine Held.upd ?_ rfl rfl rfl)

theorem State.leaveBatch_held (s : State) {qs vt} (hyp : s.Held qs vt) : (State.leaveBatch s).Held qs vt := by
  unfold State.leaveBatch
  (try dsimp only)
  repeat' (first | (with_reducible first | assumption | apply State.onBatch_held) | split | intro _ | dsimp only | refine Held.upd ?_ rfl rfl rfl)

theorem State.restoreBatch_held (s : State) {qs vt} (hyp : s.Held qs vt) : (State.restoreBatch s).Held qs vt := by
  unfold State.restoreBatch
  (try dsimp only)
  repeat' (first | (with_reducible first | assumption | apply State.putBank_held | apply State.haltBatch_held | apply State.planBatch_held | refine foldl_held (fun _ _ _ => ?_) ?_) | split | intro _ | dsimp only | refine Held.upd ?_ rfl rfl rfl)

theorem State.nextCoat_held (s : State) {qs vt} (hyp : s.Held qs vt) : (State.nextCoat s).Held qs vt := by
  unfold State.nextCoat
  (try dsimp only)
  repeat' (first | (with_reducible first | assumption | apply State.haltBatch_held | apply State.endBatch_held) | split | intro _ | dsimp only | refine Held.upd ?_ rfl rfl rfl)

theorem State.completeCoat_held (s : State) (w : Work) {qs vt} (hyp : s.Held qs vt) : (State.completeCoat s w).Held qs vt := by
  unfold State.completeCoat
  (try dsimp only)
  repeat' (first | (with_reducible first | assumption | apply State.onRun_held | apply State.release_held | apply State.settleRow_held | apply State.nextCoat_held | refine foldl_held (fun _ _ _ => ?_) ?_) | split | intro _ | dsimp only | refine Held.upd ?_ rfl rfl rfl)

theorem State.clearBatch_held (s : State) {qs vt} (hyp : s.Held qs vt) : (State.clearBatch s).Held qs vt := by
  unfold State.clearBatch
  (try dsimp only)
  repeat' (first | (with_reducible first | assumption | apply State.stopKernels_held) | split | intro _ | dsimp only | refine Held.upd ?_ rfl rfl rfl)

theorem State.failCoat_held (s : State) (c : Code) (reason : Nat) {qs vt} (hyp : s.Held qs vt) : (State.failCoat s c reason).Held qs vt := by
  unfold State.failCoat
  (try dsimp only)
  repeat' (first | (with_reducible first | assumption | apply State.failRequest_held | apply State.freeFrames_held | apply State.clearBatch_held | refine foldl_held (fun _ _ _ => ?_) ?_) | split | intro _ | dsimp only | refine Held.upd ?_ rfl rfl rfl)

theorem State.discardBatch_held (s : State) {qs vt} (hyp : s.Held qs vt) : (State.discardBatch s).Held qs vt := by
  unfold State.discardBatch
  (try dsimp only)
  repeat' (first | (with_reducible first | assumption | apply State.clearBatch_held) | split | intro _ | dsimp only | refine Held.upd ?_ rfl rfl rfl)

theorem State.bankLoc_held (s : State) (master bank unit : Nat) {qs vt} (hyp : s.Held qs vt) : (State.bankLoc s master bank unit).Held qs vt := by
  unfold State.bankLoc
  (try dsimp only)
  repeat' (first | (with_reducible first | assumption | apply State.rset_held) | split | intro _ | dsimp only)

theorem State.openWindows_held (s : State) (w : Work) {qs vt} (hyp : s.Held qs vt) : (State.openWindows s w).Held qs vt := by
  unfold State.openWindows
  (try dsimp only)
  repeat' (first | (with_reducible first | assumption | apply State.rset_held | apply State.rsetIf_held | apply State.bankLoc_held) | split | intro _ | dsimp only | refine Held.upd ?_ rfl rfl rfl)

theorem State.dmaRefused_held (s : State) (m bank unit : Nat) {qs vt} (hyp : s.Held qs vt) : (State.dmaRefused s m bank unit).Held qs vt := by
  unfold State.dmaRefused
  (try dsimp only)
  repeat' (first | (with_reducible first | assumption | apply State.rset_held | apply State.healthEvent_held | apply State.discardBatch_held | apply State.bankLoc_held) | split | intro _ | dsimp only)

theorem State.holdAccess_held (s : State) (owner vpn : Nat) {qs vt} (hyp : s.Held qs vt) : (State.holdAccess s owner vpn).Held qs vt := by
  unfold State.holdAccess
  (try dsimp only)
  repeat' (first | (with_reducible first | assumption) | split | intro _ | dsimp only | refine Held.upd ?_ rfl rfl rfl)

theorem State.copyShared_held (s : State) (owner vpn : Nat) {t : State} {qs vt}  (e : State.copyShared s owner vpn = some t) (hyp : s.Held qs vt) : t.Held qs vt := by
  unfold State.copyShared at e
  (try dsimp only at e)
  (repeat' split at e) <;> first | (cases e; done) | (cases e; repeat' (first | (with_reducible first | assumption | apply State.putDram_held | apply State.updateEntry_held | apply State.freeMapped_held) | split | refine State.takePages_held _ _ (by assumption) ?_ | intro _ | dsimp only | refine Held.upd ?_ rfl rfl rfl)) | (obtain ⟨_, hx, e2⟩ := Option.map_eq_some_iff.1 e; clear e; cases e2; (repeat' (first | (with_reducible first | assumption | apply State.putDram_held | apply State.updateEntry_held | apply State.freeMapped_held) | split | refine State.takePages_held _ _ (by assumption) ?_ | intro _ | dsimp only | refine Held.upd ?_ rfl rfl rfl)); done) | (repeat' (first | (with_reducible first | assumption | apply State.putDram_held | apply State.updateEntry_held | apply State.freeMapped_held) | split | refine State.takePages_held _ _ (by assumption) ?_ | intro _ | dsimp only | refine Held.upd ?_ rfl rfl rfl))

theorem State.refuseAccess_held (s : State) (f : Field) (owner vpn master : Nat) {qs vt} (hyp : s.Held qs vt) : (State.refuseAccess s f owner vpn master).Held qs vt := by
  unfold State.refuseAccess
  (try dsimp only)
  repeat' (first | (with_reducible first | assumption | apply State.healthEvent_held | apply State.xltFault_held | apply State.failCoat_held) | split | intro _ | dsimp only)

theorem State.access_held (s : State) (owner vpn : Nat) (write : Bool) (master : Nat) {qs vt} (hyp : s.Held qs vt) : (State.access s owner vpn write master).1.Held qs vt := by
  unfold State.access
  (try dsimp only)
  repeat' (first | (with_reducible first | assumption | apply State.lookup_held | apply State.holdAccess_held | apply State.refuseAccess_held) | split | refine State.copyShared_held _ _ _ (by assumption) ?_ | intro _ | dsimp only | refine Held.upd ?_ rfl rfl rfl)
theorem State.access_held' (s : State) (owner vpn : Nat) (write : Bool) (master : Nat) {qs vt t b}  (e : State.access s owner vpn write master = (t, b)) (hyp : s.Held qs vt) : t.Held qs vt := by
  have x := State.access_held s owner vpn write master  hyp
  rw [e] at x; exact x

theorem State.accessAll_held (s : State) (m : Nat) (l : List (Nat × Nat × Bool)) {qs vt} (h : s.Held qs vt) : (s.accessAll m l).1.Held qs vt := by
  induction l generalizing s with
  | nil => exact h
  | cons a l ih =>
    unfold State.accessAll
    split
    · rename_i e
      have x := State.access_held s a.1 a.2.1 a.2.2 m h
      rw [e] at x
      exact ih _ x
    · rename_i e
      have x := State.access_held s a.1 a.2.1 a.2.2 m h
      rw [e] at x
      exact x
theorem State.accessAll_held' (s : State) (m : Nat) (l : List (Nat × Nat × Bool)) {t b} {qs vt} (e : s.accessAll m l = (t, b)) (h : s.Held qs vt) : t.Held qs vt := by
  have x := State.accessAll_held s m l h
  rw [e] at x; exact x

theorem State.reachOne_held (s : State) (w : Work) (m i : Nat) (write : Bool) {qs vt} (hyp : s.Held qs vt) : (State.reachOne s w m i write).1.Held qs vt := by
  unfold State.reachOne
  (try dsimp only)
  repeat' (first | (with_reducible first | assumption | apply State.dmaRefused_held | apply State.accessAll_held) | split | refine State.accessAll_held' _ _ _ (by assumption) ?_ | intro _ | dsimp only | refine Held.upd ?_ rfl rfl rfl)
theorem State.reachOne_held' (s : State) (w : Work) (m i : Nat) (write : Bool) {qs vt t b}  (e : State.reachOne s w m i write = (t, b)) (hyp : s.Held qs vt) : t.Held qs vt := by
  have x := State.reachOne_held s w m i write  hyp
  rw [e] at x; exact x

theorem State.reach_held (s : State) (w : Work) (m : Nat) (l : List (Nat × Bool)) {qs vt} (h : s.Held qs vt) : (s.reach w m l).1.Held qs vt := by
  induction l generalizing s with
  | nil => exact h
  | cons a l ih =>
    unfold State.reach
    split
    · rename_i e
      have x := State.reachOne_held s w m a.1 a.2 h
      rw [e] at x
      exact ih _ x
    · rename_i e
      have x := State.reachOne_held s w m a.1 a.2 h
      rw [e] at x
      exact x
theorem State.reach_held' (s : State) (w : Work) (m : Nat) (l : List (Nat × Bool)) {t b} {qs vt} (e : s.reach w m l = (t, b)) (h : s.Held qs vt) : t.Held qs vt := by
  have x := State.reach_held s w m l h
  rw [e] at x; exact x

theorem State.whenReached_held (s : State) (w : Work) (m : Nat) (l : List (Nat × Bool)) (f : State → State) {qs vt} (hf : ∀ x0, x0.Held qs vt → (f x0).Held qs vt) (hyp : s.Held qs vt) : (State.whenReached s w m l f).Held qs vt := by
  unfold State.whenReached
  (try dsimp only)
  repeat' (first | (with_reducible first | assumption | apply hf | apply State.openWindows_held | apply State.reach_held) | split | refine State.reach_held' _ _ _ _ (by assumption) ?_ | intro _ | dsimp only | refine Held.upd ?_ rfl rfl rfl)

theorem State.resumeHeld_held (s : State) {qs vt} (hyp : s.Held qs vt) : (State.resumeHeld s).Held qs vt := by
  unfold State.resumeHeld
  (try dsimp only)
  repeat' (first | (with_reducible first | assumption | refine foldl_held (fun _ _ _ => ?_) ?_) | split | refine State.copyShared_held _ _ _ (by assumption) ?_ | intro _ | dsimp only | refine Held.upd ?_ rfl rfl rfl)

theorem tileFetchDone_held (s : State) {qs vt} (hyp : s.Held qs vt) : (tileFetchDone s).Held qs vt := by
  unfold tileFetchDone
  (try dsimp only)
  repeat' (first | (with_reducible first | assumption | apply State.accessAll_held) | split | refine State.accessAll_held' _ _ _ (by assumption) ?_ | intro _ | dsimp only | refine Held.upd ?_ rfl rfl rfl)

theorem execTileFetchDone_held (s : State) {qs vt} (hyp : s.Held qs vt) : ∃ t, execTileFetchDone s = .next t ∧ t.Held qs vt :=
  ⟨_, rfl, tileFetchDone_held _ hyp⟩

theorem shadowWriteDone_held (s : State) {qs vt} (hyp : s.Held qs vt) : (shadowWriteDone s).Held qs vt := by
  unfold shadowWriteDone
  (try dsimp only)
  repeat' (first | (with_reducible first | assumption) | split | intro _ | dsimp only | refine Held.upd ?_ rfl rfl rfl)

theorem execShadowWriteDone_held (s : State) {qs vt} (hyp : s.Held qs vt) : ∃ t, execShadowWriteDone s = .next t ∧ t.Held qs vt :=
  ⟨_, rfl, shadowWriteDone_held _ hyp⟩

theorem State.noteArrayError_held (s : State) (e : ArrayError) (coat : Nat) {qs vt} (hyp : s.Held qs vt) : (State.noteArrayError s e coat).Held qs vt := by
  unfold State.noteArrayError
  (try dsimp only)
  repeat' (first | (with_reducible first | assumption | apply State.rset_held) | split | intro _ | dsimp only | refine Held.upd ?_ rfl rfl rfl)

theorem State.arrayError_held (s : State) (w : Work) (e : ArrayError) {qs vt} (hyp : s.Held qs vt) : (State.arrayError s w e).Held qs vt := by
  unfold State.arrayError
  (try dsimp only)
  repeat' (first | (with_reducible first | assumption | apply State.rset_held | apply State.healthEvent_held | apply State.startSlice_held | apply State.redoCoat_held | apply State.discardBatch_held | apply State.noteArrayError_held) | split | intro _ | dsimp only | refine Held.upd ?_ rfl rfl rfl)

theorem State.issuePass_held (s : State) (w : Work) (o : Op) (p : Pass) (t : Tile) (kept : Bool) {qs vt} (hyp : s.Held qs vt) : (State.issuePass s w o p t kept).Held qs vt := by
  unfold State.issuePass
  (try dsimp only)
  repeat' (first | (with_reducible first | assumption | apply State.rset_held | apply State.count_held | apply State.count64_held | apply State.onRun_held) | split | intro _ | dsimp only | refine Held.upd ?_ rfl rfl rfl)

theorem passIssue_held (parity : Option (Option Nat × Option Nat)) (s : State) {qs vt} (hyp : s.Held qs vt) : (passIssue parity s).Held qs vt := by
  unfold passIssue
  (try dsimp only)
  repeat' (first | (with_reducible first | assumption | apply State.whenReached_held | apply State.arrayError_held | apply State.issuePass_held) | split | intro _ | dsimp only | refine Held.upd ?_ rfl rfl rfl)

theorem execPassIssue_held (parity : Option (Option Nat × Option Nat)) (s : State) {qs vt} (hyp : s.Held qs vt) : ∃ t, execPassIssue parity s = .next t ∧ t.Held qs vt :=
  ⟨_, rfl, passIssue_held _ _ hyp⟩

theorem State.landPass_held (s : State) (w : Work) (o : Op) (f : Flight) {qs vt} (hyp : s.Held qs vt) : (State.landPass s w o f).Held qs vt := by
  unfold State.landPass
  (try dsimp only)
  repeat' (first | (with_reducible first | assumption | apply State.onRun_held) | split | intro _ | dsimp only | refine Held.upd ?_ rfl rfl rfl)

theorem State.countCorrected_held (s : State) (n : Nat) {qs vt} (hyp : s.Held qs vt) : (State.countCorrected s n).Held qs vt := by
  unfold State.countCorrected
  (try dsimp only)
  repeat' (first | (with_reducible first | assumption | apply State.countHold_held) | split | intro _ | dsimp only)

theorem passLanded_held (error : Option ArrayError) (corrected : Nat) (s : State) {qs vt} (hyp : s.Held qs vt) : (passLanded error corrected s).Held qs vt := by
  unfold passLanded
  (try dsimp only)
  repeat' (first | (with_reducible first | assumption | apply State.arrayError_held | apply State.landPass_held | apply State.countCorrected_held) | split | intro _ | dsimp only | refine Held.upd ?_ rfl rfl rfl)

theorem execPassLanded_held (error : Option ArrayError) (corrected : Nat) (s : State) {qs vt} (hyp : s.Held qs vt) : ∃ t, execPassLanded error corrected s = .next t ∧ t.Held qs vt :=
  ⟨_, rfl, passLanded_held _ _ _ hyp⟩

theorem State.writeColumns_held (s : State) (w : Work) (o : Op) (f : Format) (px : Nat × Nat × Nat) (n0 n : Nat) (bytes : List Byte) {qs vt} (hyp : s.Held qs vt) : (State.writeColumns s w o f px n0 n bytes).Held qs vt := by
  unfold State.writeColumns
  (try dsimp only)
  repeat' (first | (with_reducible first | assumption | apply State.bindWrite_held) | split | intro _ | dsimp only | refine Held.upd ?_ rfl rfl rfl)

theorem State.drainEntry_held (s : State) (w : Work) (o : Op) (f : Format) (x : AccBank) (p : Pass) (i : Nat) {qs vt} (hyp : s.Held qs vt) : (State.drainEntry s w o f x p i).Held qs vt := by
  unfold State.drainEntry
  (try dsimp only)
  repeat' (first | (with_reducible first | assumption | apply State.raiseFlags_held | apply State.writeColumns_held) | split | intro _ | dsimp only | refine Held.upd ?_ rfl rfl rfl)

theorem State.drainFrom_held (s : State) (k : Nat) (refuses : Option Nat) (error : Option ArrayError) (corrected : Nat) {qs vt} (hyp : s.Held qs vt) : (State.drainFrom s k refuses error corrected).Held qs vt := by
  unfold State.drainFrom
  (try dsimp only)
  repeat' (first | (with_reducible first | assumption | apply State.whenReached_held | apply State.arrayError_held | apply State.countCorrected_held | apply State.drainEntry_held | refine foldl_held (fun _ _ _ => ?_) ?_) | split | intro _ | dsimp only | refine Held.upd ?_ rfl rfl rfl)

theorem bankDrainStart_held (bank : Nat) (refuses : Option Nat) (error : Option ArrayError) (corrected : Nat) (s : State) {qs vt} (hyp : s.Held qs vt) : (bankDrainStart bank refuses error corrected s).Held qs vt := by
  unfold bankDrainStart
  (try dsimp only)
  repeat' (first | (with_reducible first | assumption | apply State.drainFrom_held) | split | intro _ | dsimp only)

theorem execBankDrainStart_held (bank : Nat) (refuses : Option Nat) (error : Option ArrayError) (corrected : Nat) (s : State) {qs vt} (hyp : s.Held qs vt) : ∃ t, execBankDrainStart bank refuses error corrected s = .next t ∧ t.Held qs vt :=
  ⟨_, rfl, bankDrainStart_held _ _ _ _ _ hyp⟩

theorem drainResume_held (bank : Nat) (refuses : Option Nat) (error : Option ArrayError) (corrected : Nat) (s : State) {qs vt} (hyp : s.Held qs vt) : (drainResume bank refuses error corrected s).Held qs vt := by
  unfold drainResume
  (try dsimp only)
  repeat' (first | (with_reducible first | assumption | apply State.drainFrom_held) | split | intro _ | dsimp only)

theorem execDrainResume_held (bank : Nat) (refuses : Option Nat) (error : Option ArrayError) (corrected : Nat) (s : State) {qs vt} (hyp : s.Held qs vt) : ∃ t, execDrainResume bank refuses error corrected s = .next t ∧ t.Held qs vt :=
  ⟨_, rfl, drainResume_held _ _ _ _ _ hyp⟩

theorem drainEnd_held (bank : Nat) (s : State) {qs vt} (hyp : s.Held qs vt) : (drainEnd bank s).Held qs vt := by
  unfold drainEnd
  (try dsimp only)
  repeat' (first | (with_reducible first | assumption | apply State.onRun_held) | split | intro _ | dsimp only | refine Held.upd ?_ rfl rfl rfl)

theorem execDrainEnd_held (bank : Nat) (s : State) {qs vt} (hyp : s.Held qs vt) : ∃ t, execDrainEnd bank s = .next t ∧ t.Held qs vt :=
  ⟨_, rfl, drainEnd_held _ _ hyp⟩

theorem coatComplete_held (coat : Nat) (s : State) {qs vt} (hyp : s.Held qs vt) : (coatComplete coat s).Held qs vt := by
  unfold coatComplete
  (try dsimp only)
  repeat' (first | (with_reducible first | assumption | apply State.completeCoat_held) | split | intro _ | dsimp only | refine Held.upd ?_ rfl rfl rfl)

theorem activationSpill_held (s : State) {qs vt} (hyp : s.Held qs vt) : (activationSpill s).Held qs vt := by
  unfold activationSpill
  (try dsimp only)
  repeat' (first | (with_reducible first | assumption | apply State.onBatch_held | apply State.leaveBatch_held | apply State.restoreBatch_held) | split | intro _ | dsimp only | refine Held.upd ?_ rfl rfl rfl)

theorem execActivationSpill_held (s : State) {qs vt} (hyp : s.Held qs vt) : ∃ t, execActivationSpill s = .next t ∧ t.Held qs vt :=
  ⟨_, rfl, activationSpill_held _ hyp⟩

theorem State.loadStripeRow_held (s : State) (w : Work) (p : Program) (rs k : Nat) (r : RowRec) {qs vt} (hyp : s.Held qs vt) : (State.loadStripeRow s w p rs k r).Held qs vt := by
  unfold State.loadStripeRow
  (try dsimp only)
  repeat' (first | (with_reducible first | assumption | apply State.count64_held | apply State.bindWrite_held) | split | intro _ | dsimp only)

theorem Work.eachRow_held (w : Work) (s : State) (f : State → Nat → RowRec → State) {qs vt} (hf : ∀ x0 x1 x2, x0.Held qs vt → (f x0 x1 x2).Held qs vt) (hyp : s.Held qs vt) : (Work.eachRow w s f).Held qs vt := by
  unfold Work.eachRow
  (try dsimp only)
  repeat' (first | (with_reducible first | assumption | apply hf | refine foldl_held (fun _ _ _ => ?_) ?_) | split | intro _ | dsimp only | refine Held.upd ?_ rfl rfl rfl)

theorem stripeLoadDone_held (coat : Nat) (s : State) {qs vt} (hyp : s.Held qs vt) : (stripeLoadDone coat s).Held qs vt := by
  unfold stripeLoadDone
  (try dsimp only)
  repeat' (first | (with_reducible first | assumption | apply State.onRun_held | apply State.whenReached_held | apply State.loadStripeRow_held | apply Work.eachRow_held | refine foldl_held (fun _ _ _ => ?_) ?_) | split | intro _ | dsimp only | refine Held.upd ?_ rfl rfl rfl)

theorem execStripeLoadDone_held (coat : Nat) (s : State) {qs vt} (hyp : s.Held qs vt) : ∃ t, execStripeLoadDone coat s = .next t ∧ t.Held qs vt :=
  ⟨_, rfl, stripeLoadDone_held _ _ hyp⟩

theorem State.runProgram_held (s : State) (w : Work) (p : Program) (j : Nat) (f : State → Nat → RowRec → State) {qs vt} (hf : ∀ x0 x1 x2, x0.Held qs vt → (f x0 x1 x2).Held qs vt) (hyp : s.Held qs vt) : (State.runProgram s w p j f).Held qs vt := by
  unfold State.runProgram
  (try dsimp only)
  repeat' (first | (with_reducible first | assumption | apply hf | apply State.onRun_held | apply State.whenReached_held | apply Work.eachRow_held) | split | intro _ | dsimp only | refine Held.upd ?_ rfl rfl rfl)

theorem windowGather_held (coat : Nat) (s : State) {qs vt} (hyp : s.Held qs vt) : (windowGather coat s).Held qs vt := by
  unfold windowGather
  (try dsimp only)
  repeat' (first | (with_reducible first | assumption | apply State.bindWrite_held | apply State.emptyRow_held | apply State.runProgram_held | refine foldl_held (fun _ _ _ => ?_) ?_) | split | intro _ | dsimp only | refine Held.upd ?_ rfl rfl rfl)

theorem execWindowGather_held (coat : Nat) (s : State) {qs vt} (hyp : s.Held qs vt) : ∃ t, execWindowGather coat s = .next t ∧ t.Held qs vt :=
  ⟨_, rfl, windowGather_held _ _ hyp⟩

theorem State.cropBox_held (s : State) (w : Work) (p : Program) (f : Format) (k : Nat) (r : RowRec) (base n : Nat) (box : List Int) {qs vt} (hyp : s.Held qs vt) : (State.cropBox s w p f k r base n box).Held qs vt := by
  unfold State.cropBox
  (try dsimp only)
  repeat' (first | (with_reducible first | assumption | apply State.bindWrite_held | apply State.raiseFlags_held | refine foldl_held (fun _ _ _ => ?_) ?_) | split | intro _ | dsimp only)

theorem cropAndResize_held (coat : Nat) (s : State) {qs vt} (hyp : s.Held qs vt) : (cropAndResize coat s).Held qs vt := by
  unfold cropAndResize
  (try dsimp only)
  repeat' (first | (with_reducible first | assumption | apply State.count_held | apply State.noteCount_held | apply State.endRow_held | apply State.emptyRow_held | apply State.runProgram_held | apply State.cropBox_held | refine foldl_held (fun _ _ _ => ?_) ?_) | split | intro _ | dsimp only | refine Held.upd ?_ rfl rfl rfl)

theorem execCropAndResize_held (coat : Nat) (s : State) {qs vt} (hyp : s.Held qs vt) : ∃ t, execCropAndResize coat s = .next t ∧ t.Held qs vt :=
  ⟨_, rfl, cropAndResize_held _ _ hyp⟩

theorem State.argmaxPixel_held (s : State) (w : Work) (p : Program) (f : Format) (k : Nat) (r : RowRec) (q : Nat) {qs vt} (hyp : s.Held qs vt) : (State.argmaxPixel s w p f k r q).Held qs vt := by
  unfold State.argmaxPixel
  (try dsimp only)
  repeat' (first | (with_reducible first | assumption | apply State.bindWrite_held | apply State.raiseFlags_held) | split | intro _ | dsimp only)

theorem argmaxEffect_held (coat : Nat) (s : State) {qs vt} (hyp : s.Held qs vt) : (argmaxEffect coat s).Held qs vt := by
  unfold argmaxEffect
  (try dsimp only)
  repeat' (first | (with_reducible first | assumption | apply State.runProgram_held | apply State.argmaxPixel_held | refine foldl_held (fun _ _ _ => ?_) ?_) | split | intro _ | dsimp only | refine Held.upd ?_ rfl rfl rfl)

theorem execArgmax_held (coat : Nat) (s : State) {qs vt} (hyp : s.Held qs vt) : ∃ t, execArgmax coat s = .next t ∧ t.Held qs vt :=
  ⟨_, rfl, argmaxEffect_held _ _ hyp⟩

theorem State.writeKv_held (s : State) (w : Work) (a : AttnRec) (kv : KvShape) (k h : Nat) (r : RowRec) {qs vt} (hyp : s.Held qs vt) : (State.writeKv s w a kv k h r).Held qs vt := by
  unfold State.writeKv
  (try dsimp only)
  repeat' (first | (with_reducible first | assumption | apply State.putDram_held | apply State.raiseFlags_held) | split | intro _ | dsimp only | refine Held.upd ?_ rfl rfl rfl)

theorem State.attendRow_held (s : State) (w : Work) (a : AttnRec) (kv : KvShape) (f : AttnFmt) (k : Nat) (r : RowRec) {qs vt} (hyp : s.Held qs vt) : (State.attendRow s w a kv f k r).Held qs vt := by
  unfold State.attendRow
  (try dsimp only)
  repeat' (first | (with_reducible first | assumption | apply State.bindWrite_held | apply State.raiseFlags_held) | split | intro _ | dsimp only)

theorem State.countPasses_held (s : State) (b : Batch) (a : AttnRec) (kv : KvShape) {qs vt} (hyp : s.Held qs vt) : (State.countPasses s b a kv).Held qs vt := by
  unfold State.countPasses
  (try dsimp only)
  repeat' (first | (with_reducible first | assumption | apply State.count_held | apply State.count64_held | refine foldl_held (fun _ _ _ => ?_) ?_) | split | intro _ | dsimp only)

theorem State.attendRows_held (s : State) (w : Work) (a : AttnRec) (kv : KvShape) (f : AttnFmt) {qs vt} (hyp : s.Held qs vt) : (State.attendRows s w a kv f).Held qs vt := by
  unfold State.attendRows
  (try dsimp only)
  repeat' (first | (with_reducible first | assumption | apply State.onRun_held | apply Work.eachRow_held | apply State.writeKv_held | apply State.attendRow_held | apply State.countPasses_held | refine foldl_held (fun _ _ _ => ?_) ?_) | split | intro _ | dsimp only | refine Held.upd ?_ rfl rfl rfl)

theorem fusedAttention_held (coat : Nat) (s : State) {qs vt} (hyp : s.Held qs vt) : (fusedAttention coat s).Held qs vt := by
  unfold fusedAttention
  (try dsimp only)
  repeat' (first | (with_reducible first | assumption | apply State.openWindows_held | apply State.accessAll_held | apply State.reach_held | apply State.whenReached_held | apply State.attendRows_held) | split | refine State.accessAll_held' _ _ _ (by assumption) ?_ | refine State.reach_held' _ _ _ _ (by assumption) ?_ | intro _ | dsimp only | refine Held.upd ?_ rfl rfl rfl)

theorem execFusedAttention_held (coat : Nat) (s : State) {qs vt} (hyp : s.Held qs vt) : ∃ t, execFusedAttention coat s = .next t ∧ t.Held qs vt :=
  ⟨_, rfl, fusedAttention_held _ _ hyp⟩

theorem State.pageUnit_held (s : State) (u : QUnit) {qs vt} (hyp : s.Held qs vt) : (State.pageUnit s u).1.Held qs vt := by
  unfold State.pageUnit
  (try dsimp only)
  repeat' (first | (with_reducible first | assumption | apply State.unitPages_held) | split | refine State.unitPages_held' _ _ _ (by assumption) ?_ | intro _ | dsimp only)
theorem State.pageUnit_held' (s : State) (u : QUnit) {qs vt t b}  (e : State.pageUnit s u = (t, b)) (hyp : s.Held qs vt) : t.Held qs vt := by
  have x := State.pageUnit_held s u  hyp
  rw [e] at x; exact x

theorem State.pageUnits_held (s : State) (l : List QUnit) {qs vt} (h : s.Held qs vt) : (s.pageUnits l).1.Held qs vt := by
  induction l generalizing s with
  | nil => exact h
  | cons u l ih => unfold State.pageUnits; exact ih _ (State.pageUnit_held _ _ h)
theorem State.pageUnits_held' (s : State) (l : List QUnit) {t b} {qs vt} (e : s.pageUnits l = (t, b)) (h : s.Held qs vt) : t.Held qs vt := by
  have x := State.pageUnits_held s l h
  rw [e] at x; exact x

theorem State.startUnit_held (s : State) (u : QUnit) {qs vt} (hyp : s.Held qs vt) : (State.startUnit s u).Held qs vt := by
  unfold State.startUnit
  (try dsimp only)
  repeat' (first | (with_reducible first | assumption | apply State.onRequest_held | apply State.onSeq_held | apply State.setCounts_held) | split | intro _ | dsimp only | refine Held.upd ?_ rfl rfl rfl)

theorem State.formBatch_held (s : State) (key : QueueKey) (units : List QUnit) {qs vt} (hyp : s.Held qs vt) : (State.formBatch s key units).Held qs vt := by
  unfold State.formBatch
  (try dsimp only)
  repeat' (first | (with_reducible first | assumption | apply State.count_held | apply State.putAccount_held | apply State.planBatch_held | apply State.pageUnits_held | apply State.startUnit_held | refine foldl_held (fun _ _ _ => ?_) ?_) | split | refine State.pageUnits_held' _ _ (by assumption) ?_ | intro _ | dsimp only | refine Held.upd ?_ rfl rfl rfl)

theorem batchStart_held (s : State) {qs vt} (hyp : s.Held qs vt) : (batchStart s).Held qs vt := by
  unfold batchStart
  (try dsimp only)
  repeat' (first | (with_reducible first | assumption | apply State.formBatch_held) | split | intro _ | dsimp only | refine Held.upd ?_ rfl rfl rfl)

end Sys2Proof.Machine
end

