-- ==== Sys2Proof/Laws/HeldMemory.lean ====
section
/-! SUPPORT. HeldMemory.lean: every operation and command of the video engine, model loads, memory and frames keeps `State.Held`. -/

set_option linter.all false


namespace Sys2Proof.Machine

theorem videoOpenEffect_held (m : Msg) (s : State) {qs vt} (hyp : s.Held qs vt) : (videoOpenEffect m s).Held qs vt := by
  unfold videoOpenEffect
  (try dsimp only)
  repeat' (first | (with_reducible first | assumption | apply State.reply_held | apply State.withMsg_held | apply State.putVideo_held) | split | intro _ | dsimp only | refine Held.upd ?_ rfl rfl rfl)

theorem execVideoOpen_held (m : Msg) (s : State) {qs vt} (hyp : s.Held qs vt) : ∃ t, execVideoOpen m s = .next t ∧ t.Held qs vt :=
  ⟨_, rfl, videoOpenEffect_held _ _ hyp⟩

theorem State.offerUnits_held (s : State) (c : Nat) {qs vt} (hyp : s.Held qs vt) : (State.offerUnits s c).Held qs vt := by
  unfold State.offerUnits
  (try dsimp only)
  repeat' (first | (with_reducible first | assumption | apply State.putVideo_held) | split | intro _ | dsimp only | refine Held.upd ?_ rfl rfl rfl)

theorem State.videoData_held (s : State) (m : Msg) (session : Nat) {qs vt} (hyp : s.Held qs vt) : (State.videoData s m session).1.Held qs vt := by
  unfold State.videoData
  (try dsimp only)
  repeat' (first | (with_reducible first | assumption | apply State.journal_held | apply State.putVideo_held | apply State.noteFull_held | apply State.offerUnits_held) | split | intro _ | dsimp only | refine Held.upd ?_ rfl rfl rfl)
theorem State.videoData_held' (s : State) (m : Msg) (session : Nat) {qs vt t b}  (e : State.videoData s m session = (t, b)) (hyp : s.Held qs vt) : t.Held qs vt := by
  have x := State.videoData_held s m session  hyp
  rw [e] at x; exact x

theorem State.withhold_held (s : State) (m : Msg) {qs vt} (hyp : s.Held qs vt) : (State.withhold s m).Held qs vt := by
  unfold State.withhold
  (try dsimp only)
  repeat' (first | (with_reducible first | assumption | apply State.onSession_held | apply State.putVideo_held) | split | intro _ | dsimp only | refine Held.upd ?_ rfl rfl rfl)

theorem videoDataEffect_held (m : Msg) (s : State) {qs vt} (hyp : s.Held qs vt) : (videoDataEffect m s).Held qs vt := by
  unfold videoDataEffect
  (try dsimp only)
  repeat' (first | (with_reducible first | assumption | apply State.reply_held | apply State.withMsg_held | apply State.videoData_held | apply State.withhold_held) | split | refine State.videoData_held' _ _ _ (by assumption) ?_ | intro _ | dsimp only | refine Held.upd ?_ rfl rfl rfl)

theorem execVideoData_held (m : Msg) (s : State) {qs vt} (hyp : s.Held qs vt) : ∃ t, execVideoData m s = .next t ∧ t.Held qs vt :=
  ⟨_, rfl, videoDataEffect_held _ _ hyp⟩

theorem State.unhold_held (s : State) (c : Nat) {qs vt} (hyp : s.Held qs vt) : (State.unhold s c).Held qs vt := by
  unfold State.unhold
  (try dsimp only)
  repeat' (first | (with_reducible first | assumption | apply State.onSession_held | apply State.putVideo_held) | split | intro _ | dsimp only | refine Held.upd ?_ rfl rfl rfl)

theorem State.endVideo_held (s : State) (c : Nat) (r : ReplyTo) {qs vt} (hyp : s.Held qs vt) : (State.endVideo s c r).Held qs vt := by
  unfold State.endVideo
  (try dsimp only)
  repeat' (first | (with_reducible first | assumption | apply State.replyTo_held | apply State.dropVideo_held) | split | intro _ | dsimp only)

theorem State.settleVideo_held (s : State) (c : Nat) {qs vt} (hyp : s.Held qs vt) : (State.settleVideo s c).Held qs vt := by
  unfold State.settleVideo
  (try dsimp only)
  repeat' (first | (with_reducible first | assumption | apply State.putVideo_held | apply State.unhold_held | apply State.endVideo_held) | split | intro _ | dsimp only | refine Held.upd ?_ rfl rfl rfl)

theorem State.settleBoth_held (s : State) (c : Nat) {qs vt} (hyp : s.Held qs vt) : (State.settleBoth s c).Held qs vt := by
  unfold State.settleBoth
  (try dsimp only)
  repeat' (first | (with_reducible first | assumption | apply State.settleVideo_held | refine foldl_held (fun _ _ _ => ?_) ?_) | split | intro _ | dsimp only)

theorem State.closeVideo_held (s : State) (m : Msg) (body : State → Nat → State) (mode : Nat) {qs vt} (hbody : ∀ x0 x1, x0.Held qs vt → (body x0 x1).Held qs vt) (hyp : s.Held qs vt) : (State.closeVideo s m body mode).Held qs vt := by
  unfold State.closeVideo
  (try dsimp only)
  repeat' (first | (with_reducible first | assumption | apply hbody | apply State.reply_held | apply State.withMsg_held) | split | intro _ | dsimp only | refine Held.upd ?_ rfl rfl rfl)

theorem State.outputPicture_held (s : State) (c n : Nat) {qs vt} (hyp : s.Held qs vt) : (State.outputPicture s c n).Held qs vt := by
  unfold State.outputPicture
  (try dsimp only)
  repeat' (first | (with_reducible first | assumption | apply State.putVideo_held) | split | intro _ | dsimp only | refine Held.upd ?_ rfl rfl rfl)

theorem State.stopVideo_held (s : State) (c : Nat) {qs vt} (hyp : s.Held qs vt) : (State.stopVideo s c).Held qs vt := by
  unfold State.stopVideo
  (try dsimp only)
  repeat' (first | (with_reducible first | assumption | apply State.putVideo_held | apply State.outputPicture_held | refine foldl_held (fun _ _ _ => ?_) ?_) | split | intro _ | dsimp only | refine Held.upd ?_ rfl rfl rfl)

theorem State.freePipe_held (s : State) (pipe : Nat) {qs vt} (hyp : s.Held qs vt) : (State.freePipe s pipe).Held qs vt := by
  unfold State.freePipe
  (try dsimp only)
  repeat' (first | (with_reducible first | assumption) | split | intro _ | dsimp only | refine Held.upd ?_ rfl rfl rfl)

theorem decodeStart_held (s : State) {qs vt} (hyp : s.Held qs vt) : (decodeStart s).Held qs vt := by
  unfold decodeStart
  (try dsimp only)
  repeat' (first | (with_reducible first | assumption | apply State.putVideo_held | refine foldl_held (fun _ _ _ => ?_) ?_) | split | intro _ | dsimp only | refine Held.upd ?_ rfl rfl rfl)

theorem execPictureDecodeStart_held (s : State) {qs vt} (hyp : s.Held qs vt) : ∃ t, execPictureDecodeStart s = .next t ∧ t.Held qs vt :=
  ⟨_, rfl, decodeStart_held _ hyp⟩

theorem State.videoLoc_held (s : State) (c picture : Nat) {qs vt} (hyp : s.Held qs vt) : (State.videoLoc s c picture).Held qs vt := by
  unfold State.videoLoc
  (try dsimp only)
  repeat' (first | (with_reducible first | assumption | apply State.rset_held) | split | intro _ | dsimp only)

theorem watchdogEffect_held (pipe block : Nat) (s : State) {qs vt} (hyp : s.Held qs vt) : (watchdogEffect pipe block s).Held qs vt := by
  unfold watchdogEffect
  (try dsimp only)
  repeat' (first | (with_reducible first | assumption | apply State.rset_held | apply State.putVideo_held | apply State.videoLoc_held) | split | intro _ | dsimp only | refine Held.upd ?_ rfl rfl rfl)

theorem execPictureWatchdog_held (pipe block : Nat) (s : State) {qs vt} (hyp : s.Held qs vt) : ∃ t, execPictureWatchdog pipe block s = .next t ∧ t.Held qs vt :=
  ⟨_, rfl, watchdogEffect_held _ _ _ hyp⟩

theorem State.videoStatus_held (s : State) (c session : Nat) (p : Picture) {qs vt} (hyp : s.Held qs vt) : (State.videoStatus s c session p).Held qs vt := by
  unfold State.videoStatus
  (try dsimp only)
  repeat' (first | (with_reducible first | assumption | apply State.pushMsg_held) | split | intro _ | dsimp only)

theorem decodedEffect_held (pipe : Nat) (s : State) {qs vt} (hyp : s.Held qs vt) : (decodedEffect pipe s).Held qs vt := by
  unfold decodedEffect
  (try dsimp only)
  repeat' (first | (with_reducible first | assumption | apply State.putVideo_held | apply State.settleBoth_held | apply State.outputPicture_held | apply State.stopVideo_held | apply State.freePipe_held | apply State.videoStatus_held | refine foldl_held (fun _ _ _ => ?_) ?_) | split | intro _ | dsimp only | refine Held.upd ?_ rfl rfl rfl)

theorem execPictureDecoded_held (pipe : Nat) (s : State) {qs vt} (hyp : s.Held qs vt) : ∃ t, execPictureDecoded pipe s = .next t ∧ t.Held qs vt :=
  ⟨_, rfl, decodedEffect_held _ _ hyp⟩

theorem closeDrainEffect_held (m : Msg) (s : State) {qs vt} (hyp : s.Held qs vt) : (closeDrainEffect m s).Held qs vt := by
  unfold closeDrainEffect
  (try dsimp only)
  repeat' (first | (with_reducible first | assumption | apply State.putVideo_held | apply State.settleBoth_held | apply State.closeVideo_held | apply State.outputPicture_held | refine foldl_held (fun _ _ _ => ?_) ?_) | split | intro _ | dsimp only | refine Held.upd ?_ rfl rfl rfl)

theorem execVideoCloseDrain_held (m : Msg) (s : State) {qs vt} (hyp : s.Held qs vt) : ∃ t, execVideoCloseDrain m s = .next t ∧ t.Held qs vt :=
  ⟨_, rfl, closeDrainEffect_held _ _ hyp⟩

theorem closeAbortEffect_held (m : Msg) (s : State) {qs vt} (hyp : s.Held qs vt) : (closeAbortEffect m s).Held qs vt := by
  unfold closeAbortEffect
  (try dsimp only)
  repeat' (first | (with_reducible first | assumption | apply State.replyTo_held | apply State.abortVideo_held | apply State.closeVideo_held) | split | intro _ | dsimp only)

theorem execVideoCloseAbort_held (m : Msg) (s : State) {qs vt} (hyp : s.Held qs vt) : ∃ t, execVideoCloseAbort m s = .next t ∧ t.Held qs vt :=
  ⟨_, rfl, closeAbortEffect_held _ _ hyp⟩

theorem State.writeSlot_held (s : State) (c : Nat) (x : VideoContext) (g : Image) (p : Picture) (i k : Nat) {qs vt} (hyp : s.Held qs vt) : (State.writeSlot s c x g p i k).Held qs vt := by
  unfold State.writeSlot
  (try dsimp only)
  repeat' (first | (with_reducible first | assumption | apply State.rset_held | apply State.putBank_held | apply State.dmaRefused_held | apply State.videoLoc_held) | split | intro _ | dsimp only)

theorem State.writeSlots_held (s : State) (c : Nat) (x : VideoContext) (g : Image) (p : Picture) (l : List (Nat × Nat)) {qs vt} (hyp : s.Held qs vt) : (State.writeSlots s c x g p l).Held qs vt := by
  unfold State.writeSlots
  (try dsimp only)
  repeat' (first | (with_reducible first | assumption | apply State.writeSlot_held | refine foldl_held (fun _ _ _ => ?_) ?_) | split | intro _ | dsimp only)

theorem State.submitPicture_held (s : State) (c : Nat) (x : VideoContext) (p : Picture) (l : List (Nat × Nat)) {qs vt} (hyp : s.Held qs vt) : (State.submitPicture s c x p l).Held qs vt := by
  unfold State.submitPicture
  (try dsimp only)
  repeat' (first | (with_reducible first | assumption | apply State.count_held | apply State.journal_held | apply State.pushGrid_held | apply State.noteFull_held) | split | refine State.admitPass_held _ _ _ (by assumption) ?_ | intro _ | dsimp only | refine Held.upd ?_ rfl rfl rfl)

theorem State.deliverFrom_held (s : State) (c : Nat) (x : VideoContext) (p : Picture) (l : List (Nat × Nat)) {qs vt} (hyp : s.Held qs vt) : (State.deliverFrom s c x p l).Held qs vt := by
  unfold State.deliverFrom
  (try dsimp only)
  repeat' (first | (with_reducible first | assumption | apply State.putVideo_held | apply State.unhold_held | apply State.settleBoth_held | apply State.writeSlots_held | apply State.submitPicture_held) | split | intro _ | dsimp only | refine Held.upd ?_ rfl rfl rfl)

theorem pictureDeliver_held (s : State) {qs vt} (hyp : s.Held qs vt) : (pictureDeliver s).Held qs vt := by
  unfold pictureDeliver
  (try dsimp only)
  repeat' (first | (with_reducible first | assumption | apply State.putVideo_held | apply State.deliverFrom_held | refine foldl_held (fun _ _ _ => ?_) ?_) | split | intro _ | dsimp only | refine Held.upd ?_ rfl rfl rfl)

theorem execPictureDeliver_held (s : State) {qs vt} (hyp : s.Held qs vt) : ∃ t, execPictureDeliver s = .next t ∧ t.Held qs vt :=
  ⟨_, rfl, pictureDeliver_held _ hyp⟩

theorem State.sendCoded_held (s : State) (c : Nat) (x : VideoContext) (p : Planes) (message tag place stamp : Nat) {qs vt} (hyp : s.Held qs vt) : (State.sendCoded s c x p message tag place stamp).Held qs vt := by
  unfold State.sendCoded
  (try dsimp only)
  repeat' (first | (with_reducible first | assumption | apply State.pushMsg_held | apply State.putVideo_held) | split | intro _ | dsimp only | refine Held.upd ?_ rfl rfl rfl)

theorem pictureEncode_held (s : State) {qs vt} (hyp : s.Held qs vt) : (pictureEncode s).Held qs vt := by
  unfold pictureEncode
  (try dsimp only)
  repeat' (first | (with_reducible first | assumption | apply State.putVideo_held | apply State.unhold_held | apply State.settleVideo_held | apply State.settleBoth_held | apply State.sendCoded_held) | split | intro _ | dsimp only | refine Held.upd ?_ rfl rfl rfl)

theorem execPictureEncode_held (s : State) {qs vt} (hyp : s.Held qs vt) : ∃ t, execPictureEncode s = .next t ∧ t.Held qs vt :=
  ⟨_, rfl, pictureEncode_held _ hyp⟩

theorem State.restartVideo_held (s : State) (c : Nat) {qs vt} (hyp : s.Held qs vt) : (State.restartVideo s c).Held qs vt := by
  unfold State.restartVideo
  (try dsimp only)
  repeat' (first | (with_reducible first | assumption | apply State.onSession_held | apply State.putVideo_held | refine foldl_held (fun _ _ _ => ?_) ?_) | split | intro _ | dsimp only | refine Held.upd ?_ rfl rfl rfl)

theorem contextRestart_held (s : State) {qs vt} (hyp : s.Held qs vt) : (contextRestart s).Held qs vt := by
  unfold contextRestart
  (try dsimp only)
  repeat' (first | (with_reducible first | assumption | apply State.restartVideo_held | refine foldl_held (fun _ _ _ => ?_) ?_) | split | intro _ | dsimp only)

theorem execVideoContextRestart_held (s : State) {qs vt} (hyp : s.Held qs vt) : ∃ t, execVideoContextRestart s = .next t ∧ t.Held qs vt :=
  ⟨_, rfl, contextRestart_held _ hyp⟩

theorem State.damagePicture_held (s : State) (c n : Nat) (bad : List Nat) {qs vt} (hyp : s.Held qs vt) : (State.damagePicture s c n bad).Held qs vt := by
  unfold State.damagePicture
  (try dsimp only)
  repeat' (first | (with_reducible first | assumption | apply State.putVideo_held | apply State.videoStatus_held) | split | intro _ | dsimp only | refine Held.upd ?_ rfl rfl rfl)

theorem State.damageFrames_held (s : State) (off : Nat) {qs vt} (hyp : s.Held qs vt) : (State.damageFrames s off).Held qs vt := by
  unfold State.damageFrames
  (try dsimp only)
  repeat' (first | (with_reducible first | assumption | apply State.rset_held | apply State.putVideo_held | apply State.videoLoc_held | apply State.damagePicture_held) | split | intro _ | dsimp only | refine Held.upd ?_ rfl rfl rfl)

theorem State.damageVideoBank_held (s : State) (off : Nat) {qs vt} (hyp : s.Held qs vt) : (State.damageVideoBank s off).Held qs vt := by
  unfold State.damageVideoBank
  (try dsimp only)
  repeat' (first | (with_reducible first | assumption | apply State.rset_held | apply State.putVideo_held | apply State.videoLoc_held) | split | intro _ | dsimp only | refine Held.upd ?_ rfl rfl rfl)

theorem State.onCore_held (s : State) (c : Nat) (f : Core → Core) {qs vt} (h : s.Held qs vt) : (s.onCore c f).Held qs vt :=
  { h with cores := by simpa [State.onCore, listModify] using h.cores }

theorem State.onKernel_held (s : State) (coat i : Nat) (f : KernelRun → KernelRun) {qs vt} (hyp : s.Held qs vt) : (State.onKernel s coat i f).Held qs vt := by
  unfold State.onKernel
  (try dsimp only)
  repeat' (first | (with_reducible first | assumption) | split | intro _ | dsimp only | refine Held.upd ?_ rfl rfl rfl)

theorem State.noteTrimFault_held (s : State) (f : TrimFault) (c : Nat) (pc : Nat) {qs vt} (hyp : s.Held qs vt) : (State.noteTrimFault s f c pc).Held qs vt := by
  unfold State.noteTrimFault
  (try dsimp only)
  repeat' (first | (with_reducible first | assumption | apply State.rset_held) | split | intro _ | dsimp only)

theorem State.kernelFault_held (s : State) (f : TrimFault) (c : Nat) (pc : Nat) {qs vt} (hyp : s.Held qs vt) : (State.kernelFault s f c pc).Held qs vt := by
  unfold State.kernelFault
  (try dsimp only)
  repeat' (first | (with_reducible first | assumption | apply State.failCoat_held | apply State.noteTrimFault_held) | split | intro _ | dsimp only)

theorem State.coreFault_held (s : State) (c : Nat) (pc : Nat) {qs vt} (hyp : s.Held qs vt) : (State.coreFault s c pc).Held qs vt := by
  unfold State.coreFault
  (try dsimp only)
  repeat' (first | (with_reducible first | assumption | apply State.rsetIf_held | apply State.healthEvent_held | apply State.startSlice_held | apply State.onRun_held | apply State.stopKernels_held | apply State.discardBatch_held | apply State.noteTrimFault_held) | split | intro _ | dsimp only | refine Held.upd ?_ rfl rfl rfl)

theorem State.advance_held (s : State) (c : CoreId) {qs vt} (hyp : s.Held qs vt) : (State.advance s c).Held qs vt := by
  unfold State.advance
  (try dsimp only)
  repeat' (first | (with_reducible first | assumption | apply State.count64_held | apply State.onCore_held) | split | intro _ | dsimp only | refine Held.upd ?_ rfl rfl rfl)

theorem State.issue_held (s : State) (c : CoreId) (body : State → Core → State) {qs vt} (hbody : ∀ x0 x1, x0.Held qs vt → (body x0 x1).Held qs vt) (hyp : s.Held qs vt) : (State.issue s c body).Held qs vt := by
  unfold State.issue
  (try dsimp only)
  repeat' (first | (with_reducible first | assumption | apply hbody | apply State.kernelFault_held | apply State.advance_held) | split | intro _ | dsimp only)

theorem State.onRegs_held (s : State) (c : CoreId) (f : Core → Core) {qs vt} (hyp : s.Held qs vt) : (State.onRegs s c f).Held qs vt := by
  unfold State.onRegs
  (try dsimp only)
  repeat' (first | (with_reducible first | assumption | apply State.onCore_held | apply State.issue_held) | split | intro _ | dsimp only)

theorem State.showStore_held (s : State) (c : Nat) (x : SharedStore) {qs vt} (hyp : s.Held qs vt) : (State.showStore s c x).Held qs vt := by
  unfold State.showStore
  (try dsimp only)
  repeat' (first | (with_reducible first | assumption | apply State.putBank_held) | split | intro _ | dsimp only | refine Held.upd ?_ rfl rfl rfl)

theorem State.coreStore_held (s : State) (c a : Nat) (p : List Byte) {qs vt} (hyp : s.Held qs vt) : (State.coreStore s c a p).Held qs vt := by
  unfold State.coreStore
  (try dsimp only)
  repeat' (first | (with_reducible first | assumption | apply State.onCore_held | apply State.showStore_held) | split | intro _ | dsimp only | refine Held.upd ?_ rfl rfl rfl)

theorem State.showStores_held (s : State) (p : SharedStore → Bool) (c : Nat) {qs vt} (hyp : s.Held qs vt) : (State.showStores s p c).Held qs vt := by
  unfold State.showStores
  (try dsimp only)
  repeat' (first | (with_reducible first | assumption | apply State.onCore_held | apply State.showStore_held | refine foldl_held (fun _ _ _ => ?_) ?_) | split | intro _ | dsimp only | refine Held.upd ?_ rfl rfl rfl)

theorem State.undoLoad_held (s : State) (k : Nat) {qs vt} (hyp : s.Held qs vt) : (State.undoLoad s k).Held qs vt := by
  unfold State.undoLoad
  (try dsimp only)
  repeat' (first | (with_reducible first | assumption | apply State.putSlot_held | apply State.releaseSlotRange_held) | split | intro _ | dsimp only | refine Held.upd ?_ rfl rfl rfl)

theorem State.failLoad_held (s0 : State) (k : Nat) (e : LoadErr) {qs vt} (hyp : s0.Held qs vt) : (State.failLoad s0 k e).Held qs vt := by
  unfold State.failLoad
  (try dsimp only)
  repeat' (first | (with_reducible first | assumption | apply State.rset_held | apply State.count_held | apply State.reply_held | apply State.replyTo_held | apply State.putSlot_held | apply State.failRequest_held | apply State.undoLoad_held | refine foldl_held (fun _ _ _ => ?_) ?_) | split | intro _ | dsimp only | refine Held.upd ?_ rfl rfl rfl)

theorem State.placeImage_held (s : State) (k : Nat) (p : List Byte) (g : Image) {t : State} (e : s.placeImage k p g = some t) {qs vt} (h : s.Held qs vt) : t.Held qs vt := by
  unfold State.placeImage at e
  split at e
  · cases e
  · rename_i e1
    dsimp only at e
    split at e
    · cases e
    · rename_i e2
      have h2 := State.mapRange_held _ _ _ _ _ _ e2 (State.takePages_held _ _ e1 h)
      split at e
      · cases e
      · rename_i e3
        cases e
        refine State.putSlot_held _ _ _ (State.putPages_held _ _ _ _ ?_)
        exact State.mapRange_held _ _ _ _ _ _ e3 h2

theorem loadStart_held (s0 : State) {qs vt} (hyp : s0.Held qs vt) : (loadStart s0).Held qs vt := by
  unfold loadStart
  (try dsimp only)
  repeat' (first | (with_reducible first | assumption | apply State.showLoad_held | apply State.settleLoad_held | apply State.enterLoading_held | apply State.failLoad_held) | split | refine State.placeImage_held _ _ _ _ (by assumption) ?_ | intro _ | dsimp only | refine Held.upd ?_ rfl rfl rfl)

theorem execLoadStart_held (s : State) {qs vt} (hyp : s.Held qs vt) : ∃ t, execLoadStart s = .next t ∧ t.Held qs vt :=
  ⟨_, rfl, loadStart_held _ hyp⟩

theorem State.copyWeight_held (s : State) (k : Nat) (g : Image) (i : Nat) (w : WeightRef) {qs vt} (hyp : s.Held qs vt) : (State.copyWeight s k g i w).Held qs vt := by
  unfold State.copyWeight
  (try dsimp only)
  repeat' (first | (with_reducible first | assumption | apply State.putPages_held) | split | intro _ | dsimp only | refine Held.upd ?_ rfl rfl rfl)

theorem loadWeights_held (s : State) {qs vt} (hyp : s.Held qs vt) : (loadWeights s).Held qs vt := by
  unfold loadWeights
  (try dsimp only)
  repeat' (first | (with_reducible first | assumption | apply State.putSlot_held | apply State.showLoad_held | apply State.failLoad_held | apply State.copyWeight_held | refine foldl_held (fun _ _ _ => ?_) ?_) | split | intro _ | dsimp only | refine Held.upd ?_ rfl rfl rfl)

theorem execLoadWeights_held (s : State) {qs vt} (hyp : s.Held qs vt) : ∃ t, execLoadWeights s = .next t ∧ t.Held qs vt :=
  ⟨_, rfl, loadWeights_held _ hyp⟩

theorem loadComplete_held (s : State) {qs vt} (hyp : s.Held qs vt) : (loadComplete s).Held qs vt := by
  unfold loadComplete
  (try dsimp only)
  repeat' (first | (with_reducible first | assumption | apply State.count_held | apply State.journal_held | apply State.reply_held | apply State.replyTo_held | apply State.putSlot_held | apply State.putDesc_held) | split | intro _ | dsimp only | refine Held.upd ?_ rfl rfl rfl)

theorem execLoadComplete_held (s : State) {qs vt} (hyp : s.Held qs vt) : ∃ t, execLoadComplete s = .next t ∧ t.Held qs vt :=
  ⟨_, rfl, loadComplete_held _ hyp⟩

theorem State.putFe_held (s : State) (x : Side) (f : FrontEnd) {qs vt} (hyp : s.Held qs vt) : (State.putFe s x f).Held qs vt := by
  unfold State.putFe
  (try dsimp only)
  repeat' (first | (with_reducible first | assumption | apply State.rset_held) | split | intro _ | dsimp only | refine Held.upd ?_ rfl rfl rfl)

theorem State.onPort_held (s : State) (p : Nat) (f : Port → Port) {qs vt} (hyp : s.Held qs vt) : (State.onPort s p f).Held qs vt := by
  unfold State.onPort
  (try dsimp only)
  repeat' (first | (with_reducible first | assumption) | split | intro _ | dsimp only | refine Held.upd ?_ rfl rfl rfl)

theorem State.transmit_held (s : State) (f : TxFrame) {qs vt} (hyp : s.Held qs vt) : (State.transmit s f).Held qs vt := by
  unfold State.transmit
  (try dsimp only)
  repeat' (first | (with_reducible first | assumption | apply State.rset_held | apply State.count_held | apply State.onPort_held) | split | intro _ | dsimp only | refine Held.upd ?_ rfl rfl rfl)

theorem State.onNeighbor_held (s : State) (n : Neighbor) (f : Neighbor → Option Neighbor) {qs vt} (hyp : s.Held qs vt) : (State.onNeighbor s n f).Held qs vt := by
  unfold State.onNeighbor
  (try dsimp only)
  repeat' (first | (with_reducible first | assumption) | split | intro _ | dsimp only | refine Held.upd ?_ rfl rfl rfl)

theorem State.askNeighbor_held (s : State) (port prio : Nat) (v6 : Bool) (hop : Nat) (body : FrameBody) {qs vt} (hyp : s.Held qs vt) : (State.askNeighbor s port prio v6 hop body).Held qs vt := by
  unfold State.askNeighbor
  (try dsimp only)
  repeat' (first | (with_reducible first | assumption | apply State.transmit_held) | split | intro _ | dsimp only | refine Held.upd ?_ rfl rfl rfl)

theorem State.sendIp_held (s : State) (port prio : Nat) (v6 : Bool) (addr : Nat) (body : FrameBody) {qs vt} (hyp : s.Held qs vt) : (State.sendIp s port prio v6 addr body).Held qs vt := by
  unfold State.sendIp
  (try dsimp only)
  repeat' (first | (with_reducible first | assumption | apply State.transmit_held | apply State.onNeighbor_held | apply State.askNeighbor_held) | split | intro _ | dsimp only | refine Held.upd ?_ rfl rfl rfl)

theorem State.sendQmt_held (s : State) (port prio : Nat) (peer : PeerAddr) (bytes : List Byte) {qs vt} (hyp : s.Held qs vt) : (State.sendQmt s port prio peer bytes).Held qs vt := by
  unfold State.sendQmt
  (try dsimp only)
  repeat' (first | (with_reducible first | assumption | apply State.sendIp_held) | split | intro _ | dsimp only)

theorem State.resolved_held (s : State) (port : Nat) (v6 : Bool) (ip mac : Nat) {qs vt} (hyp : s.Held qs vt) : (State.resolved s port v6 ip mac).Held qs vt := by
  unfold State.resolved
  (try dsimp only)
  repeat' (first | (with_reducible first | assumption | apply State.transmit_held | refine foldl_held (fun _ _ _ => ?_) ?_) | split | intro _ | dsimp only | refine Held.upd ?_ rfl rfl rfl)

theorem State.onPath_held (s : State) (n k : Nat) (f : Path → Path) {qs vt} (hyp : s.Held qs vt) : (State.onPath s n k f).Held qs vt := by
  unfold State.onPath
  (try dsimp only)
  repeat' (first | (with_reducible first | assumption | apply State.onSession_held) | split | intro _ | dsimp only | refine Held.upd ?_ rfl rfl rfl)

theorem State.sendAck_held (s : State) (n k : Nat) {qs vt} (hyp : s.Held qs vt) : (State.sendAck s n k).Held qs vt := by
  unfold State.sendAck
  (try dsimp only)
  repeat' (first | (with_reducible first | assumption | apply State.sendQmt_held | apply State.onPath_held) | split | intro _ | dsimp only | refine Held.upd ?_ rfl rfl rfl)

theorem State.newEpoch_held (s : State) (n k : Nat) {qs vt} (hyp : s.Held qs vt) : (State.newEpoch s n k).Held qs vt := by
  unfold State.newEpoch
  (try dsimp only)
  repeat' (first | (with_reducible first | assumption | apply State.sendQmt_held | apply State.onPath_held) | split | intro _ | dsimp only | refine Held.upd ?_ rfl rfl rfl)

theorem State.newEpochs_held (s : State) (side : Side) {qs vt} (hyp : s.Held qs vt) : (State.newEpochs s side).Held qs vt := by
  unfold State.newEpochs
  (try dsimp only)
  repeat' (first | (with_reducible first | assumption | apply State.newEpoch_held | refine foldl_held (fun _ _ _ => ?_) ?_) | split | intro _ | dsimp only)

theorem State.sendFrag_held (s : State) (n k : Nat) (f : Frag) (retx : Bool) {qs vt} (hyp : s.Held qs vt) : (State.sendFrag s n k f retx).Held qs vt := by
  unfold State.sendFrag
  (try dsimp only)
  repeat' (first | (with_reducible first | assumption | apply State.sendQmt_held | apply State.onPath_held | apply State.newEpoch_held) | split | intro _ | dsimp only | refine Held.upd ?_ rfl rfl rfl)

theorem State.pump_held (s : State) (n k i : Nat) {qs vt} (h : s.Held qs vt) : (s.pump n k i).Held qs vt := by
  induction i generalizing s with
  | zero => exact h
  | succ i ih =>
    unfold State.pump
    split
    · exact h
    · split
      · exact h
      · split
        · exact h
        · split
          · exact ih _ (State.sendFrag_held _ _ _ _ _ (State.onPath_held _ _ _ _ h))
          · exact h

theorem State.pumpAll_held (s : State) (n k : Nat) {qs vt} (hyp : s.Held qs vt) : (State.pumpAll s n k).Held qs vt := by
  unfold State.pumpAll
  (try dsimp only)
  repeat' (first | (with_reducible first | assumption | apply State.pump_held) | split | intro _ | dsimp only | refine Held.upd ?_ rfl rfl rfl)

theorem State.dropSession_held (s : State) (n : Nat) {qs vt} (hyp : s.Held qs vt) : (State.dropSession s n).Held qs vt := by
  unfold State.dropSession
  (try dsimp only)
  repeat' (first | (with_reducible first | assumption | apply State.freePool_held) | split | intro _ | dsimp only | refine Held.upd ?_ rfl rfl rfl)

theorem State.endIfDone_held (s : State) (n : Nat) {qs vt} (hyp : s.Held qs vt) : (State.endIfDone s n).Held qs vt := by
  unfold State.endIfDone
  (try dsimp only)
  repeat' (first | (with_reducible first | assumption | apply State.dropSession_held) | split | intro _ | dsimp only | refine Held.upd ?_ rfl rfl rfl)

theorem State.begin_held (s : State) (n : Nat) (m : ModMsg) {qs vt} (hyp : s.Held qs vt) : (State.begin s n m).Held qs vt := by
  unfold State.begin
  (try dsimp only)
  repeat' (first | (with_reducible first | assumption | apply State.putSession_held | apply State.pumpAll_held | refine foldl_held (fun _ _ _ => ?_) ?_) | split | intro _ | dsimp only | refine Held.upd ?_ rfl rfl rfl)

theorem State.pathDown_held (s : State) (n k : Nat) {qs vt} (hyp : s.Held qs vt) : (State.pathDown s n k).Held qs vt := by
  unfold State.pathDown
  (try dsimp only)
  repeat' (first | (with_reducible first | assumption | apply State.countHold_held | apply State.onSession_held | apply State.onPath_held | apply State.pumpAll_held | refine foldl_held (fun _ _ _ => ?_) ?_) | split | intro _ | dsimp only | refine Held.upd ?_ rfl rfl rfl)

theorem State.resend_held (s : State) (n k : Nat) (lost : List SentFrame) {qs vt} (hyp : s.Held qs vt) : (State.resend s n k lost).Held qs vt := by
  unfold State.resend
  (try dsimp only)
  repeat' (first | (with_reducible first | assumption | apply State.count_held | apply State.onPath_held | apply State.sendFrag_held | refine foldl_held (fun _ _ _ => ?_) ?_) | split | intro _ | dsimp only | refine Held.upd ?_ rfl rfl rfl)

theorem State.loseSequence_held (s : State) (q : Nat) {qs vt} (hyp : s.Held qs vt) : (State.loseSequence s q).Held qs vt := by
  unfold State.loseSequence
  (try dsimp only)
  repeat' (first | (with_reducible first | assumption | apply State.discardBatch_held) | split | intro _ | dsimp only | refine Held.upd ?_ rfl rfl rfl)

theorem State.discardSuspended_held (s : State) (p : Batch → Bool) {qs vt} (hyp : s.Held qs vt) : (State.discardSuspended s p).Held qs vt := by
  unfold State.discardSuspended
  (try dsimp only)
  repeat' (first | (with_reducible first | assumption | refine foldl_held (fun _ _ _ => ?_) ?_) | split | intro _ | dsimp only | refine Held.upd ?_ rfl rfl rfl)

theorem State.discardIf_held (s : State) (p : Batch → Bool) {qs vt} (hyp : s.Held qs vt) : (State.discardIf s p).Held qs vt := by
  unfold State.discardIf
  (try dsimp only)
  repeat' (first | (with_reducible first | assumption | apply State.discardBatch_held) | split | intro _ | dsimp only)

theorem State.memoryOut_held (s : State) {qs vt} (hyp : s.Held qs vt) : (State.memoryOut s).Held qs vt := by
  unfold State.memoryOut
  (try dsimp only)
  repeat' (first | (with_reducible first | assumption | apply State.rset_held | apply State.healthEvent_held | apply State.failRequest_held | apply State.discardBatch_held | refine foldl_held (fun _ _ _ => ?_) ?_) | split | intro _ | dsimp only)

theorem State.setMemGroup_held (s : State) (g v : Nat) {qs vt} (hyp : s.Held qs vt) : (State.setMemGroup s g v).Held qs vt := by
  unfold State.setMemGroup
  (try dsimp only)
  repeat' (first | (with_reducible first | assumption | apply State.rset_held) | split | intro _ | dsimp only)

theorem State.markChannel_held (s : State) (c : Nat) {qs vt} (hyp : s.Held qs vt) : (State.markChannel s c).Held qs vt := by
  unfold State.markChannel
  (try dsimp only)
  repeat' (first | (with_reducible first | assumption | apply State.rset_held | apply State.rsetIf_held | apply State.memoryOut_held | apply State.setMemGroup_held) | split | intro _ | dsimp only)

theorem State.trainFailed_held (s : State) (c : Nat) {qs vt} (hyp : s.Held qs vt) : (State.trainFailed s c).Held qs vt := by
  unfold State.trainFailed
  (try dsimp only)
  repeat' (first | (with_reducible first | assumption | apply State.rset_held | apply State.markChannel_held) | split | intro _ | dsimp only)

theorem State.storeTraining_held (s : State) (failed : List Nat) {qs vt} (hyp : s.Held qs vt) : (State.storeTraining s failed).Held qs vt := by
  unfold State.storeTraining
  (try dsimp only)
  repeat' (first | (with_reducible first | assumption) | split | intro _ | dsimp only | refine Held.upd ?_ rfl rfl rfl)

theorem State.setRate_held (s : State) (r : Nat) {qs vt} (hyp : s.Held qs vt) : (State.setRate s r).Held qs vt := by
  unfold State.setRate
  (try dsimp only)
  repeat' (first | (with_reducible first | assumption | apply State.rset_held) | split | intro _ | dsimp only | refine Held.upd ?_ rfl rfl rfl)

theorem translationFault_held (owner vpn : Nat) (write : Bool) (master : Nat) (s : State) {qs vt} (hyp : s.Held qs vt) : (translationFault owner vpn write master s).Held qs vt := by
  unfold translationFault
  (try dsimp only)
  repeat' (first | (with_reducible first | assumption | apply State.access_held) | split | refine State.access_held' _ _ _ _ _ (by assumption) ?_ | intro _ | dsimp only)

theorem execTranslationFault_held (owner vpn : Nat) (write : Bool) (master : Nat) (s : State) {qs vt} (hyp : s.Held qs vt) : ∃ t, execTranslationFault owner vpn write master s = .next t ∧ t.Held qs vt :=
  ⟨_, rfl, translationFault_held _ _ _ _ _ hyp⟩

theorem spilledPageRestore_held (owner vpn : Nat) (s : State) {qs vt} (hyp : s.Held qs vt) : (spilledPageRestore owner vpn s).Held qs vt := by
  unfold spilledPageRestore
  (try dsimp only)
  repeat' (first | (with_reducible first | assumption | apply State.putDram_held | apply State.updateEntry_held | apply State.freeCartSlot_held | apply State.showCartPages_held) | split | refine State.takePages_held _ _ (by assumption) ?_ | intro _ | dsimp only | refine Held.upd ?_ rfl rfl rfl)

theorem execSpilledPageRestore_held (owner vpn : Nat) (s : State) {qs vt} (hyp : s.Held qs vt) : ∃ t, execSpilledPageRestore owner vpn s = .next t ∧ t.Held qs vt :=
  ⟨_, rfl, spilledPageRestore_held _ _ _ hyp⟩

theorem tableUpdateDone_held (s : State) {qs vt} (hyp : s.Held qs vt) : (tableUpdateDone s).Held qs vt := by
  unfold tableUpdateDone
  (try dsimp only)
  repeat' (first | (with_reducible first | assumption | apply State.freePool_held | apply State.showCartPages_held) | split | intro _ | dsimp only | refine Held.upd ?_ rfl rfl rfl)

theorem execTableUpdateDone_held (s : State) {qs vt} (hyp : s.Held qs vt) : ∃ t, execTableUpdateDone s = .next t ∧ t.Held qs vt :=
  ⟨_, rfl, tableUpdateDone_held _ hyp⟩

theorem rangeMove_held (owner : Nat) (s : State) {qs vt} (hyp : s.Held qs vt) : (rangeMove owner s).Held qs vt := by
  unfold rangeMove
  (try dsimp only)
  repeat' (first | (with_reducible first | assumption) | split | refine State.moveRange_held _ _ _ (by assumption) ?_ | intro _ | dsimp only | refine Held.upd ?_ rfl rfl rfl)

theorem execRangeMove_held (owner : Nat) (s : State) {qs vt} (hyp : s.Held qs vt) : ∃ t, execRangeMove owner s = .next t ∧ t.Held qs vt :=
  ⟨_, rfl, rangeMove_held _ _ hyp⟩

theorem pageCleared_held (page : Nat) (s : State) {qs vt} (h : s.Held qs vt) : (pageCleared page s).Held qs vt := by
  unfold pageCleared
  split
  · exact State.refillWindows_held _ (State.resumeHeld_held _ { h with dram := Memory.wf_clear _ _ _ h.dram })
  · exact h

theorem execPageCleared_held (page : Nat) (s : State) {qs vt} (hyp : s.Held qs vt) : ∃ t, execPageCleared page s = .next t ∧ t.Held qs vt := by
  refine ⟨_, rfl, ?_⟩
  (try dsimp only)
  repeat' (first | (with_reducible first | assumption | apply pageCleared_held) | split | intro _ | dsimp only)

theorem State.spillPage_held (s : State) (q k : Nat) {qs vt} (hyp : s.Held qs vt) : (State.spillPage s q k).Held qs vt := by
  unfold State.spillPage
  (try dsimp only)
  repeat' (first | (with_reducible first | assumption | apply State.updateEntry_held | apply State.freeMapped_held) | split | intro _ | dsimp only | refine Held.upd ?_ rfl rfl rfl)

theorem kvSpill_held (s : State) {qs vt} (hyp : s.Held qs vt) : (kvSpill s).Held qs vt := by
  unfold kvSpill
  (try dsimp only)
  repeat' (first | (with_reducible first | assumption | apply State.showCartPages_held | apply State.preempt_held | apply State.spillPage_held | refine foldl_held (fun _ _ _ => ?_) ?_) | split | intro _ | dsimp only | refine Held.upd ?_ rfl rfl rfl)

theorem execKvCartridgeSpill_held (s : State) {qs vt} (hyp : s.Held qs vt) : ∃ t, execKvCartridgeSpill s = .next t ∧ t.Held qs vt :=
  ⟨_, rfl, kvSpill_held _ hyp⟩

theorem State.loseRecords_held (s : State) (off : Nat) {qs vt} (hyp : s.Held qs vt) : (State.loseRecords s off).Held qs vt := by
  unfold State.loseRecords
  (try dsimp only)
  repeat' (first | (with_reducible first | assumption | apply State.journal_held | apply State.failRequest_held | refine foldl_held (fun _ _ _ => ?_) ?_) | split | intro _ | dsimp only)

theorem State.reloadSlot_held (s : State) (k : Nat) {qs vt} (hyp : s.Held qs vt) : (State.reloadSlot s k).Held qs vt := by
  unfold State.reloadSlot
  (try dsimp only)
  repeat' (first | (with_reducible first | assumption | apply State.putSlot_held | apply State.undoLoad_held | apply State.failLoad_held | apply State.discardSuspended_held | apply State.discardIf_held) | split | intro _ | dsimp only | refine Held.upd ?_ rfl rfl rfl)

theorem State.replaceWork_held (s : State) (k p : Nat) {qs vt} (hyp : s.Held qs vt) : (State.replaceWork s k p).Held qs vt := by
  unfold State.replaceWork
  (try dsimp only)
  repeat' (first | (with_reducible first | assumption | apply State.putSlot_held | apply State.updateEntry_held | apply State.discardSuspended_held | apply State.discardIf_held) | split | refine State.takePages_held _ _ (by assumption) ?_ | intro _ | dsimp only | refine Held.upd ?_ rfl rfl rfl)

theorem State.losePoolPage_held (s : State) (p : Nat) {qs vt} (hyp : s.Held qs vt) : (State.losePoolPage s p).Held qs vt := by
  unfold State.losePoolPage
  (try dsimp only)
  repeat' (first | (with_reducible first | assumption | apply State.failRequest_held | apply State.loseSequence_held | apply State.reloadSlot_held | apply State.replaceWork_held | refine foldl_held (fun _ _ _ => ?_) ?_) | split | intro _ | dsimp only | refine Held.upd ?_ rfl rfl rfl)

theorem State.loseSpill_held (s : State) (off : Nat) {qs vt} (hyp : s.Held qs vt) : (State.loseSpill s off).Held qs vt := by
  unfold State.loseSpill
  (try dsimp only)
  repeat' (first | (with_reducible first | assumption | apply State.discardSuspended_held) | split | intro _ | dsimp only)

theorem State.loseGranule_held (s : State) (g : Nat) {qs vt} (hyp : s.Held qs vt) : (State.loseGranule s g).Held qs vt := by
  unfold State.loseGranule
  (try dsimp only)
  repeat' (first | (with_reducible first | assumption | apply State.damageFrames_held | apply State.memoryOut_held | apply State.loseRecords_held | apply State.losePoolPage_held | apply State.loseSpill_held) | split | intro _ | dsimp only | refine Held.upd ?_ rfl rfl rfl)

theorem uncorrectableGranule_held (g : Nat) (wrong : List (Nat × Nat × Byte)) (s : State) {qs vt} (hyp : s.Held qs vt) : (uncorrectableGranule g wrong s).Held qs vt := by
  unfold uncorrectableGranule
  (try dsimp only)
  repeat' (first | (with_reducible first | assumption | apply State.rset_held | apply State.rsetIf_held | apply State.countHold_held | apply State.deliverGranule_held | apply State.loseGranule_held | refine foldl_held (fun _ _ _ => ?_) ?_) | split | intro _ | dsimp only | refine Held.upd ?_ rfl rfl rfl)

theorem execUncorrectableGranule_held (granule : Nat) (wrong : List (Nat × Nat × Byte)) (s : State) {qs vt} (hyp : s.Held qs vt) : ∃ t, execUncorrectableGranule granule wrong s = .next t ∧ t.Held qs vt :=
  ⟨_, rfl, uncorrectableGranule_held _ _ _ hyp⟩

theorem patrolPass_held (corrected : List (Nat × Nat)) (s : State) {qs vt} (hyp : s.Held qs vt) : (patrolPass corrected s).Held qs vt := by
  unfold patrolPass
  (try dsimp only)
  repeat' (first | (with_reducible first | assumption | apply State.rset_held | apply State.countHold_held | apply State.markChannel_held | refine foldl_held (fun _ _ _ => ?_) ?_) | split | intro _ | dsimp only)

theorem execPatrolPass_held (corrected : List (Nat × Nat)) (s : State) {qs vt} (hyp : s.Held qs vt) : ∃ t, execPatrolPass corrected s = .next t ∧ t.Held qs vt :=
  ⟨_, rfl, patrolPass_held _ _ hyp⟩

theorem dqsRead_held (drifted : List Nat) (s : State) {qs vt} (hyp : s.Held qs vt) : (dqsRead drifted s).Held qs vt := by
  unfold dqsRead
  (try dsimp only)
  repeat' (first | (with_reducible first | assumption | apply State.trainFailed_held | refine foldl_held (fun _ _ _ => ?_) ?_) | split | intro _ | dsimp only)

theorem execDqsOscillatorRead_held (drifted : List Nat) (s : State) {qs vt} (hyp : s.Held qs vt) : ∃ t, execDqsOscillatorRead drifted s = .next t ∧ t.Held qs vt :=
  ⟨_, rfl, dqsRead_held _ _ hyp⟩

theorem execZqCalibration_held (s : State) {qs vt} (hyp : s.Held qs vt) : ∃ t, execZqCalibration s = .next t ∧ t.Held qs vt := by
  refine ⟨_, rfl, ?_⟩
  repeat' (first | assumption | split | intro _ | dsimp only)

theorem execMr4Read_held (code : Nat) (s : State) {qs vt} (hyp : s.Held qs vt) : ∃ t, execMr4Read code s = .next t ∧ t.Held qs vt := by
  refine ⟨_, rfl, ?_⟩
  (try dsimp only)
  repeat' (first | (with_reducible first | assumption) | split | intro _ | dsimp only | refine Held.upd ?_ rfl rfl rfl)

theorem execPerBankRefresh_held (s : State) {qs vt} (hyp : s.Held qs vt) : ∃ t, execPerBankRefresh s = .next t ∧ t.Held qs vt := by
  refine ⟨_, rfl, ?_⟩
  repeat' (first | assumption | split | intro _ | dsimp only)

theorem State.bankFault_held (s : State) (master bank unit : Nat) {qs vt} (hyp : s.Held qs vt) : (State.bankFault s master bank unit).Held qs vt := by
  unfold State.bankFault
  (try dsimp only)
  repeat' (first | (with_reducible first | assumption | apply State.rset_held | apply State.healthEvent_held | apply State.discardBatch_held | apply State.bankLoc_held | apply State.coreFault_held) | split | intro _ | dsimp only)

theorem bankCollision_held (m1 m2 bank unit : Nat) (d1 d2 : List Byte) (s : State) {qs vt} (hyp : s.Held qs vt) : (bankCollision m1 m2 bank unit d1 d2 s).Held qs vt := by
  unfold bankCollision
  (try dsimp only)
  repeat' (first | (with_reducible first | assumption | apply State.count_held | apply State.putBank_held | apply State.bankFault_held) | split | intro _ | dsimp only)

theorem execBankCollision_held (m1 m2 bank unit : Nat) (d1 d2 : List Byte) (s : State) {qs vt} (hyp : s.Held qs vt) : ∃ t, execBankCollision m1 m2 bank unit d1 d2 s = .next t ∧ t.Held qs vt :=
  ⟨_, rfl, bankCollision_held _ _ _ _ _ _ _ hyp⟩

theorem State.feedUncorr_held (s : State) (master bank unit : Nat) {qs vt} (hyp : s.Held qs vt) : (State.feedUncorr s master bank unit).Held qs vt := by
  unfold State.feedUncorr
  (try dsimp only)
  repeat' (first | (with_reducible first | assumption | apply State.rset_held) | split | intro _ | dsimp only)

theorem bankUncorrectable_held (master bank unit : Nat) (wrong : List Nat) (s : State) {qs vt} (hyp : s.Held qs vt) : (bankUncorrectable master bank unit wrong s).Held qs vt := by
  unfold bankUncorrectable
  (try dsimp only)
  repeat' (first | (with_reducible first | assumption | apply State.rset_held | apply State.countHold_held | apply State.bankLoc_held | apply State.damageVideoBank_held | apply State.bankFault_held | apply State.feedUncorr_held) | split | intro _ | dsimp only)

theorem execBankUncorrectable_held (master bank unit : Nat) (wrong : List Nat) (s : State) {qs vt} (hyp : s.Held qs vt) : ∃ t, execBankUncorrectable master bank unit wrong s = .next t ∧ t.Held qs vt :=
  ⟨_, rfl, bankUncorrectable_held _ _ _ _ _ hyp⟩

end Sys2Proof.Machine
end

