-- ==== Sys2Proof/Laws/HeldTrust.lean ====
section
/-! SUPPORT. HeldTrust.lean: every operation and command of continuity, resets, trust and firmware keeps `State.Held`. -/

set_option linter.all false


namespace Sys2Proof.Machine

theorem State.givePath_held (s : State) (x : Side) (k : Nat × Nat) {qs vt} (hyp : s.Held qs vt) : (State.givePath s x k).Held qs vt := by
  unfold State.givePath
  (try dsimp only)
  repeat' (first | (with_reducible first | assumption | apply State.onPath_held | apply State.newEpoch_held | apply State.pumpAll_held) | split | intro _ | dsimp only | refine Held.upd ?_ rfl rfl rfl)

theorem State.stopFe_held (s : State) (x : Side) {qs vt} (hyp : s.Held qs vt) : (State.stopFe s x).Held qs vt := by
  unfold State.stopFe
  (try dsimp only)
  repeat' (first | (with_reducible first | assumption | apply State.startSlice_held | apply State.putFe_held | apply State.pathDown_held | apply State.givePath_held | refine foldl_held (fun _ _ _ => ?_) ?_) | split | intro _ | dsimp only | refine Held.upd ?_ rfl rfl rfl)

theorem State.failFe_held (s : State) (x : Side) {qs vt} (hyp : s.Held qs vt) : (State.failFe s x).Held qs vt := by
  unfold State.failFe
  (try dsimp only)
  repeat' (first | (with_reducible first | assumption | apply State.rset_held | apply State.discardIf_held | apply State.stopFe_held) | split | intro _ | dsimp only | refine Held.upd ?_ rfl rfl rfl)

theorem State.watchBeat_held (s : State) (x : Side) {qs vt} (hyp : s.Held qs vt) : (State.watchBeat s x).Held qs vt := by
  unfold State.watchBeat
  (try dsimp only)
  repeat' (first | (with_reducible first | assumption | apply State.putFe_held | apply State.failFe_held) | split | intro _ | dsimp only | refine Held.upd ?_ rfl rfl rfl)

theorem beatWatch_held (s : State) {qs vt} (hyp : s.Held qs vt) : (beatWatch s).Held qs vt := by
  unfold beatWatch
  (try dsimp only)
  repeat' (first | (with_reducible first | assumption | apply State.watchBeat_held) | split | intro _ | dsimp only)

theorem execBeatWatch_held (s : State) {qs vt} (hyp : s.Held qs vt) : ∃ t, execBeatWatch s = .next t ∧ t.Held qs vt :=
  ⟨_, rfl, beatWatch_held _ hyp⟩

theorem execFrontEndInternalError_held (side : Side) (s : State) {qs vt} (hyp : s.Held qs vt) : ∃ t, execFrontEndInternalError side s = .next t ∧ t.Held qs vt :=
  ⟨_, rfl, State.failFe_held _ _ hyp⟩

theorem beatAdvance_held (x : Side) (s : State) {qs vt} (hyp : s.Held qs vt) : (beatAdvance x s).Held qs vt := by
  unfold beatAdvance
  (try dsimp only)
  repeat' (first | (with_reducible first | assumption | apply State.putFe_held) | split | intro _ | dsimp only | refine Held.upd ?_ rfl rfl rfl)

theorem execFrontEndBeatAdvance_held (side : Side) (s : State) {qs vt} (hyp : s.Held qs vt) : ∃ t, execFrontEndBeatAdvance side s = .next t ∧ t.Held qs vt :=
  ⟨_, rfl, beatAdvance_held _ _ hyp⟩

theorem State.returnFe_held (s : State) (x : Side) {qs vt} (hyp : s.Held qs vt) : (State.returnFe s x).Held qs vt := by
  unfold State.returnFe
  (try dsimp only)
  repeat' (first | (with_reducible first | assumption | apply State.putFe_held | apply State.givePath_held | refine foldl_held (fun _ _ _ => ?_) ?_) | split | intro _ | dsimp only | refine Held.upd ?_ rfl rfl rfl)

theorem execFrontEndReturn_held (s : State) {qs vt} (hyp : s.Held qs vt) : ∃ t, execFrontEndReturn s = .next t ∧ t.Held qs vt := by
  refine ⟨_, rfl, ?_⟩
  (try dsimp only)
  repeat' (first | (with_reducible first | assumption | apply State.returnFe_held) | split | intro _ | dsimp only)

theorem State.putSup_held (s : State) (x : Side) (v : SupState) {qs vt} (hyp : s.Held qs vt) : (State.putSup s x v).Held qs vt := by
  unfold State.putSup
  (try dsimp only)
  repeat' (first | (with_reducible first | assumption | apply State.rset_held) | split | intro _ | dsimp only | refine Held.upd ?_ rfl rfl rfl)

theorem State.pruneCopies_held (s : State) {qs vt} (hyp : s.Held qs vt) : (State.pruneCopies s).Held qs vt := by
  unfold State.pruneCopies
  (try dsimp only)
  repeat' (first | (with_reducible first | assumption) | split | intro _ | dsimp only | refine Held.upd ?_ rfl rfl rfl)

theorem State.writeCheckpoint_held (s : State) {qs vt} (hyp : s.Held qs vt) : (State.writeCheckpoint s).Held qs vt := by
  unfold State.writeCheckpoint
  (try dsimp only)
  repeat' (first | (with_reducible first | assumption | apply State.journal_held | apply State.trimJournal_held | apply State.pruneCopies_held) | split | intro _ | dsimp only | refine Held.upd ?_ rfl rfl rfl)

theorem State.releaseLease_held (s : State) {qs vt} (hyp : s.Held qs vt) : (State.releaseLease s).Held qs vt := by
  unfold State.releaseLease
  (try dsimp only)
  repeat' (first | (with_reducible first | assumption) | split | intro _ | dsimp only | refine Held.upd ?_ rfl rfl rfl)

theorem checkpointEffect_held (s : State) {qs vt} (hyp : s.Held qs vt) : (checkpointEffect s).Held qs vt := by
  unfold checkpointEffect
  (try dsimp only)
  repeat' (first | (with_reducible first | assumption | apply State.writeCheckpoint_held | apply State.releaseLease_held) | split | intro _ | dsimp only)

theorem execCheckpoint_held (s : State) {qs vt} (hyp : s.Held qs vt) : ∃ t, execCheckpoint s = .next t ∧ t.Held qs vt :=
  ⟨_, rfl, checkpointEffect_held _ hyp⟩

theorem leaseRenewal_held (s : State) {qs vt} (hyp : s.Held qs vt) : (leaseRenewal s).Held qs vt := by
  unfold leaseRenewal
  (try dsimp only)
  repeat' (first | (with_reducible first | assumption | apply State.rset_held | apply State.startSlice_held | apply State.putSup_held) | split | intro _ | dsimp only | refine Held.upd ?_ rfl rfl rfl)

theorem execLeaseRenewal_held (s : State) {qs vt} (hyp : s.Held qs vt) : ∃ t, execLeaseRenewal s = .next t ∧ t.Held qs vt :=
  ⟨_, rfl, leaseRenewal_held _ hyp⟩

theorem execLeaseHoldLimit_held (s : State) {qs vt} (hyp : s.Held qs vt) : ∃ t, execLeaseHoldLimit s = .next t ∧ t.Held qs vt := by
  refine ⟨_, rfl, ?_⟩
  (try dsimp only)
  repeat' (first | (with_reducible first | assumption) | split | intro _ | dsimp only | refine Held.upd ?_ rfl rfl rfl)

theorem State.claimLease_held (s : State) {qs vt} (hyp : s.Held qs vt) : (State.claimLease s).Held qs vt := by
  unfold State.claimLease
  (try dsimp only)
  repeat' (first | (with_reducible first | assumption | apply State.rset_held | apply State.journal_held | apply State.putSup_held) | split | intro _ | dsimp only | refine Held.upd ?_ rfl rfl rfl)

theorem standbyPoll_held (s : State) {qs vt} (hyp : s.Held qs vt) : (standbyPoll s).Held qs vt := by
  unfold standbyPoll
  (try dsimp only)
  repeat' (first | (with_reducible first | assumption | apply State.claimLease_held) | split | intro _ | dsimp only | refine Held.upd ?_ rfl rfl rfl)

theorem execStandbyLeasePoll_held (s : State) {qs vt} (hyp : s.Held qs vt) : ∃ t, execStandbyLeasePoll s = .next t ∧ t.Held qs vt :=
  ⟨_, rfl, standbyPoll_held _ hyp⟩

theorem State.resumeCounters_held (s : State) {qs vt} (hyp : s.Held qs vt) : (State.resumeCounters s).Held qs vt := by
  unfold State.resumeCounters
  (try dsimp only)
  repeat' (first | (with_reducible first | assumption | apply State.journal_held | refine foldl_held (fun _ _ _ => ?_) ?_) | split | intro _ | dsimp only | refine Held.upd ?_ rfl rfl rfl)

theorem State.replayLoads_held (s : State) {qs vt} (hyp : s.Held qs vt) : (State.replayLoads s).Held qs vt := by
  unfold State.replayLoads
  (try dsimp only)
  repeat' (first | (with_reducible first | assumption | apply State.putSlot_held | apply State.showLoad_held | apply State.undoLoad_held | refine foldl_held (fun _ _ _ => ?_) ?_) | split | intro _ | dsimp only | refine Held.upd ?_ rfl rfl rfl)

theorem State.rewriteCounts_held (s : State) {qs vt} (hyp : s.Held qs vt) : (State.rewriteCounts s).Held qs vt := by
  unfold State.rewriteCounts
  (try dsimp only)
  repeat' (first | (with_reducible first | assumption | apply State.setCounts_held | refine foldl_held (fun _ _ _ => ?_) ?_) | split | intro _ | dsimp only)

theorem takeoverEffect_held (s : State) {qs vt} (hyp : s.Held qs vt) : (takeoverEffect s).Held qs vt := by
  unfold takeoverEffect
  (try dsimp only)
  repeat' (first | (with_reducible first | assumption | apply State.rset_held | apply State.countHold_held | apply State.enterFallback_held | apply State.resumeCounters_held | apply State.replayLoads_held | apply State.rewriteCounts_held) | split | intro _ | dsimp only | refine Held.upd ?_ rfl rfl rfl)

theorem execTakeover_held (s : State) {qs vt} (hyp : s.Held qs vt) : ∃ t, execTakeover s = .next t ∧ t.Held qs vt :=
  ⟨_, rfl, takeoverEffect_held _ hyp⟩

theorem State.handOver_held (s : State) {qs vt} (hyp : s.Held qs vt) : (State.handOver s).Held qs vt := by
  unfold State.handOver
  (try dsimp only)
  repeat' (first | (with_reducible first | assumption | apply State.writeCheckpoint_held | apply State.releaseLease_held) | split | intro _ | dsimp only | refine Held.upd ?_ rfl rfl rfl)

theorem preferredReturn_held (s : State) {qs vt} (hyp : s.Held qs vt) : (preferredReturn s).Held qs vt := by
  unfold preferredReturn
  (try dsimp only)
  repeat' (first | (with_reducible first | assumption | apply State.handOver_held) | split | intro _ | dsimp only)

theorem execPreferredLeaseReturn_held (s : State) {qs vt} (hyp : s.Held qs vt) : ∃ t, execPreferredLeaseReturn s = .next t ∧ t.Held qs vt :=
  ⟨_, rfl, preferredReturn_held _ hyp⟩

theorem execHandover_held (s : State) {qs vt} (hyp : s.Held qs vt) : ∃ t, execHandover s = .next t ∧ t.Held qs vt := by
  refine ⟨_, rfl, ?_⟩
  (try dsimp only)
  repeat' (first | (with_reducible first | assumption | apply State.handOver_held) | split | intro _ | dsimp only)

theorem State.replayPass_held (s : State) (u : QUnit) {qs vt} (hyp : s.Held qs vt) : (State.replayPass s u).Held qs vt := by
  unfold State.replayPass
  (try dsimp only)
  repeat' (first | (with_reducible first | assumption | apply State.countHold_held | apply State.enqueue_held | apply State.putRequest_held) | split | intro _ | dsimp only | refine Held.upd ?_ rfl rfl rfl)

theorem State.replaySeq_held (s : State) (q : Nat) {qs vt} (hyp : s.Held qs vt) : (State.replaySeq s q).Held qs vt := by
  unfold State.replaySeq
  (try dsimp only)
  repeat' (first | (with_reducible first | assumption | apply State.countHold_held | apply State.putDesc_held | apply State.shrink_held | apply State.putSeq_held) | split | intro _ | dsimp only | refine Held.upd ?_ rfl rfl rfl)

theorem replayEffect_held (s0 : State) {qs vt} (hyp : s0.Held qs vt) : (replayEffect s0).Held qs vt := by
  unfold replayEffect
  (try dsimp only)
  repeat' (first | (with_reducible first | assumption | apply State.healthEvent_held | apply State.replayLoads_held | apply State.rewriteCounts_held | apply State.replayPass_held | apply State.replaySeq_held | refine foldl_held (fun _ _ _ => ?_) ?_) | split | intro _ | dsimp only | refine Held.upd ?_ rfl rfl rfl)

theorem execReplay_held (s : State) {qs vt} (hyp : s.Held qs vt) : ∃ t, execReplay s = .next t ∧ t.Held qs vt :=
  ⟨_, rfl, replayEffect_held _ hyp⟩

theorem Dict.wf_resetRegs (s : State) (h : Dict.wf s.regs = true) : Dict.wf s.resetRegs = true := by
  unfold State.resetRegs
  have : ∀ (l : List Field) (t : Regs), Dict.wf t = true → Dict.wf (l.foldl (fun (r : Regs) (f : Field) => Regs.set r f (s.rget f)) t) = true := by
    intro l
    induction l with
    | nil => exact fun t h => h
    | cons x l ih => exact fun t ht => ih _ (Regs.wf_setWord _ _ _ _ ht)
  exact this _ _ (Dict.wf_filter _ _ h)
theorem State.fullReset_held (s : State) (cause : Nat) {qs vt} (h : s.Held qs vt) : (s.fullReset cause).Held qs vt := by
  unfold State.fullReset
  dsimp only
  generalize hx : (State.mk _ _ _ _ _ _ _ _ _ _ _ _ _ _ _ _ _) = s1
  have h1 : s1.Held qs vt := by
    subst hx
    exact ⟨h.pending, h.variant, Dict.wf_resetRegs s h.regs, rfl, rfl, by simp⟩
  have h2 : ∀ c m k, (((s1.rset Fld.SYS_RESET_CAUSE c).rset Fld.PWR_CAP_MW m).rset Fld.THM_STATUS_COOLANT k).Held qs vt := fun c m k => by
    exact State.rset_held _ _ _ _ (State.rset_held _ _ _ _ (State.rset_held _ _ _ _ h1))
  have h3 : ∀ (c : Prop) [Decidable c] (x y : State), x.Held qs vt → y.Held qs vt → (if c then x else y).Held qs vt := fun c _ x y hx hy => by
    split <;> assumption
  exact h3 _ _ _ (State.rset_held _ _ _ _ (State.rset_held _ _ _ _ (h2 _ _ _))) (h2 _ _ _)

theorem State.stopRun_held (s : State) (cause : Nat) {qs vt} (hyp : s.Held qs vt) : (State.stopRun s cause).Held qs vt := by
  unfold State.stopRun
  (try dsimp only)
  repeat' (first | (with_reducible first | assumption) | split | intro _ | dsimp only | refine Held.upd ?_ rfl rfl rfl)

theorem State.writeStatusPage_held (s : State) {qs vt} (hyp : s.Held qs vt) : (State.writeStatusPage s).Held qs vt := by
  unfold State.writeStatusPage
  (try dsimp only)
  repeat' (first | (with_reducible first | assumption) | split | intro _ | dsimp only | refine Held.upd ?_ rfl rfl rfl)

theorem State.hwStatus_held (s : State) (bit : Nat) (on : Bool) {qs vt} (hyp : s.Held qs vt) : (State.hwStatus s bit on).Held qs vt := by
  unfold State.hwStatus
  (try dsimp only)
  repeat' (first | (with_reducible first | assumption) | split | intro _ | dsimp only | refine Held.upd ?_ rfl rfl rfl)

theorem State.cannotServe_held (s : State) {qs vt} (hyp : s.Held qs vt) : (State.cannotServe s).Held qs vt := by
  unfold State.cannotServe
  (try dsimp only)
  repeat' (first | (with_reducible first | assumption | apply State.rset_held | apply State.writeStatusPage_held | apply State.hwStatus_held) | split | intro _ | dsimp only | refine Held.upd ?_ rfl rfl rfl)

theorem State.setMeasurement_held (s : State) (m : Nat) (d : List Byte) {qs vt} (hyp : s.Held qs vt) : (State.setMeasurement s m d).Held qs vt := by
  unfold State.setMeasurement
  (try dsimp only)
  repeat' (first | (with_reducible first | assumption) | split | intro _ | dsimp only | refine Held.upd ?_ rfl rfl rfl)

theorem State.lockSetup_held (s : State) {qs vt} (hyp : s.Held qs vt) : (State.lockSetup s).Held qs vt := by
  unfold State.lockSetup
  (try dsimp only)
  repeat' (first | (with_reducible first | assumption | apply State.rset_held | apply State.setMeasurement_held) | split | intro _ | dsimp only)

theorem State.answerAttest_held (s : State) (r : ReplyTo) (nonce : List Byte) (flags : Nat) {qs vt} (hyp : s.Held qs vt) : (State.answerAttest s r nonce flags).Held qs vt := by
  unfold State.answerAttest
  (try dsimp only)
  repeat' (first | (with_reducible first | assumption | apply State.replyTo_held) | split | intro _ | dsimp only | refine Held.upd ?_ rfl rfl rfl)

theorem attestEffect_held (m : Msg) (s : State) {qs vt} (hyp : s.Held qs vt) : (attestEffect m s).Held qs vt := by
  unfold attestEffect
  (try dsimp only)
  repeat' (first | (with_reducible first | assumption | apply State.count_held | apply State.reply_held | apply State.consume_held | apply State.withMsg_held | apply State.answerAttest_held) | split | intro _ | dsimp only | refine Held.upd ?_ rfl rfl rfl)

theorem execAttest_held (m : Msg) (s : State) {qs vt} (hyp : s.Held qs vt) : ∃ t, execAttest m s = .next t ∧ t.Held qs vt :=
  ⟨_, rfl, attestEffect_held _ _ hyp⟩

theorem State.answerHeld_held (s : State) {qs vt} (hyp : s.Held qs vt) : (State.answerHeld s).Held qs vt := by
  unfold State.answerHeld
  (try dsimp only)
  repeat' (first | (with_reducible first | assumption | apply State.answerAttest_held | refine foldl_held (fun _ _ _ => ?_) ?_) | split | intro _ | dsimp only | refine Held.upd ?_ rfl rfl rfl)

theorem State.endTenantWork_held (s : State) {qs vt} (hyp : s.Held qs vt) : (State.endTenantWork s).Held qs vt := by
  unfold State.endTenantWork
  (try dsimp only)
  repeat' (first | (with_reducible first | assumption | apply State.failRequest_held | apply State.abortVideo_held | apply State.clearBatch_held | refine foldl_held (fun _ _ _ => ?_) ?_) | split | intro _ | dsimp only | refine Held.upd ?_ rfl rfl rfl)

theorem tenantSwitchEffect_held (m : Msg) (s : State) {qs vt} (hyp : s.Held qs vt) : (tenantSwitchEffect m s).Held qs vt := by
  unfold tenantSwitchEffect
  (try dsimp only)
  repeat' (first | (with_reducible first | assumption | apply State.rsetIf_held | apply State.reply_held | apply State.withMsg_held | apply State.endTenantWork_held) | split | intro _ | dsimp only | refine Held.upd ?_ rfl rfl rfl)

theorem execTenantSwitch_held (m : Msg) (s : State) {qs vt} (hyp : s.Held qs vt) : ∃ t, execTenantSwitch m s = .next t ∧ t.Held qs vt :=
  ⟨_, rfl, tenantSwitchEffect_held _ _ hyp⟩

theorem switchAcked_held (s : State) {qs vt} (hyp : s.Held qs vt) : (switchAcked s).Held qs vt := by
  unfold switchAcked
  (try dsimp only)
  repeat' (first | (with_reducible first | assumption | apply State.draw_held | apply State.reply_held | apply State.replyTo_held) | split | refine State.draw_held' _ (by assumption) ?_ | intro _ | dsimp only | refine Held.upd ?_ rfl rfl rfl)

theorem execTenantSwitchAcked_held (s : State) {qs vt} (hyp : s.Held qs vt) : ∃ t, execTenantSwitchAcked s = .next t ∧ t.Held qs vt :=
  ⟨_, rfl, switchAcked_held _ hyp⟩

theorem switchReset_held (s : State) {qs vt} (hyp : s.Held qs vt) : (switchReset s).Held qs vt := by
  unfold switchReset
  (try dsimp only)
  repeat' (first | (with_reducible first | assumption | apply State.fullReset_held) | split | intro _ | dsimp only)

theorem execTenantSwitchReset_held (s : State) {qs vt} (hyp : s.Held qs vt) : ∃ t, execTenantSwitchReset s = .next t ∧ t.Held qs vt :=
  ⟨_, rfl, switchReset_held _ hyp⟩

theorem debugToken_held (p : List Byte) (s : State) {qs vt} (h : s.Held qs vt) : (debugToken p s).Held qs vt := by
  unfold debugToken
  split
  · exact h
  · split
    · exact State.rset_held _ _ _ _ h
    · split
      · exact State.rset_held _ _ _ _ (State.rset_held _ _ _ _ h)
      · have h1 := State.rset_held s Fld.SEC_DEBUG_LEVEL 2 0 h
        exact { h1 with dram := rfl, banks := rfl }

theorem execDebugToken_held (token : List Byte) (s : State) {qs vt} (hyp : s.Held qs vt) : ∃ t, execDebugToken token s = .next t ∧ t.Held qs vt := by
  refine ⟨_, rfl, ?_⟩
  (try dsimp only)
  repeat' (first | (with_reducible first | assumption | apply debugToken_held) | split | intro _ | dsimp only)

theorem debugCapRemoved_held (s : State) {qs vt} (hyp : s.Held qs vt) : (debugCapRemoved s).Held qs vt := by
  unfold debugCapRemoved
  (try dsimp only)
  repeat' (first | (with_reducible first | assumption | apply State.rset_held) | split | intro _ | dsimp only | refine Held.upd ?_ rfl rfl rfl)

theorem execDebugCapRemoved_held (s : State) {qs vt} (hyp : s.Held qs vt) : ∃ t, execDebugCapRemoved s = .next t ∧ t.Held qs vt :=
  ⟨_, rfl, debugCapRemoved_held _ hyp⟩

theorem State.zeroFields_held (s : State) (l : List Field) {qs vt} (hyp : s.Held qs vt) : (State.zeroFields s l).Held qs vt := by
  unfold State.zeroFields
  (try dsimp only)
  repeat' (first | (with_reducible first | assumption | apply State.rset_held | refine foldl_held (fun _ _ _ => ?_) ?_) | split | intro _ | dsimp only)

theorem State.arrClear_held (s : State) {qs vt} (hyp : s.Held qs vt) : (State.arrClear s).Held qs vt := by
  unfold State.arrClear
  (try dsimp only)
  repeat' (first | (with_reducible first | assumption | apply State.rset_held | apply State.zeroFields_held | refine foldl_held (fun _ _ _ => ?_) ?_) | split | intro _ | dsimp only | refine Held.upd ?_ rfl rfl rfl)

theorem State.feedClear_held (s : State) {qs vt} (hyp : s.Held qs vt) : (State.feedClear s).Held qs vt := by
  unfold State.feedClear
  (try dsimp only)
  repeat' (first | (with_reducible first | assumption | apply State.rset_held | apply State.zeroFields_held | refine foldl_held (fun _ _ _ => ?_) ?_) | split | intro _ | dsimp only | refine Held.upd ?_ rfl rfl rfl)

theorem State.trimClear_held (s : State) {qs vt} (hyp : s.Held qs vt) : (State.trimClear s).Held qs vt := by
  unfold State.trimClear
  (try dsimp only)
  repeat' (first | (with_reducible first | assumption | apply State.rset_held | apply State.zeroFields_held | refine foldl_held (fun _ _ _ => ?_) ?_) | split | intro _ | dsimp only | refine Held.upd ?_ rfl rfl rfl)

theorem State.memClear_held (s : State) {qs vt} (hyp : s.Held qs vt) : (State.memClear s).Held qs vt := by
  unfold State.memClear
  (try dsimp only)
  repeat' (first | (with_reducible first | assumption | apply State.rset_held | apply State.zeroFields_held | refine foldl_held (fun _ _ _ => ?_) ?_) | split | intro _ | dsimp only | refine Held.upd ?_ rfl rfl rfl)

theorem State.xltClear_held (s : State) {qs vt} (hyp : s.Held qs vt) : (State.xltClear s).Held qs vt := by
  unfold State.xltClear
  (try dsimp only)
  repeat' (first | (with_reducible first | assumption | apply State.zeroFields_held) | split | intro _ | dsimp only | refine Held.upd ?_ rfl rfl rfl)

theorem State.bankClear_held (s : State) {qs vt} (hyp : s.Held qs vt) : (State.bankClear s).Held qs vt := by
  unfold State.bankClear
  (try dsimp only)
  repeat' (first | (with_reducible first | assumption | apply State.zeroFields_held) | split | intro _ | dsimp only | refine Held.upd ?_ rfl rfl rfl)

theorem State.srvClear_held (s : State) {qs vt} (hyp : s.Held qs vt) : (State.srvClear s).Held qs vt := by
  unfold State.srvClear
  (try dsimp only)
  repeat' (first | (with_reducible first | assumption | apply State.zeroFields_held) | split | intro _ | dsimp only | refine Held.upd ?_ rfl rfl rfl)

theorem State.vidClear_held (s : State) {qs vt} (hyp : s.Held qs vt) : (State.vidClear s).Held qs vt := by
  unfold State.vidClear
  (try dsimp only)
  repeat' (first | (with_reducible first | assumption | apply State.zeroFields_held) | split | intro _ | dsimp only | refine Held.upd ?_ rfl rfl rfl)

theorem State.netClear_held (s : State) {qs vt} (hyp : s.Held qs vt) : (State.netClear s).Held qs vt := by
  unfold State.netClear
  (try dsimp only)
  repeat' (first | (with_reducible first | assumption | apply State.zeroFields_held) | split | intro _ | dsimp only | refine Held.upd ?_ rfl rfl rfl)

theorem State.contClear_held (s : State) {qs vt} (hyp : s.Held qs vt) : (State.contClear s).Held qs vt := by
  unfold State.contClear
  (try dsimp only)
  repeat' (first | (with_reducible first | assumption | apply State.zeroFields_held) | split | intro _ | dsimp only | refine Held.upd ?_ rfl rfl rfl)

theorem State.thmClear_held (s : State) {qs vt} (hyp : s.Held qs vt) : (State.thmClear s).Held qs vt := by
  unfold State.thmClear
  (try dsimp only)
  repeat' (first | (with_reducible first | assumption | apply State.zeroFields_held) | split | intro _ | dsimp only | refine Held.upd ?_ rfl rfl rfl)

theorem State.netApply_held (s : State) {qs vt} (hyp : s.Held qs vt) : (State.netApply s).Held qs vt := by
  unfold State.netApply
  (try dsimp only)
  repeat' (first | (with_reducible first | assumption | apply State.onPort_held | apply State.transmit_held | refine foldl_held (fun _ _ _ => ?_) ?_) | split | intro _ | dsimp only | refine Held.upd ?_ rfl rfl rfl)

theorem State.idle_held (s : State) {qs vt} (h : s.Held qs vt) : s.idle.Held qs vt := by
  refine { h with regs := ?_ }
  unfold State.idle
  dsimp only
  generalize (if (s.srv.count + 1) % 1000 = 0 then 1 else 0 : Nat) = ms
  split
  · exact Regs.wf_setWord _ _ _ _ h.regs
  · exact h.regs

theorem State.setFwuState_held (s : State) (n : Nat) {qs vt} (hyp : s.Held qs vt) : (State.setFwuState s n).Held qs vt := by
  unfold State.setFwuState
  (try dsimp only)
  repeat' (first | (with_reducible first | assumption | apply State.rset_held) | split | intro _ | dsimp only)

theorem State.fwuMsg_held (s : State) (m : Msg) (type : Nat) (len : Option Nat) (body : State → State × Code) {qs vt} (hbody : ∀ x0, x0.Held qs vt → (body x0).1.Held qs vt) (hyp : s.Held qs vt) : (State.fwuMsg s m type len body).Held qs vt := by
  unfold State.fwuMsg
  (try dsimp only)
  repeat' (first | (with_reducible first | assumption | apply hbody | apply State.reply_held | apply State.withMsg_held) | split | intro _ | dsimp only)

theorem fwuBegin_held (m : Msg) (s : State) {qs vt} (hyp : s.Held qs vt) : (fwuBegin m s).Held qs vt := by
  unfold fwuBegin
  (try dsimp only)
  repeat' (first | (with_reducible first | assumption | apply State.setFwuState_held | apply State.fwuMsg_held) | split | intro _ | dsimp only | refine Held.upd ?_ rfl rfl rfl)

theorem execFwuBegin_held (m : Msg) (s : State) {qs vt} (hyp : s.Held qs vt) : ∃ t, execFwuBegin m s = .next t ∧ t.Held qs vt :=
  ⟨_, rfl, fwuBegin_held _ _ hyp⟩

theorem State.packageFailed_held (s : State) (c : Code) (f : Option Field) {qs vt} (hyp : s.Held qs vt) : (State.packageFailed s c f).Held qs vt := by
  unfold State.packageFailed
  (try dsimp only)
  repeat' (first | (with_reducible first | assumption | apply State.rset_held | apply State.setFwuState_held) | split | intro _ | dsimp only | refine Held.upd ?_ rfl rfl rfl)

theorem State.checkHeld_held (s : State) {qs vt} (hyp : s.Held qs vt) : (State.checkHeld s).Held qs vt := by
  unfold State.checkHeld
  (try dsimp only)
  repeat' (first | (with_reducible first | assumption | apply State.packageFailed_held) | split | intro _ | dsimp only | refine Held.upd ?_ rfl rfl rfl)

theorem fwuBlock_held (m : Msg) (s : State) {qs vt} (hyp : s.Held qs vt) : (fwuBlock m s).Held qs vt := by
  unfold fwuBlock
  (try dsimp only)
  repeat' (first | (with_reducible first | assumption | apply State.fwuMsg_held | apply State.checkHeld_held) | split | intro _ | dsimp only | refine Held.upd ?_ rfl rfl rfl)

theorem execFwuBlock_held (m : Msg) (s : State) {qs vt} (hyp : s.Held qs vt) : ∃ t, execFwuBlock m s = .next t ∧ t.Held qs vt :=
  ⟨_, rfl, fwuBlock_held _ _ hyp⟩

theorem packageStaged_held (ok : Bool) (s : State) {qs vt} (hyp : s.Held qs vt) : (packageStaged ok s).Held qs vt := by
  unfold packageStaged
  (try dsimp only)
  repeat' (first | (with_reducible first | assumption | apply State.rset_held | apply State.setFwuState_held | apply State.packageFailed_held) | split | intro _ | dsimp only | refine Held.upd ?_ rfl rfl rfl)

theorem execPackageStaged_held (ok : Bool) (s : State) {qs vt} (hyp : s.Held qs vt) : ∃ t, execPackageStaged ok s = .next t ∧ t.Held qs vt :=
  ⟨_, rfl, packageStaged_held _ _ hyp⟩

theorem execFwuStatus_held (m : Msg) (s : State) {qs vt} (hyp : s.Held qs vt) : ∃ t, execFwuStatus m s = .next t ∧ t.Held qs vt := by
  refine ⟨_, rfl, ?_⟩
  (try dsimp only)
  repeat' (first | (with_reducible first | assumption | apply State.fwuMsg_held) | split | intro _ | dsimp only)

theorem State.stopComponent_held (s : State) (c : Nat) {qs vt} (hyp : s.Held qs vt) : (State.stopComponent s c).Held qs vt := by
  unfold State.stopComponent
  (try dsimp only)
  repeat' (first | (with_reducible first | assumption | apply State.rset_held | apply State.enterFallback_held | apply State.startSlice_held | apply State.stopFe_held | apply State.putSup_held) | split | intro _ | dsimp only | refine Held.upd ?_ rfl rfl rfl)

theorem State.nextComponent_held (s : State) {qs vt} (hyp : s.Held qs vt) : (State.nextComponent s).Held qs vt := by
  unfold State.nextComponent
  (try dsimp only)
  repeat' (first | (with_reducible first | assumption | apply State.rset_held | apply State.countHold_held | apply State.setFwuState_held | apply State.stopComponent_held) | split | intro _ | dsimp only | refine Held.upd ?_ rfl rfl rfl)

theorem State.fwuActivate_held (s : State) (m : Msg) (mode : Nat) (body : State → FwPackage → State × Code) {qs vt} (hbody : ∀ x0 x1, x0.Held qs vt → (body x0 x1).1.Held qs vt) (hyp : s.Held qs vt) : (State.fwuActivate s m mode body).Held qs vt := by
  unfold State.fwuActivate
  (try dsimp only)
  repeat' (first | (with_reducible first | assumption | apply hbody | apply State.fwuMsg_held) | split | intro _ | dsimp only | refine Held.upd ?_ rfl rfl rfl)

theorem fwuActivateLive_held (m : Msg) (s : State) {qs vt} (hyp : s.Held qs vt) : (fwuActivateLive m s).Held qs vt := by
  unfold fwuActivateLive
  (try dsimp only)
  repeat' (first | (with_reducible first | assumption | apply State.setFwuState_held | apply State.nextComponent_held | apply State.fwuActivate_held) | split | intro _ | dsimp only | refine Held.upd ?_ rfl rfl rfl)

theorem execFwuActivateLive_held (m : Msg) (s : State) {qs vt} (hyp : s.Held qs vt) : ∃ t, execFwuActivateLive m s = .next t ∧ t.Held qs vt :=
  ⟨_, rfl, fwuActivateLive_held _ _ hyp⟩

theorem fwuActivateReset_held (m : Msg) (s : State) {qs vt} (hyp : s.Held qs vt) : (fwuActivateReset m s).Held qs vt := by
  unfold fwuActivateReset
  (try dsimp only)
  repeat' (first | (with_reducible first | assumption | apply State.fwuActivate_held) | split | intro _ | dsimp only | refine Held.upd ?_ rfl rfl rfl)

theorem execFwuActivateReset_held (m : Msg) (s : State) {qs vt} (hyp : s.Held qs vt) : ∃ t, execFwuActivateReset m s = .next t ∧ t.Held qs vt :=
  ⟨_, rfl, fwuActivateReset_held _ _ hyp⟩

theorem State.runImage_held (s : State) (i : FwImage) {qs vt} (hyp : s.Held qs vt) : (State.runImage s i).Held qs vt := by
  unfold State.runImage
  (try dsimp only)
  repeat' (first | (with_reducible first | assumption | apply State.setMeasurement_held) | split | intro _ | dsimp only | refine Held.upd ?_ rfl rfl rfl)

theorem State.resumeVideo_held (s : State) {qs vt} (hyp : s.Held qs vt) : (State.resumeVideo s).Held qs vt := by
  unfold State.resumeVideo
  (try dsimp only)
  repeat' (first | (with_reducible first | assumption | apply State.unhold_held | refine foldl_held (fun _ _ _ => ?_) ?_) | split | intro _ | dsimp only)

theorem State.putSettings_held (s : State) (r : BootSettings) {qs vt} (hyp : s.Held qs vt) : (State.putSettings s r).Held qs vt := by
  unfold State.putSettings
  (try dsimp only)
  repeat' (first | (with_reducible first | assumption | apply State.rset_held | apply State.netApply_held | refine foldl_held (fun _ _ _ => ?_) ?_) | split | intro _ | dsimp only | refine Held.upd ?_ rfl rfl rfl)

theorem State.newSettings_held (s : State) {qs vt} (hyp : s.Held qs vt) : (State.newSettings s).Held qs vt := by
  unfold State.newSettings
  repeat' (first | assumption | apply State.rset_held | apply State.putSettings_held | split)

theorem measurementCommit_held (s : State) {qs vt} (hyp : s.Held qs vt) : (measurementCommit s).Held qs vt := by
  unfold measurementCommit
  (try dsimp only)
  repeat' (first | (with_reducible first | assumption | apply State.startSlice_held | apply State.putSup_held | apply State.answerHeld_held | apply State.nextComponent_held | apply State.runImage_held | apply State.newSettings_held | apply State.resumeVideo_held) | split | intro _ | dsimp only | refine Held.upd ?_ rfl rfl rfl)

theorem execMeasurementCommit_held (s : State) {qs vt} (hyp : s.Held qs vt) : ∃ t, execMeasurementCommit s = .next t ∧ t.Held qs vt :=
  ⟨_, rfl, measurementCommit_held _ hyp⟩

theorem State.fallBack_held (s : State) {qs vt} (hyp : s.Held qs vt) : (State.fallBack s).Held qs vt := by
  unfold State.fallBack
  (try dsimp only)
  repeat' (first | (with_reducible first | assumption | apply State.rset_held | apply State.countHold_held | apply State.draw_held | apply State.setMeasurement_held | apply State.answerHeld_held | apply State.setFwuState_held | apply State.runImage_held | refine foldl_held (fun _ _ _ => ?_) ?_) | split | refine State.draw_held' _ (by assumption) ?_ | intro _ | dsimp only | refine Held.upd ?_ rfl rfl rfl)

theorem execCommitTimeout_held (s : State) {qs vt} (hyp : s.Held qs vt) : ∃ t, execCommitTimeout s = .next t ∧ t.Held qs vt := by
  refine ⟨_, rfl, ?_⟩
  (try dsimp only)
  repeat' (first | (with_reducible first | assumption | apply State.fallBack_held) | split | intro _ | dsimp only)

theorem execFallback_held (s : State) {qs vt} (hyp : s.Held qs vt) : ∃ t, execFallback s = .next t ∧ t.Held qs vt := by
  refine ⟨_, rfl, ?_⟩
  (try dsimp only)
  repeat' (first | (with_reducible first | assumption | apply State.fallBack_held) | split | intro _ | dsimp only)

theorem fwuDiscard_held (m : Msg) (s : State) {qs vt} (hyp : s.Held qs vt) : (fwuDiscard m s).Held qs vt := by
  unfold fwuDiscard
  (try dsimp only)
  repeat' (first | (with_reducible first | assumption | apply State.rset_held | apply State.enterFallback_held | apply State.setFwuState_held | apply State.fwuActivate_held) | split | intro _ | dsimp only | refine Held.upd ?_ rfl rfl rfl)

theorem execFwuDiscard_held (m : Msg) (s : State) {qs vt} (hyp : s.Held qs vt) : ∃ t, execFwuDiscard m s = .next t ∧ t.Held qs vt :=
  ⟨_, rfl, fwuDiscard_held _ _ hyp⟩

theorem trialExpiry_held (s : State) {qs vt} (hyp : s.Held qs vt) : (trialExpiry s).Held qs vt := by
  unfold trialExpiry
  (try dsimp only)
  repeat' (first | (with_reducible first | assumption | apply State.rset_held | apply State.setFwuState_held) | split | intro _ | dsimp only | refine Held.upd ?_ rfl rfl rfl)

theorem execTrialExpiry_held (s : State) {qs vt} (hyp : s.Held qs vt) : ∃ t, execTrialExpiry s = .next t ∧ t.Held qs vt :=
  ⟨_, rfl, trialExpiry_held _ hyp⟩

end Sys2Proof.Machine
end

