-- ==== Sys2Proof/Laws/HeldPower.lean ====
section
/-! SUPPORT. HeldPower.lean: every operation and command of power, the tray pull and the thermal model keeps `State.Held`. -/

set_option linter.all false


namespace Sys2Proof.Machine

theorem State.settlePace_held (s : State) {qs vt} (hyp : s.Held qs vt) : (State.settlePace s).Held qs vt := by
  unfold State.settlePace
  (try dsimp only)
  repeat' (first | (with_reducible first | assumption | apply State.rset_held | apply State.leaveFixed_held) | split | intro _ | dsimp only | refine Held.upd ?_ rfl rfl rfl)

theorem State.watchOverrun_held (s : State) {qs vt} (hyp : s.Held qs vt) : (State.watchOverrun s).Held qs vt := by
  unfold State.watchOverrun
  (try dsimp only)
  repeat' (first | (with_reducible first | assumption | apply State.rset_held | apply State.draw_held) | split | refine State.draw_held' _ (by assumption) ?_ | intro _ | dsimp only | refine Held.upd ?_ rfl rfl rfl)

theorem State.newCap_held (s : State) {qs vt} (hyp : s.Held qs vt) : (State.newCap s).Held qs vt := by
  unfold State.newCap
  (try dsimp only)
  repeat' (first | (with_reducible first | assumption | apply State.rset_held | apply State.settlePace_held | apply State.watchOverrun_held) | split | intro _ | dsimp only | refine Held.upd ?_ rfl rfl rfl)

theorem State.capReply_held (s : State) (superseded : Bool) {qs vt} (hyp : s.Held qs vt) : (State.capReply s superseded).Held qs vt := by
  unfold State.capReply
  (try dsimp only)
  repeat' (first | (with_reducible first | assumption | apply State.reply_held | apply State.replyTo_held) | split | intro _ | dsimp only | refine Held.upd ?_ rfl rfl rfl)

theorem State.takeCap_held (s : State) (mw : Nat) (r : Option (ReplyTo × Nat)) {qs vt} (hyp : s.Held qs vt) : (State.takeCap s mw r).Held qs vt := by
  unfold State.takeCap
  (try dsimp only)
  repeat' (first | (with_reducible first | assumption | apply State.rset_held | apply State.countHold_held | apply State.reply_held | apply State.newCap_held | apply State.capReply_held) | split | intro _ | dsimp only | refine Held.upd ?_ rfl rfl rfl)

theorem capSet_held (m : Msg) (s : State) {qs vt} (hyp : s.Held qs vt) : (capSet m s).Held qs vt := by
  unfold capSet
  (try dsimp only)
  repeat' (first | (with_reducible first | assumption | apply State.reply_held | apply State.withMsg_held | apply State.takeCap_held) | split | intro _ | dsimp only | refine Held.upd ?_ rfl rfl rfl)

theorem execCapSet_held (m : Msg) (s : State) {qs vt} (hyp : s.Held qs vt) : ∃ t, execCapSet m s = .next t ∧ t.Held qs vt :=
  ⟨_, rfl, capSet_held _ _ hyp⟩

theorem execCapSettled_held (s : State) {qs vt} (hyp : s.Held qs vt) : ∃ t, execCapSettled s = .next t ∧ t.Held qs vt := by
  refine ⟨_, rfl, ?_⟩
  (try dsimp only)
  repeat' (first | (with_reducible first | assumption | apply State.capReply_held | apply capSet_held) | split | intro _ | dsimp only)

theorem State.arrive_held (s : State) (n : Nat) {qs vt} (hyp : s.Held qs vt) : (State.arrive s n).Held qs vt := by
  unfold State.arrive
  (try dsimp only)
  repeat' (first | (with_reducible first | assumption | apply State.rset_held | apply State.setRate_held | apply State.settlePace_held | apply State.watchOverrun_held) | split | intro _ | dsimp only | refine Held.upd ?_ rfl rfl rfl)

theorem opStep_held (failed : List Nat) (s : State) {qs vt} (hyp : s.Held qs vt) : (opStep failed s).Held qs vt := by
  unfold opStep
  (try dsimp only)
  repeat' (first | (with_reducible first | assumption | apply State.trainFailed_held | apply State.settlePace_held | apply State.arrive_held | refine foldl_held (fun _ _ _ => ?_) ?_) | split | intro _ | dsimp only | refine Held.upd ?_ rfl rfl rfl)

theorem execOpStep_held (failed : List Nat) (s : State) {qs vt} (hyp : s.Held qs vt) : ∃ t, execOpStep failed s = .next t ∧ t.Held qs vt :=
  ⟨_, rfl, opStep_held _ _ hyp⟩

theorem voltageTimeout_held (s : State) {qs vt} (hyp : s.Held qs vt) : (voltageTimeout s).Held qs vt := by
  unfold voltageTimeout
  (try dsimp only)
  repeat' (first | (with_reducible first | assumption | apply State.rset_held | apply State.arrive_held) | split | intro _ | dsimp only | refine Held.upd ?_ rfl rfl rfl)

theorem execVoltageConfirmTimeout_held (s : State) {qs vt} (hyp : s.Held qs vt) : ∃ t, execVoltageConfirmTimeout s = .next t ∧ t.Held qs vt :=
  ⟨_, rfl, voltageTimeout_held _ hyp⟩

theorem State.writeManual_held (s : State) (w : Word) {qs vt} (h : s.Held qs vt) : (s.writeManual w).Held qs vt := by
  unfold State.writeManual
  apply State.newCap_held
  exact { h with regs := Regs.wf_setWord _ _ _ _ h.regs }

theorem State.loopStep_held (s : State) (mw : Nat) {qs vt} (hyp : s.Held qs vt) : (State.loopStep s mw).Held qs vt := by
  unfold State.loopStep
  (try dsimp only)
  repeat' (first | (with_reducible first | assumption | apply State.rset_held) | split | intro _ | dsimp only | refine Held.upd ?_ rfl rfl rfl)

theorem State.averagePower_held (s : State) (mw : Nat) {qs vt} (hyp : s.Held qs vt) : (State.averagePower s mw).Held qs vt := by
  unfold State.averagePower
  (try dsimp only)
  repeat' (first | (with_reducible first | assumption) | split | intro _ | dsimp only | refine Held.upd ?_ rfl rfl rfl)

theorem powerInterval_held (mw : Nat) (s : State) {qs vt} (hyp : s.Held qs vt) : (powerInterval mw s).Held qs vt := by
  unfold powerInterval
  (try dsimp only)
  repeat' (first | (with_reducible first | assumption | apply State.rset_held | apply State.healthEvent_held | apply State.settlePace_held | apply State.watchOverrun_held | apply opStep_held | apply State.loopStep_held | apply State.averagePower_held) | split | intro _ | dsimp only | refine Held.upd ?_ rfl rfl rfl)

theorem execPowerInterval_held (mw : Nat) (s : State) {qs vt} (hyp : s.Held qs vt) : ∃ t, execPowerInterval mw s = .next t ∧ t.Held qs vt :=
  ⟨_, rfl, powerInterval_held _ _ hyp⟩

theorem throttleAssert_held (s : State) {qs vt} (hyp : s.Held qs vt) : (throttleAssert s).Held qs vt := by
  unfold throttleAssert
  (try dsimp only)
  repeat' (first | (with_reducible first | assumption | apply State.rset_held | apply State.countHold_held | apply State.leaveFixed_held | apply State.settlePace_held | apply State.watchOverrun_held) | split | intro _ | dsimp only)

theorem execThrottleAssert_held (s : State) {qs vt} (hyp : s.Held qs vt) : ∃ t, execThrottleAssert s = .next t ∧ t.Held qs vt :=
  ⟨_, rfl, throttleAssert_held _ hyp⟩

theorem execThrottleRelease_held (s : State) {qs vt} (hyp : s.Held qs vt) : ∃ t, execThrottleRelease s = .next t ∧ t.Held qs vt := by
  refine ⟨_, rfl, ?_⟩
  (try dsimp only)
  repeat' (first | (with_reducible first | assumption | apply State.rset_held) | split | intro _ | dsimp only)

theorem throttleRamp_held (s : State) {qs vt} (hyp : s.Held qs vt) : (throttleRamp s).Held qs vt := by
  unfold throttleRamp
  (try dsimp only)
  repeat' (first | (with_reducible first | assumption | apply State.rset_held | apply State.settlePace_held | apply State.watchOverrun_held) | split | intro _ | dsimp only)

theorem execThrottleRampStep_held (s : State) {qs vt} (hyp : s.Held qs vt) : ∃ t, execThrottleRampStep s = .next t ∧ t.Held qs vt :=
  ⟨_, rfl, throttleRamp_held _ hyp⟩

theorem crystalStable_held (x : Side) (ok : Bool) (s : State) {qs vt} (hyp : s.Held qs vt) : (crystalStable x ok s).Held qs vt := by
  unfold crystalStable
  (try dsimp only)
  repeat' (first | (with_reducible first | assumption | apply State.rset_held) | split | intro _ | dsimp only | refine Held.upd ?_ rfl rfl rfl)

theorem execCrystalStable_held (side : Side) (ok : Bool) (s : State) {qs vt} (hyp : s.Held qs vt) : ∃ t, execCrystalStable side ok s = .next t ∧ t.Held qs vt :=
  ⟨_, rfl, crystalStable_held _ _ _ hyp⟩

theorem State.stopSup_held (s : State) (x : Side) {qs vt} (hyp : s.Held qs vt) : (State.stopSup s x).Held qs vt := by
  unfold State.stopSup
  (try dsimp only)
  repeat' (first | (with_reducible first | assumption | apply State.putSup_held | apply State.releaseLease_held) | split | intro _ | dsimp only)

theorem State.oscFailed_held (s : State) (osc : Nat) {qs vt} (hyp : s.Held qs vt) : (State.oscFailed s osc).Held qs vt := by
  unfold State.oscFailed
  (try dsimp only)
  repeat' (first | (with_reducible first | assumption | apply State.rset_held | apply State.countHold_held | apply State.healthEvent_held | apply State.failFe_held | apply State.stopSup_held) | split | intro _ | dsimp only | refine Held.upd ?_ rfl rfl rfl)

theorem oscillatorCheck_held (osc count : Nat) (s : State) {qs vt} (hyp : s.Held qs vt) : (oscillatorCheck osc count s).Held qs vt := by
  unfold oscillatorCheck
  (try dsimp only)
  repeat' (first | (with_reducible first | assumption | apply State.count_held | apply State.oscFailed_held) | split | intro _ | dsimp only | refine Held.upd ?_ rfl rfl rfl)

theorem execOscillatorCheck_held (osc count : Nat) (s : State) {qs vt} (hyp : s.Held qs vt) : ∃ t, execOscillatorCheck osc count s = .next t ∧ t.Held qs vt :=
  ⟨_, rfl, oscillatorCheck_held _ _ _ hyp⟩

theorem execTempoWindow_held (count paced : Nat) (s : State) {qs vt} (hyp : s.Held qs vt) : ∃ t, execTempoWindow count paced s = .next t ∧ t.Held qs vt := by
  refine ⟨_, rfl, ?_⟩
  (try dsimp only)
  repeat' (first | (with_reducible first | assumption | apply State.rset_held | apply State.count_held) | split | intro _ | dsimp only)

theorem State.startMeasure_held (s : State) {qs vt} (hyp : s.Held qs vt) : (State.startMeasure s).Held qs vt := by
  unfold State.startMeasure
  (try dsimp only)
  repeat' (first | (with_reducible first | assumption | apply State.rset_held) | split | intro _ | dsimp only | refine Held.upd ?_ rfl rfl rfl)

theorem measStart_held (cfg : Word) (s : State) {qs vt} (hyp : s.Held qs vt) : (measStart cfg s).Held qs vt := by
  unfold measStart
  (try dsimp only)
  repeat' (first | (with_reducible first | assumption | apply State.rset_held | apply State.startMeasure_held) | split | intro _ | dsimp only)

theorem execMeasStart_held (cfg : Word) (s : State) {qs vt} (hyp : s.Held qs vt) : ∃ t, execMeasStart cfg s = .next t ∧ t.Held qs vt :=
  ⟨_, rfl, measStart_held _ _ hyp⟩

theorem measDone_held (count : Nat) (s : State) {qs vt} (hyp : s.Held qs vt) : (measDone count s).Held qs vt := by
  unfold measDone
  (try dsimp only)
  repeat' (first | (with_reducible first | assumption | apply State.rset_held | apply State.count_held) | split | intro _ | dsimp only | refine Held.upd ?_ rfl rfl rfl)

theorem execMeasDone_held (count : Nat) (s : State) {qs vt} (hyp : s.Held qs vt) : ∃ t, execMeasDone count s = .next t ∧ t.Held qs vt :=
  ⟨_, rfl, measDone_held _ _ hyp⟩

theorem State.toTwin_held (s : State) (type : Nat) (payload : List Byte) {qs vt} (hyp : s.Held qs vt) : (State.toTwin s type payload).Held qs vt := by
  unfold State.toTwin
  (try dsimp only)
  repeat' (first | (with_reducible first | assumption | apply State.pushOwn_held) | split | intro _ | dsimp only | refine Held.upd ?_ rfl rfl rfl)

theorem State.sendClaim_held (s : State) (epoch : Nat) {qs vt} (hyp : s.Held qs vt) : (State.sendClaim s epoch).Held qs vt := by
  unfold State.sendClaim
  (try dsimp only)
  repeat' (first | (with_reducible first | assumption | apply State.pushOwnAll_held) | split | intro _ | dsimp only | refine Held.upd ?_ rfl rfl rfl)

theorem State.sendRecords_held (s : State) (l : List JRecord) {qs vt} (hyp : s.Held qs vt) : (State.sendRecords s l).Held qs vt := by
  unfold State.sendRecords
  (try dsimp only)
  repeat' (first | (with_reducible first | assumption | apply State.toTwin_held | refine foldl_held (fun _ _ _ => ?_) ?_) | split | intro _ | dsimp only | refine Held.upd ?_ rfl rfl rfl)

theorem State.mirrorOut_held (s : State) {qs vt} (hyp : s.Held qs vt) : (State.mirrorOut s).Held qs vt := by
  unfold State.mirrorOut
  (try dsimp only)
  repeat' (first | (with_reducible first | assumption | apply State.sendRecords_held) | split | intro _ | dsimp only)

theorem State.releaseTwin_held (s : State) {qs vt} (hyp : s.Held qs vt) : (State.releaseTwin s).Held qs vt := by
  unfold State.releaseTwin
  (try dsimp only)
  repeat' (first | (with_reducible first | assumption | apply State.toTwin_held) | split | intro _ | dsimp only | refine Held.upd ?_ rfl rfl rfl)

theorem State.loseTwin_held (s : State) {qs vt} (hyp : s.Held qs vt) : (State.loseTwin s).Held qs vt := by
  unfold State.loseTwin
  (try dsimp only)
  repeat' (first | (with_reducible first | assumption | apply State.rset_held | apply State.countHold_held) | split | intro _ | dsimp only | refine Held.upd ?_ rfl rfl rfl)

theorem State.writeFlush_held (s : State) {qs vt} (hyp : s.Held qs vt) : (State.writeFlush s).Held qs vt := by
  unfold State.writeFlush
  (try dsimp only)
  repeat' (first | (with_reducible first | assumption | apply State.rset_held) | split | intro _ | dsimp only | refine Held.upd ?_ rfl rfl rfl)

theorem flushPeriod_held (s : State) {qs vt} (hyp : s.Held qs vt) : (flushPeriod s).Held qs vt := by
  unfold flushPeriod
  (try dsimp only)
  repeat' (first | (with_reducible first | assumption | apply State.writeFlush_held) | split | intro _ | dsimp only)

theorem execFlushRecord_held (s : State) {qs vt} (hyp : s.Held qs vt) : ∃ t, execFlushRecord s = .next t ∧ t.Held qs vt :=
  ⟨_, rfl, flushPeriod_held _ hyp⟩

theorem State.haltNow_held (s : State) (cause : Nat) {qs vt} (hyp : s.Held qs vt) : (State.haltNow s cause).Held qs vt := by
  unfold State.haltNow
  (try dsimp only)
  repeat' (first | (with_reducible first | assumption | apply State.rset_held | apply State.stopRun_held | apply State.writeStatusPage_held | apply State.hwStatus_held) | split | intro _ | dsimp only | refine Held.upd ?_ rfl rfl rfl)

theorem State.afterFlush_held (s : State) {qs vt} (hyp : s.Held qs vt) : (State.afterFlush s).Held qs vt := by
  unfold State.afterFlush
  (try dsimp only)
  repeat' (first | (with_reducible first | assumption | apply State.stopRun_held | apply State.hwStatus_held | apply State.haltNow_held) | split | intro _ | dsimp only | refine Held.upd ?_ rfl rfl rfl)

theorem State.startPull_held (s : State) (why : PullWhy) {qs vt} (hyp : s.Held qs vt) : (State.startPull s why).Held qs vt := by
  unfold State.startPull
  (try dsimp only)
  repeat' (first | (with_reducible first | assumption | apply State.rset_held | apply State.hwStatus_held | apply State.sendRecords_held | apply State.releaseTwin_held | apply State.afterFlush_held) | split | intro _ | dsimp only | refine Held.upd ?_ rfl rfl rfl)

theorem State.pullFlush_held (s : State) {qs vt} (hyp : s.Held qs vt) : (State.pullFlush s).Held qs vt := by
  unfold State.pullFlush
  (try dsimp only)
  repeat' (first | (with_reducible first | assumption | apply State.writeFlush_held | apply State.afterFlush_held) | split | intro _ | dsimp only | refine Held.upd ?_ rfl rfl rfl)

theorem execPullTwinAckWait_held (s : State) {qs vt} (hyp : s.Held qs vt) : ∃ t, execPullTwinAckWait s = .next t ∧ t.Held qs vt := by
  refine ⟨_, rfl, ?_⟩
  (try dsimp only)
  repeat' (first | (with_reducible first | assumption | apply State.pullFlush_held) | split | intro _ | dsimp only)

theorem holdupEnd_held (s : State) {qs vt} (hyp : s.Held qs vt) : (holdupEnd s).Held qs vt := by
  unfold holdupEnd
  (try dsimp only)
  repeat' (first | (with_reducible first | assumption | apply State.stopRun_held) | split | intro _ | dsimp only | refine Held.upd ?_ rfl rfl rfl)

theorem execHoldupEnd_held (s : State) {qs vt} (hyp : s.Held qs vt) : ∃ t, execHoldupEnd s = .next t ∧ t.Held qs vt :=
  ⟨_, rfl, holdupEnd_held _ hyp⟩

theorem pullSenseBreak_held (pin : Nat) (s : State) {qs vt} (hyp : s.Held qs vt) : (pullSenseBreak pin s).Held qs vt := by
  unfold pullSenseBreak
  (try dsimp only)
  repeat' (first | (with_reducible first | assumption | apply State.rset_held | apply State.startPull_held) | split | intro _ | dsimp only)

theorem execPullSenseBreak_held (pin : Nat) (s : State) {qs vt} (hyp : s.Held qs vt) : ∃ t, execPullSenseBreak pin s = .next t ∧ t.Held qs vt :=
  ⟨_, rfl, pullSenseBreak_held _ _ hyp⟩

theorem State.endPull_held (s : State) {qs vt} (hyp : s.Held qs vt) : (State.endPull s).Held qs vt := by
  unfold State.endPull
  (try dsimp only)
  repeat' (first | (with_reducible first | assumption | apply State.rset_held | apply State.hwStatus_held) | split | intro _ | dsimp only | refine Held.upd ?_ rfl rfl rfl)

theorem pullPinFault_held (s : State) {qs vt} (hyp : s.Held qs vt) : (pullPinFault s).Held qs vt := by
  unfold pullPinFault
  (try dsimp only)
  repeat' (first | (with_reducible first | assumption | apply State.rset_held | apply State.healthEvent_held | apply State.endPull_held) | split | intro _ | dsimp only)

theorem execPullPinFault_held (s : State) {qs vt} (hyp : s.Held qs vt) : ∃ t, execPullPinFault s = .next t ∧ t.Held qs vt :=
  ⟨_, rfl, pullPinFault_held _ hyp⟩

theorem pullRemade_held (s : State) {qs vt} (hyp : s.Held qs vt) : (pullRemade s).Held qs vt := by
  unfold pullRemade
  (try dsimp only)
  repeat' (first | (with_reducible first | assumption | apply State.rset_held | apply State.endPull_held) | split | intro _ | dsimp only)

theorem execPullSenseRemade_held (s : State) {qs vt} (hyp : s.Held qs vt) : ∃ t, execPullSenseRemade s = .next t ∧ t.Held qs vt :=
  ⟨_, rfl, pullRemade_held _ hyp⟩

theorem State.thermalLimits_held (s : State) (ref : Int) {qs vt} (hyp : s.Held qs vt) : (State.thermalLimits s ref).Held qs vt := by
  unfold State.thermalLimits
  (try dsimp only)
  repeat' (first | (with_reducible first | assumption | apply State.rset_held | refine foldl_held (fun _ _ _ => ?_) ?_) | split | intro _ | dsimp only | refine Held.upd ?_ rfl rfl rfl)

theorem State.applyThermal_held (s : State) {qs vt} (hyp : s.Held qs vt) : (State.applyThermal s).Held qs vt := by
  unfold State.applyThermal
  (try dsimp only)
  repeat' (first | (with_reducible first | assumption | apply State.rset_held | apply State.settlePace_held | apply State.watchOverrun_held) | split | intro _ | dsimp only)

theorem State.showCoolant_held (s : State) {qs vt} (hyp : s.Held qs vt) : (State.showCoolant s).Held qs vt := by
  unfold State.showCoolant
  (try dsimp only)
  repeat' (first | (with_reducible first | assumption | apply State.rset_held) | split | intro _ | dsimp only | refine Held.upd ?_ rfl rfl rfl)

theorem State.showPairs_held (s : State) {qs vt} (hyp : s.Held qs vt) : (State.showPairs s).Held qs vt := by
  unfold State.showPairs
  (try dsimp only)
  repeat' (first | (with_reducible first | assumption | apply State.rset_held) | split | intro _ | dsimp only)

theorem State.noteSpot_held (s : State) (old new : HotSpot) {qs vt} (hyp : s.Held qs vt) : (State.noteSpot s old new).Held qs vt := by
  unfold State.noteSpot
  (try dsimp only)
  repeat' (first | (with_reducible first | assumption | apply State.rset_held | apply State.countHold_held | apply State.healthEvent_held) | split | intro _ | dsimp only)

theorem State.spotsStep_held (s : State) (x : ThermalSnapshot) {qs vt} (hyp : s.Held qs vt) : (State.spotsStep s x).Held qs vt := by
  unfold State.spotsStep
  (try dsimp only)
  repeat' (first | (with_reducible first | assumption | apply State.draw_held | apply State.thermalLimits_held | apply State.showPairs_held | apply State.noteSpot_held | refine foldl_held (fun _ _ _ => ?_) ?_) | split | refine State.draw_held' _ (by assumption) ?_ | intro _ | dsimp only | refine Held.upd ?_ rfl rfl rfl)

theorem State.applyCap_held (s : State) {qs vt} (hyp : s.Held qs vt) : (State.applyCap s).Held qs vt := by
  unfold State.applyCap
  (try dsimp only)
  repeat' (first | (with_reducible first | assumption | apply State.rset_held | apply State.newCap_held) | split | intro _ | dsimp only | refine Held.upd ?_ rfl rfl rfl)

theorem State.declareStop_held (s : State) {qs vt} (hyp : s.Held qs vt) : (State.declareStop s).Held qs vt := by
  unfold State.declareStop
  (try dsimp only)
  repeat' (first | (with_reducible first | assumption | apply State.rset_held | apply State.healthEvent_held | apply State.showCoolant_held) | split | intro _ | dsimp only | refine Held.upd ?_ rfl rfl rfl)

theorem State.showFlow_held (s : State) (flow : Option Nat) (implied : Option (Nat × Bool)) {qs vt} (hyp : s.Held qs vt) : (State.showFlow s flow implied).Held qs vt := by
  unfold State.showFlow
  (try dsimp only)
  repeat' (first | (with_reducible first | assumption | apply State.rset_held | apply State.draw_held) | split | refine State.draw_held' _ (by assumption) ?_ | intro _ | dsimp only | refine Held.upd ?_ rfl rfl rfl)

theorem State.flowStep_held (s : State) (x : ThermalSnapshot) {qs vt} (hyp : s.Held qs vt) : (State.flowStep s x).Held qs vt := by
  unfold State.flowStep
  (try dsimp only)
  repeat' (first | (with_reducible first | assumption | apply State.rset_held | apply State.rsetIf_held | apply State.healthEvent_held | apply State.declareStop_held | apply State.showFlow_held) | split | intro _ | dsimp only | refine Held.upd ?_ rfl rfl rfl)

theorem State.inletStep_held (s : State) (x : ThermalSnapshot) {qs vt} (hyp : s.Held qs vt) : (State.inletStep s x).Held qs vt := by
  unfold State.inletStep
  (try dsimp only)
  repeat' (first | (with_reducible first | assumption | apply State.rsetIf_held | apply State.declareStop_held) | split | intro _ | dsimp only | refine Held.upd ?_ rfl rfl rfl)

theorem State.airStep_held (s : State) (x : ThermalSnapshot) {qs vt} (hyp : s.Held qs vt) : (State.airStep s x).Held qs vt := by
  unfold State.airStep
  (try dsimp only)
  repeat' (first | (with_reducible first | assumption | apply State.rsetIf_held) | split | intro _ | dsimp only | refine Held.upd ?_ rfl rfl rfl)

theorem thermalInterval_held (x : ThermalSnapshot) (s : State) {qs vt} (hyp : s.Held qs vt) : (thermalInterval x s).Held qs vt := by
  unfold thermalInterval
  (try dsimp only)
  repeat' (first | (with_reducible first | assumption | apply State.rset_held | apply State.sendHealth_held | apply State.startPull_held | apply State.applyThermal_held | apply State.showCoolant_held | apply State.spotsStep_held | apply State.applyCap_held | apply State.flowStep_held | apply State.inletStep_held | apply State.airStep_held) | split | intro _ | dsimp only | refine Held.upd ?_ rfl rfl rfl)

theorem execThermalInterval_held (x : ThermalSnapshot) (s : State) {qs vt} (hyp : s.Held qs vt) : ∃ t, execThermalInterval x s = .next t ∧ t.Held qs vt :=
  ⟨_, rfl, thermalInterval_held _ _ hyp⟩

theorem airflowClear_held (s : State) {qs vt} (hyp : s.Held qs vt) : (airflowClear s).Held qs vt := by
  unfold airflowClear
  (try dsimp only)
  repeat' (first | (with_reducible first | assumption | apply State.rset_held | apply State.applyCap_held) | split | intro _ | dsimp only | refine Held.upd ?_ rfl rfl rfl)

theorem execAirflowClear_held (s : State) {qs vt} (hyp : s.Held qs vt) : ∃ t, execAirflowClear s = .next t ∧ t.Held qs vt :=
  ⟨_, rfl, airflowClear_held _ hyp⟩

theorem flowAverage_held (s : State) {qs vt} (hyp : s.Held qs vt) : (flowAverage s).Held qs vt := by
  unfold flowAverage
  (try dsimp only)
  repeat' (first | (with_reducible first | assumption | apply State.rsetIf_held | apply State.healthEvent_held | apply State.applyThermal_held | apply State.showCoolant_held | apply State.applyCap_held | apply State.declareStop_held) | split | intro _ | dsimp only | refine Held.upd ?_ rfl rfl rfl)

theorem execFlowAverage_held (s : State) {qs vt} (hyp : s.Held qs vt) : ∃ t, execFlowAverage s = .next t ∧ t.Held qs vt :=
  ⟨_, rfl, flowAverage_held _ hyp⟩

theorem execSuddenStopWatchEnd_held (s : State) {qs vt} (hyp : s.Held qs vt) : ∃ t, execSuddenStopWatchEnd s = .next t ∧ t.Held qs vt := by
  refine ⟨_, rfl, ?_⟩
  (try dsimp only)
  repeat' (first | (with_reducible first | assumption) | split | intro _ | dsimp only | refine Held.upd ?_ rfl rfl rfl)

theorem suddenStopClear_held (s : State) {qs vt} (hyp : s.Held qs vt) : (suddenStopClear s).Held qs vt := by
  unfold suddenStopClear
  (try dsimp only)
  repeat' (first | (with_reducible first | assumption | apply State.showCoolant_held) | split | intro _ | dsimp only | refine Held.upd ?_ rfl rfl rfl)

theorem execSuddenStopClear_held (s : State) {qs vt} (hyp : s.Held qs vt) : ∃ t, execSuddenStopClear s = .next t ∧ t.Held qs vt :=
  ⟨_, rfl, suddenStopClear_held _ hyp⟩

end Sys2Proof.Machine
end

