-- ==== Sys2Proof/Laws/HeldBoot.lean ====
section
/-! SUPPORT. HeldBoot.lean: every operation and command of start-up, frames received, the network, hardware and management keeps `State.Held`. -/

set_option linter.all false


namespace Sys2Proof.Machine

theorem Memory.wf_filter (m : Memory) (p : Host.Cell → Bool) (h : m.wf = true) : Memory.wf (m.filter p) = true := by
  simp only [Memory.wf, Tab.wf, Bool.and_eq_true, List.all_eq_true] at *
  exact ⟨Dict.wf_filter m p h.1, fun x hx => h.2 x (List.mem_filter.1 hx).1⟩
theorem State.zeroBanks_held (s : State) (lo hi : Nat) {qs vt} (h : s.Held qs vt) : (s.zeroBanks lo hi).Held qs vt :=
  { h with banks := Memory.wf_filter _ _ h.banks }

theorem Dict.wf_resetBlockRegs (r : Regs) (b : Nat) (o : Option Nat) (h : Dict.wf r = true) : Dict.wf (resetBlockRegs r b o) = true := by
  unfold resetBlockRegs
  have : ∀ (l : List (Nat × Word)) (t : Regs) (f : Regs → Nat × Word → Regs), (∀ t x, Dict.wf t = true → Dict.wf (f t x) = true) →
      Dict.wf t = true → Dict.wf (l.foldl f t) = true := by
    intro l
    induction l with
    | nil => exact fun t f _ h => h
    | cons x l ih => exact fun t f hf ht => ih _ f hf (hf _ _ ht)
  refine this _ _ _ (fun t x ht => ?_) h
  dsimp only
  split
  · split
    · exact ht
    · exact Regs.wf_setWord _ _ _ _ ht
  · exact ht
theorem State.resetSliceBlock_held (s : State) (k unit : Nat) {qs vt} (h : s.Held qs vt) : (s.resetSliceBlock k unit).Held qs vt := by
  have h1 : ∀ b, Dict.wf (resetBlockRegs s.regs b) = true := fun b => Dict.wf_resetBlockRegs _ _ _ h.regs
  unfold State.resetSliceBlock
  dsimp only
  split
  · exact State.zeroBanks_held _ _ _ { h with regs := h1 _ }
  · exact { h with regs := h1 _ }
  · exact State.zeroBanks_held _ _ _ { h with regs := h1 _, cores := by simp }
  · exact State.zeroBanks_held _ _ _ { h with regs := h1 _ }
  · split
    · exact h
    · exact { h with regs := Dict.wf_filter _ _ h.regs }
  · exact State.zeroBanks_held _ _ _ h
  · exact State.zeroBanks_held _ _ _ h
  · exact h

theorem State.markUnusable_held (s : State) (bit : Nat) {qs vt} (hyp : s.Held qs vt) : (State.markUnusable s bit).Held qs vt := by
  unfold State.markUnusable
  (try dsimp only)
  repeat' (first | (with_reducible first | assumption | apply State.rset_held | apply State.healthEvent_held) | split | intro _ | dsimp only)

theorem State.markUsable_held (s : State) (bit : Nat) {qs vt} (hyp : s.Held qs vt) : (State.markUsable s bit).Held qs vt := by
  unfold State.markUsable
  (try dsimp only)
  repeat' (first | (with_reducible first | assumption | apply State.rset_held) | split | intro _ | dsimp only)

theorem State.gateOff_held (s : State) (bit : Nat) {qs vt} (hyp : s.Held qs vt) : (State.gateOff s bit).Held qs vt := by
  unfold State.gateOff
  (try dsimp only)
  repeat' (first | (with_reducible first | assumption | apply State.rset_held) | split | intro _ | dsimp only)

theorem State.endUsers_held (s : State) (code : Code) (uses : Image → Bool) {qs vt} (hyp : s.Held qs vt) : (State.endUsers s code uses).Held qs vt := by
  unfold State.endUsers
  (try dsimp only)
  repeat' (first | (with_reducible first | assumption | apply State.failRequest_held | refine foldl_held (fun _ _ _ => ?_) ?_) | split | intro _ | dsimp only)

theorem State.loseArray_held (s : State) {qs vt} (hyp : s.Held qs vt) : (State.loseArray s).Held qs vt := by
  unfold State.loseArray
  (try dsimp only)
  repeat' (first | (with_reducible first | assumption | apply State.rset_held | apply State.markUnusable_held | apply State.endUsers_held) | split | intro _ | dsimp only)

theorem State.mapTrim_held (s : State) (dead : List Nat) {qs vt} (hyp : s.Held qs vt) : (State.mapTrim s dead).Held qs vt := by
  unfold State.mapTrim
  (try dsimp only)
  repeat' (first | (with_reducible first | assumption | apply State.rset_held | apply State.markUnusable_held | apply State.endUsers_held | refine foldl_held (fun _ _ _ => ?_) ?_) | split | intro _ | dsimp only)

theorem State.checkCart_held (s : State) {qs vt} (hyp : s.Held qs vt) : (State.checkCart s).Held qs vt := by
  unfold State.checkCart
  (try dsimp only)
  repeat' (first | (with_reducible first | assumption | apply State.rset_held) | split | intro _ | dsimp only | refine Held.upd ?_ rfl rfl rfl)

theorem State.showLife_held (s : State) {qs vt} (hyp : s.Held qs vt) : (State.showLife s).Held qs vt := by
  unfold State.showLife
  (try dsimp only)
  repeat' (first | (with_reducible first | assumption | apply State.rset_held | apply State.healthEvent_held) | split | intro _ | dsimp only)

theorem State.bankTest_held (s : State) (r : SliceReport) {qs vt} (h : s.Held qs vt) : (s.bankTest r).Held qs vt :=
  { h with banks := rfl }

theorem State.sliceEffect_held (s : State) (k unit : Nat) (r : SliceReport) (result : Nat) {qs vt} (hyp : s.Held qs vt) : (State.sliceEffect s k unit r result).Held qs vt := by
  unfold State.sliceEffect
  (try dsimp only)
  repeat' (first | (with_reducible first | assumption | apply State.rset_held | apply State.putFe_held | apply State.newEpochs_held | apply State.memoryOut_held | apply State.trainFailed_held | apply State.storeTraining_held | apply State.stopFe_held | apply State.putSup_held | apply State.handOver_held | apply State.cannotServe_held | apply State.oscFailed_held | apply State.markUnusable_held | apply State.markUsable_held | apply State.gateOff_held | apply State.endUsers_held | apply State.loseArray_held | apply State.mapTrim_held | apply State.checkCart_held | apply State.showLife_held | apply State.bankTest_held | refine foldl_held (fun _ _ _ => ?_) ?_) | split | intro _ | dsimp only | refine Held.upd ?_ rfl rfl rfl)

theorem State.rawCode_held (s : State) (k : Nat) (pass : Bool) {qs vt} (hyp : s.Held qs vt) : (State.rawCode s k pass).2.Held qs vt := by
  unfold State.rawCode
  (try dsimp only)
  repeat' (first | (with_reducible first | assumption | apply State.draw_held) | split | refine State.draw_held' _ (by assumption) ?_ | intro _ | dsimp only | refine Held.upd ?_ rfl rfl rfl)
theorem State.rawCode_held' (s : State) (k : Nat) (pass : Bool) {qs vt t b}  (e : State.rawCode s k pass = (b, t)) (hyp : s.Held qs vt) : t.Held qs vt := by
  have x := State.rawCode_held s k pass  hyp
  rw [e] at x; exact x

theorem State.endSlice_held (s : State) (k unit : Nat) (r : SliceReport) (late : Bool) {qs vt} (hyp : s.Held qs vt) : (State.endSlice s k unit r late).Held qs vt := by
  unfold State.endSlice
  (try dsimp only)
  repeat' (first | (with_reducible first | assumption | apply State.rset_held | apply State.rsetIf_held | apply State.enterFallback_held | apply State.resetSliceBlock_held | apply State.sliceEffect_held | apply State.rawCode_held) | split | refine State.rawCode_held' _ _ _ (by assumption) ?_ | intro _ | dsimp only | refine Held.upd ?_ rfl rfl rfl)

theorem execSliceEnd_held (slice unit : Nat) (report : SliceReport) (s : State) {qs vt} (hyp : s.Held qs vt) : ∃ t, execSliceEnd slice unit report s = .next t ∧ t.Held qs vt :=
  ⟨_, rfl, State.endSlice_held _ _ _ _ _ hyp⟩

theorem execSliceBudgetExpiry_held (slice unit : Nat) (report : SliceReport) (s : State) {qs vt} (hyp : s.Held qs vt) : ∃ t, execSliceBudgetExpiry slice unit report s = .next t ∧ t.Held qs vt :=
  ⟨_, rfl, State.endSlice_held _ _ _ _ _ hyp⟩

theorem State.beginStep_held (s : State) (n : Nat) {qs vt} (hyp : s.Held qs vt) : (State.beginStep s n).Held qs vt := by
  unfold State.beginStep
  (try dsimp only)
  repeat' (first | (with_reducible first | assumption | apply State.rset_held | apply State.rsetIf_held) | split | intro _ | dsimp only | refine Held.upd ?_ rfl rfl rfl)

theorem State.endRails_held (s : State) {qs vt} (hyp : s.Held qs vt) : (State.endRails s).Held qs vt := by
  unfold State.endRails
  (try dsimp only)
  repeat' (first | (with_reducible first | assumption | apply State.rset_held | apply State.hwStatus_held) | split | intro _ | dsimp only)

theorem State.endRom_held (s : State) {qs vt} (hyp : s.Held qs vt) : (State.endRom s).Held qs vt := by
  unfold State.endRom
  (try dsimp only)
  repeat' (first | (with_reducible first | assumption | apply State.rset_held | apply State.setMeasurement_held) | split | intro _ | dsimp only | refine Held.upd ?_ rfl rfl rfl)

theorem State.endImages_held (s : State) {qs vt} (hyp : s.Held qs vt) : (State.endImages s).Held qs vt := by
  unfold State.endImages
  (try dsimp only)
  repeat' (first | (with_reducible first | assumption | apply State.countHold_held | apply State.setMeasurement_held | apply State.setFwuState_held | refine foldl_held (fun _ _ _ => ?_) ?_) | split | intro _ | dsimp only | refine Held.upd ?_ rfl rfl rfl)

theorem State.readSettings_held (s : State) {qs vt} (hyp : s.Held qs vt) : (State.readSettings s).Held qs vt := by
  unfold State.readSettings
  (try dsimp only)
  repeat' (first | (with_reducible first | assumption | apply State.rset_held | apply State.putSettings_held | apply State.netApply_held | refine foldl_held (fun _ _ _ => ?_) ?_) | split | intro _ | dsimp only | refine Held.upd ?_ rfl rfl rfl)

theorem State.setUp_held (s : State) {qs vt} (hyp : s.Held qs vt) : (State.setUp s).Held qs vt := by
  unfold State.setUp
  (try dsimp only)
  repeat' (first | (with_reducible first | assumption | apply State.rset_held | apply State.putFe_held | apply State.putSup_held | apply State.lockSetup_held | apply State.gateOff_held | apply State.readSettings_held | refine foldl_held (fun _ _ _ => ?_) ?_) | split | intro _ | dsimp only | refine Held.upd ?_ rfl rfl rfl)

theorem State.firstClaim_held (s : State) {qs vt} (hyp : s.Held qs vt) : (State.firstClaim s).Held qs vt := by
  unfold State.firstClaim
  (try dsimp only)
  repeat' (first | (with_reducible first | assumption | apply State.rset_held | apply State.journal_held | apply State.putSup_held) | split | intro _ | dsimp only | refine Held.upd ?_ rfl rfl rfl)

theorem State.restoreAccounts_held (s : State) {qs vt} (hyp : s.Held qs vt) : (State.restoreAccounts s).Held qs vt := by
  unfold State.restoreAccounts
  (try dsimp only)
  repeat' (first | (with_reducible first | assumption | apply State.rset_held | apply State.putAccount_held | refine foldl_held (fun _ _ _ => ?_) ?_) | split | intro _ | dsimp only | refine Held.upd ?_ rfl rfl rfl)

theorem State.enterService_held (s : State) {qs vt} (hyp : s.Held qs vt) : (State.enterService s).Held qs vt := by
  unfold State.enterService
  (try dsimp only)
  repeat' (first | (with_reducible first | assumption | apply State.rset_held | apply State.healthEvent_held | apply State.writeStatusPage_held | apply State.cannotServe_held | apply State.newCap_held | apply State.takeCap_held | apply State.beginStep_held | apply State.restoreAccounts_held) | split | intro _ | dsimp only | refine Held.upd ?_ rfl rfl rfl)

theorem powerUpStep_held (s : State) {qs vt} (hyp : s.Held qs vt) : (powerUpStep s).Held qs vt := by
  unfold powerUpStep
  (try dsimp only)
  repeat' (first | (with_reducible first | assumption | apply State.beginStep_held | apply State.endRails_held | apply State.endRom_held | apply State.endImages_held | apply State.setUp_held | apply State.firstClaim_held | apply State.enterService_held) | split | intro _ | dsimp only | refine Held.upd ?_ rfl rfl rfl)

theorem execPowerUpStepDone_held (s : State) {qs vt} (hyp : s.Held qs vt) : ∃ t, execPowerUpStepDone s = .next t ∧ t.Held qs vt :=
  ⟨_, rfl, powerUpStep_held _ hyp⟩

theorem powerEnableRise_held (s : State) {qs vt} (hyp : s.Held qs vt) : (powerEnableRise s).Held qs vt := by
  unfold powerEnableRise
  (try dsimp only)
  repeat' (first | (with_reducible first | assumption | apply State.rset_held | apply State.fullReset_held | apply State.hwStatus_held | apply State.beginStep_held | refine foldl_held (fun _ _ _ => ?_) ?_) | split | intro _ | dsimp only)

theorem execPowerEnableRise_held (s : State) {qs vt} (hyp : s.Held qs vt) : ∃ t, execPowerEnableRise s = .next t ∧ t.Held qs vt :=
  ⟨_, rfl, powerEnableRise_held _ hyp⟩

theorem healthReadEffect_held (m : Msg) (s : State) {qs vt} (hyp : s.Held qs vt) : (healthReadEffect m s).Held qs vt := by
  unfold healthReadEffect
  (try dsimp only)
  repeat' (first | (with_reducible first | assumption | apply State.reply_held | apply State.withMsg_held) | split | intro _ | dsimp only | refine Held.upd ?_ rfl rfl rfl)

theorem execHealthRead_held (m : Msg) (s : State) {qs vt} (hyp : s.Held qs vt) : ∃ t, execHealthRead m s = .next t ∧ t.Held qs vt :=
  ⟨_, rfl, healthReadEffect_held _ _ hyp⟩

theorem runtimePiece_held (region : Nat) (ok restored : Bool) (s : State) {qs vt} (hyp : s.Held qs vt) : (runtimePiece region ok restored s).Held qs vt := by
  unfold runtimePiece
  (try dsimp only)
  repeat' (first | (with_reducible first | assumption | apply State.rset_held | apply State.rsetIf_held | apply State.putSup_held | apply State.markUnusable_held) | split | intro _ | dsimp only | refine Held.upd ?_ rfl rfl rfl)

theorem execRuntimeTestPiece_held (region : Nat) (ok restored : Bool) (s : State) {qs vt} (hyp : s.Held qs vt) : ∃ t, execRuntimeTestPiece region ok restored s = .next t ∧ t.Held qs vt :=
  ⟨_, rfl, runtimePiece_held _ _ _ _ hyp⟩

theorem execStandbyTestStop_held (s : State) {qs vt} (hyp : s.Held qs vt) : ∃ t, execStandbyTestStop s = .next t ∧ t.Held qs vt := by
  refine ⟨_, rfl, ?_⟩
  (try dsimp only)
  repeat' (first | (with_reducible first | assumption) | split | intro _ | dsimp only | refine Held.upd ?_ rfl rfl rfl)

theorem State.rawGo_held (s : State) (k unit : Nat) {qs vt} (hyp : s.Held qs vt) : (State.rawGo s k unit).Held qs vt := by
  unfold State.rawGo
  (try dsimp only)
  repeat' (first | (with_reducible first | assumption | apply State.rset_held | apply State.startSlice_held | apply State.stopFe_held | apply State.putSup_held) | split | intro _ | dsimp only | refine Held.upd ?_ rfl rfl rfl)

theorem State.macsecIn_held (s : State) (port : Nat) (tag : Option MacsecTag) {t : State} {qs vt}  (e : State.macsecIn s port tag = some t) (hyp : s.Held qs vt) : t.Held qs vt := by
  unfold State.macsecIn at e
  (try dsimp only at e)
  (repeat' split at e) <;> first | (cases e; done) | (cases e; repeat' (first | (with_reducible first | assumption | apply State.onPort_held) | split | intro _ | dsimp only | refine Held.upd ?_ rfl rfl rfl)) | (obtain ⟨_, hx, e2⟩ := Option.map_eq_some_iff.1 e; clear e; cases e2; (repeat' (first | (with_reducible first | assumption | apply State.onPort_held) | split | intro _ | dsimp only | refine Held.upd ?_ rfl rfl rfl)); done) | (repeat' (first | (with_reducible first | assumption | apply State.onPort_held) | split | intro _ | dsimp only | refine Held.upd ?_ rfl rfl rfl))

theorem State.accepts_held (s : State) (d : Datagram) {t : State} {qs vt}  (e : State.accepts s d = some t) (hyp : s.Held qs vt) : t.Held qs vt := by
  unfold State.accepts at e
  (try dsimp only at e)
  (repeat' split at e) <;> first | (cases e; done) | (cases e; repeat' (first | (with_reducible first | assumption | apply State.count_held) | split | refine State.macsecIn_held _ _ _ (by assumption) ?_ | intro _ | dsimp only)) | (obtain ⟨_, hx, e2⟩ := Option.map_eq_some_iff.1 e; clear e; cases e2; (repeat' (first | (with_reducible first | assumption | apply State.count_held) | split | refine State.macsecIn_held _ _ _ (by assumption) ?_ | intro _ | dsimp only)); done) | (repeat' (first | (with_reducible first | assumption | apply State.count_held) | split | refine State.macsecIn_held _ _ _ (by assumption) ?_ | intro _ | dsimp only))

theorem State.seeEpoch_held (s : State) (n k e : Nat) {qs vt} (hyp : s.Held qs vt) : (State.seeEpoch s n k e).Held qs vt := by
  unfold State.seeEpoch
  (try dsimp only)
  repeat' (first | (with_reducible first | assumption | apply State.onPath_held) | split | intro _ | dsimp only | refine Held.upd ?_ rfl rfl rfl)

theorem State.recordPacket_held (s : State) (n : Nat) (p : Path) (k : Nat) (now : Bool) {qs vt} (hyp : s.Held qs vt) : (State.recordPacket s n p k now).Held qs vt := by
  unfold State.recordPacket
  (try dsimp only)
  repeat' (first | (with_reducible first | assumption | apply State.onPath_held | apply State.sendAck_held) | split | intro _ | dsimp only)

theorem State.deliver_held (s : State) (n i : Nat) {qs vt} (h : s.Held qs vt) : (s.deliver n i).Held qs vt := by
  induction i generalizing s with
  | zero => exact h
  | succ i ih =>
    unfold State.deliver
    split
    · exact h
    · split
      · exact h
      · dsimp only
        apply ih
        split
        · exact Held.upd (State.putSession_held _ _ h) rfl rfl rfl
        · exact State.putSession_held _ _ h

theorem State.settle_held (s : State) (n number : Nat) (d : Option Delivered) {qs vt} (hyp : s.Held qs vt) : (State.settle s n number d).Held qs vt := by
  unfold State.settle
  (try dsimp only)
  repeat' (first | (with_reducible first | assumption | apply State.onSession_held | apply State.deliver_held) | split | intro _ | dsimp only | refine Held.upd ?_ rfl rfl rfl)

theorem State.refuseFrame_held (s : State) (n number type tag : Nat) (c : Code) (bytes : Nat) {qs vt} (hyp : s.Held qs vt) : (State.refuseFrame s n number type tag c bytes).Held qs vt := by
  unfold State.refuseFrame
  (try dsimp only)
  repeat' (first | (with_reducible first | assumption | apply State.onSession_held | apply State.pushMsg_held | apply State.settle_held) | split | intro _ | dsimp only | refine Held.upd ?_ rfl rfl rfl)

theorem State.finish_held (s : State) (n : Nat) (x : Session) (number : Nat) (a : Assembly) (wire : Nat) {qs vt} (hyp : s.Held qs vt) : (State.finish s n x number a wire).Held qs vt := by
  unfold State.finish
  (try dsimp only)
  repeat' (first | (with_reducible first | assumption | apply State.countHold_held | apply State.onSession_held | apply State.pushMsg_held | apply State.settle_held) | split | intro _ | dsimp only | refine Held.upd ?_ rfl rfl rfl)

theorem State.copyFragment_held (s : State) (n : Nat) (x : Session) (number off : Nat) (b : List Byte) {qs vt} (hyp : s.Held qs vt) : (State.copyFragment s n x number off b).Held qs vt := by
  unfold State.copyFragment
  (try dsimp only)
  repeat' (first | (with_reducible first | assumption | apply State.count_held | apply State.countHold_held | apply State.onSession_held) | split | intro _ | dsimp only | refine Held.upd ?_ rfl rfl rfl)

theorem State.assemble_held (s : State) (n : Nat) (x : Session) (number off : Nat) (b : List Byte) {qs vt} (h : s.Held qs vt) : (s.assemble n x number off b).1.Held qs vt := by
  unfold State.assemble
  extract_lets a0 a room store
  have hs : ∀ t a, t.Held qs vt → (store t a).Held qs vt := fun t a ht => State.onSession_held _ _ _ ht
  split
  · split
    · exact State.finish_held _ _ _ _ _ _ (hs _ _ h)
    · exact hs _ _ h
  · split
    · split
      · exact hs _ _ h
      · exact State.countHold_held _ _ _ _ h
    · split
      · exact State.onSession_held _ _ _ h
      · split
        · exact State.refuseFrame_held _ _ _ _ _ _ _ h
        · split
          · exact State.count_held _ _ _ _ (State.refuseFrame_held _ _ _ _ _ _ _ h)
          · split
            · exact State.refuseFrame_held _ _ _ _ _ _ _ h
            · split
              · exact State.countHold_held _ _ _ _ h
              · split
                · exact State.finish_held _ _ _ _ _ _ (State.onSession_held _ _ _ (hs _ _ h))
                · exact State.onSession_held _ _ _ (hs _ _ h)
theorem State.assemble_held' (s : State) (n : Nat) (x : Session) (number off : Nat) (b : List Byte) {t : State} {ok : Bool} {qs vt} (e : s.assemble n x number off b = (t, ok)) (h : s.Held qs vt) : t.Held qs vt := by
  have y := State.assemble_held s n x number off b h
  rw [e] at y; exact y

theorem State.refuseOpen_held (s : State) (port : Nat) (peer : PeerAddr) (tag : Nat) (c : Code) {qs vt} (hyp : s.Held qs vt) : (State.refuseOpen s port peer tag c).Held qs vt := by
  unfold State.refuseOpen
  (try dsimp only)
  repeat' (first | (with_reducible first | assumption | apply State.sendQmt_held) | split | intro _ | dsimp only)

theorem State.openSession_held (s : State) (port : Nat) (peer : PeerAddr) (wire p : List Byte) (tag : Nat) {qs vt} (hyp : s.Held qs vt) : (State.openSession s port peer wire p tag).Held qs vt := by
  unfold State.openSession
  (try dsimp only)
  repeat' (first | (with_reducible first | assumption | apply State.draw_held | apply State.journal_held | apply State.pushMsg_held | apply State.refuseOpen_held) | split | refine State.draw_held' _ (by assumption) ?_ | refine State.takePages_held _ _ (by assumption) ?_ | intro _ | dsimp only | refine Held.upd ?_ rfl rfl rfl)

theorem sessionOpenEffect_held (port : Nat) (peer : PeerAddr) (wire : List Byte) (s0 : State) {qs vt} (hyp : s0.Held qs vt) : (sessionOpenEffect port peer wire s0).Held qs vt := by
  unfold sessionOpenEffect
  (try dsimp only)
  repeat' (first | (with_reducible first | assumption | apply State.refuseOpen_held | apply State.openSession_held) | split | intro _ | dsimp only | refine Held.upd ?_ rfl rfl rfl)

theorem execSessionOpen_held (port : Nat) (peer : PeerAddr) (wire : List Byte) (s : State) {qs vt} (hyp : s.Held qs vt) : ∃ t, execSessionOpen port peer wire s = .next t ∧ t.Held qs vt :=
  ⟨_, rfl, sessionOpenEffect_held _ _ _ _ hyp⟩

theorem sessionCloseEffect_held (m : Msg) (s : State) {qs vt} (hyp : s.Held qs vt) : (sessionCloseEffect m s).Held qs vt := by
  unfold sessionCloseEffect
  (try dsimp only)
  repeat' (first | (with_reducible first | assumption | apply State.journal_held | apply State.onSession_held | apply State.reply_held | apply State.withMsg_held | apply State.endSessionWork_held) | split | intro _ | dsimp only | refine Held.upd ?_ rfl rfl rfl)

theorem execSessionClose_held (m : Msg) (s : State) {qs vt} (hyp : s.Held qs vt) : ∃ t, execSessionClose m s = .next t ∧ t.Held qs vt :=
  ⟨_, rfl, sessionCloseEffect_held _ _ hyp⟩

theorem execIdleClose_held (session : Nat) (s : State) {qs vt} (hyp : s.Held qs vt) : ∃ t, execIdleClose session s = .next t ∧ t.Held qs vt := by
  refine ⟨_, rfl, ?_⟩
  (try dsimp only)
  repeat' (first | (with_reducible first | assumption | apply State.closeSession_held) | split | intro _ | dsimp only)

theorem authFailEffect_held (session number : Nat) (s : State) {qs vt} (hyp : s.Held qs vt) : (authFailEffect session number s).Held qs vt := by
  unfold authFailEffect
  (try dsimp only)
  repeat' (first | (with_reducible first | assumption | apply State.rset_held | apply State.closeSession_held) | split | intro _ | dsimp only | refine Held.upd ?_ rfl rfl rfl)

theorem execAuthFailTimeout_held (session number : Nat) (s : State) {qs vt} (hyp : s.Held qs vt) : ∃ t, execAuthFailTimeout session number s = .next t ∧ t.Held qs vt :=
  ⟨_, rfl, authFailEffect_held _ _ _ hyp⟩

theorem pathAddEffect_held (port : Nat) (peer : PeerAddr) (m : Msg) (s : State) {qs vt} (hyp : s.Held qs vt) : (pathAddEffect port peer m s).Held qs vt := by
  unfold pathAddEffect
  (try dsimp only)
  repeat' (first | (with_reducible first | assumption | apply State.journal_held | apply State.onSession_held | apply State.reply_held | apply State.withMsg_held | apply State.pumpAll_held | refine foldl_held (fun _ _ _ => ?_) ?_) | split | intro _ | dsimp only | refine Held.upd ?_ rfl rfl rfl)

theorem execPathAdd_held (port : Nat) (peer : PeerAddr) (m : Msg) (s : State) {qs vt} (hyp : s.Held qs vt) : ∃ t, execPathAdd port peer m s = .next t ∧ t.Held qs vt :=
  ⟨_, rfl, pathAddEffect_held _ _ _ _ hyp⟩

theorem macsecSakEffect_held (m : Msg) (s : State) {qs vt} (hyp : s.Held qs vt) : (macsecSakEffect m s).Held qs vt := by
  unfold macsecSakEffect
  (try dsimp only)
  repeat' (first | (with_reducible first | assumption | apply State.reply_held | apply State.withMsg_held | apply State.onPort_held) | split | intro _ | dsimp only | refine Held.upd ?_ rfl rfl rfl)

theorem execMacsecSak_held (m : Msg) (s : State) {qs vt} (hyp : s.Held qs vt) : ∃ t, execMacsecSak m s = .next t ∧ t.Held qs vt :=
  ⟨_, rfl, macsecSakEffect_held _ _ hyp⟩

theorem State.openFragment_held (s : State) (port : Nat) (peer : PeerAddr) (off : Nat) (b : List Byte) {qs vt} (hyp : s.Held qs vt) : (State.openFragment s port peer off b).Held qs vt := by
  unfold State.openFragment
  (try dsimp only)
  repeat' (first | (with_reducible first | assumption | apply State.refuseOpen_held) | split | intro _ | dsimp only | refine Held.upd ?_ rfl rfl rfl)

theorem State.newPathFragment_held (s : State) (d : Datagram) (f : RxFrame) {qs vt} (hyp : s.Held qs vt) : (State.newPathFragment s d f).Held qs vt := by
  unfold State.newPathFragment
  (try dsimp only)
  repeat' (first | (with_reducible first | assumption | apply State.onSession_held | apply State.settle_held) | split | intro _ | dsimp only | refine Held.upd ?_ rfl rfl rfl)

theorem State.touch_held (s : State) (n : Nat) (p : Path) {qs vt} (hyp : s.Held qs vt) : (State.touch s n p).Held qs vt := by
  unfold State.touch
  (try dsimp only)
  repeat' (first | (with_reducible first | assumption | apply State.onSession_held) | split | intro _ | dsimp only | refine Held.upd ?_ rfl rfl rfl)

theorem dataFrameEffect_held (d : Datagram) (s : State) {qs vt} (hyp : s.Held qs vt) : (dataFrameEffect d s).Held qs vt := by
  unfold dataFrameEffect
  (try dsimp only)
  repeat' (first | (with_reducible first | assumption | apply State.seqLimit_held | apply State.seeEpoch_held | apply State.recordPacket_held | apply State.copyFragment_held | apply State.assemble_held | apply State.openFragment_held | apply State.newPathFragment_held | apply State.touch_held) | split | refine State.accepts_held _ _ (by assumption) ?_ | refine State.assemble_held' _ _ _ _ _ _ (by assumption) ?_ | intro _ | dsimp only | refine Held.upd ?_ rfl rfl rfl)

theorem execDataFrame_held (d : Datagram) (s : State) {qs vt} (hyp : s.Held qs vt) : ∃ t, execDataFrame d s = .next t ∧ t.Held qs vt :=
  ⟨_, rfl, dataFrameEffect_held _ _ hyp⟩

theorem State.retireMessages_held (s : State) (n : Nat) {qs vt} (hyp : s.Held qs vt) : (State.retireMessages s n).Held qs vt := by
  unfold State.retireMessages
  (try dsimp only)
  repeat' (first | (with_reducible first | assumption | apply State.putSession_held | apply State.freePool_held | refine foldl_held (fun _ _ _ => ?_) ?_) | split | intro _ | dsimp only | refine Held.upd ?_ rfl rfl rfl)

theorem ackFrameEffect_held (d : Datagram) (s : State) {qs vt} (hyp : s.Held qs vt) : (ackFrameEffect d s).Held qs vt := by
  unfold ackFrameEffect
  (try dsimp only)
  repeat' (first | (with_reducible first | assumption | apply State.onSession_held | apply State.trimJournal_held | apply State.onPath_held | apply State.pumpAll_held | apply State.endIfDone_held | apply State.resend_held | apply State.touch_held | apply State.retireMessages_held) | split | refine State.accepts_held _ _ (by assumption) ?_ | intro _ | dsimp only | refine Held.upd ?_ rfl rfl rfl)

theorem execAckFrame_held (d : Datagram) (s : State) {qs vt} (hyp : s.Held qs vt) : ∃ t, execAckFrame d s = .next t ∧ t.Held qs vt :=
  ⟨_, rfl, ackFrameEffect_held _ _ hyp⟩

theorem probeFrameEffect_held (d : Datagram) (s : State) {qs vt} (hyp : s.Held qs vt) : (probeFrameEffect d s).Held qs vt := by
  unfold probeFrameEffect
  (try dsimp only)
  repeat' (first | (with_reducible first | assumption | apply State.seeEpoch_held | apply State.recordPacket_held | apply State.touch_held) | split | refine State.accepts_held _ _ (by assumption) ?_ | intro _ | dsimp only | refine Held.upd ?_ rfl rfl rfl)

theorem execProbeFrame_held (d : Datagram) (s : State) {qs vt} (hyp : s.Held qs vt) : ∃ t, execProbeFrame d s = .next t ∧ t.Held qs vt :=
  ⟨_, rfl, probeFrameEffect_held _ _ hyp⟩

theorem pathResetEffect_held (d : Datagram) (s : State) {qs vt} (hyp : s.Held qs vt) : (pathResetEffect d s).Held qs vt := by
  unfold pathResetEffect
  (try dsimp only)
  repeat' (first | (with_reducible first | assumption | apply State.onPath_held | apply State.seeEpoch_held | apply State.touch_held) | split | refine State.accepts_held _ _ (by assumption) ?_ | intro _ | dsimp only | refine Held.upd ?_ rfl rfl rfl)

theorem execPathResetFrame_held (d : Datagram) (s : State) {qs vt} (hyp : s.Held qs vt) : ∃ t, execPathResetFrame d s = .next t ∧ t.Held qs vt :=
  ⟨_, rfl, pathResetEffect_held _ _ hyp⟩

theorem ackDelayEffect_held (session path : Nat) (s : State) {qs vt} (hyp : s.Held qs vt) : (ackDelayEffect session path s).Held qs vt := by
  unfold ackDelayEffect
  (try dsimp only)
  repeat' (first | (with_reducible first | assumption | apply State.sendAck_held) | split | intro _ | dsimp only | refine Held.upd ?_ rfl rfl rfl)

theorem execAckDelayExpiry_held (session path : Nat) (s : State) {qs vt} (hyp : s.Held qs vt) : ∃ t, execAckDelayExpiry session path s = .next t ∧ t.Held qs vt :=
  ⟨_, rfl, ackDelayEffect_held _ _ _ hyp⟩

theorem retransmitEffect_held (session path : Nat) (s : State) {qs vt} (hyp : s.Held qs vt) : (retransmitEffect session path s).Held qs vt := by
  unfold retransmitEffect
  (try dsimp only)
  repeat' (first | (with_reducible first | assumption | apply State.onPath_held | apply State.pathDown_held | apply State.resend_held) | split | intro _ | dsimp only | refine Held.upd ?_ rfl rfl rfl)

theorem execRetransmitTimeout_held (session path : Nat) (s : State) {qs vt} (hyp : s.Held qs vt) : ∃ t, execRetransmitTimeout session path s = .next t ∧ t.Held qs vt :=
  ⟨_, rfl, retransmitEffect_held _ _ _ hyp⟩

theorem probeIntervalEffect_held (session path : Nat) (s : State) {qs vt} (hyp : s.Held qs vt) : (probeIntervalEffect session path s).Held qs vt := by
  unfold probeIntervalEffect
  (try dsimp only)
  repeat' (first | (with_reducible first | assumption | apply State.sendFrag_held) | split | intro _ | dsimp only | refine Held.upd ?_ rfl rfl rfl)

theorem execProbeInterval_held (session path : Nat) (s : State) {qs vt} (hyp : s.Held qs vt) : ∃ t, execProbeInterval session path s = .next t ∧ t.Held qs vt :=
  ⟨_, rfl, probeIntervalEffect_held _ _ _ hyp⟩

theorem sendMessageEffect_held (session : Nat) (s : State) {qs vt} (hyp : s.Held qs vt) : (sendMessageEffect session s).Held qs vt := by
  unfold sendMessageEffect
  (try dsimp only)
  repeat' (first | (with_reducible first | assumption | apply State.onSession_held | apply State.seqLimit_held | apply State.wakeUnsent_held | apply State.endIfDone_held | apply State.begin_held) | split | intro _ | dsimp only | refine Held.upd ?_ rfl rfl rfl)

theorem execSendMessage_held (session : Nat) (s : State) {qs vt} (hyp : s.Held qs vt) : ∃ t, execSendMessage session s = .next t ∧ t.Held qs vt :=
  ⟨_, rfl, sendMessageEffect_held _ _ hyp⟩

theorem execOamFrame_held (port : Nat) (status : Byte) (s : State) {qs vt} (hyp : s.Held qs vt) : ∃ t, execOamFrame port status s = .next t ∧ t.Held qs vt :=
  ⟨_, rfl, State.onPort_held _ _ _ hyp⟩

theorem State.takes_held (s : State) (port vlan : Nat) (tag : Option MacsecTag) {t : State} {qs vt}  (e : State.takes s port vlan tag = some t) (hyp : s.Held qs vt) : t.Held qs vt := by
  unfold State.takes at e
  (try dsimp only at e)
  (repeat' split at e) <;> first | (cases e; done) | (cases e; repeat' (first | (with_reducible first | assumption) | split | refine State.macsecIn_held _ _ _ (by assumption) ?_ | intro _ | dsimp only)) | (obtain ⟨_, hx, e2⟩ := Option.map_eq_some_iff.1 e; clear e; cases e2; (repeat' (first | (with_reducible first | assumption) | split | refine State.macsecIn_held _ _ _ (by assumption) ?_ | intro _ | dsimp only)); done) | (repeat' (first | (with_reducible first | assumption) | split | refine State.macsecIn_held _ _ _ (by assumption) ?_ | intro _ | dsimp only))

theorem arpRequestEffect_held (a : ArpPacket) (s : State) {qs vt} (hyp : s.Held qs vt) : (arpRequestEffect a s).Held qs vt := by
  unfold arpRequestEffect
  (try dsimp only)
  repeat' (first | (with_reducible first | assumption | apply State.transmit_held) | split | refine State.takes_held _ _ _ _ (by assumption) ?_ | intro _ | dsimp only | refine Held.upd ?_ rfl rfl rfl)

theorem execArpRequest_held (a : ArpPacket) (s : State) {qs vt} (hyp : s.Held qs vt) : ∃ t, execArpRequest a s = .next t ∧ t.Held qs vt :=
  ⟨_, rfl, arpRequestEffect_held _ _ hyp⟩

theorem arpReplyEffect_held (a : ArpPacket) (s : State) {qs vt} (hyp : s.Held qs vt) : (arpReplyEffect a s).Held qs vt := by
  unfold arpReplyEffect
  (try dsimp only)
  repeat' (first | (with_reducible first | assumption | apply State.resolved_held) | split | refine State.takes_held _ _ _ _ (by assumption) ?_ | intro _ | dsimp only | refine Held.upd ?_ rfl rfl rfl)

theorem execArpReply_held (a : ArpPacket) (s : State) {qs vt} (hyp : s.Held qs vt) : ∃ t, execArpReply a s = .next t ∧ t.Held qs vt :=
  ⟨_, rfl, arpReplyEffect_held _ _ hyp⟩

theorem State.startDad_held (s : State) (port : Nat) {qs vt} (hyp : s.Held qs vt) : (State.startDad s port).Held qs vt := by
  unfold State.startDad
  (try dsimp only)
  repeat' (first | (with_reducible first | assumption | apply State.onPort_held | apply State.transmit_held) | split | intro _ | dsimp only | refine Held.upd ?_ rfl rfl rfl)

theorem phyLinkEffect_held (port : Nat) (up : Bool) (s : State) {qs vt} (hyp : s.Held qs vt) : (phyLinkEffect port up s).Held qs vt := by
  unfold phyLinkEffect
  (try dsimp only)
  repeat' (first | (with_reducible first | assumption | apply State.rset_held | apply State.startDad_held) | split | intro _ | dsimp only)

theorem execPhyLinkChange_held (port : Nat) (up : Bool) (s : State) {qs vt} (hyp : s.Held qs vt) : ∃ t, execPhyLinkChange port up s = .next t ∧ t.Held qs vt :=
  ⟨_, rfl, phyLinkEffect_held _ _ _ hyp⟩

theorem State.duplicate_held (s : State) (port : Nat) {qs vt} (hyp : s.Held qs vt) : (State.duplicate s port).Held qs vt := by
  unfold State.duplicate
  (try dsimp only)
  repeat' (first | (with_reducible first | assumption | apply State.onPort_held) | split | intro _ | dsimp only | refine Held.upd ?_ rfl rfl rfl)

theorem solicitationEffect_held (n : NdPacket) (s : State) {qs vt} (hyp : s.Held qs vt) : (solicitationEffect n s).Held qs vt := by
  unfold solicitationEffect
  (try dsimp only)
  repeat' (first | (with_reducible first | assumption | apply State.transmit_held | apply State.duplicate_held) | split | refine State.takes_held _ _ _ _ (by assumption) ?_ | intro _ | dsimp only | refine Held.upd ?_ rfl rfl rfl)

theorem execNeighborSolicitation_held (n : NdPacket) (s : State) {qs vt} (hyp : s.Held qs vt) : ∃ t, execNeighborSolicitation n s = .next t ∧ t.Held qs vt :=
  ⟨_, rfl, solicitationEffect_held _ _ hyp⟩

theorem advertisementEffect_held (n : NdPacket) (s : State) {qs vt} (hyp : s.Held qs vt) : (advertisementEffect n s).Held qs vt := by
  unfold advertisementEffect
  (try dsimp only)
  repeat' (first | (with_reducible first | assumption | apply State.resolved_held | apply State.duplicate_held) | split | refine State.takes_held _ _ _ _ (by assumption) ?_ | intro _ | dsimp only | refine Held.upd ?_ rfl rfl rfl)

theorem execNeighborAdvertisement_held (n : NdPacket) (s : State) {qs vt} (hyp : s.Held qs vt) : ∃ t, execNeighborAdvertisement n s = .next t ∧ t.Held qs vt :=
  ⟨_, rfl, advertisementEffect_held _ _ hyp⟩

theorem icmpEchoEffect_held (e : EchoPacket) (s : State) {qs vt} (hyp : s.Held qs vt) : (icmpEchoEffect e s).Held qs vt := by
  unfold icmpEchoEffect
  (try dsimp only)
  repeat' (first | (with_reducible first | assumption | apply State.sendIp_held) | split | refine State.takes_held _ _ _ _ (by assumption) ?_ | intro _ | dsimp only | refine Held.upd ?_ rfl rfl rfl)

theorem execIcmpEcho_held (e : EchoPacket) (s : State) {qs vt} (hyp : s.Held qs vt) : ∃ t, execIcmpEcho e s = .next t ∧ t.Held qs vt :=
  ⟨_, rfl, icmpEchoEffect_held _ _ hyp⟩

theorem execNetApply_held (s : State) {qs vt} (hyp : s.Held qs vt) : ∃ t, execNetApply s = .next t ∧ t.Held qs vt := by
  refine ⟨_, rfl, ?_⟩
  (try dsimp only)
  repeat' (first | (with_reducible first | assumption | apply State.netApply_held) | split | intro _ | dsimp only)

theorem execNetCounterClear_held (s : State) {qs vt} (hyp : s.Held qs vt) : ∃ t, execNetCounterClear s = .next t ∧ t.Held qs vt := by
  refine ⟨_, rfl, ?_⟩
  (try dsimp only)
  repeat' (first | (with_reducible first | assumption | apply State.netClear_held) | split | intro _ | dsimp only)

theorem State.loseCart_held (s : State) {qs vt} (hyp : s.Held qs vt) : (State.loseCart s).Held qs vt := by
  unfold State.loseCart
  (try dsimp only)
  repeat' (first | (with_reducible first | assumption | apply State.rset_held | apply State.healthEvent_held | apply State.showCartPages_held | apply State.failLoad_held | apply State.replaySeq_held | refine foldl_held (fun _ _ _ => ?_) ?_) | split | intro _ | dsimp only | refine Held.upd ?_ rfl rfl rfl)

theorem cartInsertion_held (x : CartridgeInfo) (s : State) {qs vt} (hyp : s.Held qs vt) : (cartInsertion x s).Held qs vt := by
  unfold cartInsertion
  (try dsimp only)
  repeat' (first | (with_reducible first | assumption | apply State.checkCart_held | apply State.showLife_held | refine foldl_held (fun _ _ _ => ?_) ?_) | split | intro _ | dsimp only | refine Held.upd ?_ rfl rfl rfl)

theorem execCartridgeInsertion_held (x : CartridgeInfo) (s : State) {qs vt} (hyp : s.Held qs vt) : ∃ t, execCartridgeInsertion x s = .next t ∧ t.Held qs vt :=
  ⟨_, rfl, cartInsertion_held _ _ hyp⟩

theorem cartRemoval_held (s : State) {qs vt} (hyp : s.Held qs vt) : (cartRemoval s).Held qs vt := by
  unfold cartRemoval
  (try dsimp only)
  repeat' (first | (with_reducible first | assumption | apply State.loseCart_held) | split | intro _ | dsimp only | refine Held.upd ?_ rfl rfl rfl)

theorem execCartridgeRemoval_held (s : State) {qs vt} (hyp : s.Held qs vt) : ∃ t, execCartridgeRemoval s = .next t ∧ t.Held qs vt :=
  ⟨_, rfl, cartRemoval_held _ hyp⟩

theorem cartFailed_held (s : State) {qs vt} (hyp : s.Held qs vt) : (cartFailed s).Held qs vt := by
  unfold cartFailed
  (try dsimp only)
  repeat' (first | (with_reducible first | assumption | apply State.loseCart_held) | split | intro _ | dsimp only)

theorem execCartridgeFailed_held (s : State) {qs vt} (hyp : s.Held qs vt) : ∃ t, execCartridgeFailed s = .next t ∧ t.Held qs vt :=
  ⟨_, rfl, cartFailed_held _ hyp⟩

theorem cartLifePoll_held (written matings devicePct : Nat) (readOnly : Bool) (s : State) {qs vt} (hyp : s.Held qs vt) : (cartLifePoll written matings devicePct readOnly s).Held qs vt := by
  unfold cartLifePoll
  (try dsimp only)
  repeat' (first | (with_reducible first | assumption | apply State.showLife_held) | split | intro _ | dsimp only | refine Held.upd ?_ rfl rfl rfl)

theorem execCartridgeLifePoll_held (written matings devicePct : Nat) (readOnly : Bool) (s : State) {qs vt} (hyp : s.Held qs vt) : ∃ t, execCartridgeLifePoll written matings devicePct readOnly s = .next t ∧ t.Held qs vt :=
  ⟨_, rfl, cartLifePoll_held _ _ _ _ _ hyp⟩

theorem pllLockLoss_held (pll : Pll) (s : State) {qs vt} (hyp : s.Held qs vt) : (pllLockLoss pll s).Held qs vt := by
  unfold pllLockLoss
  (try dsimp only)
  repeat' (first | (with_reducible first | assumption | apply State.rset_held | apply State.memoryOut_held | apply State.markUnusable_held | apply phyLinkEffect_held | apply cartFailed_held | refine foldl_held (fun _ _ _ => ?_) ?_) | split | intro _ | dsimp only | refine Held.upd ?_ rfl rfl rfl)

theorem execPllLockLoss_held (pll : Pll) (s : State) {qs vt} (hyp : s.Held qs vt) : ∃ t, execPllLockLoss pll s = .next t ∧ t.Held qs vt :=
  ⟨_, rfl, pllLockLoss_held _ _ hyp⟩

theorem State.countCoupling_held (s : State) {qs vt} (hyp : s.Held qs vt) : (State.countCoupling s).Held qs vt := by
  unfold State.countCoupling
  (try dsimp only)
  repeat' (first | (with_reducible first | assumption | apply State.rset_held) | split | intro _ | dsimp only | refine Held.upd ?_ rfl rfl rfl)

theorem auxRise_held (slots : Nat) (parity leader : Bool) (s : State) {qs vt} (hyp : s.Held qs vt) : (auxRise slots parity leader s).Held qs vt := by
  unfold auxRise
  (try dsimp only)
  repeat' (first | (with_reducible first | assumption | apply State.rset_held | apply State.stopRun_held | apply State.countCoupling_held) | split | intro _ | dsimp only | refine Held.upd ?_ rfl rfl rfl)

theorem execAuxRise_held (slots : Nat) (parity leader : Bool) (s : State) {qs vt} (hyp : s.Held qs vt) : ∃ t, execAuxRise slots parity leader s = .next t ∧ t.Held qs vt :=
  ⟨_, rfl, auxRise_held _ _ _ _ hyp⟩

theorem powerEnableFall_held (s : State) {qs vt} (hyp : s.Held qs vt) : (powerEnableFall s).Held qs vt := by
  unfold powerEnableFall
  (try dsimp only)
  repeat' (first | (with_reducible first | assumption | apply State.rset_held | apply State.stopRun_held | apply State.hwStatus_held | apply State.startPull_held) | split | intro _ | dsimp only)

theorem execPowerEnableFall_held (s : State) {qs vt} (hyp : s.Held qs vt) : ∃ t, execPowerEnableFall s = .next t ∧ t.Held qs vt :=
  ⟨_, rfl, powerEnableFall_held _ hyp⟩

theorem State.showVolts_held (s : State) (decivolts : Nat) {qs vt} (hyp : s.Held qs vt) : (State.showVolts s decivolts).Held qs vt := by
  unfold State.showVolts
  (try dsimp only)
  repeat' (first | (with_reducible first | assumption) | split | intro _ | dsimp only | refine Held.upd ?_ rfl rfl rfl)

theorem vinDip_held (decivolts : Nat) (s : State) {qs vt} (hyp : s.Held qs vt) : (vinDip decivolts s).Held qs vt := by
  unfold vinDip
  (try dsimp only)
  repeat' (first | (with_reducible first | assumption | apply State.hwStatus_held | apply State.showVolts_held) | split | intro _ | dsimp only | refine Held.upd ?_ rfl rfl rfl)

theorem execVinDip_held (decivolts : Nat) (s : State) {qs vt} (hyp : s.Held qs vt) : ∃ t, execVinDip decivolts s = .next t ∧ t.Held qs vt :=
  ⟨_, rfl, vinDip_held _ _ hyp⟩

theorem vinReturn_held (decivolts : Nat) (s : State) {qs vt} (hyp : s.Held qs vt) : (vinReturn decivolts s).Held qs vt := by
  unfold vinReturn
  (try dsimp only)
  repeat' (first | (with_reducible first | assumption | apply State.countHold_held | apply State.hwStatus_held | apply State.showVolts_held) | split | intro _ | dsimp only | refine Held.upd ?_ rfl rfl rfl)

theorem execVinReturn_held (decivolts : Nat) (s : State) {qs vt} (hyp : s.Held qs vt) : ∃ t, execVinReturn decivolts s = .next t ∧ t.Held qs vt :=
  ⟨_, rfl, vinReturn_held _ _ hyp⟩

theorem vinLost_held (s : State) {qs vt} (hyp : s.Held qs vt) : (vinLost s).Held qs vt := by
  unfold vinLost
  (try dsimp only)
  repeat' (first | (with_reducible first | assumption | apply State.stopRun_held | apply State.hwStatus_held) | split | intro _ | dsimp only)

theorem execVinLost_held (s : State) {qs vt} (hyp : s.Held qs vt) : ∃ t, execVinLost s = .next t ∧ t.Held qs vt :=
  ⟨_, rfl, vinLost_held _ hyp⟩

theorem overvoltage_held (decivolts : Nat) (s : State) {qs vt} (hyp : s.Held qs vt) : (overvoltage decivolts s).Held qs vt := by
  unfold overvoltage
  (try dsimp only)
  repeat' (first | (with_reducible first | assumption | apply State.rset_held | apply State.stopRun_held | apply State.hwStatus_held | apply State.showVolts_held) | split | intro _ | dsimp only | refine Held.upd ?_ rfl rfl rfl)

theorem execOvervoltageShutdown_held (decivolts : Nat) (s : State) {qs vt} (hyp : s.Held qs vt) : ∃ t, execOvervoltageShutdown decivolts s = .next t ∧ t.Held qs vt :=
  ⟨_, rfl, overvoltage_held _ _ hyp⟩

theorem holdupCharged_held (s : State) {qs vt} (hyp : s.Held qs vt) : (holdupCharged s).Held qs vt := by
  unfold holdupCharged
  (try dsimp only)
  repeat' (first | (with_reducible first | assumption | apply State.rset_held | apply State.hwStatus_held) | split | intro _ | dsimp only)

theorem execHoldupCharged_held (s : State) {qs vt} (hyp : s.Held qs vt) : ∃ t, execHoldupCharged s = .next t ∧ t.Held qs vt :=
  ⟨_, rfl, holdupCharged_held _ hyp⟩

theorem execStartCapWrite_held (watts : Nat) (s : State) {qs vt} (hyp : s.Held qs vt) : ∃ t, execStartCapWrite watts s = .next t ∧ t.Held qs vt := by
  refine ⟨_, rfl, ?_⟩
  (try dsimp only)
  repeat' (first | (with_reducible first | assumption) | split | intro _ | dsimp only | refine Held.upd ?_ rfl rfl rfl)

theorem execPanelIdentify_held (on : Bool) (s : State) {qs vt} (hyp : s.Held qs vt) : ∃ t, execPanelIdentify on s = .next t ∧ t.Held qs vt := by
  refine ⟨_, rfl, ?_⟩
  (try dsimp only)
  repeat' (first | (with_reducible first | assumption | apply State.rset_held) | split | intro _ | dsimp only)

theorem State.plainWrite_held (s : State) (d : Selectors) (w : RegWrite) {qs vt} (h : s.Held qs vt) : (s.plainWrite d w).1.Held qs vt := by
  unfold State.plainWrite
  dsimp only
  split
  · exact h
  · split
    · exact h
    · exact { h with regs := Regs.wf_setWord _ _ _ _ h.regs }

theorem State.writeGate_held (s : State) (new : Word) {qs vt} (h : s.Held qs vt) : (s.writeGate new).Held qs vt := by
  unfold State.writeGate
  have h1 : ∀ (l : List Nat) (f : State → Nat → State), (∀ t p, t.Held qs vt → (f t p).Held qs vt) →
      (l.foldl f { s with regs := Regs.setWord s.regs 0x10 0 new }).Held qs vt := fun l f hf =>
    foldl_held hf { h with regs := Regs.wf_setWord _ _ _ _ h.regs }
  dsimp only
  have h2 := h1 (List.range 6) (fun (s_1 : State) p =>
    if (Regs.word s.regs 0x10 0).getLsbD (5 + p) ∧ !new.getLsbD (5 + p) then (s_1.rset Fld.NET_PSTAT_LINK 0 p).rset Fld.NET_PSTAT_AN_DONE 0 p else s_1)
    (fun t p ht => by split; exact State.rset_held _ _ _ _ (State.rset_held _ _ _ _ ht); exact ht)
  split
  · exact State.showLife_held _ (State.checkCart_held _ h2)
  · exact h2

theorem State.applyWrite_held (s : State) (d : Selectors) (w : RegWrite) {qs vt} (hyp : s.Held qs vt) : (State.applyWrite s d w).1.Held qs vt := by
  unfold State.applyWrite
  (try dsimp only)
  repeat' (first | (with_reducible first | assumption | apply State.rsetIf_held | apply State.writeFixed_held | apply State.handOver_held | apply State.arrClear_held | apply State.feedClear_held | apply State.trimClear_held | apply State.memClear_held | apply State.xltClear_held | apply State.bankClear_held | apply State.srvClear_held | apply State.vidClear_held | apply State.netClear_held | apply State.contClear_held | apply State.thmClear_held | apply State.netApply_held | apply State.writeManual_held | apply State.startMeasure_held | apply State.rawGo_held | apply State.plainWrite_held | apply State.writeGate_held) | split | intro _ | dsimp only | refine Held.upd ?_ rfl rfl rfl)
theorem State.applyWrite_held' (s : State) (d : Selectors) (w : RegWrite) {qs vt t b}  (e : State.applyWrite s d w = (t, b)) (hyp : s.Held qs vt) : t.Held qs vt := by
  have x := State.applyWrite_held s d w  hyp
  rw [e] at x; exact x

theorem State.applyWrites_held (s : State) (d : Selectors) (l : List RegWrite) {qs vt} (h : s.Held qs vt) : (s.applyWrites d l).1.Held qs vt := by
  induction l generalizing s d with
  | nil => exact h
  | cons w l ih => unfold State.applyWrites; exact ih _ _ (State.applyWrite_held _ _ _ h)

theorem State.mgmtReply_held (s : State) (m : Msg) (type : Nat) (c : Code) (payload : List Byte) {qs vt} (hyp : s.Held qs vt) : (State.mgmtReply s m type c payload).Held qs vt := by
  unfold State.mgmtReply
  (try dsimp only)
  repeat' (first | (with_reducible first | assumption | apply State.rset_held | apply State.countHold_held | apply State.reply_held | apply State.consume_held) | split | intro _ | dsimp only)

theorem mgmtRead_held (m : Msg) (s : State) {qs vt} (hyp : s.Held qs vt) : (mgmtRead m s).Held qs vt := by
  unfold mgmtRead
  (try dsimp only)
  repeat' (first | (with_reducible first | assumption | apply State.count_held | apply State.onSession_held | apply State.consume_held | apply State.mgmtReply_held) | split | intro _ | dsimp only | refine Held.upd ?_ rfl rfl rfl)

theorem execMgmtRead_held (m : Msg) (s : State) {qs vt} (hyp : s.Held qs vt) : ∃ t, execMgmtRead m s = .next t ∧ t.Held qs vt :=
  ⟨_, rfl, mgmtRead_held _ _ hyp⟩

theorem mgmtWrite_held (m : Msg) (s : State) {qs vt} (hyp : s.Held qs vt) : (mgmtWrite m s).Held qs vt := by
  unfold mgmtWrite
  (try dsimp only)
  repeat' (first | (with_reducible first | assumption | apply State.onSession_held | apply State.applyWrites_held | apply State.mgmtReply_held) | split | intro _ | dsimp only | refine Held.upd ?_ rfl rfl rfl)

theorem execMgmtWrite_held (m : Msg) (s : State) {qs vt} (hyp : s.Held qs vt) : ∃ t, execMgmtWrite m s = .next t ∧ t.Held qs vt :=
  ⟨_, rfl, mgmtWrite_held _ _ hyp⟩

theorem execManualPointWrite_held (m : Msg) (value : Word) (s : State) {qs vt} (hyp : s.Held qs vt) : ∃ t, execManualPointWrite m value s = .next t ∧ t.Held qs vt :=
  ⟨_, rfl, mgmtWrite_held _ _ hyp⟩

theorem execRawSliceGo_held (m : Msg) (slice unit : Nat) (s : State) {qs vt} (hyp : s.Held qs vt) : ∃ t, execRawSliceGo m slice unit s = .next t ∧ t.Held qs vt :=
  ⟨_, rfl, mgmtWrite_held _ _ hyp⟩

theorem gateWrite_held (mask value : Word) (s : State) {qs vt} (hyp : s.Held qs vt) : (gateWrite mask value s).Held qs vt := by
  unfold gateWrite
  (try dsimp only)
  repeat' (first | (with_reducible first | assumption | apply State.applyWrite_held) | split | refine State.applyWrite_held' _ _ _ (by assumption) ?_ | intro _ | dsimp only)

theorem execGateWrite_held (mask value : Word) (s : State) {qs vt} (hyp : s.Held qs vt) : ∃ t, execGateWrite mask value s = .next t ∧ t.Held qs vt :=
  ⟨_, rfl, gateWrite_held _ _ _ hyp⟩

theorem State.clearUnlessGated_held (s : State) (a : Nat) (f : State → State) {qs vt} (hf : ∀ x0, x0.Held qs vt → (f x0).Held qs vt) (hyp : s.Held qs vt) : (State.clearUnlessGated s a f).Held qs vt := by
  unfold State.clearUnlessGated
  (try dsimp only)
  repeat' (first | (with_reducible first | assumption | apply hf) | split | intro _ | dsimp only)

theorem execArrCounterClear_held (s : State) {qs vt} (hyp : s.Held qs vt) : ∃ t, execArrCounterClear s = .next t ∧ t.Held qs vt := by
  refine ⟨_, rfl, ?_⟩
  (try dsimp only)
  repeat' (first | (with_reducible first | assumption | apply State.arrClear_held | apply State.feedClear_held | apply State.trimClear_held | apply State.memClear_held | apply State.xltClear_held | apply State.bankClear_held | apply State.srvClear_held | apply State.vidClear_held | apply State.contClear_held | apply State.thmClear_held | apply State.clearUnlessGated_held) | split | intro _ | dsimp only)

theorem execFeedCounterClear_held (s : State) {qs vt} (hyp : s.Held qs vt) : ∃ t, execFeedCounterClear s = .next t ∧ t.Held qs vt := by
  refine ⟨_, rfl, ?_⟩
  (try dsimp only)
  repeat' (first | (with_reducible first | assumption | apply State.feedClear_held | apply State.trimClear_held | apply State.memClear_held | apply State.xltClear_held | apply State.bankClear_held | apply State.srvClear_held | apply State.vidClear_held | apply State.contClear_held | apply State.thmClear_held | apply State.clearUnlessGated_held) | split | intro _ | dsimp only)

theorem execTrimCounterClear_held (s : State) {qs vt} (hyp : s.Held qs vt) : ∃ t, execTrimCounterClear s = .next t ∧ t.Held qs vt := by
  refine ⟨_, rfl, ?_⟩
  (try dsimp only)
  repeat' (first | (with_reducible first | assumption | apply State.trimClear_held | apply State.memClear_held | apply State.xltClear_held | apply State.bankClear_held | apply State.srvClear_held | apply State.vidClear_held | apply State.contClear_held | apply State.thmClear_held | apply State.clearUnlessGated_held) | split | intro _ | dsimp only)

theorem execMemCounterClear_held (s : State) {qs vt} (hyp : s.Held qs vt) : ∃ t, execMemCounterClear s = .next t ∧ t.Held qs vt := by
  refine ⟨_, rfl, ?_⟩
  (try dsimp only)
  repeat' (first | (with_reducible first | assumption | apply State.memClear_held | apply State.xltClear_held | apply State.bankClear_held | apply State.srvClear_held | apply State.vidClear_held | apply State.contClear_held | apply State.thmClear_held | apply State.clearUnlessGated_held) | split | intro _ | dsimp only)

theorem execXltCounterClear_held (s : State) {qs vt} (hyp : s.Held qs vt) : ∃ t, execXltCounterClear s = .next t ∧ t.Held qs vt := by
  refine ⟨_, rfl, ?_⟩
  (try dsimp only)
  repeat' (first | (with_reducible first | assumption | apply State.xltClear_held | apply State.bankClear_held | apply State.srvClear_held | apply State.vidClear_held | apply State.contClear_held | apply State.thmClear_held | apply State.clearUnlessGated_held) | split | intro _ | dsimp only)

theorem execBankCounterClear_held (s : State) {qs vt} (hyp : s.Held qs vt) : ∃ t, execBankCounterClear s = .next t ∧ t.Held qs vt := by
  refine ⟨_, rfl, ?_⟩
  (try dsimp only)
  repeat' (first | (with_reducible first | assumption | apply State.bankClear_held | apply State.srvClear_held | apply State.vidClear_held | apply State.contClear_held | apply State.thmClear_held | apply State.clearUnlessGated_held) | split | intro _ | dsimp only)

theorem execSrvCounterClear_held (s : State) {qs vt} (hyp : s.Held qs vt) : ∃ t, execSrvCounterClear s = .next t ∧ t.Held qs vt := by
  refine ⟨_, rfl, ?_⟩
  (try dsimp only)
  repeat' (first | (with_reducible first | assumption | apply State.srvClear_held | apply State.vidClear_held | apply State.contClear_held | apply State.thmClear_held | apply State.clearUnlessGated_held) | split | intro _ | dsimp only)

theorem execVidCounterClear_held (s : State) {qs vt} (hyp : s.Held qs vt) : ∃ t, execVidCounterClear s = .next t ∧ t.Held qs vt := by
  refine ⟨_, rfl, ?_⟩
  (try dsimp only)
  repeat' (first | (with_reducible first | assumption | apply State.vidClear_held | apply State.contClear_held | apply State.thmClear_held | apply State.clearUnlessGated_held) | split | intro _ | dsimp only)

theorem execContCounterClear_held (s : State) {qs vt} (hyp : s.Held qs vt) : ∃ t, execContCounterClear s = .next t ∧ t.Held qs vt := by
  refine ⟨_, rfl, ?_⟩
  (try dsimp only)
  repeat' (first | (with_reducible first | assumption | apply State.contClear_held | apply State.thmClear_held) | split | intro _ | dsimp only)

theorem execThmCounterClear_held (s : State) {qs vt} (hyp : s.Held qs vt) : ∃ t, execThmCounterClear s = .next t ∧ t.Held qs vt := by
  refine ⟨_, rfl, ?_⟩
  (try dsimp only)
  repeat' (first | (with_reducible first | assumption | apply State.thmClear_held) | split | intro _ | dsimp only)

theorem configStage_held (m : Msg) (s : State) {qs vt} (hyp : s.Held qs vt) : (configStage m s).Held qs vt := by
  unfold configStage
  (try dsimp only)
  repeat' (first | (with_reducible first | assumption | apply State.reply_held | apply State.withMsg_held) | split | intro _ | dsimp only | refine Held.upd ?_ rfl rfl rfl)

theorem execConfigStage_held (m : Msg) (s : State) {qs vt} (hyp : s.Held qs vt) : ∃ t, execConfigStage m s = .next t ∧ t.Held qs vt :=
  ⟨_, rfl, configStage_held _ _ hyp⟩

theorem State.dropProtected_held (s : State) {qs vt} (hyp : s.Held qs vt) : (State.dropProtected s).Held qs vt := by
  unfold State.dropProtected
  (try dsimp only)
  repeat' (first | (with_reducible first | assumption | apply State.endSessionWork_held | apply State.dropSession_held | refine foldl_held (fun _ _ _ => ?_) ?_) | split | intro _ | dsimp only)

theorem State.takePairs_held (s : State) (x : StagedConfig) {qs vt} (hyp : s.Held qs vt) : (State.takePairs s x).Held qs vt := by
  unfold State.takePairs
  (try dsimp only)
  repeat' (first | (with_reducible first | assumption | apply State.rset_held | apply State.dropProtected_held) | split | intro _ | dsimp only | refine Held.upd ?_ rfl rfl rfl)

theorem State.applyConfig_held (s : State) (x : StagedConfig) {qs vt} (hyp : s.Held qs vt) : (State.applyConfig s x).Held qs vt := by
  unfold State.applyConfig
  (try dsimp only)
  repeat' (first | (with_reducible first | assumption | apply State.applyWrites_held | apply State.takePairs_held) | split | intro _ | dsimp only | refine Held.upd ?_ rfl rfl rfl)

theorem State.configBoundary_held (s : State) {qs vt} (hyp : s.Held qs vt) : (State.configBoundary s).Held qs vt := by
  unfold State.configBoundary
  (try dsimp only)
  repeat' (first | (with_reducible first | assumption | apply State.journal_held | apply State.replyTo_held | apply State.applyConfig_held) | split | intro _ | dsimp only | refine Held.upd ?_ rfl rfl rfl)

theorem configActivate_held (m : Msg) (s : State) {qs vt} (hyp : s.Held qs vt) : (configActivate m s).Held qs vt := by
  unfold configActivate
  (try dsimp only)
  repeat' (first | (with_reducible first | assumption | apply State.reply_held | apply State.withMsg_held | apply State.configBoundary_held) | split | intro _ | dsimp only | refine Held.upd ?_ rfl rfl rfl)

theorem execConfigActivate_held (m : Msg) (s : State) {qs vt} (hyp : s.Held qs vt) : ∃ t, execConfigActivate m s = .next t ∧ t.Held qs vt :=
  ⟨_, rfl, configActivate_held _ _ hyp⟩

theorem execCoatComplete_held (coat : Nat) (s : State) {qs vt} (hyp : s.Held qs vt) : ∃ t, execCoatComplete coat s = .next t ∧ t.Held qs vt := by
  refine ⟨_, rfl, ?_⟩
  (try dsimp only)
  repeat' (first | (with_reducible first | assumption | apply coatComplete_held | apply State.configBoundary_held) | split | intro _ | dsimp only)

theorem execBatchStart_held (s : State) {qs vt} (hyp : s.Held qs vt) : ∃ t, execBatchStart s = .next t ∧ t.Held qs vt := by
  refine ⟨_, rfl, ?_⟩
  (try dsimp only)
  repeat' (first | (with_reducible first | assumption | apply batchStart_held | apply State.configBoundary_held) | split | intro _ | dsimp only)

theorem heartbeat_held (s : State) {qs vt} (hyp : s.Held qs vt) : (heartbeat s).Held qs vt := by
  unfold heartbeat
  (try dsimp only)
  repeat' (first | (with_reducible first | assumption | apply State.pushOwnAll_held) | split | intro _ | dsimp only)

theorem execHeartbeat_held (s : State) {qs vt} (hyp : s.Held qs vt) : ∃ t, execHeartbeat s = .next t ∧ t.Held qs vt :=
  ⟨_, rfl, heartbeat_held _ hyp⟩

end Sys2Proof.Machine
end

