-- ==== Sys2Proof/Laws/HeldTrim.lean ====
section
/-! SUPPORT. HeldTrim.lean: every operation and command of the trim cores keeps `State.Held`. -/

set_option linter.all false


namespace Sys2Proof.Machine

theorem State.load_held (s : State) (c : CoreId) (sd sa : SReg) (imm : Imm13) (n : Nat) {qs vt} (hyp : s.Held qs vt) : (State.load s c sd sa imm n).Held qs vt := by
  unfold State.load
  (try dsimp only)
  repeat' (first | (with_reducible first | assumption | apply State.onCore_held | apply State.kernelFault_held | apply State.issue_held) | split | intro _ | dsimp only)

theorem State.store_held (s : State) (c : CoreId) (sd sa : SReg) (imm : Imm13) (n : Nat) {qs vt} (hyp : s.Held qs vt) : (State.store s c sd sa imm n).Held qs vt := by
  unfold State.store
  (try dsimp only)
  repeat' (first | (with_reducible first | assumption | apply State.kernelFault_held | apply State.issue_held | apply State.coreStore_held) | split | intro _ | dsimp only)

theorem execLb_held (core : CoreId) (sd sa : SReg) (imm : Imm13) (s : State) {qs vt} (hyp : s.Held qs vt) : ∃ t, execLb core sd sa imm s = .next t ∧ t.Held qs vt := by
  refine ⟨_, rfl, ?_⟩
  (try dsimp only)
  repeat' (first | (with_reducible first | assumption | apply State.load_held | apply State.store_held) | split | intro _ | dsimp only)

theorem execLh_held (core : CoreId) (sd sa : SReg) (imm : Imm13) (s : State) {qs vt} (hyp : s.Held qs vt) : ∃ t, execLh core sd sa imm s = .next t ∧ t.Held qs vt := by
  refine ⟨_, rfl, ?_⟩
  (try dsimp only)
  repeat' (first | (with_reducible first | assumption | apply State.load_held | apply State.store_held) | split | intro _ | dsimp only)

theorem execLw_held (core : CoreId) (sd sa : SReg) (imm : Imm13) (s : State) {qs vt} (hyp : s.Held qs vt) : ∃ t, execLw core sd sa imm s = .next t ∧ t.Held qs vt := by
  refine ⟨_, rfl, ?_⟩
  (try dsimp only)
  repeat' (first | (with_reducible first | assumption | apply State.load_held | apply State.store_held) | split | intro _ | dsimp only)

theorem execLd_held (core : CoreId) (sd sa : SReg) (imm : Imm13) (s : State) {qs vt} (hyp : s.Held qs vt) : ∃ t, execLd core sd sa imm s = .next t ∧ t.Held qs vt := by
  refine ⟨_, rfl, ?_⟩
  (try dsimp only)
  repeat' (first | (with_reducible first | assumption | apply State.load_held | apply State.store_held) | split | intro _ | dsimp only)

theorem execSb_held (core : CoreId) (sd sa : SReg) (imm : Imm13) (s : State) {qs vt} (hyp : s.Held qs vt) : ∃ t, execSb core sd sa imm s = .next t ∧ t.Held qs vt := by
  refine ⟨_, rfl, ?_⟩
  (try dsimp only)
  repeat' (first | (with_reducible first | assumption | apply State.store_held) | split | intro _ | dsimp only)

theorem execSh_held (core : CoreId) (sd sa : SReg) (imm : Imm13) (s : State) {qs vt} (hyp : s.Held qs vt) : ∃ t, execSh core sd sa imm s = .next t ∧ t.Held qs vt := by
  refine ⟨_, rfl, ?_⟩
  (try dsimp only)
  repeat' (first | (with_reducible first | assumption | apply State.store_held) | split | intro _ | dsimp only)

theorem execSw_held (core : CoreId) (sd sa : SReg) (imm : Imm13) (s : State) {qs vt} (hyp : s.Held qs vt) : ∃ t, execSw core sd sa imm s = .next t ∧ t.Held qs vt := by
  refine ⟨_, rfl, ?_⟩
  (try dsimp only)
  repeat' (first | (with_reducible first | assumption | apply State.store_held) | split | intro _ | dsimp only)

theorem execSd_held (core : CoreId) (sd sa : SReg) (imm : Imm13) (s : State) {qs vt} (hyp : s.Held qs vt) : ∃ t, execSd core sd sa imm s = .next t ∧ t.Held qs vt :=
  ⟨_, rfl, State.store_held _ _ _ _ _ _ hyp⟩

theorem vldEffect_held (c : CoreId) (vd : VReg) (sa : SReg) (p : PReg) (imm : Imm13) (s : State) {qs vt} (hyp : s.Held qs vt) : (vldEffect c vd sa p imm s).Held qs vt := by
  unfold vldEffect
  (try dsimp only)
  repeat' (first | (with_reducible first | assumption | apply State.onCore_held | apply State.kernelFault_held | apply State.issue_held) | split | intro _ | dsimp only)

theorem execVld_held (core : CoreId) (vd : VReg) (sa : SReg) (p : PReg) (imm : Imm13) (s : State) {qs vt} (hyp : s.Held qs vt) : ∃ t, execVld core vd sa p imm s = .next t ∧ t.Held qs vt :=
  ⟨_, rfl, vldEffect_held _ _ _ _ _ _ hyp⟩

theorem vstEffect_held (c : CoreId) (vd : VReg) (sa : SReg) (p : PReg) (imm : Imm13) (s : State) {qs vt} (hyp : s.Held qs vt) : (vstEffect c vd sa p imm s).Held qs vt := by
  unfold vstEffect
  (try dsimp only)
  repeat' (first | (with_reducible first | assumption | apply State.kernelFault_held | apply State.issue_held | apply State.coreStore_held | refine foldl_held (fun _ _ _ => ?_) ?_) | split | intro _ | dsimp only)

theorem execVst_held (core : CoreId) (vd : VReg) (sa : SReg) (p : PReg) (imm : Imm13) (s : State) {qs vt} (hyp : s.Held qs vt) : ∃ t, execVst core vd sa p imm s = .next t ∧ t.Held qs vt :=
  ⟨_, rfl, vstEffect_held _ _ _ _ _ _ hyp⟩

theorem State.loadBlock_held (s : State) (c : CoreId) (vd : VReg) (sa : SReg) (p : PReg) (imm : Imm13) (f : Format) {qs vt} (hyp : s.Held qs vt) : (State.loadBlock s c vd sa p imm f).Held qs vt := by
  unfold State.loadBlock
  (try dsimp only)
  repeat' (first | (with_reducible first | assumption | apply State.onCore_held | apply State.kernelFault_held | apply State.issue_held) | split | intro _ | dsimp only)

theorem execVlq8_held (core : CoreId) (vd : VReg) (sa : SReg) (p : PReg) (imm : Imm13) (s : State) {qs vt} (hyp : s.Held qs vt) : ∃ t, execVlq8 core vd sa p imm s = .next t ∧ t.Held qs vt := by
  refine ⟨_, rfl, ?_⟩
  (try dsimp only)
  repeat' (first | (with_reducible first | assumption | apply State.loadBlock_held) | split | intro _ | dsimp only)

theorem execVlq4_held (core : CoreId) (vd : VReg) (sa : SReg) (p : PReg) (imm : Imm13) (s : State) {qs vt} (hyp : s.Held qs vt) : ∃ t, execVlq4 core vd sa p imm s = .next t ∧ t.Held qs vt :=
  ⟨_, rfl, State.loadBlock_held _ _ _ _ _ _ _ hyp⟩

theorem State.storeBlock_held (s : State) (c : CoreId) (vd : VReg) (sa : SReg) (p : PReg) (imm : Imm13) (f : Format) {qs vt} (hyp : s.Held qs vt) : (State.storeBlock s c vd sa p imm f).Held qs vt := by
  unfold State.storeBlock
  (try dsimp only)
  repeat' (first | (with_reducible first | assumption | apply State.onCore_held | apply State.kernelFault_held | apply State.issue_held | apply State.coreStore_held) | split | intro _ | dsimp only)

theorem execVsq8_held (core : CoreId) (vd : VReg) (sa : SReg) (p : PReg) (imm : Imm13) (s : State) {qs vt} (hyp : s.Held qs vt) : ∃ t, execVsq8 core vd sa p imm s = .next t ∧ t.Held qs vt := by
  refine ⟨_, rfl, ?_⟩
  (try dsimp only)
  repeat' (first | (with_reducible first | assumption | apply State.storeBlock_held) | split | intro _ | dsimp only)

theorem execVsq4_held (core : CoreId) (vd : VReg) (sa : SReg) (p : PReg) (imm : Imm13) (s : State) {qs vt} (hyp : s.Held qs vt) : ∃ t, execVsq4 core vd sa p imm s = .next t ∧ t.Held qs vt :=
  ⟨_, rfl, State.storeBlock_held _ _ _ _ _ _ _ hyp⟩

theorem State.scalar_held (s : State) (c : CoreId) (sd sa sb : SReg) (f : BitVec 64 → BitVec 64 → BitVec 64) {qs vt} (hyp : s.Held qs vt) : (State.scalar s c sd sa sb f).Held qs vt := by
  unfold State.scalar
  (try dsimp only)
  repeat' (first | (with_reducible first | assumption | apply State.onRegs_held) | split | intro _ | dsimp only)

theorem State.scalarImm_held (s : State) (c : CoreId) (sd sa : SReg) (f : BitVec 64 → BitVec 64) {qs vt} (hyp : s.Held qs vt) : (State.scalarImm s c sd sa f).Held qs vt := by
  unfold State.scalarImm
  (try dsimp only)
  repeat' (first | (with_reducible first | assumption | apply State.onRegs_held) | split | intro _ | dsimp only)

theorem State.scalarFp_held (s : State) (c : CoreId) (sd : SReg) (f : Core → Nat × NumFlags) {qs vt} (hyp : s.Held qs vt) : (State.scalarFp s c sd f).Held qs vt := by
  unfold State.scalarFp
  (try dsimp only)
  repeat' (first | (with_reducible first | assumption | apply State.onRegs_held) | split | intro _ | dsimp only)

theorem State.jumpTo_held (s : State) (c : CoreId) (pc target : Nat) {qs vt} (hyp : s.Held qs vt) : (State.jumpTo s c pc target).Held qs vt := by
  unfold State.jumpTo
  (try dsimp only)
  repeat' (first | (with_reducible first | assumption | apply State.onCore_held | apply State.kernelFault_held) | split | intro _ | dsimp only | refine Held.upd ?_ rfl rfl rfl)

theorem State.branch_held (s : State) (c : CoreId) (sa sb : SReg) (off : Imm16) (p : BitVec 64 → BitVec 64 → Bool) {qs vt} (hyp : s.Held qs vt) : (State.branch s c sa sb off p).Held qs vt := by
  unfold State.branch
  (try dsimp only)
  repeat' (first | (with_reducible first | assumption | apply State.issue_held | apply State.jumpTo_held) | split | intro _ | dsimp only)

theorem execAdd_held (core : CoreId) (sd sa sb : SReg) (s : State) {qs vt} (hyp : s.Held qs vt) : ∃ t, execAdd core sd sa sb s = .next t ∧ t.Held qs vt :=
  ⟨_, rfl, State.scalar_held _ _ _ _ _ _ hyp⟩

theorem execSub_held (core : CoreId) (sd sa sb : SReg) (s : State) {qs vt} (hyp : s.Held qs vt) : ∃ t, execSub core sd sa sb s = .next t ∧ t.Held qs vt :=
  ⟨_, rfl, State.scalar_held _ _ _ _ _ _ hyp⟩

theorem execAnd_held (core : CoreId) (sd sa sb : SReg) (s : State) {qs vt} (hyp : s.Held qs vt) : ∃ t, execAnd core sd sa sb s = .next t ∧ t.Held qs vt :=
  ⟨_, rfl, State.scalar_held _ _ _ _ _ _ hyp⟩

theorem execOr_held (core : CoreId) (sd sa sb : SReg) (s : State) {qs vt} (hyp : s.Held qs vt) : ∃ t, execOr core sd sa sb s = .next t ∧ t.Held qs vt :=
  ⟨_, rfl, State.scalar_held _ _ _ _ _ _ hyp⟩

theorem execXor_held (core : CoreId) (sd sa sb : SReg) (s : State) {qs vt} (hyp : s.Held qs vt) : ∃ t, execXor core sd sa sb s = .next t ∧ t.Held qs vt :=
  ⟨_, rfl, State.scalar_held _ _ _ _ _ _ hyp⟩

theorem execSll_held (core : CoreId) (sd sa sb : SReg) (s : State) {qs vt} (hyp : s.Held qs vt) : ∃ t, execSll core sd sa sb s = .next t ∧ t.Held qs vt :=
  ⟨_, rfl, State.scalar_held _ _ _ _ _ _ hyp⟩

theorem execSrl_held (core : CoreId) (sd sa sb : SReg) (s : State) {qs vt} (hyp : s.Held qs vt) : ∃ t, execSrl core sd sa sb s = .next t ∧ t.Held qs vt :=
  ⟨_, rfl, State.scalar_held _ _ _ _ _ _ hyp⟩

theorem execSra_held (core : CoreId) (sd sa sb : SReg) (s : State) {qs vt} (hyp : s.Held qs vt) : ∃ t, execSra core sd sa sb s = .next t ∧ t.Held qs vt :=
  ⟨_, rfl, State.scalar_held _ _ _ _ _ _ hyp⟩

theorem execMul_held (core : CoreId) (sd sa sb : SReg) (s : State) {qs vt} (hyp : s.Held qs vt) : ∃ t, execMul core sd sa sb s = .next t ∧ t.Held qs vt :=
  ⟨_, rfl, State.scalar_held _ _ _ _ _ _ hyp⟩

theorem execMulh_held (core : CoreId) (sd sa sb : SReg) (s : State) {qs vt} (hyp : s.Held qs vt) : ∃ t, execMulh core sd sa sb s = .next t ∧ t.Held qs vt :=
  ⟨_, rfl, State.scalar_held _ _ _ _ _ _ hyp⟩

theorem execMulhu_held (core : CoreId) (sd sa sb : SReg) (s : State) {qs vt} (hyp : s.Held qs vt) : ∃ t, execMulhu core sd sa sb s = .next t ∧ t.Held qs vt :=
  ⟨_, rfl, State.scalar_held _ _ _ _ _ _ hyp⟩

theorem execDiv_held (core : CoreId) (sd sa sb : SReg) (s : State) {qs vt} (hyp : s.Held qs vt) : ∃ t, execDiv core sd sa sb s = .next t ∧ t.Held qs vt :=
  ⟨_, rfl, State.scalar_held _ _ _ _ _ _ hyp⟩

theorem execDivu_held (core : CoreId) (sd sa sb : SReg) (s : State) {qs vt} (hyp : s.Held qs vt) : ∃ t, execDivu core sd sa sb s = .next t ∧ t.Held qs vt :=
  ⟨_, rfl, State.scalar_held _ _ _ _ _ _ hyp⟩

theorem execRem_held (core : CoreId) (sd sa sb : SReg) (s : State) {qs vt} (hyp : s.Held qs vt) : ∃ t, execRem core sd sa sb s = .next t ∧ t.Held qs vt :=
  ⟨_, rfl, State.scalar_held _ _ _ _ _ _ hyp⟩

theorem execRemu_held (core : CoreId) (sd sa sb : SReg) (s : State) {qs vt} (hyp : s.Held qs vt) : ∃ t, execRemu core sd sa sb s = .next t ∧ t.Held qs vt :=
  ⟨_, rfl, State.scalar_held _ _ _ _ _ _ hyp⟩

theorem execSlt_held (core : CoreId) (sd sa sb : SReg) (s : State) {qs vt} (hyp : s.Held qs vt) : ∃ t, execSlt core sd sa sb s = .next t ∧ t.Held qs vt :=
  ⟨_, rfl, State.scalar_held _ _ _ _ _ _ hyp⟩

theorem execSltu_held (core : CoreId) (sd sa sb : SReg) (s : State) {qs vt} (hyp : s.Held qs vt) : ∃ t, execSltu core sd sa sb s = .next t ∧ t.Held qs vt :=
  ⟨_, rfl, State.scalar_held _ _ _ _ _ _ hyp⟩

theorem execMin_held (core : CoreId) (sd sa sb : SReg) (s : State) {qs vt} (hyp : s.Held qs vt) : ∃ t, execMin core sd sa sb s = .next t ∧ t.Held qs vt :=
  ⟨_, rfl, State.scalar_held _ _ _ _ _ _ hyp⟩

theorem execMax_held (core : CoreId) (sd sa sb : SReg) (s : State) {qs vt} (hyp : s.Held qs vt) : ∃ t, execMax core sd sa sb s = .next t ∧ t.Held qs vt :=
  ⟨_, rfl, State.scalar_held _ _ _ _ _ _ hyp⟩

theorem execAddi_held (core : CoreId) (sd sa : SReg) (imm : Imm16) (s : State) {qs vt} (hyp : s.Held qs vt) : ∃ t, execAddi core sd sa imm s = .next t ∧ t.Held qs vt :=
  ⟨_, rfl, State.scalarImm_held _ _ _ _ _ hyp⟩

theorem execAndi_held (core : CoreId) (sd sa : SReg) (imm : Imm16) (s : State) {qs vt} (hyp : s.Held qs vt) : ∃ t, execAndi core sd sa imm s = .next t ∧ t.Held qs vt :=
  ⟨_, rfl, State.scalarImm_held _ _ _ _ _ hyp⟩

theorem execOri_held (core : CoreId) (sd sa : SReg) (imm : Imm16) (s : State) {qs vt} (hyp : s.Held qs vt) : ∃ t, execOri core sd sa imm s = .next t ∧ t.Held qs vt :=
  ⟨_, rfl, State.scalarImm_held _ _ _ _ _ hyp⟩

theorem execXori_held (core : CoreId) (sd sa : SReg) (imm : Imm16) (s : State) {qs vt} (hyp : s.Held qs vt) : ∃ t, execXori core sd sa imm s = .next t ∧ t.Held qs vt :=
  ⟨_, rfl, State.scalarImm_held _ _ _ _ _ hyp⟩

theorem execShi_held (core : CoreId) (sd sa : SReg) (imm : Imm16) (s : State) {qs vt} (hyp : s.Held qs vt) : ∃ t, execShi core sd sa imm s = .next t ∧ t.Held qs vt :=
  ⟨_, rfl, State.scalarImm_held _ _ _ _ _ hyp⟩

theorem execSlti_held (core : CoreId) (sd sa : SReg) (imm : Imm16) (s : State) {qs vt} (hyp : s.Held qs vt) : ∃ t, execSlti core sd sa imm s = .next t ∧ t.Held qs vt :=
  ⟨_, rfl, State.scalarImm_held _ _ _ _ _ hyp⟩

theorem execLui_held (core : CoreId) (sd : SReg) (imm : Imm16) (s : State) {qs vt} (hyp : s.Held qs vt) : ∃ t, execLui core sd imm s = .next t ∧ t.Held qs vt :=
  ⟨_, rfl, State.onRegs_held _ _ _ hyp⟩

theorem execFadd_held (core : CoreId) (sd sa sb : SReg) (s : State) {qs vt} (hyp : s.Held qs vt) : ∃ t, execFadd core sd sa sb s = .next t ∧ t.Held qs vt :=
  ⟨_, rfl, State.scalarFp_held _ _ _ _ hyp⟩

theorem execFsub_held (core : CoreId) (sd sa sb : SReg) (s : State) {qs vt} (hyp : s.Held qs vt) : ∃ t, execFsub core sd sa sb s = .next t ∧ t.Held qs vt :=
  ⟨_, rfl, State.scalarFp_held _ _ _ _ hyp⟩

theorem execFmul_held (core : CoreId) (sd sa sb : SReg) (s : State) {qs vt} (hyp : s.Held qs vt) : ∃ t, execFmul core sd sa sb s = .next t ∧ t.Held qs vt :=
  ⟨_, rfl, State.scalarFp_held _ _ _ _ hyp⟩

theorem execFdiv_held (core : CoreId) (sd sa sb : SReg) (s : State) {qs vt} (hyp : s.Held qs vt) : ∃ t, execFdiv core sd sa sb s = .next t ∧ t.Held qs vt :=
  ⟨_, rfl, State.scalarFp_held _ _ _ _ hyp⟩

theorem execFsqrt_held (core : CoreId) (sd sa : SReg) (s : State) {qs vt} (hyp : s.Held qs vt) : ∃ t, execFsqrt core sd sa s = .next t ∧ t.Held qs vt :=
  ⟨_, rfl, State.scalarFp_held _ _ _ _ hyp⟩

theorem execFfma_held (core : CoreId) (sd sa sb : SReg) (s : State) {qs vt} (hyp : s.Held qs vt) : ∃ t, execFfma core sd sa sb s = .next t ∧ t.Held qs vt :=
  ⟨_, rfl, State.scalarFp_held _ _ _ _ hyp⟩

theorem execFmin_held (core : CoreId) (sd sa sb : SReg) (s : State) {qs vt} (hyp : s.Held qs vt) : ∃ t, execFmin core sd sa sb s = .next t ∧ t.Held qs vt :=
  ⟨_, rfl, State.scalarFp_held _ _ _ _ hyp⟩

theorem execFmax_held (core : CoreId) (sd sa sb : SReg) (s : State) {qs vt} (hyp : s.Held qs vt) : ∃ t, execFmax core sd sa sb s = .next t ∧ t.Held qs vt :=
  ⟨_, rfl, State.scalarFp_held _ _ _ _ hyp⟩

theorem execFeq_held (core : CoreId) (sd sa sb : SReg) (s : State) {qs vt} (hyp : s.Held qs vt) : ∃ t, execFeq core sd sa sb s = .next t ∧ t.Held qs vt :=
  ⟨_, rfl, State.scalar_held _ _ _ _ _ _ hyp⟩

theorem execFlt_held (core : CoreId) (sd sa sb : SReg) (s : State) {qs vt} (hyp : s.Held qs vt) : ∃ t, execFlt core sd sa sb s = .next t ∧ t.Held qs vt :=
  ⟨_, rfl, State.scalar_held _ _ _ _ _ _ hyp⟩

theorem execFle_held (core : CoreId) (sd sa sb : SReg) (s : State) {qs vt} (hyp : s.Held qs vt) : ∃ t, execFle core sd sa sb s = .next t ∧ t.Held qs vt :=
  ⟨_, rfl, State.scalar_held _ _ _ _ _ _ hyp⟩

theorem execFcvtws_held (core : CoreId) (sd sa : SReg) (s : State) {qs vt} (hyp : s.Held qs vt) : ∃ t, execFcvtws core sd sa s = .next t ∧ t.Held qs vt :=
  ⟨_, rfl, State.scalarFp_held _ _ _ _ hyp⟩

theorem execFcvtsw_held (core : CoreId) (sd sa : SReg) (s : State) {qs vt} (hyp : s.Held qs vt) : ∃ t, execFcvtsw core sd sa s = .next t ∧ t.Held qs vt :=
  ⟨_, rfl, State.scalarFp_held _ _ _ _ hyp⟩

theorem execBeq_held (core : CoreId) (sa sb : SReg) (off : Imm16) (s : State) {qs vt} (hyp : s.Held qs vt) : ∃ t, execBeq core sa sb off s = .next t ∧ t.Held qs vt :=
  ⟨_, rfl, State.branch_held _ _ _ _ _ _ hyp⟩

theorem execBne_held (core : CoreId) (sa sb : SReg) (off : Imm16) (s : State) {qs vt} (hyp : s.Held qs vt) : ∃ t, execBne core sa sb off s = .next t ∧ t.Held qs vt :=
  ⟨_, rfl, State.branch_held _ _ _ _ _ _ hyp⟩

theorem execBlt_held (core : CoreId) (sa sb : SReg) (off : Imm16) (s : State) {qs vt} (hyp : s.Held qs vt) : ∃ t, execBlt core sa sb off s = .next t ∧ t.Held qs vt :=
  ⟨_, rfl, State.branch_held _ _ _ _ _ _ hyp⟩

theorem execBge_held (core : CoreId) (sa sb : SReg) (off : Imm16) (s : State) {qs vt} (hyp : s.Held qs vt) : ∃ t, execBge core sa sb off s = .next t ∧ t.Held qs vt :=
  ⟨_, rfl, State.branch_held _ _ _ _ _ _ hyp⟩

theorem execBltu_held (core : CoreId) (sa sb : SReg) (off : Imm16) (s : State) {qs vt} (hyp : s.Held qs vt) : ∃ t, execBltu core sa sb off s = .next t ∧ t.Held qs vt :=
  ⟨_, rfl, State.branch_held _ _ _ _ _ _ hyp⟩

theorem execBgeu_held (core : CoreId) (sa sb : SReg) (off : Imm16) (s : State) {qs vt} (hyp : s.Held qs vt) : ∃ t, execBgeu core sa sb off s = .next t ∧ t.Held qs vt :=
  ⟨_, rfl, State.branch_held _ _ _ _ _ _ hyp⟩

theorem execJal_held (core : CoreId) (sd : SReg) (off : Imm16) (s : State) {qs vt} (hyp : s.Held qs vt) : ∃ t, execJal core sd off s = .next t ∧ t.Held qs vt := by
  refine ⟨_, rfl, ?_⟩
  (try dsimp only)
  repeat' (first | (with_reducible first | assumption | apply State.onCore_held | apply State.issue_held | apply State.jumpTo_held) | split | intro _ | dsimp only)

theorem execJr_held (core : CoreId) (sa : SReg) (s : State) {qs vt} (hyp : s.Held qs vt) : ∃ t, execJr core sa s = .next t ∧ t.Held qs vt := by
  refine ⟨_, rfl, ?_⟩
  (try dsimp only)
  repeat' (first | (with_reducible first | assumption | apply State.issue_held | apply State.jumpTo_held) | split | intro _ | dsimp only)

theorem execDraw_held (core : CoreId) (sd sa sb : SReg) (s : State) {qs vt} (hyp : s.Held qs vt) : ∃ t, execDraw core sd sa sb s = .next t ∧ t.Held qs vt :=
  ⟨_, rfl, State.scalar_held _ _ _ _ _ _ hyp⟩

theorem execFlags_held (core : CoreId) (sd : SReg) (s : State) {qs vt} (hyp : s.Held qs vt) : ∃ t, execFlags core sd s = .next t ∧ t.Held qs vt :=
  ⟨_, rfl, State.onRegs_held _ _ _ hyp⟩

theorem State.lanes_held (s : State) (c : CoreId) (vd : VReg) (p : PReg) (w : Nat) (f : Core → Nat → Nat × NumFlags) {qs vt} (hyp : s.Held qs vt) : (State.lanes s c vd p w f).Held qs vt := by
  unfold State.lanes
  (try dsimp only)
  repeat' (first | (with_reducible first | assumption | apply State.onRegs_held) | split | intro _ | dsimp only)

theorem State.vecInt_held (s : State) (c : CoreId) (vd va vb : VReg) (p : PReg) (et : ElemType) (f : Nat → Int → Int → Int) {qs vt} (hyp : s.Held qs vt) : (State.vecInt s c vd va vb p et f).Held qs vt := by
  unfold State.vecInt
  (try dsimp only)
  repeat' (first | (with_reducible first | assumption | apply State.lanes_held) | split | intro _ | dsimp only)

theorem State.vecShift_held (s : State) (c : CoreId) (vd va vb : VReg) (p : PReg) (et : ElemType) (f : Nat → Nat → Nat → Nat) {qs vt} (hyp : s.Held qs vt) : (State.vecShift s c vd va vb p et f).Held qs vt := by
  unfold State.vecShift
  (try dsimp only)
  repeat' (first | (with_reducible first | assumption | apply State.lanes_held) | split | intro _ | dsimp only)

theorem State.vecFp_held (s : State) (c : CoreId) (vd va vb : VReg) (p : PReg) (et : ElemType) (f : FpFmt → Nat → Nat → Nat → Nat × NumFlags) {qs vt} (hyp : s.Held qs vt) : (State.vecFp s c vd va vb p et f).Held qs vt := by
  unfold State.vecFp
  (try dsimp only)
  repeat' (first | (with_reducible first | assumption | apply State.lanes_held) | split | intro _ | dsimp only)

theorem State.vecBits_held (s : State) (c : CoreId) (vd va vb : VReg) (p : PReg) (et : ElemType) (f : Nat → Nat → Nat) {qs vt} (hyp : s.Held qs vt) : (State.vecBits s c vd va vb p et f).Held qs vt := by
  unfold State.vecBits
  (try dsimp only)
  repeat' (first | (with_reducible first | assumption | apply State.lanes_held) | split | intro _ | dsimp only)

theorem State.vecCmp_held (s : State) (c : CoreId) (pd : PReg) (va vb : VReg) (p : PReg) (et : ElemType) (f : FpVal → FpVal → Bool) {qs vt} (hyp : s.Held qs vt) : (State.vecCmp s c pd va vb p et f).Held qs vt := by
  unfold State.vecCmp
  (try dsimp only)
  repeat' (first | (with_reducible first | assumption | apply State.onRegs_held | refine foldl_held (fun _ _ _ => ?_) ?_) | split | intro _ | dsimp only)

theorem State.predOp_held (s : State) (c : CoreId) (pd pa pb : PReg) (f : BitVec 64 → BitVec 64 → BitVec 64) {qs vt} (hyp : s.Held qs vt) : (State.predOp s c pd pa pb f).Held qs vt := by
  unfold State.predOp
  (try dsimp only)
  repeat' (first | (with_reducible first | assumption | apply State.onRegs_held) | split | intro _ | dsimp only)

theorem State.vecSpecial_held (s : State) (c : CoreId) (vd va : VReg) (p : PReg) (fn : SpecialFn) {qs vt} (hyp : s.Held qs vt) : (State.vecSpecial s c vd va p fn).Held qs vt := by
  unfold State.vecSpecial
  (try dsimp only)
  repeat' (first | (with_reducible first | assumption | apply State.lanes_held) | split | intro _ | dsimp only)

theorem State.vecPick_held (s : State) (c : CoreId) (v : VReg) (sd : SReg) (p : PReg) (et : ElemType) (isMax : Bool) {qs vt} (hyp : s.Held qs vt) : (State.vecPick s c v sd p et isMax).Held qs vt := by
  unfold State.vecPick
  (try dsimp only)
  repeat' (first | (with_reducible first | assumption | apply State.onCore_held | apply State.issue_held) | split | intro _ | dsimp only | refine Held.upd ?_ rfl rfl rfl)

theorem execVadd_held (core : CoreId) (vd va vb : VReg) (p : PReg) (et : ElemType) (s : State) {qs vt} (hyp : s.Held qs vt) : ∃ t, execVadd core vd va vb p et s = .next t ∧ t.Held qs vt :=
  ⟨_, rfl, State.vecInt_held _ _ _ _ _ _ _ _ hyp⟩

theorem execVsub_held (core : CoreId) (vd va vb : VReg) (p : PReg) (et : ElemType) (s : State) {qs vt} (hyp : s.Held qs vt) : ∃ t, execVsub core vd va vb p et s = .next t ∧ t.Held qs vt :=
  ⟨_, rfl, State.vecInt_held _ _ _ _ _ _ _ _ hyp⟩

theorem execVmul_held (core : CoreId) (vd va vb : VReg) (p : PReg) (et : ElemType) (s : State) {qs vt} (hyp : s.Held qs vt) : ∃ t, execVmul core vd va vb p et s = .next t ∧ t.Held qs vt :=
  ⟨_, rfl, State.vecInt_held _ _ _ _ _ _ _ _ hyp⟩

theorem execVmin_held (core : CoreId) (vd va vb : VReg) (p : PReg) (et : ElemType) (s : State) {qs vt} (hyp : s.Held qs vt) : ∃ t, execVmin core vd va vb p et s = .next t ∧ t.Held qs vt :=
  ⟨_, rfl, State.vecInt_held _ _ _ _ _ _ _ _ hyp⟩

theorem execVmax_held (core : CoreId) (vd va vb : VReg) (p : PReg) (et : ElemType) (s : State) {qs vt} (hyp : s.Held qs vt) : ∃ t, execVmax core vd va vb p et s = .next t ∧ t.Held qs vt :=
  ⟨_, rfl, State.vecInt_held _ _ _ _ _ _ _ _ hyp⟩

theorem execVand_held (core : CoreId) (vd va vb : VReg) (p : PReg) (et : ElemType) (s : State) {qs vt} (hyp : s.Held qs vt) : ∃ t, execVand core vd va vb p et s = .next t ∧ t.Held qs vt :=
  ⟨_, rfl, State.vecBits_held _ _ _ _ _ _ _ _ hyp⟩

theorem execVor_held (core : CoreId) (vd va vb : VReg) (p : PReg) (et : ElemType) (s : State) {qs vt} (hyp : s.Held qs vt) : ∃ t, execVor core vd va vb p et s = .next t ∧ t.Held qs vt :=
  ⟨_, rfl, State.vecBits_held _ _ _ _ _ _ _ _ hyp⟩

theorem execVxor_held (core : CoreId) (vd va vb : VReg) (p : PReg) (et : ElemType) (s : State) {qs vt} (hyp : s.Held qs vt) : ∃ t, execVxor core vd va vb p et s = .next t ∧ t.Held qs vt :=
  ⟨_, rfl, State.vecBits_held _ _ _ _ _ _ _ _ hyp⟩

theorem execVdot_held (core : CoreId) (vd va vb : VReg) (p : PReg) (et : ElemType) (s : State) {qs vt} (hyp : s.Held qs vt) : ∃ t, execVdot core vd va vb p et s = .next t ∧ t.Held qs vt := by
  refine ⟨_, rfl, ?_⟩
  (try dsimp only)
  repeat' (first | (with_reducible first | assumption | apply State.lanes_held) | split | intro _ | dsimp only)

theorem execVshl_held (core : CoreId) (vd va vb : VReg) (p : PReg) (et : ElemType) (s : State) {qs vt} (hyp : s.Held qs vt) : ∃ t, execVshl core vd va vb p et s = .next t ∧ t.Held qs vt :=
  ⟨_, rfl, State.vecShift_held _ _ _ _ _ _ _ _ hyp⟩

theorem execVshr_held (core : CoreId) (vd va vb : VReg) (p : PReg) (et : ElemType) (s : State) {qs vt} (hyp : s.Held qs vt) : ∃ t, execVshr core vd va vb p et s = .next t ∧ t.Held qs vt :=
  ⟨_, rfl, State.vecShift_held _ _ _ _ _ _ _ _ hyp⟩

theorem execVshru_held (core : CoreId) (vd va vb : VReg) (p : PReg) (et : ElemType) (s : State) {qs vt} (hyp : s.Held qs vt) : ∃ t, execVshru core vd va vb p et s = .next t ∧ t.Held qs vt :=
  ⟨_, rfl, State.vecShift_held _ _ _ _ _ _ _ _ hyp⟩

theorem execVfadd_held (core : CoreId) (vd va vb : VReg) (p : PReg) (et : ElemType) (s : State) {qs vt} (hyp : s.Held qs vt) : ∃ t, execVfadd core vd va vb p et s = .next t ∧ t.Held qs vt :=
  ⟨_, rfl, State.vecFp_held _ _ _ _ _ _ _ _ hyp⟩

theorem execVfsub_held (core : CoreId) (vd va vb : VReg) (p : PReg) (et : ElemType) (s : State) {qs vt} (hyp : s.Held qs vt) : ∃ t, execVfsub core vd va vb p et s = .next t ∧ t.Held qs vt :=
  ⟨_, rfl, State.vecFp_held _ _ _ _ _ _ _ _ hyp⟩

theorem execVfmul_held (core : CoreId) (vd va vb : VReg) (p : PReg) (et : ElemType) (s : State) {qs vt} (hyp : s.Held qs vt) : ∃ t, execVfmul core vd va vb p et s = .next t ∧ t.Held qs vt :=
  ⟨_, rfl, State.vecFp_held _ _ _ _ _ _ _ _ hyp⟩

theorem execVfdiv_held (core : CoreId) (vd va vb : VReg) (p : PReg) (et : ElemType) (s : State) {qs vt} (hyp : s.Held qs vt) : ∃ t, execVfdiv core vd va vb p et s = .next t ∧ t.Held qs vt :=
  ⟨_, rfl, State.vecFp_held _ _ _ _ _ _ _ _ hyp⟩

theorem execVfma_held (core : CoreId) (vd va vb : VReg) (p : PReg) (et : ElemType) (s : State) {qs vt} (hyp : s.Held qs vt) : ∃ t, execVfma core vd va vb p et s = .next t ∧ t.Held qs vt :=
  ⟨_, rfl, State.vecFp_held _ _ _ _ _ _ _ _ hyp⟩

theorem execVfms_held (core : CoreId) (vd va vb : VReg) (p : PReg) (et : ElemType) (s : State) {qs vt} (hyp : s.Held qs vt) : ∃ t, execVfms core vd va vb p et s = .next t ∧ t.Held qs vt :=
  ⟨_, rfl, State.vecFp_held _ _ _ _ _ _ _ _ hyp⟩

theorem execVfmin_held (core : CoreId) (vd va vb : VReg) (p : PReg) (et : ElemType) (s : State) {qs vt} (hyp : s.Held qs vt) : ∃ t, execVfmin core vd va vb p et s = .next t ∧ t.Held qs vt :=
  ⟨_, rfl, State.vecFp_held _ _ _ _ _ _ _ _ hyp⟩

theorem execVfmax_held (core : CoreId) (vd va vb : VReg) (p : PReg) (et : ElemType) (s : State) {qs vt} (hyp : s.Held qs vt) : ∃ t, execVfmax core vd va vb p et s = .next t ∧ t.Held qs vt :=
  ⟨_, rfl, State.vecFp_held _ _ _ _ _ _ _ _ hyp⟩

theorem execVfsqrt_held (core : CoreId) (vd va : VReg) (p : PReg) (et : ElemType) (s : State) {qs vt} (hyp : s.Held qs vt) : ∃ t, execVfsqrt core vd va p et s = .next t ∧ t.Held qs vt :=
  ⟨_, rfl, State.vecFp_held _ _ _ _ _ _ _ _ hyp⟩

theorem execVfabs_held (core : CoreId) (vd va : VReg) (p : PReg) (et : ElemType) (s : State) {qs vt} (hyp : s.Held qs vt) : ∃ t, execVfabs core vd va p et s = .next t ∧ t.Held qs vt :=
  ⟨_, rfl, State.vecFp_held _ _ _ _ _ _ _ _ hyp⟩

theorem execVfneg_held (core : CoreId) (vd va : VReg) (p : PReg) (et : ElemType) (s : State) {qs vt} (hyp : s.Held qs vt) : ∃ t, execVfneg core vd va p et s = .next t ∧ t.Held qs vt :=
  ⟨_, rfl, State.vecFp_held _ _ _ _ _ _ _ _ hyp⟩

theorem execVceq_held (core : CoreId) (pd : PReg) (va vb : VReg) (p : PReg) (et : ElemType) (s : State) {qs vt} (hyp : s.Held qs vt) : ∃ t, execVceq core pd va vb p et s = .next t ∧ t.Held qs vt :=
  ⟨_, rfl, State.vecCmp_held _ _ _ _ _ _ _ _ hyp⟩

theorem execVcne_held (core : CoreId) (pd : PReg) (va vb : VReg) (p : PReg) (et : ElemType) (s : State) {qs vt} (hyp : s.Held qs vt) : ∃ t, execVcne core pd va vb p et s = .next t ∧ t.Held qs vt :=
  ⟨_, rfl, State.vecCmp_held _ _ _ _ _ _ _ _ hyp⟩

theorem execVclt_held (core : CoreId) (pd : PReg) (va vb : VReg) (p : PReg) (et : ElemType) (s : State) {qs vt} (hyp : s.Held qs vt) : ∃ t, execVclt core pd va vb p et s = .next t ∧ t.Held qs vt :=
  ⟨_, rfl, State.vecCmp_held _ _ _ _ _ _ _ _ hyp⟩

theorem execVcle_held (core : CoreId) (pd : PReg) (va vb : VReg) (p : PReg) (et : ElemType) (s : State) {qs vt} (hyp : s.Held qs vt) : ∃ t, execVcle core pd va vb p et s = .next t ∧ t.Held qs vt :=
  ⟨_, rfl, State.vecCmp_held _ _ _ _ _ _ _ _ hyp⟩

theorem execPand_held (core : CoreId) (pd pa pb : PReg) (s : State) {qs vt} (hyp : s.Held qs vt) : ∃ t, execPand core pd pa pb s = .next t ∧ t.Held qs vt :=
  ⟨_, rfl, State.predOp_held _ _ _ _ _ _ hyp⟩

theorem execPor_held (core : CoreId) (pd pa pb : PReg) (s : State) {qs vt} (hyp : s.Held qs vt) : ∃ t, execPor core pd pa pb s = .next t ∧ t.Held qs vt :=
  ⟨_, rfl, State.predOp_held _ _ _ _ _ _ hyp⟩

theorem execPxor_held (core : CoreId) (pd pa pb : PReg) (s : State) {qs vt} (hyp : s.Held qs vt) : ∃ t, execPxor core pd pa pb s = .next t ∧ t.Held qs vt :=
  ⟨_, rfl, State.predOp_held _ _ _ _ _ _ hyp⟩

theorem execPnot_held (core : CoreId) (pd pa : PReg) (s : State) {qs vt} (hyp : s.Held qs vt) : ∃ t, execPnot core pd pa s = .next t ∧ t.Held qs vt :=
  ⟨_, rfl, State.predOp_held _ _ _ _ _ _ hyp⟩

theorem execVsel_held (core : CoreId) (vd va vb : VReg) (p : PReg) (et : ElemType) (s : State) {qs vt} (hyp : s.Held qs vt) : ∃ t, execVsel core vd va vb p et s = .next t ∧ t.Held qs vt := by
  refine ⟨_, rfl, ?_⟩
  (try dsimp only)
  repeat' (first | (with_reducible first | assumption | apply State.onRegs_held) | split | intro _ | dsimp only)

theorem execVcvt_held (core : CoreId) (vd va : VReg) (p : PReg) (et dst : ElemType) (s : State) {qs vt} (hyp : s.Held qs vt) : ∃ t, execVcvt core vd va p et dst s = .next t ∧ t.Held qs vt := by
  refine ⟨_, rfl, ?_⟩
  (try dsimp only)
  repeat' (first | (with_reducible first | assumption | apply State.onRegs_held) | split | intro _ | dsimp only)

theorem execVperm_held (core : CoreId) (vd va vb : VReg) (p : PReg) (et : ElemType) (s : State) {qs vt} (hyp : s.Held qs vt) : ∃ t, execVperm core vd va vb p et s = .next t ∧ t.Held qs vt :=
  ⟨_, rfl, State.lanes_held _ _ _ _ _ _ hyp⟩

theorem execExp2_held (core : CoreId) (vd va : VReg) (p : PReg) (s : State) {qs vt} (hyp : s.Held qs vt) : ∃ t, execExp2 core vd va p s = .next t ∧ t.Held qs vt :=
  ⟨_, rfl, State.vecSpecial_held _ _ _ _ _ _ hyp⟩

theorem execRcp_held (core : CoreId) (vd va : VReg) (p : PReg) (s : State) {qs vt} (hyp : s.Held qs vt) : ∃ t, execRcp core vd va p s = .next t ∧ t.Held qs vt :=
  ⟨_, rfl, State.vecSpecial_held _ _ _ _ _ _ hyp⟩

theorem execRsqrt_held (core : CoreId) (vd va : VReg) (p : PReg) (s : State) {qs vt} (hyp : s.Held qs vt) : ∃ t, execRsqrt core vd va p s = .next t ∧ t.Held qs vt :=
  ⟨_, rfl, State.vecSpecial_held _ _ _ _ _ _ hyp⟩

theorem execLog2_held (core : CoreId) (vd va : VReg) (p : PReg) (s : State) {qs vt} (hyp : s.Held qs vt) : ∃ t, execLog2 core vd va p s = .next t ∧ t.Held qs vt :=
  ⟨_, rfl, State.vecSpecial_held _ _ _ _ _ _ hyp⟩

theorem execTanh_held (core : CoreId) (vd va : VReg) (p : PReg) (s : State) {qs vt} (hyp : s.Held qs vt) : ∃ t, execTanh core vd va p s = .next t ∧ t.Held qs vt :=
  ⟨_, rfl, State.vecSpecial_held _ _ _ _ _ _ hyp⟩

theorem execSigm_held (core : CoreId) (vd va : VReg) (p : PReg) (s : State) {qs vt} (hyp : s.Held qs vt) : ∃ t, execSigm core vd va p s = .next t ∧ t.Held qs vt :=
  ⟨_, rfl, State.vecSpecial_held _ _ _ _ _ _ hyp⟩

theorem execGelu_held (core : CoreId) (vd va : VReg) (p : PReg) (s : State) {qs vt} (hyp : s.Held qs vt) : ∃ t, execGelu core vd va p s = .next t ∧ t.Held qs vt :=
  ⟨_, rfl, State.vecSpecial_held _ _ _ _ _ _ hyp⟩

theorem execGelut_held (core : CoreId) (vd va : VReg) (p : PReg) (s : State) {qs vt} (hyp : s.Held qs vt) : ∃ t, execGelut core vd va p s = .next t ∧ t.Held qs vt :=
  ⟨_, rfl, State.vecSpecial_held _ _ _ _ _ _ hyp⟩

theorem execSilu_held (core : CoreId) (vd va : VReg) (p : PReg) (s : State) {qs vt} (hyp : s.Held qs vt) : ∃ t, execSilu core vd va p s = .next t ∧ t.Held qs vt :=
  ⟨_, rfl, State.vecSpecial_held _ _ _ _ _ _ hyp⟩

theorem execVbcast_held (core : CoreId) (v : VReg) (sa : SReg) (et : ElemType) (s : State) {qs vt} (hyp : s.Held qs vt) : ∃ t, execVbcast core v sa et s = .next t ∧ t.Held qs vt := by
  refine ⟨_, rfl, ?_⟩
  (try dsimp only)
  repeat' (first | (with_reducible first | assumption | apply State.onRegs_held) | split | intro _ | dsimp only)

theorem execVins_held (core : CoreId) (v : VReg) (sa : SReg) (lane : Imm6) (et : ElemType) (s : State) {qs vt} (hyp : s.Held qs vt) : ∃ t, execVins core v sa lane et s = .next t ∧ t.Held qs vt := by
  refine ⟨_, rfl, ?_⟩
  (try dsimp only)
  repeat' (first | (with_reducible first | assumption | apply State.onRegs_held) | split | intro _ | dsimp only)

theorem execVextr_held (core : CoreId) (v : VReg) (sd : SReg) (lane : Imm6) (et : ElemType) (s : State) {qs vt} (hyp : s.Held qs vt) : ∃ t, execVextr core v sd lane et s = .next t ∧ t.Held qs vt :=
  ⟨_, rfl, State.onRegs_held _ _ _ hyp⟩

theorem execVredsum_held (core : CoreId) (v : VReg) (sd : SReg) (p : PReg) (et : ElemType) (s : State) {qs vt} (hyp : s.Held qs vt) : ∃ t, execVredsum core v sd p et s = .next t ∧ t.Held qs vt := by
  refine ⟨_, rfl, ?_⟩
  (try dsimp only)
  repeat' (first | (with_reducible first | assumption | apply State.onRegs_held) | split | intro _ | dsimp only)

theorem execVredmax_held (core : CoreId) (v : VReg) (sd : SReg) (p : PReg) (et : ElemType) (s : State) {qs vt} (hyp : s.Held qs vt) : ∃ t, execVredmax core v sd p et s = .next t ∧ t.Held qs vt :=
  ⟨_, rfl, State.vecPick_held _ _ _ _ _ _ _ hyp⟩

theorem execVredmin_held (core : CoreId) (v : VReg) (sd : SReg) (p : PReg) (et : ElemType) (s : State) {qs vt} (hyp : s.Held qs vt) : ∃ t, execVredmin core v sd p et s = .next t ∧ t.Held qs vt :=
  ⟨_, rfl, State.vecPick_held _ _ _ _ _ _ _ hyp⟩

theorem execVredarg_held (core : CoreId) (v : VReg) (sd : SReg) (p : PReg) (et : ElemType) (s : State) {qs vt} (hyp : s.Held qs vt) : ∃ t, execVredarg core v sd p et s = .next t ∧ t.Held qs vt :=
  ⟨_, rfl, State.onRegs_held _ _ _ hyp⟩

theorem execPcnt_held (core : CoreId) (sd : SReg) (p : PReg) (et : ElemType) (s : State) {qs vt} (hyp : s.Held qs vt) : ∃ t, execPcnt core sd p et s = .next t ∧ t.Held qs vt := by
  refine ⟨_, rfl, ?_⟩
  (try dsimp only)
  repeat' (first | (with_reducible first | assumption | apply State.onRegs_held) | split | intro _ | dsimp only)

theorem State.launch_held (s : State) (w : Work) (k : Kernel) (index n : Nat) (args : List Byte) (j c : Nat) {qs vt} (hyp : s.Held qs vt) : (State.launch s w k index n args j c).Held qs vt := by
  unfold State.launch
  (try dsimp only)
  repeat' (first | (with_reducible first | assumption | apply State.count_held | apply State.putBank_held | apply State.clearBank_held | apply State.onCore_held) | split | intro _ | dsimp only | refine Held.upd ?_ rfl rfl rfl)

theorem kernelStart_held (coat i : Nat) (s : State) {qs vt} (hyp : s.Held qs vt) : (kernelStart coat i s).Held qs vt := by
  unfold kernelStart
  (try dsimp only)
  repeat' (first | (with_reducible first | assumption | apply State.onRun_held | apply State.openWindows_held | apply State.launch_held | refine foldl_held (fun _ _ _ => ?_) ?_) | split | intro _ | dsimp only | refine Held.upd ?_ rfl rfl rfl)

theorem execKernelStart_held (coat kernel : Nat) (s : State) {qs vt} (hyp : s.Held qs vt) : ∃ t, execKernelStart coat kernel s = .next t ∧ t.Held qs vt :=
  ⟨_, rfl, kernelStart_held _ _ _ hyp⟩

theorem kernelEnd_held (coat i : Nat) (s : State) {qs vt} (hyp : s.Held qs vt) : (kernelEnd coat i s).Held qs vt := by
  unfold kernelEnd
  (try dsimp only)
  repeat' (first | (with_reducible first | assumption | apply State.count_held | apply State.onRun_held | apply State.onCore_held | apply State.showStores_held | refine foldl_held (fun _ _ _ => ?_) ?_) | split | intro _ | dsimp only | refine Held.upd ?_ rfl rfl rfl)

theorem execKernelEnd_held (coat kernel : Nat) (s : State) {qs vt} (hyp : s.Held qs vt) : ∃ t, execKernelEnd coat kernel s = .next t ∧ t.Held qs vt :=
  ⟨_, rfl, kernelEnd_held _ _ _ hyp⟩

theorem State.turnHost_held (s : State) (u v : Nat) {qs vt} (hyp : s.Held qs vt) : (State.turnHost s u v).Held qs vt := by
  unfold State.turnHost
  (try dsimp only)
  repeat' (first | (with_reducible first | assumption | apply State.putBank_held | apply State.onCore_held) | split | intro _ | dsimp only | refine Held.upd ?_ rfl rfl rfl)

theorem coreContextSwitch_held (physical : Nat) (s : State) {qs vt} (hyp : s.Held qs vt) : (coreContextSwitch physical s).Held qs vt := by
  unfold coreContextSwitch
  (try dsimp only)
  repeat' (first | (with_reducible first | assumption | apply State.turnHost_held) | split | intro _ | dsimp only | refine Held.upd ?_ rfl rfl rfl)

theorem execCoreContextSwitch_held (physical : Nat) (s : State) {qs vt} (hyp : s.Held qs vt) : ∃ t, execCoreContextSwitch physical s = .next t ∧ t.Held qs vt :=
  ⟨_, rfl, coreContextSwitch_held _ _ hyp⟩

theorem barEffect_held (c : CoreId) (s : State) {qs vt} (hyp : s.Held qs vt) : (barEffect c s).Held qs vt := by
  unfold barEffect
  (try dsimp only)
  repeat' (first | (with_reducible first | assumption | apply State.onCore_held | apply State.kernelFault_held | apply State.issue_held) | split | intro _ | dsimp only | refine Held.upd ?_ rfl rfl rfl)

theorem execBar_held (core : CoreId) (s : State) {qs vt} (hyp : s.Held qs vt) : ∃ t, execBar core s = .next t ∧ t.Held qs vt :=
  ⟨_, rfl, barEffect_held _ _ hyp⟩

theorem barrierRelease_held (coat i : Nat) (s : State) {qs vt} (hyp : s.Held qs vt) : (barrierRelease coat i s).Held qs vt := by
  unfold barrierRelease
  (try dsimp only)
  repeat' (first | (with_reducible first | assumption | apply State.onCore_held | apply State.showStores_held | refine foldl_held (fun _ _ _ => ?_) ?_) | split | intro _ | dsimp only | refine Held.upd ?_ rfl rfl rfl)

theorem execBarrierRelease_held (coat kernel : Nat) (s : State) {qs vt} (hyp : s.Held qs vt) : ∃ t, execBarrierRelease coat kernel s = .next t ∧ t.Held qs vt :=
  ⟨_, rfl, barrierRelease_held _ _ _ hyp⟩

theorem execFence_held (core : CoreId) (s : State) {qs vt} (hyp : s.Held qs vt) : ∃ t, execFence core s = .next t ∧ t.Held qs vt :=
  ⟨_, rfl, State.onRegs_held _ _ _ hyp⟩

theorem State.contribute_held (s : State) (c : CoreId) (op : XredOp) (sd sa : SReg) {qs vt} (hyp : s.Held qs vt) : (State.contribute s c op sd sa).Held qs vt := by
  unfold State.contribute
  (try dsimp only)
  repeat' (first | (with_reducible first | assumption | apply State.onCore_held | apply State.onKernel_held | apply State.kernelFault_held | apply State.issue_held) | split | intro _ | dsimp only | refine Held.upd ?_ rfl rfl rfl)

theorem execXredFsum_held (core : CoreId) (sd sa : SReg) (s : State) {qs vt} (hyp : s.Held qs vt) : ∃ t, execXredFsum core sd sa s = .next t ∧ t.Held qs vt := by
  refine ⟨_, rfl, ?_⟩
  (try dsimp only)
  repeat' (first | (with_reducible first | assumption | apply State.contribute_held) | split | intro _ | dsimp only)

theorem execXredFmax_held (core : CoreId) (sd sa : SReg) (s : State) {qs vt} (hyp : s.Held qs vt) : ∃ t, execXredFmax core sd sa s = .next t ∧ t.Held qs vt := by
  refine ⟨_, rfl, ?_⟩
  (try dsimp only)
  repeat' (first | (with_reducible first | assumption | apply State.contribute_held) | split | intro _ | dsimp only)

theorem execXredFmin_held (core : CoreId) (sd sa : SReg) (s : State) {qs vt} (hyp : s.Held qs vt) : ∃ t, execXredFmin core sd sa s = .next t ∧ t.Held qs vt := by
  refine ⟨_, rfl, ?_⟩
  (try dsimp only)
  repeat' (first | (with_reducible first | assumption | apply State.contribute_held) | split | intro _ | dsimp only)

theorem execXredIsum_held (core : CoreId) (sd sa : SReg) (s : State) {qs vt} (hyp : s.Held qs vt) : ∃ t, execXredIsum core sd sa s = .next t ∧ t.Held qs vt := by
  refine ⟨_, rfl, ?_⟩
  (try dsimp only)
  repeat' (first | (with_reducible first | assumption | apply State.contribute_held) | split | intro _ | dsimp only)

theorem execXredImax_held (core : CoreId) (sd sa : SReg) (s : State) {qs vt} (hyp : s.Held qs vt) : ∃ t, execXredImax core sd sa s = .next t ∧ t.Held qs vt :=
  ⟨_, rfl, State.contribute_held _ _ _ _ _ hyp⟩

theorem xredComplete_held (coat i : Nat) (s : State) {qs vt} (hyp : s.Held qs vt) : (xredComplete coat i s).Held qs vt := by
  unfold xredComplete
  (try dsimp only)
  repeat' (first | (with_reducible first | assumption | apply State.onCore_held | apply State.onKernel_held | refine foldl_held (fun _ _ _ => ?_) ?_) | split | intro _ | dsimp only | refine Held.upd ?_ rfl rfl rfl)

theorem execXredComplete_held (coat kernel : Nat) (s : State) {qs vt} (hyp : s.Held qs vt) : ∃ t, execXredComplete coat kernel s = .next t ∧ t.Held qs vt :=
  ⟨_, rfl, xredComplete_held _ _ _ hyp⟩

theorem doneEffect_held (c : CoreId) (s : State) {qs vt} (hyp : s.Held qs vt) : (doneEffect c s).Held qs vt := by
  unfold doneEffect
  (try dsimp only)
  repeat' (first | (with_reducible first | assumption | apply State.count_held | apply State.raiseFlags_held | apply State.onCore_held | apply State.kernelFault_held | apply State.issue_held | refine foldl_held (fun _ _ _ => ?_) ?_) | split | intro _ | dsimp only | refine Held.upd ?_ rfl rfl rfl)

theorem execDone_held (core : CoreId) (s : State) {qs vt} (hyp : s.Held qs vt) : ∃ t, execDone core s = .next t ∧ t.Held qs vt :=
  ⟨_, rfl, doneEffect_held _ _ hyp⟩

theorem State.sendSlot_held (s : State) (c : Nat) (sa : SReg) (pc : Nat) {qs vt} (hyp : s.Held qs vt) : (State.sendSlot s c sa pc).Held qs vt := by
  unfold State.sendSlot
  (try dsimp only)
  repeat' (first | (with_reducible first | assumption | apply State.onRun_held | apply State.onCore_held | apply State.kernelFault_held) | split | intro _ | dsimp only | refine Held.upd ?_ rfl rfl rfl)

theorem msendEffect_held (c : CoreId) (sa : SReg) (s : State) {qs vt} (hyp : s.Held qs vt) : (msendEffect c sa s).Held qs vt := by
  unfold msendEffect
  (try dsimp only)
  repeat' (first | (with_reducible first | assumption | apply State.onCore_held | apply State.issue_held | apply State.sendSlot_held) | split | intro _ | dsimp only | refine Held.upd ?_ rfl rfl rfl)

theorem execMsend_held (core : CoreId) (sa : SReg) (s : State) {qs vt} (hyp : s.Held qs vt) : ∃ t, execMsend core sa s = .next t ∧ t.Held qs vt :=
  ⟨_, rfl, msendEffect_held _ _ _ hyp⟩

theorem creditReturn_held (c : CoreId) (s : State) {qs vt} (hyp : s.Held qs vt) : (creditReturn c s).Held qs vt := by
  unfold creditReturn
  (try dsimp only)
  repeat' (first | (with_reducible first | assumption | apply State.onCore_held | apply State.sendSlot_held) | split | intro _ | dsimp only | refine Held.upd ?_ rfl rfl rfl)

theorem execCreditReturn_held (core : CoreId) (s : State) {qs vt} (hyp : s.Held qs vt) : ∃ t, execCreditReturn core s = .next t ∧ t.Held qs vt :=
  ⟨_, rfl, creditReturn_held _ _ hyp⟩

theorem execCred_held (core : CoreId) (sd : SReg) (s : State) {qs vt} (hyp : s.Held qs vt) : ∃ t, execCred core sd s = .next t ∧ t.Held qs vt :=
  ⟨_, rfl, State.onRegs_held _ _ _ hyp⟩

theorem execMwait_held (core : CoreId) (s : State) {qs vt} (hyp : s.Held qs vt) : ∃ t, execMwait core s = .next t ∧ t.Held qs vt :=
  ⟨_, rfl, State.onRegs_held _ _ _ hyp⟩

end Sys2Proof.Machine
end

