-- ==== Sys2Proof/Laws/HeldTwin.lean ====
section
/-! SUPPORT. HeldTwin.lean: every operation and command of twin pairs keeps `State.Held`. -/

set_option linter.all false


namespace Sys2Proof.Machine

theorem State.unwant_held (s : State) (r : JRecord) {qs vt} (hyp : s.Held qs vt) : (State.unwant s r).Held qs vt := by
  unfold State.unwant
  (try dsimp only)
  repeat' (first | (with_reducible first | assumption) | split | intro _ | dsimp only | refine Held.upd ?_ rfl rfl rfl)

theorem State.adoptRecord_held (s : State) (r : JRecord) {qs vt} (hyp : s.Held qs vt) : (State.adoptRecord s r).Held qs vt := by
  unfold State.adoptRecord
  (try dsimp only)
  repeat' (first | (with_reducible first | assumption | apply State.onSeq_held) | split | intro _ | dsimp only | refine Held.upd ?_ rfl rfl rfl)

theorem State.adoptLater_held (s : State) (r : JRecord) {qs vt} (hyp : s.Held qs vt) : (State.adoptLater s r).Held qs vt := by
  unfold State.adoptLater
  (try dsimp only)
  repeat' (first | (with_reducible first | assumption | apply State.journal_held | apply State.adoptRecord_held | refine foldl_held (fun _ _ _ => ?_) ?_) | split | intro _ | dsimp only | refine Held.upd ?_ rfl rfl rfl)

theorem State.withHolder_held (s : State) (m : Msg) (mine : JRecord → Bool) (f : JRecord → State → State) (own : State → State) {qs vt} (hf : ∀ x0 x1, x1.Held qs vt → (f x0 x1).Held qs vt) (hown : ∀ x0, x0.Held qs vt → (own x0).Held qs vt) (hyp : s.Held qs vt) : (State.withHolder s m mine f own).Held qs vt := by
  unfold State.withHolder
  (try dsimp only)
  repeat' (first | (with_reducible first | assumption | apply hf | apply hown | apply State.follow_held | apply State.unwant_held | apply State.adoptLater_held) | split | intro _ | dsimp only | refine Held.upd ?_ rfl rfl rfl)

theorem State.submit_held (s : State) (m : Msg) (type : Nat) (f : State → State) (refuse : Code → State → State) {qs vt} (hf : ∀ x0, x0.Held qs vt → (f x0).Held qs vt) (hrefuse : ∀ x0 x1, x1.Held qs vt → (refuse x0 x1).Held qs vt) (h : s.Held qs vt) : (s.submit m type f refuse).Held qs vt := by
  unfold State.submit
  refine State.withHolder_held _ _ _ _ _ (fun r t ht => ?_) hf h
  cases r.body <;> first | exact hf _ ht | exact hrefuse _ _ ht

theorem execSubmitPass_held (m : Msg) (s : State) {qs vt} (hyp : s.Held qs vt) : ∃ t, execSubmitPass m s = .next t ∧ t.Held qs vt := by
  refine ⟨_, rfl, ?_⟩
  (try dsimp only)
  repeat' (first | (with_reducible first | assumption | apply submitPassEffect_held | apply refusePass_held | apply State.submit_held) | split | intro _ | dsimp only)

theorem execSubmitGen_held (m : Msg) (s : State) {qs vt} (hyp : s.Held qs vt) : ∃ t, execSubmitGen m s = .next t ∧ t.Held qs vt := by
  refine ⟨_, rfl, ?_⟩
  (try dsimp only)
  repeat' (first | (with_reducible first | assumption | apply submitGenEffect_held | apply refuseGen_held | apply State.submit_held) | split | intro _ | dsimp only)

theorem execCandidates_held (m : Msg) (s : State) {qs vt} (hyp : s.Held qs vt) : ∃ t, execCandidates m s = .next t ∧ t.Held qs vt := by
  refine ⟨_, rfl, ?_⟩
  (try dsimp only)
  repeat' (first | (with_reducible first | assumption | apply candidatesEffect_held | apply State.withHolder_held) | split | intro _ | dsimp only)

theorem execCancel_held (m : Msg) (s : State) {qs vt} (hyp : s.Held qs vt) : ∃ t, execCancel m s = .next t ∧ t.Held qs vt := by
  refine ⟨_, rfl, ?_⟩
  (try dsimp only)
  repeat' (first | (with_reducible first | assumption | apply cancelEffect_held | apply State.withHolder_held) | split | intro _ | dsimp only)

theorem execBudgetOpen_held (m : Msg) (s : State) {qs vt} (hyp : s.Held qs vt) : ∃ t, execBudgetOpen m s = .next t ∧ t.Held qs vt := by
  refine ⟨_, rfl, ?_⟩
  (try dsimp only)
  repeat' (first | (with_reducible first | assumption | apply budgetOpenEffect_held | apply State.withHolder_held) | split | intro _ | dsimp only)

theorem execBudgetClose_held (m : Msg) (s : State) {qs vt} (hyp : s.Held qs vt) : ∃ t, execBudgetClose m s = .next t ∧ t.Held qs vt := by
  refine ⟨_, rfl, ?_⟩
  (try dsimp only)
  repeat' (first | (with_reducible first | assumption | apply budgetCloseEffect_held | apply State.withHolder_held) | split | intro _ | dsimp only)

theorem execBudgetGrant_held (m : Msg) (s : State) {qs vt} (hyp : s.Held qs vt) : ∃ t, execBudgetGrant m s = .next t ∧ t.Held qs vt := by
  refine ⟨_, rfl, ?_⟩
  (try dsimp only)
  repeat' (first | (with_reducible first | assumption | apply budgetGrantEffect_held | apply State.withHolder_held) | split | intro _ | dsimp only)

theorem execModelLoad_held (m : Msg) (s : State) {qs vt} (hyp : s.Held qs vt) : ∃ t, execModelLoad m s = .next t ∧ t.Held qs vt := by
  refine ⟨_, rfl, ?_⟩
  (try dsimp only)
  repeat' (first | (with_reducible first | assumption | apply modelLoadEffect_held | apply State.withHolder_held) | split | intro _ | dsimp only)

theorem execModelUnloadDrain_held (m : Msg) (s : State) {qs vt} (hyp : s.Held qs vt) : ∃ t, execModelUnloadDrain m s = .next t ∧ t.Held qs vt := by
  refine ⟨_, rfl, ?_⟩
  (try dsimp only)
  repeat' (first | (with_reducible first | assumption | apply unloadDrainEffect_held | apply State.withHolder_held) | split | intro _ | dsimp only)

theorem execModelUnloadAbort_held (m : Msg) (s : State) {qs vt} (hyp : s.Held qs vt) : ∃ t, execModelUnloadAbort m s = .next t ∧ t.Held qs vt := by
  refine ⟨_, rfl, ?_⟩
  (try dsimp only)
  repeat' (first | (with_reducible first | assumption | apply unloadAbortEffect_held | apply State.withHolder_held) | split | intro _ | dsimp only)

theorem State.mirrorMsg_held (s : State) (m : Msg) (op : Nat) (newer : Bool) (body : State → State) {qs vt} (hbody : ∀ x0, x0.Held qs vt → (body x0).Held qs vt) (hyp : s.Held qs vt) : (State.mirrorMsg s m op newer body).Held qs vt := by
  unfold State.mirrorMsg
  (try dsimp only)
  repeat' (first | (with_reducible first | assumption | apply hbody | apply State.reply_held | apply State.withMsg_held) | split | intro _ | dsimp only)

theorem State.leaseMsg_held (s : State) (m : Msg) (op : Nat) (body : State → State) {qs vt} (hbody : ∀ x0, x0.Held qs vt → (body x0).Held qs vt) (hyp : s.Held qs vt) : (State.leaseMsg s m op body).Held qs vt := by
  unfold State.leaseMsg
  (try dsimp only)
  repeat' (first | (with_reducible first | assumption | apply hbody | apply State.rset_held | apply State.reply_held | apply State.withMsg_held | apply State.loseTwin_held) | split | intro _ | dsimp only)

theorem State.rackLease_held (s : State) (m : Msg) (op : Nat) (body : State → State) {qs vt} (hbody : ∀ x0, x0.Held qs vt → (body x0).Held qs vt) (hyp : s.Held qs vt) : (State.rackLease s m op body).Held qs vt := by
  unfold State.rackLease
  (try dsimp only)
  repeat' (first | (with_reducible first | assumption | apply hbody | apply State.reply_held | apply State.consume_held) | split | intro _ | dsimp only | refine Held.upd ?_ rfl rfl rfl)

theorem State.ackHeld_held (s : State) {qs vt} (hyp : s.Held qs vt) : (State.ackHeld s).Held qs vt := by
  unfold State.ackHeld
  (try dsimp only)
  repeat' (first | (with_reducible first | assumption | apply State.rset_held | apply State.toTwin_held) | split | intro _ | dsimp only | refine Held.upd ?_ rfl rfl rfl)

theorem journalDurable_held (index : Nat) (s : State) {qs vt} (hyp : s.Held qs vt) : (journalDurable index s).Held qs vt := by
  unfold journalDurable
  (try dsimp only)
  repeat' (first | (with_reducible first | assumption | apply State.journal_held | apply State.mirrorOut_held | apply State.ackHeld_held) | split | intro _ | dsimp only | refine Held.upd ?_ rfl rfl rfl)

theorem execJournalDurable_held (index : Nat) (s : State) {qs vt} (hyp : s.Held qs vt) : ∃ t, execJournalDurable index s = .next t ∧ t.Held qs vt :=
  ⟨_, rfl, journalDurable_held _ _ hyp⟩

theorem State.closeMirrored_held (s : State) (n : Nat) {qs vt} (hyp : s.Held qs vt) : (State.closeMirrored s n).Held qs vt := by
  unfold State.closeMirrored
  (try dsimp only)
  repeat' (first | (with_reducible first | assumption | apply State.onSession_held | apply State.endSessionWork_held | apply State.endIfDone_held) | split | intro _ | dsimp only | refine Held.upd ?_ rfl rfl rfl)

theorem State.chargeMirrored_held (s : State) (r : JRecord) {qs vt} (hyp : s.Held qs vt) : (State.chargeMirrored s r).Held qs vt := by
  unfold State.chargeMirrored
  (try dsimp only)
  repeat' (first | (with_reducible first | assumption | apply State.putAccount_held | apply State.debit_held | apply State.refund_held) | split | refine State.refund_held' _ _ _ _ _ (by assumption) ?_ | intro _ | dsimp only | refine Held.upd ?_ rfl rfl rfl)

theorem State.applyRecord_held (s : State) (r : JRecord) {qs vt} (hyp : s.Held qs vt) : (State.applyRecord s r).Held qs vt := by
  unfold State.applyRecord
  (try dsimp only)
  repeat' (first | (with_reducible first | assumption | apply State.journal_held | apply State.putAccount_held | apply State.refund_held | apply State.mirrorIn_held | apply loadComplete_held | apply State.applyConfig_held | apply State.adoptRecord_held | apply State.closeMirrored_held | apply State.chargeMirrored_held) | split | refine State.refund_held' _ _ _ _ _ (by assumption) ?_ | intro _ | dsimp only | refine Held.upd ?_ rfl rfl rfl)

theorem mirrorRecords_held (m : Msg) (records : List JRecord) (s : State) {qs vt} (hyp : s.Held qs vt) : (mirrorRecords m records s).Held qs vt := by
  unfold mirrorRecords
  (try dsimp only)
  repeat' (first | (with_reducible first | assumption | apply State.reply_held | apply State.mirrorMsg_held | apply State.ackHeld_held | apply State.applyRecord_held | refine foldl_held (fun _ _ _ => ?_) ?_) | split | intro _ | dsimp only | refine Held.upd ?_ rfl rfl rfl)

theorem execMirrorRecords_held (m : Msg) (records : List JRecord) (s : State) {qs vt} (hyp : s.Held qs vt) : ∃ t, execMirrorRecords m records s = .next t ∧ t.Held qs vt :=
  ⟨_, rfl, mirrorRecords_held _ _ _ hyp⟩

theorem mirrorAck_held (m : Msg) (s : State) {qs vt} (hyp : s.Held qs vt) : (mirrorAck m s).Held qs vt := by
  unfold mirrorAck
  (try dsimp only)
  repeat' (first | (with_reducible first | assumption | apply State.mirrorMsg_held) | split | intro _ | dsimp only | refine Held.upd ?_ rfl rfl rfl)

theorem execMirrorAck_held (m : Msg) (s : State) {qs vt} (hyp : s.Held qs vt) : ∃ t, execMirrorAck m s = .next t ∧ t.Held qs vt :=
  ⟨_, rfl, mirrorAck_held _ _ hyp⟩

theorem mirrorFetch_held (m : Msg) (s : State) {qs vt} (hyp : s.Held qs vt) : (mirrorFetch m s).Held qs vt := by
  unfold mirrorFetch
  (try dsimp only)
  repeat' (first | (with_reducible first | assumption | apply State.toTwin_held | apply State.mirrorMsg_held) | split | intro _ | dsimp only | refine Held.upd ?_ rfl rfl rfl)

theorem execMirrorFetch_held (m : Msg) (s : State) {qs vt} (hyp : s.Held qs vt) : ∃ t, execMirrorFetch m s = .next t ∧ t.Held qs vt :=
  ⟨_, rfl, mirrorFetch_held _ _ hyp⟩

theorem mirrorFetched_held (m : Msg) (s : State) {qs vt} (hyp : s.Held qs vt) : (mirrorFetched m s).Held qs vt := by
  unfold mirrorFetched
  (try dsimp only)
  repeat' (first | (with_reducible first | assumption | apply State.settle_held | apply State.mirrorMsg_held) | split | intro _ | dsimp only | refine Held.upd ?_ rfl rfl rfl)

theorem execMirrorFetchedMessage_held (m : Msg) (s : State) {qs vt} (hyp : s.Held qs vt) : ∃ t, execMirrorFetchedMessage m s = .next t ∧ t.Held qs vt :=
  ⟨_, rfl, mirrorFetched_held _ _ hyp⟩

theorem followerFetch_held (s : State) {qs vt} (hyp : s.Held qs vt) : (followerFetch s).Held qs vt := by
  unfold followerFetch
  (try dsimp only)
  repeat' (first | (with_reducible first | assumption | apply State.toTwin_held | refine foldl_held (fun _ _ _ => ?_) ?_) | split | intro _ | dsimp only | refine Held.upd ?_ rfl rfl rfl)

theorem execFollowerFetchTimer_held (s : State) {qs vt} (hyp : s.Held qs vt) : ∃ t, execFollowerFetchTimer s = .next t ∧ t.Held qs vt :=
  ⟨_, rfl, followerFetch_held _ hyp⟩

theorem mirrorTimeout_held (s : State) {qs vt} (hyp : s.Held qs vt) : (mirrorTimeout s).Held qs vt := by
  unfold mirrorTimeout
  (try dsimp only)
  repeat' (first | (with_reducible first | assumption | apply State.loseTwin_held) | split | intro _ | dsimp only)

theorem execMirrorAckTimeout_held (s : State) {qs vt} (hyp : s.Held qs vt) : ∃ t, execMirrorAckTimeout s = .next t ∧ t.Held qs vt :=
  ⟨_, rfl, mirrorTimeout_held _ hyp⟩

theorem twinRenew_held (s : State) {qs vt} (hyp : s.Held qs vt) : (twinRenew s).Held qs vt := by
  unfold twinRenew
  (try dsimp only)
  repeat' (first | (with_reducible first | assumption | apply State.toTwin_held | apply State.mirrorOut_held) | split | intro _ | dsimp only | refine Held.upd ?_ rfl rfl rfl)

theorem execTwinLeaseRenew_held (s : State) {qs vt} (hyp : s.Held qs vt) : ∃ t, execTwinLeaseRenew s = .next t ∧ t.Held qs vt :=
  ⟨_, rfl, twinRenew_held _ hyp⟩

theorem twinRenewed_held (m : Msg) (s : State) {qs vt} (hyp : s.Held qs vt) : (twinRenewed m s).Held qs vt := by
  unfold twinRenewed
  (try dsimp only)
  repeat' (first | (with_reducible first | assumption | apply State.rset_held | apply State.reply_held | apply State.toTwin_held | apply State.leaseMsg_held) | split | intro _ | dsimp only | refine Held.upd ?_ rfl rfl rfl)

theorem execTwinLeaseRenewReceived_held (m : Msg) (s : State) {qs vt} (hyp : s.Held qs vt) : ∃ t, execTwinLeaseRenewReceived m s = .next t ∧ t.Held qs vt :=
  ⟨_, rfl, twinRenewed_held _ _ hyp⟩

theorem twinAckReceived_held (m : Msg) (s : State) {qs vt} (hyp : s.Held qs vt) : (twinAckReceived m s).Held qs vt := by
  unfold twinAckReceived
  (try dsimp only)
  repeat' (first | (with_reducible first | assumption | apply State.leaseMsg_held) | split | intro _ | dsimp only | refine Held.upd ?_ rfl rfl rfl)

theorem execTwinLeaseAck_held (m : Msg) (s : State) {qs vt} (hyp : s.Held qs vt) : ∃ t, execTwinLeaseAck m s = .next t ∧ t.Held qs vt :=
  ⟨_, rfl, twinAckReceived_held _ _ hyp⟩

theorem execTwinLeaseHoldLimit_held (s : State) {qs vt} (hyp : s.Held qs vt) : ∃ t, execTwinLeaseHoldLimit s = .next t ∧ t.Held qs vt := by
  refine ⟨_, rfl, ?_⟩
  (try dsimp only)
  repeat' (first | (with_reducible first | assumption | apply State.releaseTwin_held) | split | intro _ | dsimp only)

theorem State.claimNext_held (s : State) (lost : Bool) {qs vt} (hyp : s.Held qs vt) : (State.claimNext s lost).Held qs vt := by
  unfold State.claimNext
  (try dsimp only)
  repeat' (first | (with_reducible first | assumption | apply State.sendClaim_held) | split | intro _ | dsimp only | refine Held.upd ?_ rfl rfl rfl)

theorem twinReleased_held (m : Msg) (s : State) {qs vt} (hyp : s.Held qs vt) : (twinReleased m s).Held qs vt := by
  unfold twinReleased
  (try dsimp only)
  repeat' (first | (with_reducible first | assumption | apply State.reply_held | apply State.leaseMsg_held | apply State.claimNext_held) | split | intro _ | dsimp only)

theorem execTwinLeaseRelease_held (m : Msg) (s : State) {qs vt} (hyp : s.Held qs vt) : ∃ t, execTwinLeaseRelease m s = .next t ∧ t.Held qs vt :=
  ⟨_, rfl, twinReleased_held _ _ hyp⟩

theorem execTwinLeaseExpiry_held (s : State) {qs vt} (hyp : s.Held qs vt) : ∃ t, execTwinLeaseExpiry s = .next t ∧ t.Held qs vt := by
  refine ⟨_, rfl, ?_⟩
  (try dsimp only)
  repeat' (first | (with_reducible first | assumption | apply State.claimNext_held) | split | intro _ | dsimp only)

theorem State.twinCounters_held (s : State) {qs vt} (hyp : s.Held qs vt) : (State.twinCounters s).Held qs vt := by
  unfold State.twinCounters
  (try dsimp only)
  repeat' (first | (with_reducible first | assumption | apply State.journal_held | refine foldl_held (fun _ _ _ => ?_) ?_) | split | intro _ | dsimp only | refine Held.upd ?_ rfl rfl rfl)

theorem twinGranted_held (m : Msg) (s : State) {qs vt} (hyp : s.Held qs vt) : (twinGranted m s).Held qs vt := by
  unfold twinGranted
  (try dsimp only)
  repeat' (first | (with_reducible first | assumption | apply State.rset_held | apply State.loseTwin_held | apply State.rackLease_held | apply State.twinCounters_held) | split | intro _ | dsimp only | refine Held.upd ?_ rfl rfl rfl)

theorem execTwinLeaseGrant_held (m : Msg) (s : State) {qs vt} (hyp : s.Held qs vt) : ∃ t, execTwinLeaseGrant m s = .next t ∧ t.Held qs vt :=
  ⟨_, rfl, twinGranted_held _ _ hyp⟩

theorem twinRefused_held (m : Msg) (s : State) {qs vt} (hyp : s.Held qs vt) : (twinRefused m s).Held qs vt := by
  unfold twinRefused
  (try dsimp only)
  repeat' (first | (with_reducible first | assumption | apply State.rackLease_held) | split | intro _ | dsimp only | refine Held.upd ?_ rfl rfl rfl)

theorem execTwinLeaseRefuse_held (m : Msg) (s : State) {qs vt} (hyp : s.Held qs vt) : ∃ t, execTwinLeaseRefuse m s = .next t ∧ t.Held qs vt :=
  ⟨_, rfl, twinRefused_held _ _ hyp⟩

theorem preferredTwinReturn_held (s : State) {qs vt} (hyp : s.Held qs vt) : (preferredTwinReturn s).Held qs vt := by
  unfold preferredTwinReturn
  (try dsimp only)
  repeat' (first | (with_reducible first | assumption | apply State.releaseTwin_held) | split | intro _ | dsimp only | refine Held.upd ?_ rfl rfl rfl)

theorem execPreferredTwinLeaseReturn_held (s : State) {qs vt} (hyp : s.Held qs vt) : ∃ t, execPreferredTwinLeaseReturn s = .next t ∧ t.Held qs vt :=
  ⟨_, rfl, preferredTwinReturn_held _ hyp⟩

theorem twinJoin_held (s : State) {qs vt} (hyp : s.Held qs vt) : (twinJoin s).Held qs vt := by
  unfold twinJoin
  (try dsimp only)
  repeat' (first | (with_reducible first | assumption | apply State.sendRecords_held) | split | intro _ | dsimp only | refine Held.upd ?_ rfl rfl rfl)

theorem execTwinJoin_held (s : State) {qs vt} (hyp : s.Held qs vt) : ∃ t, execTwinJoin s = .next t ∧ t.Held qs vt :=
  ⟨_, rfl, twinJoin_held _ hyp⟩

end Sys2Proof.Machine
end

