-- ==== Sys2Proof/Laws/State.lean ====
section
/-! SUPPORT. State.lean: what the shared operations leave of the state: for each, every field that it does not touch, as rewriting
rules. -/

set_option linter.all false

namespace Sys2Proof.Machine

@[simp] theorem State.rset_rest (s : State) (f : Field) (v : Nat) (sel : Nat) :
    (State.rset s f v sel).pending = s.pending ∧ (State.rset s f v sel).free = s.free ∧ (State.rset s f v sel).variant =
    s.variant ∧ (State.rset s f v sel).net = s.net ∧ (State.rset s f v sel).cont = s.cont ∧ (State.rset s f v sel).srv = s.srv ∧
    (State.rset s f v sel).arr = s.arr ∧ (State.rset s f v sel).trim = s.trim ∧ (State.rset s f v sel).mem = s.mem ∧ (State.rset
    s f v sel).vid = s.vid ∧ (State.rset s f v sel).sec = s.sec ∧ (State.rset s f v sel).fwu = s.fwu ∧ (State.rset s f v
    sel).pwr = s.pwr ∧ (State.rset s f v sel).thm = s.thm ∧ (State.rset s f v sel).boot = s.boot ∧ (State.rset s f v sel).hw =
    s.hw := by
  unfold State.rset
  repeat' (first | (and_intros <;> rfl) | split | simp)

@[simp] theorem State.rsetIf_rest (s : State) (b : Bool) (f : Field) (v : Nat) (sel : Nat) :
    (State.rsetIf s b f v sel).pending = s.pending ∧ (State.rsetIf s b f v sel).free = s.free ∧ (State.rsetIf s b f v
    sel).variant = s.variant ∧ (State.rsetIf s b f v sel).net = s.net ∧ (State.rsetIf s b f v sel).cont = s.cont ∧ (State.rsetIf
    s b f v sel).srv = s.srv ∧ (State.rsetIf s b f v sel).arr = s.arr ∧ (State.rsetIf s b f v sel).trim = s.trim ∧ (State.rsetIf
    s b f v sel).mem = s.mem ∧ (State.rsetIf s b f v sel).vid = s.vid ∧ (State.rsetIf s b f v sel).sec = s.sec ∧ (State.rsetIf s
    b f v sel).fwu = s.fwu ∧ (State.rsetIf s b f v sel).pwr = s.pwr ∧ (State.rsetIf s b f v sel).thm = s.thm ∧ (State.rsetIf s b
    f v sel).boot = s.boot ∧ (State.rsetIf s b f v sel).hw = s.hw := by
  unfold State.rsetIf
  repeat' (first | (and_intros <;> rfl) | split | simp)

@[simp] theorem State.count_rest (s : State) (f : Field) (n : Nat) (sel : Nat) :
    (State.count s f n sel).pending = s.pending ∧ (State.count s f n sel).free = s.free ∧ (State.count s f n sel).variant =
    s.variant ∧ (State.count s f n sel).net = s.net ∧ (State.count s f n sel).cont = s.cont ∧ (State.count s f n sel).srv =
    s.srv ∧ (State.count s f n sel).arr = s.arr ∧ (State.count s f n sel).trim = s.trim ∧ (State.count s f n sel).mem = s.mem ∧
    (State.count s f n sel).vid = s.vid ∧ (State.count s f n sel).sec = s.sec ∧ (State.count s f n sel).fwu = s.fwu ∧
    (State.count s f n sel).pwr = s.pwr ∧ (State.count s f n sel).thm = s.thm ∧ (State.count s f n sel).boot = s.boot ∧
    (State.count s f n sel).hw = s.hw := by
  unfold State.count
  repeat' (first | (and_intros <;> rfl) | split | simp)

@[simp] theorem State.countHold_rest (s : State) (f : Field) (n : Nat) (sel : Nat) :
    (State.countHold s f n sel).pending = s.pending ∧ (State.countHold s f n sel).free = s.free ∧ (State.countHold s f n
    sel).variant = s.variant ∧ (State.countHold s f n sel).net = s.net ∧ (State.countHold s f n sel).cont = s.cont ∧
    (State.countHold s f n sel).srv = s.srv ∧ (State.countHold s f n sel).arr = s.arr ∧ (State.countHold s f n sel).trim =
    s.trim ∧ (State.countHold s f n sel).mem = s.mem ∧ (State.countHold s f n sel).vid = s.vid ∧ (State.countHold s f n sel).sec
    = s.sec ∧ (State.countHold s f n sel).fwu = s.fwu ∧ (State.countHold s f n sel).pwr = s.pwr ∧ (State.countHold s f n
    sel).thm = s.thm ∧ (State.countHold s f n sel).boot = s.boot ∧ (State.countHold s f n sel).hw = s.hw := by
  unfold State.countHold
  repeat' (first | (and_intros <;> rfl) | split | simp)

@[simp] theorem State.rset64_rest (s : State) (lo hi : Field) (v : Nat) :
    (State.rset64 s lo hi v).pending = s.pending ∧ (State.rset64 s lo hi v).free = s.free ∧ (State.rset64 s lo hi v).variant =
    s.variant ∧ (State.rset64 s lo hi v).net = s.net ∧ (State.rset64 s lo hi v).cont = s.cont ∧ (State.rset64 s lo hi v).srv =
    s.srv ∧ (State.rset64 s lo hi v).arr = s.arr ∧ (State.rset64 s lo hi v).trim = s.trim ∧ (State.rset64 s lo hi v).mem = s.mem
    ∧ (State.rset64 s lo hi v).vid = s.vid ∧ (State.rset64 s lo hi v).sec = s.sec ∧ (State.rset64 s lo hi v).fwu = s.fwu ∧
    (State.rset64 s lo hi v).pwr = s.pwr ∧ (State.rset64 s lo hi v).thm = s.thm ∧ (State.rset64 s lo hi v).boot = s.boot ∧
    (State.rset64 s lo hi v).hw = s.hw := by
  unfold State.rset64
  repeat' (first | (and_intros <;> rfl) | split | simp)

@[simp] theorem State.count64_rest (s : State) (lo hi : Field) (n : Nat) :
    (State.count64 s lo hi n).pending = s.pending ∧ (State.count64 s lo hi n).free = s.free ∧ (State.count64 s lo hi n).variant
    = s.variant ∧ (State.count64 s lo hi n).net = s.net ∧ (State.count64 s lo hi n).cont = s.cont ∧ (State.count64 s lo hi
    n).srv = s.srv ∧ (State.count64 s lo hi n).arr = s.arr ∧ (State.count64 s lo hi n).trim = s.trim ∧ (State.count64 s lo hi
    n).mem = s.mem ∧ (State.count64 s lo hi n).vid = s.vid ∧ (State.count64 s lo hi n).sec = s.sec ∧ (State.count64 s lo hi
    n).fwu = s.fwu ∧ (State.count64 s lo hi n).pwr = s.pwr ∧ (State.count64 s lo hi n).thm = s.thm ∧ (State.count64 s lo hi
    n).boot = s.boot ∧ (State.count64 s lo hi n).hw = s.hw := by
  unfold State.count64
  repeat' (first | (and_intros <;> rfl) | split | simp)

@[simp] theorem State.journal_rest (s : State) (session subject : Nat) (body : RecBody) (engine : Bool) :
    (State.journal s session subject body engine).pending = s.pending ∧ (State.journal s session subject body engine).free =
    s.free ∧ (State.journal s session subject body engine).variant = s.variant ∧ (State.journal s session subject body
    engine).regs = s.regs ∧ (State.journal s session subject body engine).net = s.net ∧ (State.journal s session subject body
    engine).srv = s.srv ∧ (State.journal s session subject body engine).arr = s.arr ∧ (State.journal s session subject body
    engine).trim = s.trim ∧ (State.journal s session subject body engine).mem = s.mem ∧ (State.journal s session subject body
    engine).vid = s.vid ∧ (State.journal s session subject body engine).sec = s.sec ∧ (State.journal s session subject body
    engine).fwu = s.fwu ∧ (State.journal s session subject body engine).pwr = s.pwr ∧ (State.journal s session subject body
    engine).thm = s.thm ∧ (State.journal s session subject body engine).boot = s.boot ∧ (State.journal s session subject body
    engine).hw = s.hw := by
  unfold State.journal
  repeat' (first | (and_intros <;> rfl) | split | simp)

@[simp] theorem State.putSession_rest (s : State) (x : Session) :
    (State.putSession s x).pending = s.pending ∧ (State.putSession s x).free = s.free ∧ (State.putSession s x).variant =
    s.variant ∧ (State.putSession s x).regs = s.regs ∧ (State.putSession s x).cont = s.cont ∧ (State.putSession s x).srv = s.srv
    ∧ (State.putSession s x).arr = s.arr ∧ (State.putSession s x).trim = s.trim ∧ (State.putSession s x).mem = s.mem ∧
    (State.putSession s x).vid = s.vid ∧ (State.putSession s x).sec = s.sec ∧ (State.putSession s x).fwu = s.fwu ∧
    (State.putSession s x).pwr = s.pwr ∧ (State.putSession s x).thm = s.thm ∧ (State.putSession s x).boot = s.boot ∧
    (State.putSession s x).hw = s.hw := by
  unfold State.putSession
  repeat' (first | (and_intros <;> rfl) | split | simp)

@[simp] theorem State.onSession_rest (s : State) (n : Nat) (f : Session → Session) :
    (State.onSession s n f).pending = s.pending ∧ (State.onSession s n f).free = s.free ∧ (State.onSession s n f).variant =
    s.variant ∧ (State.onSession s n f).regs = s.regs ∧ (State.onSession s n f).cont = s.cont ∧ (State.onSession s n f).srv =
    s.srv ∧ (State.onSession s n f).arr = s.arr ∧ (State.onSession s n f).trim = s.trim ∧ (State.onSession s n f).mem = s.mem ∧
    (State.onSession s n f).vid = s.vid ∧ (State.onSession s n f).sec = s.sec ∧ (State.onSession s n f).fwu = s.fwu ∧
    (State.onSession s n f).pwr = s.pwr ∧ (State.onSession s n f).thm = s.thm ∧ (State.onSession s n f).boot = s.boot ∧
    (State.onSession s n f).hw = s.hw := by
  unfold State.onSession
  repeat' (first | (and_intros <;> rfl) | split | simp)

@[simp] theorem State.pushMsg_rest (s : State) (session : Nat) (msg : ModMsg) :
    (State.pushMsg s session msg).pending = s.pending ∧ (State.pushMsg s session msg).free = s.free ∧ (State.pushMsg s session
    msg).variant = s.variant ∧ (State.pushMsg s session msg).regs = s.regs ∧ (State.pushMsg s session msg).cont = s.cont ∧
    (State.pushMsg s session msg).srv = s.srv ∧ (State.pushMsg s session msg).arr = s.arr ∧ (State.pushMsg s session msg).trim =
    s.trim ∧ (State.pushMsg s session msg).mem = s.mem ∧ (State.pushMsg s session msg).vid = s.vid ∧ (State.pushMsg s session
    msg).sec = s.sec ∧ (State.pushMsg s session msg).fwu = s.fwu ∧ (State.pushMsg s session msg).pwr = s.pwr ∧ (State.pushMsg s
    session msg).thm = s.thm ∧ (State.pushMsg s session msg).boot = s.boot ∧ (State.pushMsg s session msg).hw = s.hw := by
  unfold State.pushMsg
  repeat' (first | (and_intros <;> rfl) | split | simp)

@[simp] theorem State.reply_rest (s : State) (m : Msg) (type : Nat) (code : Code) (payload : List Byte) (needs : List Nat) :
    (State.reply s m type code payload needs).pending = s.pending ∧ (State.reply s m type code payload needs).free = s.free ∧
    (State.reply s m type code payload needs).variant = s.variant ∧ (State.reply s m type code payload needs).regs = s.regs ∧
    (State.reply s m type code payload needs).cont = s.cont ∧ (State.reply s m type code payload needs).srv = s.srv ∧
    (State.reply s m type code payload needs).arr = s.arr ∧ (State.reply s m type code payload needs).trim = s.trim ∧
    (State.reply s m type code payload needs).mem = s.mem ∧ (State.reply s m type code payload needs).vid = s.vid ∧ (State.reply
    s m type code payload needs).sec = s.sec ∧ (State.reply s m type code payload needs).fwu = s.fwu ∧ (State.reply s m type
    code payload needs).pwr = s.pwr ∧ (State.reply s m type code payload needs).thm = s.thm ∧ (State.reply s m type code payload
    needs).boot = s.boot ∧ (State.reply s m type code payload needs).hw = s.hw := by
  unfold State.reply
  repeat' (first | (and_intros <;> rfl) | split | simp)

@[simp] theorem State.replyTo_rest (s : State) (r : ReplyTo) (type : Nat) (code : Code) (payload : List Byte) (needs : List Nat) :
    (State.replyTo s r type code payload needs).pending = s.pending ∧ (State.replyTo s r type code payload needs).free = s.free
    ∧ (State.replyTo s r type code payload needs).variant = s.variant ∧ (State.replyTo s r type code payload needs).regs =
    s.regs ∧ (State.replyTo s r type code payload needs).cont = s.cont ∧ (State.replyTo s r type code payload needs).srv = s.srv
    ∧ (State.replyTo s r type code payload needs).arr = s.arr ∧ (State.replyTo s r type code payload needs).trim = s.trim ∧
    (State.replyTo s r type code payload needs).mem = s.mem ∧ (State.replyTo s r type code payload needs).vid = s.vid ∧
    (State.replyTo s r type code payload needs).sec = s.sec ∧ (State.replyTo s r type code payload needs).fwu = s.fwu ∧
    (State.replyTo s r type code payload needs).pwr = s.pwr ∧ (State.replyTo s r type code payload needs).thm = s.thm ∧
    (State.replyTo s r type code payload needs).boot = s.boot ∧ (State.replyTo s r type code payload needs).hw = s.hw := by
  unfold State.replyTo
  repeat' (first | (and_intros <;> rfl) | split | simp)

@[simp] theorem State.pushOwn_rest (s : State) (session type : Nat) (code : Code) (payload : List Byte) (needs : List Nat) :
    (State.pushOwn s session type code payload needs).pending = s.pending ∧ (State.pushOwn s session type code payload
    needs).free = s.free ∧ (State.pushOwn s session type code payload needs).variant = s.variant ∧ (State.pushOwn s session type
    code payload needs).regs = s.regs ∧ (State.pushOwn s session type code payload needs).cont = s.cont ∧ (State.pushOwn s
    session type code payload needs).srv = s.srv ∧ (State.pushOwn s session type code payload needs).arr = s.arr ∧
    (State.pushOwn s session type code payload needs).trim = s.trim ∧ (State.pushOwn s session type code payload needs).mem =
    s.mem ∧ (State.pushOwn s session type code payload needs).vid = s.vid ∧ (State.pushOwn s session type code payload
    needs).sec = s.sec ∧ (State.pushOwn s session type code payload needs).fwu = s.fwu ∧ (State.pushOwn s session type code
    payload needs).pwr = s.pwr ∧ (State.pushOwn s session type code payload needs).thm = s.thm ∧ (State.pushOwn s session type
    code payload needs).boot = s.boot ∧ (State.pushOwn s session type code payload needs).hw = s.hw := by
  unfold State.pushOwn
  repeat' (first | (and_intros <;> rfl) | split | simp)

@[simp] theorem State.pushGrid_rest (s : State) (session : Nat) (msg : ModMsg) :
    (State.pushGrid s session msg).pending = s.pending ∧ (State.pushGrid s session msg).free = s.free ∧ (State.pushGrid s
    session msg).variant = s.variant ∧ (State.pushGrid s session msg).regs = s.regs ∧ (State.pushGrid s session msg).cont =
    s.cont ∧ (State.pushGrid s session msg).arr = s.arr ∧ (State.pushGrid s session msg).trim = s.trim ∧ (State.pushGrid s
    session msg).mem = s.mem ∧ (State.pushGrid s session msg).vid = s.vid ∧ (State.pushGrid s session msg).sec = s.sec ∧
    (State.pushGrid s session msg).fwu = s.fwu ∧ (State.pushGrid s session msg).pwr = s.pwr ∧ (State.pushGrid s session msg).thm
    = s.thm ∧ (State.pushGrid s session msg).boot = s.boot ∧ (State.pushGrid s session msg).hw = s.hw := by
  unfold State.pushGrid
  repeat' (first | (and_intros <;> rfl) | split | simp)

@[simp] theorem State.consume_rest (s : State) (m : Msg) :
    (State.consume s m).pending = s.pending ∧ (State.consume s m).free = s.free ∧ (State.consume s m).variant = s.variant ∧
    (State.consume s m).regs = s.regs ∧ (State.consume s m).cont = s.cont ∧ (State.consume s m).srv = s.srv ∧ (State.consume s
    m).arr = s.arr ∧ (State.consume s m).trim = s.trim ∧ (State.consume s m).mem = s.mem ∧ (State.consume s m).vid = s.vid ∧
    (State.consume s m).sec = s.sec ∧ (State.consume s m).fwu = s.fwu ∧ (State.consume s m).pwr = s.pwr ∧ (State.consume s
    m).thm = s.thm ∧ (State.consume s m).boot = s.boot ∧ (State.consume s m).hw = s.hw := by
  unfold State.consume
  repeat' (first | (and_intros <;> rfl) | split | simp)

@[simp] theorem State.pushOwnAll_rest (s : State) (l : List Nat) (type : Nat) (code : Code) (payload : List Byte) :
    (State.pushOwnAll s l type code payload).pending = s.pending ∧ (State.pushOwnAll s l type code payload).free = s.free ∧
    (State.pushOwnAll s l type code payload).variant = s.variant ∧ (State.pushOwnAll s l type code payload).regs = s.regs ∧
    (State.pushOwnAll s l type code payload).cont = s.cont ∧ (State.pushOwnAll s l type code payload).srv = s.srv ∧
    (State.pushOwnAll s l type code payload).arr = s.arr ∧ (State.pushOwnAll s l type code payload).trim = s.trim ∧
    (State.pushOwnAll s l type code payload).mem = s.mem ∧ (State.pushOwnAll s l type code payload).vid = s.vid ∧
    (State.pushOwnAll s l type code payload).sec = s.sec ∧ (State.pushOwnAll s l type code payload).fwu = s.fwu ∧
    (State.pushOwnAll s l type code payload).pwr = s.pwr ∧ (State.pushOwnAll s l type code payload).thm = s.thm ∧
    (State.pushOwnAll s l type code payload).boot = s.boot ∧ (State.pushOwnAll s l type code payload).hw = s.hw := by
  unfold State.pushOwnAll
  induction l generalizing s with
  | nil => and_intros <;> rfl
  | cons a l ih => simp only [List.foldl_cons, ih]; simp

@[simp] theorem State.freePool_rest (s : State) (l : List Nat) :
    (State.freePool s l).pending = s.pending ∧ (State.freePool s l).free = s.free ∧ (State.freePool s l).variant = s.variant ∧
    (State.freePool s l).regs = s.regs ∧ (State.freePool s l).net = s.net ∧ (State.freePool s l).cont = s.cont ∧ (State.freePool
    s l).srv = s.srv ∧ (State.freePool s l).arr = s.arr ∧ (State.freePool s l).trim = s.trim ∧ (State.freePool s l).vid = s.vid
    ∧ (State.freePool s l).sec = s.sec ∧ (State.freePool s l).fwu = s.fwu ∧ (State.freePool s l).pwr = s.pwr ∧ (State.freePool s
    l).thm = s.thm ∧ (State.freePool s l).boot = s.boot ∧ (State.freePool s l).hw = s.hw := by
  unfold State.freePool
  repeat' (first | (and_intros <;> rfl) | split | simp)

@[simp] theorem State.putSlot_rest (s : State) (k : Nat) (x : ModelSlot) :
    (State.putSlot s k x).pending = s.pending ∧ (State.putSlot s k x).free = s.free ∧ (State.putSlot s k x).variant = s.variant
    ∧ (State.putSlot s k x).regs = s.regs ∧ (State.putSlot s k x).net = s.net ∧ (State.putSlot s k x).cont = s.cont ∧
    (State.putSlot s k x).arr = s.arr ∧ (State.putSlot s k x).trim = s.trim ∧ (State.putSlot s k x).mem = s.mem ∧ (State.putSlot
    s k x).vid = s.vid ∧ (State.putSlot s k x).sec = s.sec ∧ (State.putSlot s k x).fwu = s.fwu ∧ (State.putSlot s k x).pwr =
    s.pwr ∧ (State.putSlot s k x).thm = s.thm ∧ (State.putSlot s k x).boot = s.boot ∧ (State.putSlot s k x).hw = s.hw := by
  unfold State.putSlot
  repeat' (first | (and_intros <;> rfl) | split | simp)

@[simp] theorem State.enterFallback_rest (s : State) :
    (State.enterFallback s).pending = s.pending ∧ (State.enterFallback s).free = s.free ∧ (State.enterFallback s).variant =
    s.variant ∧ (State.enterFallback s).net = s.net ∧ (State.enterFallback s).cont = s.cont ∧ (State.enterFallback s).srv =
    s.srv ∧ (State.enterFallback s).arr = s.arr ∧ (State.enterFallback s).trim = s.trim ∧ (State.enterFallback s).mem = s.mem ∧
    (State.enterFallback s).vid = s.vid ∧ (State.enterFallback s).sec = s.sec ∧ (State.enterFallback s).fwu = s.fwu ∧
    (State.enterFallback s).pwr = s.pwr ∧ (State.enterFallback s).thm = s.thm ∧ (State.enterFallback s).boot = s.boot ∧
    (State.enterFallback s).hw = s.hw := by
  unfold State.enterFallback
  repeat' (first | (and_intros <;> rfl) | split | simp)

@[simp] theorem State.healthEvent_rest (s : State) (code : Code) (source : Nat) :
    (State.healthEvent s code source).pending = s.pending ∧ (State.healthEvent s code source).free = s.free ∧ (State.healthEvent
    s code source).variant = s.variant ∧ (State.healthEvent s code source).net = s.net ∧ (State.healthEvent s code source).cont
    = s.cont ∧ (State.healthEvent s code source).srv = s.srv ∧ (State.healthEvent s code source).arr = s.arr ∧
    (State.healthEvent s code source).trim = s.trim ∧ (State.healthEvent s code source).mem = s.mem ∧ (State.healthEvent s code
    source).vid = s.vid ∧ (State.healthEvent s code source).sec = s.sec ∧ (State.healthEvent s code source).fwu = s.fwu ∧
    (State.healthEvent s code source).pwr = s.pwr ∧ (State.healthEvent s code source).thm = s.thm ∧ (State.healthEvent s code
    source).hw = s.hw := by
  unfold State.healthEvent
  repeat' (first | (and_intros <;> rfl) | split | simp)

@[simp] theorem State.startSlice_rest (s : State) (k unit : Nat) :
    (State.startSlice s k unit).pending = s.pending ∧ (State.startSlice s k unit).free = s.free ∧ (State.startSlice s k
    unit).variant = s.variant ∧ (State.startSlice s k unit).net = s.net ∧ (State.startSlice s k unit).cont = s.cont ∧
    (State.startSlice s k unit).arr = s.arr ∧ (State.startSlice s k unit).trim = s.trim ∧ (State.startSlice s k unit).mem =
    s.mem ∧ (State.startSlice s k unit).vid = s.vid ∧ (State.startSlice s k unit).sec = s.sec ∧ (State.startSlice s k unit).fwu
    = s.fwu ∧ (State.startSlice s k unit).pwr = s.pwr ∧ (State.startSlice s k unit).thm = s.thm ∧ (State.startSlice s k unit).hw
    = s.hw := by
  unfold State.startSlice
  repeat' (first | (and_intros <;> rfl) | split | simp)

@[simp] theorem State.putBank_rest (s : State) (bank off : Nat) (b : List Byte) :
    (State.putBank s bank off b).pending = s.pending ∧ (State.putBank s bank off b).free = s.free ∧ (State.putBank s bank off
    b).variant = s.variant ∧ (State.putBank s bank off b).regs = s.regs ∧ (State.putBank s bank off b).net = s.net ∧
    (State.putBank s bank off b).cont = s.cont ∧ (State.putBank s bank off b).srv = s.srv ∧ (State.putBank s bank off b).arr =
    s.arr ∧ (State.putBank s bank off b).trim = s.trim ∧ (State.putBank s bank off b).vid = s.vid ∧ (State.putBank s bank off
    b).sec = s.sec ∧ (State.putBank s bank off b).fwu = s.fwu ∧ (State.putBank s bank off b).pwr = s.pwr ∧ (State.putBank s bank
    off b).thm = s.thm ∧ (State.putBank s bank off b).boot = s.boot ∧ (State.putBank s bank off b).hw = s.hw := by
  unfold State.putBank
  repeat' (first | (and_intros <;> rfl) | split | simp)

@[simp] theorem State.clearBank_rest (s : State) (bank off n : Nat) :
    (State.clearBank s bank off n).pending = s.pending ∧ (State.clearBank s bank off n).free = s.free ∧ (State.clearBank s bank
    off n).variant = s.variant ∧ (State.clearBank s bank off n).regs = s.regs ∧ (State.clearBank s bank off n).net = s.net ∧
    (State.clearBank s bank off n).cont = s.cont ∧ (State.clearBank s bank off n).srv = s.srv ∧ (State.clearBank s bank off
    n).arr = s.arr ∧ (State.clearBank s bank off n).trim = s.trim ∧ (State.clearBank s bank off n).vid = s.vid ∧
    (State.clearBank s bank off n).sec = s.sec ∧ (State.clearBank s bank off n).fwu = s.fwu ∧ (State.clearBank s bank off n).pwr
    = s.pwr ∧ (State.clearBank s bank off n).thm = s.thm ∧ (State.clearBank s bank off n).boot = s.boot ∧ (State.clearBank s
    bank off n).hw = s.hw := by
  unfold State.clearBank
  repeat' (first | (and_intros <;> rfl) | split | simp)

@[simp] theorem State.putDram_rest (s : State) (a : Nat) (b : List Byte) :
    (State.putDram s a b).pending = s.pending ∧ (State.putDram s a b).free = s.free ∧ (State.putDram s a b).variant = s.variant
    ∧ (State.putDram s a b).regs = s.regs ∧ (State.putDram s a b).net = s.net ∧ (State.putDram s a b).cont = s.cont ∧
    (State.putDram s a b).srv = s.srv ∧ (State.putDram s a b).arr = s.arr ∧ (State.putDram s a b).trim = s.trim ∧ (State.putDram
    s a b).vid = s.vid ∧ (State.putDram s a b).sec = s.sec ∧ (State.putDram s a b).fwu = s.fwu ∧ (State.putDram s a b).pwr =
    s.pwr ∧ (State.putDram s a b).thm = s.thm ∧ (State.putDram s a b).boot = s.boot ∧ (State.putDram s a b).hw = s.hw := by
  unfold State.putDram
  repeat' (first | (and_intros <;> rfl) | split | simp)

@[simp] theorem State.xltFault_rest (s : State) (f : Field) (owner vpn master : Nat) :
    (State.xltFault s f owner vpn master).pending = s.pending ∧ (State.xltFault s f owner vpn master).free = s.free ∧
    (State.xltFault s f owner vpn master).variant = s.variant ∧ (State.xltFault s f owner vpn master).net = s.net ∧
    (State.xltFault s f owner vpn master).cont = s.cont ∧ (State.xltFault s f owner vpn master).srv = s.srv ∧ (State.xltFault s
    f owner vpn master).arr = s.arr ∧ (State.xltFault s f owner vpn master).trim = s.trim ∧ (State.xltFault s f owner vpn
    master).mem = s.mem ∧ (State.xltFault s f owner vpn master).vid = s.vid ∧ (State.xltFault s f owner vpn master).sec = s.sec
    ∧ (State.xltFault s f owner vpn master).fwu = s.fwu ∧ (State.xltFault s f owner vpn master).pwr = s.pwr ∧ (State.xltFault s
    f owner vpn master).thm = s.thm ∧ (State.xltFault s f owner vpn master).boot = s.boot ∧ (State.xltFault s f owner vpn
    master).hw = s.hw := by
  unfold State.xltFault
  repeat' (first | (and_intros <;> rfl) | split | simp)

@[simp] theorem State.cacheDrop_rest (s : State) (i : Nat) :
    (State.cacheDrop s i).pending = s.pending ∧ (State.cacheDrop s i).free = s.free ∧ (State.cacheDrop s i).variant = s.variant
    ∧ (State.cacheDrop s i).regs = s.regs ∧ (State.cacheDrop s i).net = s.net ∧ (State.cacheDrop s i).cont = s.cont ∧
    (State.cacheDrop s i).srv = s.srv ∧ (State.cacheDrop s i).arr = s.arr ∧ (State.cacheDrop s i).trim = s.trim ∧
    (State.cacheDrop s i).vid = s.vid ∧ (State.cacheDrop s i).sec = s.sec ∧ (State.cacheDrop s i).fwu = s.fwu ∧ (State.cacheDrop
    s i).pwr = s.pwr ∧ (State.cacheDrop s i).thm = s.thm ∧ (State.cacheDrop s i).boot = s.boot ∧ (State.cacheDrop s i).hw = s.hw := by
  unfold State.cacheDrop
  repeat' (first | (and_intros <;> rfl) | split | simp)

@[simp] theorem State.putDesc_rest (s : State) (d : Nat) (x : Desc) :
    (State.putDesc s d x).pending = s.pending ∧ (State.putDesc s d x).free = s.free ∧ (State.putDesc s d x).variant = s.variant
    ∧ (State.putDesc s d x).regs = s.regs ∧ (State.putDesc s d x).net = s.net ∧ (State.putDesc s d x).cont = s.cont ∧
    (State.putDesc s d x).srv = s.srv ∧ (State.putDesc s d x).arr = s.arr ∧ (State.putDesc s d x).trim = s.trim ∧ (State.putDesc
    s d x).vid = s.vid ∧ (State.putDesc s d x).sec = s.sec ∧ (State.putDesc s d x).fwu = s.fwu ∧ (State.putDesc s d x).pwr =
    s.pwr ∧ (State.putDesc s d x).thm = s.thm ∧ (State.putDesc s d x).boot = s.boot ∧ (State.putDesc s d x).hw = s.hw := by
  unfold State.putDesc
  repeat' (first | (and_intros <;> rfl) | split | simp)

@[simp] theorem State.putAccount_rest (s : State) (cu : Nat) (a : Account) :
    (State.putAccount s cu a).pending = s.pending ∧ (State.putAccount s cu a).free = s.free ∧ (State.putAccount s cu a).variant
    = s.variant ∧ (State.putAccount s cu a).regs = s.regs ∧ (State.putAccount s cu a).net = s.net ∧ (State.putAccount s cu
    a).cont = s.cont ∧ (State.putAccount s cu a).arr = s.arr ∧ (State.putAccount s cu a).trim = s.trim ∧ (State.putAccount s cu
    a).mem = s.mem ∧ (State.putAccount s cu a).vid = s.vid ∧ (State.putAccount s cu a).sec = s.sec ∧ (State.putAccount s cu
    a).fwu = s.fwu ∧ (State.putAccount s cu a).pwr = s.pwr ∧ (State.putAccount s cu a).thm = s.thm ∧ (State.putAccount s cu
    a).boot = s.boot ∧ (State.putAccount s cu a).hw = s.hw := by
  unfold State.putAccount
  repeat' (first | (and_intros <;> rfl) | split | simp)

@[simp] theorem State.enqueue_rest (s : State) (u : QUnit) :
    (State.enqueue s u).pending = s.pending ∧ (State.enqueue s u).free = s.free ∧ (State.enqueue s u).variant = s.variant ∧
    (State.enqueue s u).regs = s.regs ∧ (State.enqueue s u).net = s.net ∧ (State.enqueue s u).cont = s.cont ∧ (State.enqueue s
    u).arr = s.arr ∧ (State.enqueue s u).trim = s.trim ∧ (State.enqueue s u).mem = s.mem ∧ (State.enqueue s u).vid = s.vid ∧
    (State.enqueue s u).sec = s.sec ∧ (State.enqueue s u).fwu = s.fwu ∧ (State.enqueue s u).pwr = s.pwr ∧ (State.enqueue s
    u).thm = s.thm ∧ (State.enqueue s u).boot = s.boot ∧ (State.enqueue s u).hw = s.hw := by
  unfold State.enqueue
  repeat' (first | (and_intros <;> rfl) | split | simp)

@[simp] theorem State.putRequest_rest (s : State) (r : Request) :
    (State.putRequest s r).pending = s.pending ∧ (State.putRequest s r).free = s.free ∧ (State.putRequest s r).variant =
    s.variant ∧ (State.putRequest s r).regs = s.regs ∧ (State.putRequest s r).net = s.net ∧ (State.putRequest s r).cont = s.cont
    ∧ (State.putRequest s r).arr = s.arr ∧ (State.putRequest s r).trim = s.trim ∧ (State.putRequest s r).mem = s.mem ∧
    (State.putRequest s r).vid = s.vid ∧ (State.putRequest s r).sec = s.sec ∧ (State.putRequest s r).fwu = s.fwu ∧
    (State.putRequest s r).pwr = s.pwr ∧ (State.putRequest s r).thm = s.thm ∧ (State.putRequest s r).boot = s.boot ∧
    (State.putRequest s r).hw = s.hw := by
  unfold State.putRequest
  repeat' (first | (and_intros <;> rfl) | split | simp)

@[simp] theorem State.onRequest_rest (s : State) (row : Nat) (f : Request → Request) :
    (State.onRequest s row f).pending = s.pending ∧ (State.onRequest s row f).free = s.free ∧ (State.onRequest s row f).variant
    = s.variant ∧ (State.onRequest s row f).regs = s.regs ∧ (State.onRequest s row f).net = s.net ∧ (State.onRequest s row
    f).cont = s.cont ∧ (State.onRequest s row f).arr = s.arr ∧ (State.onRequest s row f).trim = s.trim ∧ (State.onRequest s row
    f).mem = s.mem ∧ (State.onRequest s row f).vid = s.vid ∧ (State.onRequest s row f).sec = s.sec ∧ (State.onRequest s row
    f).fwu = s.fwu ∧ (State.onRequest s row f).pwr = s.pwr ∧ (State.onRequest s row f).thm = s.thm ∧ (State.onRequest s row
    f).boot = s.boot ∧ (State.onRequest s row f).hw = s.hw := by
  unfold State.onRequest
  repeat' (first | (and_intros <;> rfl) | split | simp)

@[simp] theorem State.putSeq_rest (s : State) (q : Nat) (x : Sequence) :
    (State.putSeq s q x).pending = s.pending ∧ (State.putSeq s q x).free = s.free ∧ (State.putSeq s q x).variant = s.variant ∧
    (State.putSeq s q x).regs = s.regs ∧ (State.putSeq s q x).net = s.net ∧ (State.putSeq s q x).cont = s.cont ∧ (State.putSeq s
    q x).arr = s.arr ∧ (State.putSeq s q x).trim = s.trim ∧ (State.putSeq s q x).mem = s.mem ∧ (State.putSeq s q x).vid = s.vid
    ∧ (State.putSeq s q x).sec = s.sec ∧ (State.putSeq s q x).fwu = s.fwu ∧ (State.putSeq s q x).pwr = s.pwr ∧ (State.putSeq s q
    x).thm = s.thm ∧ (State.putSeq s q x).boot = s.boot ∧ (State.putSeq s q x).hw = s.hw := by
  unfold State.putSeq
  repeat' (first | (and_intros <;> rfl) | split | simp)

@[simp] theorem State.onSeq_rest (s : State) (q : Nat) (f : Sequence → Sequence) :
    (State.onSeq s q f).pending = s.pending ∧ (State.onSeq s q f).free = s.free ∧ (State.onSeq s q f).variant = s.variant ∧
    (State.onSeq s q f).regs = s.regs ∧ (State.onSeq s q f).net = s.net ∧ (State.onSeq s q f).cont = s.cont ∧ (State.onSeq s q
    f).arr = s.arr ∧ (State.onSeq s q f).trim = s.trim ∧ (State.onSeq s q f).mem = s.mem ∧ (State.onSeq s q f).vid = s.vid ∧
    (State.onSeq s q f).sec = s.sec ∧ (State.onSeq s q f).fwu = s.fwu ∧ (State.onSeq s q f).pwr = s.pwr ∧ (State.onSeq s q
    f).thm = s.thm ∧ (State.onSeq s q f).boot = s.boot ∧ (State.onSeq s q f).hw = s.hw := by
  unfold State.onSeq
  repeat' (first | (and_intros <;> rfl) | split | simp)

@[simp] theorem State.putVideo_rest (s : State) (c : Nat) (x : VideoContext) :
    (State.putVideo s c x).pending = s.pending ∧ (State.putVideo s c x).free = s.free ∧ (State.putVideo s c x).variant =
    s.variant ∧ (State.putVideo s c x).regs = s.regs ∧ (State.putVideo s c x).net = s.net ∧ (State.putVideo s c x).cont = s.cont
    ∧ (State.putVideo s c x).srv = s.srv ∧ (State.putVideo s c x).arr = s.arr ∧ (State.putVideo s c x).trim = s.trim ∧
    (State.putVideo s c x).mem = s.mem ∧ (State.putVideo s c x).sec = s.sec ∧ (State.putVideo s c x).fwu = s.fwu ∧
    (State.putVideo s c x).pwr = s.pwr ∧ (State.putVideo s c x).thm = s.thm ∧ (State.putVideo s c x).boot = s.boot ∧
    (State.putVideo s c x).hw = s.hw := by
  unfold State.putVideo
  repeat' (first | (and_intros <;> rfl) | split | simp)

@[simp] theorem State.dropVideo_rest (s : State) (c : Nat) :
    (State.dropVideo s c).pending = s.pending ∧ (State.dropVideo s c).free = s.free ∧ (State.dropVideo s c).variant = s.variant
    ∧ (State.dropVideo s c).regs = s.regs ∧ (State.dropVideo s c).net = s.net ∧ (State.dropVideo s c).cont = s.cont ∧
    (State.dropVideo s c).srv = s.srv ∧ (State.dropVideo s c).arr = s.arr ∧ (State.dropVideo s c).trim = s.trim ∧
    (State.dropVideo s c).mem = s.mem ∧ (State.dropVideo s c).sec = s.sec ∧ (State.dropVideo s c).fwu = s.fwu ∧ (State.dropVideo
    s c).pwr = s.pwr ∧ (State.dropVideo s c).thm = s.thm ∧ (State.dropVideo s c).boot = s.boot ∧ (State.dropVideo s c).hw = s.hw := by
  unfold State.dropVideo
  repeat' (first | (and_intros <;> rfl) | split | simp)

@[simp] theorem State.trimJournal_rest (s : State) :
    (State.trimJournal s).pending = s.pending ∧ (State.trimJournal s).free = s.free ∧ (State.trimJournal s).variant = s.variant
    ∧ (State.trimJournal s).regs = s.regs ∧ (State.trimJournal s).net = s.net ∧ (State.trimJournal s).srv = s.srv ∧
    (State.trimJournal s).arr = s.arr ∧ (State.trimJournal s).trim = s.trim ∧ (State.trimJournal s).mem = s.mem ∧
    (State.trimJournal s).vid = s.vid ∧ (State.trimJournal s).sec = s.sec ∧ (State.trimJournal s).fwu = s.fwu ∧
    (State.trimJournal s).pwr = s.pwr ∧ (State.trimJournal s).thm = s.thm ∧ (State.trimJournal s).boot = s.boot ∧
    (State.trimJournal s).hw = s.hw := by
  unfold State.trimJournal
  repeat' (first | (and_intros <;> rfl) | split | simp)

@[simp] theorem State.onCore_rest (s : State) (c : Nat) (f : Core → Core) :
    (State.onCore s c f).pending = s.pending ∧ (State.onCore s c f).free = s.free ∧ (State.onCore s c f).variant = s.variant ∧
    (State.onCore s c f).regs = s.regs ∧ (State.onCore s c f).net = s.net ∧ (State.onCore s c f).cont = s.cont ∧ (State.onCore s
    c f).srv = s.srv ∧ (State.onCore s c f).arr = s.arr ∧ (State.onCore s c f).mem = s.mem ∧ (State.onCore s c f).vid = s.vid ∧
    (State.onCore s c f).sec = s.sec ∧ (State.onCore s c f).fwu = s.fwu ∧ (State.onCore s c f).pwr = s.pwr ∧ (State.onCore s c
    f).thm = s.thm ∧ (State.onCore s c f).boot = s.boot ∧ (State.onCore s c f).hw = s.hw := by
  unfold State.onCore
  repeat' (first | (and_intros <;> rfl) | split | simp)

@[simp] theorem State.onKernel_rest (s : State) (coat i : Nat) (f : KernelRun → KernelRun) :
    (State.onKernel s coat i f).pending = s.pending ∧ (State.onKernel s coat i f).free = s.free ∧ (State.onKernel s coat i
    f).variant = s.variant ∧ (State.onKernel s coat i f).regs = s.regs ∧ (State.onKernel s coat i f).net = s.net ∧
    (State.onKernel s coat i f).cont = s.cont ∧ (State.onKernel s coat i f).srv = s.srv ∧ (State.onKernel s coat i f).arr =
    s.arr ∧ (State.onKernel s coat i f).mem = s.mem ∧ (State.onKernel s coat i f).vid = s.vid ∧ (State.onKernel s coat i f).sec
    = s.sec ∧ (State.onKernel s coat i f).fwu = s.fwu ∧ (State.onKernel s coat i f).pwr = s.pwr ∧ (State.onKernel s coat i
    f).thm = s.thm ∧ (State.onKernel s coat i f).boot = s.boot ∧ (State.onKernel s coat i f).hw = s.hw := by
  unfold State.onKernel
  repeat' (first | (and_intros <;> rfl) | split | simp)

@[simp] theorem State.noteTrimFault_rest (s : State) (f : TrimFault) (c : Nat) (pc : Nat) :
    (State.noteTrimFault s f c pc).pending = s.pending ∧ (State.noteTrimFault s f c pc).free = s.free ∧ (State.noteTrimFault s f
    c pc).variant = s.variant ∧ (State.noteTrimFault s f c pc).net = s.net ∧ (State.noteTrimFault s f c pc).cont = s.cont ∧
    (State.noteTrimFault s f c pc).srv = s.srv ∧ (State.noteTrimFault s f c pc).arr = s.arr ∧ (State.noteTrimFault s f c
    pc).trim = s.trim ∧ (State.noteTrimFault s f c pc).mem = s.mem ∧ (State.noteTrimFault s f c pc).vid = s.vid ∧
    (State.noteTrimFault s f c pc).sec = s.sec ∧ (State.noteTrimFault s f c pc).fwu = s.fwu ∧ (State.noteTrimFault s f c pc).pwr
    = s.pwr ∧ (State.noteTrimFault s f c pc).thm = s.thm ∧ (State.noteTrimFault s f c pc).boot = s.boot ∧ (State.noteTrimFault s
    f c pc).hw = s.hw := by
  unfold State.noteTrimFault
  repeat' (first | (and_intros <;> rfl) | split | simp)

@[simp] theorem State.advance_rest (s : State) (c : CoreId) :
    (State.advance s c).pending = s.pending ∧ (State.advance s c).free = s.free ∧ (State.advance s c).variant = s.variant ∧
    (State.advance s c).net = s.net ∧ (State.advance s c).cont = s.cont ∧ (State.advance s c).srv = s.srv ∧ (State.advance s
    c).arr = s.arr ∧ (State.advance s c).mem = s.mem ∧ (State.advance s c).vid = s.vid ∧ (State.advance s c).sec = s.sec ∧
    (State.advance s c).fwu = s.fwu ∧ (State.advance s c).pwr = s.pwr ∧ (State.advance s c).thm = s.thm ∧ (State.advance s
    c).boot = s.boot ∧ (State.advance s c).hw = s.hw := by
  unfold State.advance
  repeat' (first | (and_intros <;> rfl) | split | simp)

@[simp] theorem State.putSup_rest (s : State) (x : Side) (v : SupState) :
    (State.putSup s x v).pending = s.pending ∧ (State.putSup s x v).free = s.free ∧ (State.putSup s x v).variant = s.variant ∧
    (State.putSup s x v).net = s.net ∧ (State.putSup s x v).srv = s.srv ∧ (State.putSup s x v).arr = s.arr ∧ (State.putSup s x
    v).trim = s.trim ∧ (State.putSup s x v).mem = s.mem ∧ (State.putSup s x v).vid = s.vid ∧ (State.putSup s x v).sec = s.sec ∧
    (State.putSup s x v).fwu = s.fwu ∧ (State.putSup s x v).pwr = s.pwr ∧ (State.putSup s x v).thm = s.thm ∧ (State.putSup s x
    v).boot = s.boot ∧ (State.putSup s x v).hw = s.hw := by
  unfold State.putSup
  repeat' (first | (and_intros <;> rfl) | split | simp)

@[simp] theorem State.zeroFields_rest (s : State) (l : List Field) :
    (State.zeroFields s l).pending = s.pending ∧ (State.zeroFields s l).free = s.free ∧ (State.zeroFields s l).variant =
    s.variant ∧ (State.zeroFields s l).net = s.net ∧ (State.zeroFields s l).cont = s.cont ∧ (State.zeroFields s l).srv = s.srv ∧
    (State.zeroFields s l).arr = s.arr ∧ (State.zeroFields s l).trim = s.trim ∧ (State.zeroFields s l).mem = s.mem ∧
    (State.zeroFields s l).vid = s.vid ∧ (State.zeroFields s l).sec = s.sec ∧ (State.zeroFields s l).fwu = s.fwu ∧
    (State.zeroFields s l).pwr = s.pwr ∧ (State.zeroFields s l).thm = s.thm ∧ (State.zeroFields s l).boot = s.boot ∧
    (State.zeroFields s l).hw = s.hw := by
  unfold State.zeroFields
  induction l generalizing s with
  | nil => and_intros <;> rfl
  | cons a l ih => simp only [List.foldl_cons, ih]; simp

-- Register fields.

@[simp] theorem State.rset_regs (s : State) (f : Field) (v sel : Nat) : (s.rset f v sel).regs = Regs.set s.regs f v sel := rfl

/-- A field reads what it was set to, cut to its width. -/
theorem State.rget_rset (s : State) (f : Field) (v sel : Nat) (h : f.lo + f.width ≤ 32) (ha : f.addr < 2 ^ 32) :
    (s.rset f v sel).rget f sel = v % 2 ^ f.width := Regs.get_set _ f v sel h ha

/-- A field apart from the one that was set keeps its value. -/
theorem State.rget_rset_other (s : State) (f g : Field) (v sel sel' : Nat) (h : f.lo + f.width ≤ 32) (hf : f.addr < 2 ^ 32)
    (hg : g.addr < 2 ^ 32) (d : f.apart g sel sel' = true) : (s.rset f v sel).rget g sel' = s.rget g sel' :=
  Regs.get_set_other _ f g v sel sel' h hf hg d

/-- What a field reads depends on the stored registers alone. -/
theorem State.rget_congr {s t : State} (h : t.regs = s.regs) (f : Field) (sel : Nat) : t.rget f sel = s.rget f sel := by
  unfold State.rget; rw [h]

end Sys2Proof.Machine
end

