-- ==== Sys2Proof/Tests/Slice0.lean ====
section
/-! SUPPORT. Slice0.lean: the model's own tests: small samples, for every statement with hypotheses a state and operands that meet
those of each of its clauses, ill-formed commands that WellFormed refuses, and values from the manual's worked examples. -/

set_option maxRecDepth 100000
set_option linter.all false

namespace Sys2Proof.Tests

open Sys2Proof.Machine

-- Samples that several statements share, and tests of their hypotheses.

def aPath (n port : Nat) (fe : Side) : Path := { number := n, port := port, fe := fe, home := fe, peer := ⟨false, 0x0A000001, 47100⟩ }
/-- An open session of a role, whose number is that of the role. -/
def aSession (n : Nat) : Session :=
  { number := n, role := n, paths := [aPath 0 0 .a], partnerWindow := 100000, window := 65536, counter := 3, rxConsumed := 7, partnerKey := [1, 2, 3] }
/-- A module in service with a session of every role. -/
def serving : State := { net := { sessions := [1, 2, 3, 4, 5, 6].map fun n => (n, aSession n) }, boot := { step := 11 }, sec := { fuses := [[9]] } }
def setFields (s : State) (l : List (Field × Nat)) : State := l.foldl (fun s f => s.rset f.1 f.2) s
/-- `n` bytes, zero but for those given at their offsets. -/
def bytes (n : Nat) (l : List (Nat × List Byte)) : List Byte :=
  l.foldl (fun p x => p.take x.1 ++ x.2 ++ p.drop (x.1 + x.2.length)) (zeroBytes n)
def aMsg (n : Nat) (p : List Byte) : Msg := ⟨n, 2, 77, p⟩

def hearsB (s : State) (m : Msg) (x : Session) (type len : Nat) : Bool :=
  decide (s.session m.session = some x) && !x.closing && s.roleAllows x.role type && m.payload.length == len
theorem hears_of {s : State} {m : Msg} {x : Session} {type len : Nat} (h : hearsB s m x type len = true) : s.Hears m x type len := by
  simp [hearsB] at h
  exact ⟨h.1.1.1, by simp [h.1.1.2], h.1.2, h.2⟩
def mayIssueB (s : State) (c : CoreId) : Bool :=
  s.coreRuns c && decide (0x60000 ≤ (s.core c.toNat).pc.toNat ∧ (s.core c.toNat).pc.toNat < 0x70000) &&
    match s.kernelOf c.toNat with
    | some k => decide ((s.core c.toNat).executed < k.limit)
    | none => false
theorem mayIssue_of {s : State} {c : CoreId} (h : mayIssueB s c = true) : s.MayIssue c := by
  unfold mayIssueB at h
  split at h
  · rename_i k hk
    simp at h
    exact ⟨h.1.1, h.1.2, k, hk, h.2⟩
  · simp at h
def takesB (s : State) (d : Datagram) : Bool :=
  s.portLive d.port && decide (s.rget Fld.NET_PCFG_MACSEC d.port = 0) && decide (d.vlan = (s.port d.port).applied.vlan) &&
    (!d.options && !d.fragment && !d.badSum && decide (d.sec = none)) && mtuOk d.port d.peer.v6 d.bytes.length && decide (d.dstUdp = s.net.udpPort) &&
    s.portAddress d.port d.peer.v6 d.dst
theorem takes_of {s : State} {d : Datagram} (h : takesB s d = true) : s.Takes d := by
  simp [takesB] at h
  obtain ⟨⟨⟨⟨⟨⟨a, b⟩, c⟩, e⟩, m⟩, f⟩, g⟩ := h
  exact ⟨⟨a, b⟩, c, ⟨by simp [e], by simp [e], by simp [e], e.2⟩, m, f, g⟩
def onPathB (s : State) (d : Datagram) (f : RxFrame) (k : Nat) (x : Session) (p : Path) : Bool :=
  takesB s d && decide (parseFrame d.bytes = some f) && decide (f.kind = k) && decide (s.session f.session = some x) &&
    decide (x.path f.path = some p) && decide (p.port = d.port ∧ p.peer = d.peer) && s.feUp p.fe
theorem onPath_of {s : State} {d : Datagram} {f : RxFrame} {k : Nat} {x : Session} {p : Path} (h : onPathB s d f k x p = true) :
    s.OnPath d f k x p := by
  simp only [onPathB, Bool.and_eq_true, decide_eq_true_eq] at h
  obtain ⟨⟨⟨⟨⟨⟨a, b⟩, c⟩, e⟩, f⟩, g⟩, i⟩ := h
  exact ⟨takes_of a, b, c, e, f, g, i⟩
def knowsB (s : State) (p : Nat) (v : Bool) (ip mac : Nat) : Bool :=
  (s.neighbor p v ip).any fun n => n.mac == mac && !n.stale (s.now (portSide p))
theorem knows_of {s : State} {p : Nat} {v : Bool} {ip mac : Nat} (h : knowsB s p v ip mac = true) : s.Knows p v ip mac := by
  unfold knowsB at h
  cases hn : s.neighbor p v ip with
  | none => simp [hn] at h
  | some n => simp [hn] at h; exact ⟨n, hn, h.1, h.2⟩
def mayWriteB (s : State) (m : Msg) (x : Session) : Bool :=
  decide (s.session m.session = some x) && !x.closing && s.mayActFor m.session && decide (x.role = 3) && !x.wantsProtected &&
    decide (s.sec.switch = none) && decide (s.twinState = 0)
theorem mayWrite_of {s : State} {m : Msg} {x : Session} (h : mayWriteB s m x = true) : s.MayWrite m x := by
  simp only [mayWriteB, Bool.and_eq_true, decide_eq_true_eq, Bool.not_eq_true'] at h
  obtain ⟨⟨⟨⟨⟨⟨a, b⟩, c⟩, e⟩, f⟩, g⟩, i⟩ := h
  exact ⟨a, b, c, ⟨e, f⟩, g, i⟩
def noWorkB (s : State) (n : Nat) : Bool :=
  (s.srv.requests.all fun r => r.2.session != n) && s.vid.contexts.all fun c => c.2.session != n
theorem noWork_of {s : State} {n : Nat} (h : noWorkB s n = true) : s.NoWork n := by
  simpa [noWorkB, State.NoWork] using h
theorem all_some {α : Type} {o : Option α} {P : α → Prop} [DecidablePred P] (h : o.all (fun k => decide (P k)) = true) :
    ∀ k, o = some k → P k := by
  intro k hk
  subst hk
  simpa using h
/-- A core in its code, with scalar registers set. -/
def aCore (l : List (Nat × Nat)) : Machine.Core :=
  { s := l.foldl (fun v x => v.set! x.1 (BitVec.ofNat 64 x.2)) (Vector.replicate 32 0), pc := 0x60010, state := .run }
/-- Core 3 runs a kernel of two cores in a batch. -/
def running (x : Machine.Core) (y : Machine.Core := { state := .run }) : State :=
  { serving with
    trim := { cores := ((List.replicate 64 {}).set 3 x).set 4 y, kernels := [{ coat := 0, index := 0, cores := [3, 4], unordered := false, limit := 4 }] }
    srv := { batch := some { slot := 0, phase := 0, runs := [{}] } } }
def numbers : List (Nat × Nat) := [(1, 5), (2, 2 ^ 64 - 1), (3, 0x60020), (4, 0x7FC00000), (5, 0x7F800000), (6, 0x3F800000)]
def aHeader : LathHeader := { minor := 0, nondet := false, skim := false, length := 0, sections := 0, coats := 1, kind := 1, ident := [], version := 1, footprint := 0, batchRows := 1, context := 8, skimPair := [] }
def aCoat : Coat := { kind := 3, biasBinding := false, format := 6, anchor := 0, shift := 0, fatal := 0, k := 1, n := 1, dest := 255, programs := 0, firstProgram := 0, firstPass := 0, passes := 0, attention := 0, weights := 0, bias := 0, scales := 0, kernels := 1, deps := 0, firstKernel := 0, depList := [] }
def aKernel : Kernel := { flags := 0, codeOffset := 0, codeSize := 16, entry := 4, mask := 24, itemsFixed := 3, itemsPerRow := 2, limit := 4, zeroSize := 20, window := 0, windowStride := 64, windowSize := 64, bindings := [] }
def anImage : Image := { header := aHeader, coats := [aCoat], kernels := [aKernel] }
/-- A batch of one row of request 9 stands at the first coat of an image. -/
def atCoat (g : Image) (b : Batch) : State :=
  { serving with srv := { slots := [(0, { state := .ready, image := some g })], batch := some { b with runs := if b.runs.isEmpty then List.replicate g.coats.length {} else b.runs } } }
def aBatch : Batch := { slot := 0, phase := 0, rows := [{ tag := 9, seq := 0, seed := 0, step := 0, length := 0 }] }
def aRequest : Request := { row := 9, session := 1, tag := 77, number := 2, gen := false, customer := 1, slot := 0, priority := 0, bucket := 0, deadline := 0, admitRec := 9, debit := 5 }
def aSequence : Sequence := { row := 9, slot := 0, prompt := [5, 6], tokenLimit := 8, allowance := 1000 }
/-- A sequence, 4, of request 9 in slot 0. -/
def generating (x : Sequence) (r : Request := { aRequest with gen := true, seq := some 4 }) : State :=
  { serving with srv := { slots := [(0, { state := .ready, image := some { anImage with header := { aHeader with kind := 2, context := 64 } } })], requests := [(9, r)], sequences := [(4, x)] } }
def aWindow : Window := { kh := 1, kw := 1, ky0 := 0, kx0 := 0, khw := 1, kww := 1, sy := 1, sx := 1, dy := 1, dx := 1, pt := 0, pb := 0, pl := 0, pr := 0, sr := 1, sc := 1 }
def aProgram (kind : Nat) : Program := { kind := kind, flags := 0, format := 6, src := 0, dst := 0, aux := 0, h := 1, w := 1, c := 1, g := 1, win := aWindow, oh := 1, ow := 1, maxb := 2 }
/-- An image of one coat of a kind, with programs of these kinds, no kernel and an empty weight. -/
def coatImage (kind : Nat) (programs : List Nat) : Image :=
  { header := aHeader, coats := [{ aCoat with kind := kind, kernels := 0, programs := programs.length }], programs := programs.map aProgram
    weights := [{ kind := 1, format := 6, scale := 0, object := 0, offset := 0, length := 0, elements := 0, digest := [] }], bindings := [⟨1, 0, 0, 256⟩]
    attns := [{ paged := false, causal := false, stencil := true, kvFormat := 6, qFormat := 6, qHeads := 1, kvHeads := 1, dim := 1, layer := 0, scale := 0, q := 0, k := 0, v := 0, out := 0, page := 0 }] }
def aKey : TileKey := { slot := 0, coat := 0, prog := 0, ky := 0, kx := 0, ctile := 0, ntile := 0, group := 0 }
def aTile : Tile := { key := aKey, columns := [[.fin false 0 0]] }
def aPass : Pass := { stripe := 0, rowStripe := 0, key := aKey, first := true, last := true, bank := 0 }
def aPort : Port := { applied := { v4 := true, ipv4 := 0x0A0000FE, prefix4 := 24, v6 := true, ipv6 := 5, prefix6 := 64 } }
/-- Both ports of front end A and the others are up, with addresses, and the peer of `aPath` is a known neighbour of port 0. -/
def linked (l : List (Field × Nat) := []) : State :=
  setFields { serving with
    cont := { feA := { state := .up }, feB := { state := .up } }
    net := { sessions := serving.net.sessions, ports := [aPort, aPort, aPort, aPort, aPort, aPort], neighbors := [⟨0, false, 0x0A000001, 99, true, 0, 0⟩, ⟨0, true, 6, 98, true, 0, 0⟩] } }
    ([(Fld.SYS_GATE_PORT, 63)] ++ l)
def linkedPorts (l : List (Field × Nat) := []) : State :=
  (List.range 6).foldl (fun s p => s.rset Fld.NET_PSTAT_LINK 1 p) (linked l)

-- ScalarIntegers.

theorem witness_ScalarIntegers :
    (∃ (s : State) (c : CoreId), s.MayIssue c) ∧
    (∃ (s : State) (c : CoreId) (imm : Imm16), s.MayIssue c ∧
      BitVec.extractLsb' 6 2 imm = 0) ∧
    (∃ (s : State) (c : CoreId) (imm : Imm16), s.MayIssue c ∧
      BitVec.extractLsb' 6 2 imm = 1) ∧
    (∃ (s : State) (c : CoreId) (imm : Imm16), s.MayIssue c ∧
      BitVec.extractLsb' 6 2 imm = 2) :=
  ⟨⟨running (aCore numbers), 3, mayIssue_of (by decide)⟩,
   ⟨running (aCore numbers), 3, 0, mayIssue_of (by decide), by decide⟩,
   ⟨running (aCore numbers), 3, 64, mayIssue_of (by decide), by decide⟩,
   ⟨running (aCore numbers), 3, 128, mayIssue_of (by decide), by decide⟩⟩

-- ScalarFloatingPoint.

theorem witness_ScalarFloatingPoint :
    (∃ (s : State) (c : CoreId) (sa : SReg) (sb : SReg), s.MayIssue c ∧
      ((fp32.val (BitVec.extractLsb' 0 32 ((s.core (BitVec.toNat c)).rs sa)).toNat).isNan ||
    (fp32.val (BitVec.extractLsb' 0 32 ((s.core (BitVec.toNat c)).rs sb)).toNat).isNan) =
  true) ∧
    (∃ (s : State) (c : CoreId) (sa : SReg) (sb : SReg), s.MayIssue c ∧
      ((fp32.val (BitVec.extractLsb' 0 32 ((s.core (BitVec.toNat c)).rs sa)).toNat).isNan ||
    (fp32.val (BitVec.extractLsb' 0 32 ((s.core (BitVec.toNat c)).rs sb)).toNat).isNan) =
  false) ∧
    (∃ (s : State) (c : CoreId) (sa : SReg), s.MayIssue c ∧
      fp32.val (BitVec.extractLsb' 0 32 ((s.core (BitVec.toNat c)).rs sa)).toNat = FpVal.nan) ∧
    (∃ (s : State) (c : CoreId) (sa : SReg) (n : Bool), s.MayIssue c ∧
      fp32.val (BitVec.extractLsb' 0 32 ((s.core (BitVec.toNat c)).rs sa)).toNat = FpVal.inf n) ∧
    (∃ (s : State) (c : CoreId) (sa : SReg) (n : Bool) (m : Nat) (e : Int), s.MayIssue c ∧
      fp32.val (BitVec.extractLsb' 0 32 ((s.core (BitVec.toNat c)).rs sa)).toNat = FpVal.fin n m e) :=
  ⟨⟨running (aCore numbers), 3, 1, 2, mayIssue_of (by decide), by decide⟩,
   ⟨running (aCore numbers), 3, 1, 1, mayIssue_of (by decide), by decide⟩,
   ⟨running (aCore numbers), 3, 2, mayIssue_of (by decide), by decide⟩,
   ⟨running (aCore numbers), 3, 5, false, mayIssue_of (by decide), by decide⟩,
   ⟨running (aCore numbers), 3, 6, false, 8388608, -23, mayIssue_of (by decide), by decide⟩⟩

-- BranchesAndJumps.

theorem witness_BranchesAndJumps :
    (∃ (s : State) (c : CoreId) (sa : SReg) (sb : SReg) (off : Imm16), s.MayIssue c ∧
      decide ((s.core (BitVec.toNat c)).rs sa = (s.core (BitVec.toNat c)).rs sb) = true ∧
      393216 ≤ ↑(s.core (BitVec.toNat c)).pc.toNat + 4 * BitVec.toInt off ∧
      ↑(s.core (BitVec.toNat c)).pc.toNat + 4 * BitVec.toInt off < 458752) ∧
    (∃ (s : State) (c : CoreId) (sa : SReg) (sb : SReg), s.MayIssue c ∧
      decide ((s.core (BitVec.toNat c)).rs sa = (s.core (BitVec.toNat c)).rs sb) = false) ∧
    (∃ (s : State) (c : CoreId) (sa : SReg) (sb : SReg) (off : Imm16), s.MayIssue c ∧
      decide ((s.core (BitVec.toNat c)).rs sa ≠ (s.core (BitVec.toNat c)).rs sb) = true ∧
      393216 ≤ ↑(s.core (BitVec.toNat c)).pc.toNat + 4 * BitVec.toInt off ∧
      ↑(s.core (BitVec.toNat c)).pc.toNat + 4 * BitVec.toInt off < 458752) ∧
    (∃ (s : State) (c : CoreId) (sa : SReg) (sb : SReg), s.MayIssue c ∧
      decide ((s.core (BitVec.toNat c)).rs sa ≠ (s.core (BitVec.toNat c)).rs sb) = false) ∧
    (∃ (s : State) (c : CoreId) (sa : SReg) (sb : SReg) (off : Imm16), s.MayIssue c ∧
      decide (((s.core (BitVec.toNat c)).rs sa).toInt < ((s.core (BitVec.toNat c)).rs sb).toInt) = true ∧
      393216 ≤ ↑(s.core (BitVec.toNat c)).pc.toNat + 4 * BitVec.toInt off ∧
      ↑(s.core (BitVec.toNat c)).pc.toNat + 4 * BitVec.toInt off < 458752) ∧
    (∃ (s : State) (c : CoreId) (sa : SReg) (sb : SReg), s.MayIssue c ∧
      decide (((s.core (BitVec.toNat c)).rs sa).toInt < ((s.core (BitVec.toNat c)).rs sb).toInt) = false) ∧
    (∃ (s : State) (c : CoreId) (sa : SReg) (sb : SReg) (off : Imm16), s.MayIssue c ∧
      decide (((s.core (BitVec.toNat c)).rs sb).toInt ≤ ((s.core (BitVec.toNat c)).rs sa).toInt) = true ∧
      393216 ≤ ↑(s.core (BitVec.toNat c)).pc.toNat + 4 * BitVec.toInt off ∧
      ↑(s.core (BitVec.toNat c)).pc.toNat + 4 * BitVec.toInt off < 458752) ∧
    (∃ (s : State) (c : CoreId) (sa : SReg) (sb : SReg), s.MayIssue c ∧
      decide (((s.core (BitVec.toNat c)).rs sb).toInt ≤ ((s.core (BitVec.toNat c)).rs sa).toInt) = false) ∧
    (∃ (s : State) (c : CoreId) (sa : SReg) (sb : SReg) (off : Imm16), s.MayIssue c ∧
      decide (((s.core (BitVec.toNat c)).rs sa).toNat < ((s.core (BitVec.toNat c)).rs sb).toNat) = true ∧
      393216 ≤ ↑(s.core (BitVec.toNat c)).pc.toNat + 4 * BitVec.toInt off ∧
      ↑(s.core (BitVec.toNat c)).pc.toNat + 4 * BitVec.toInt off < 458752) ∧
    (∃ (s : State) (c : CoreId) (sa : SReg) (sb : SReg), s.MayIssue c ∧
      decide (((s.core (BitVec.toNat c)).rs sa).toNat < ((s.core (BitVec.toNat c)).rs sb).toNat) = false) ∧
    (∃ (s : State) (c : CoreId) (sa : SReg) (sb : SReg) (off : Imm16), s.MayIssue c ∧
      decide (((s.core (BitVec.toNat c)).rs sb).toNat ≤ ((s.core (BitVec.toNat c)).rs sa).toNat) = true ∧
      393216 ≤ ↑(s.core (BitVec.toNat c)).pc.toNat + 4 * BitVec.toInt off ∧
      ↑(s.core (BitVec.toNat c)).pc.toNat + 4 * BitVec.toInt off < 458752) ∧
    (∃ (s : State) (c : CoreId) (sa : SReg) (sb : SReg), s.MayIssue c ∧
      decide (((s.core (BitVec.toNat c)).rs sb).toNat ≤ ((s.core (BitVec.toNat c)).rs sa).toNat) = false) ∧
    (∃ (s : State) (c : CoreId) (sa : SReg), s.MayIssue c ∧
      393216 ≤ ((s.core (BitVec.toNat c)).rs sa).toNat ∧
      ((s.core (BitVec.toNat c)).rs sa).toNat < 458752) :=
  ⟨⟨running (aCore numbers), 3, 1, 1, 0, mayIssue_of (by decide), by decide, by decide, by decide⟩,
   ⟨running (aCore numbers), 3, 1, 2, mayIssue_of (by decide), by decide⟩,
   ⟨running (aCore numbers), 3, 1, 2, 0, mayIssue_of (by decide), by decide, by decide, by decide⟩,
   ⟨running (aCore numbers), 3, 1, 1, mayIssue_of (by decide), by decide⟩,
   ⟨running (aCore numbers), 3, 1, 3, 0, mayIssue_of (by decide), by decide, by decide, by decide⟩,
   ⟨running (aCore numbers), 3, 1, 1, mayIssue_of (by decide), by decide⟩,
   ⟨running (aCore numbers), 3, 1, 1, 0, mayIssue_of (by decide), by decide, by decide, by decide⟩,
   ⟨running (aCore numbers), 3, 1, 3, mayIssue_of (by decide), by decide⟩,
   ⟨running (aCore numbers), 3, 1, 2, 0, mayIssue_of (by decide), by decide, by decide, by decide⟩,
   ⟨running (aCore numbers), 3, 1, 1, mayIssue_of (by decide), by decide⟩,
   ⟨running (aCore numbers), 3, 1, 1, 0, mayIssue_of (by decide), by decide, by decide, by decide⟩,
   ⟨running (aCore numbers), 3, 1, 2, mayIssue_of (by decide), by decide⟩,
   ⟨running (aCore numbers), 3, 3, mayIssue_of (by decide), by decide, by decide⟩⟩

-- TrimFaults.

namespace TrimFaults
def state1 : State := running { aCore numbers with pc := 0x70000 }
def state2 : State := running { aCore numbers with executed := 4 }
end TrimFaults
theorem witness_TrimFaults :
    (∃ (s : State) (c : CoreId) (sd : SReg) (sa : SReg) (sb : SReg) (imm : Imm16) (i : Instr), s.coreRuns c = true ∧
      s.srv.batch ≠ none ∧
      i ∈ [Instr.add c sd sa sb, Instr.addi c sd sa imm, Instr.fadd c sd sa sb, Instr.bar c, Instr.done c, Instr.jr c sa] ∧
      (¬(393216 ≤ (s.core (BitVec.toNat c)).pc.toNat ∧ (s.core (BitVec.toNat c)).pc.toNat < 458752))) ∧
    (∃ (s : State) (c : CoreId) (sd : SReg) (sa : SReg) (sb : SReg) (imm : Imm16) (i : Instr), s.coreRuns c = true ∧
      s.srv.batch ≠ none ∧
      i ∈ [Instr.add c sd sa sb, Instr.addi c sd sa imm, Instr.fadd c sd sa sb, Instr.bar c, Instr.done c, Instr.jr c sa] ∧
      (393216 ≤ (s.core (BitVec.toNat c)).pc.toNat ∧ (s.core (BitVec.toNat c)).pc.toNat < 458752) ∧
      (∀ (k : KernelRun), s.kernelOf (BitVec.toNat c) = some k → k.limit ≤ (s.core (BitVec.toNat c)).executed)) ∧
    (∃ (s : State) (c : CoreId) (sa : SReg) (imm : Imm13), s.coreRuns c = true ∧
      s.srv.batch ≠ none ∧
      s.MayIssue c ∧
      s.coreAddr c sa imm 1 % 2 ≠ 0) ∧
    (∃ (s : State) (c : CoreId) (sa : SReg) (imm : Imm13), s.coreRuns c = true ∧
      s.srv.batch ≠ none ∧
      s.MayIssue c ∧
      s.coreAddr c sa imm 1 % 4 ≠ 0) ∧
    (∃ (s : State) (c : CoreId) (sa : SReg) (imm : Imm13), s.coreRuns c = true ∧
      s.srv.batch ≠ none ∧
      s.MayIssue c ∧
      s.coreAddr c sa imm 1 % 8 ≠ 0) ∧
    (∃ (s : State) (c : CoreId) (sa : SReg) (imm : Imm13), s.coreRuns c = true ∧
      s.srv.batch ≠ none ∧
      s.MayIssue c ∧
      s.coreAddr c sa imm 64 % 64 ≠ 0) ∧
    (∃ (s : State) (c : CoreId) (sa : SReg) (vd : VReg) (p : PReg) (imm : Imm13) (i : Instr), s.coreRuns c = true ∧
      s.srv.batch ≠ none ∧
      s.MayIssue c ∧
      s.coreAddr c sa imm 1 + 33 ≤ 393216 ∧
      BitVec.toNat vd % 2 = 0 ∧
      i ∈ [Instr.vlq8 c vd sa p imm, Instr.vlq4 c vd sa p imm, Instr.vsq8 c vd sa p imm, Instr.vsq4 c vd sa p imm]) ∧
    (∃ (s : State) (c : CoreId) (sa : SReg) (imm : Imm13), s.coreRuns c = true ∧
      s.srv.batch ≠ none ∧
      s.MayIssue c ∧
      s.coreAddr c sa imm 1 % 8 = 0 ∧
      (393216 ≤ s.coreAddr c sa imm 1 ∧ s.coreAddr c sa imm 1 < 458752 ∨
  522240 ≤ s.coreAddr c sa imm 1 ∧ s.coreAddr c sa imm 1 < 524288)) ∧
    (∃ (s : State) (c : CoreId) (sa : SReg) (imm : Imm13), s.coreRuns c = true ∧
      s.srv.batch ≠ none ∧
      s.MayIssue c ∧
      s.coreAddr c sa imm 1 % 8 = 0 ∧
      393216 ≤ s.coreAddr c sa imm 1 ∧
      (s.core (BitVec.toNat c)).winSize = 0) ∧
    (∃ (s : State) (c : CoreId) (sa : SReg), s.coreRuns c = true ∧
      s.srv.batch ≠ none ∧
      s.MayIssue c ∧
      (((s.core (BitVec.toNat c)).rs sa).toNat < 393216 ∨ 458752 ≤ ((s.core (BitVec.toNat c)).rs sa).toNat)) :=
  ⟨⟨TrimFaults.state1, 3, 1, 1, 1, 0, Instr.add 3 1 1 1, by decide, by decide, by decide, by decide⟩,
   ⟨TrimFaults.state2, 3, 1, 1, 1, 0, Instr.add 3 1 1 1, by decide, by decide, by decide, by decide, by decide⟩,
   ⟨running (aCore numbers), 3, 1, 0, by decide, by decide, mayIssue_of (by decide), by decide⟩,
   ⟨running (aCore numbers), 3, 1, 0, by decide, by decide, mayIssue_of (by decide), by decide⟩,
   ⟨running (aCore numbers), 3, 1, 0, by decide, by decide, mayIssue_of (by decide), by decide⟩,
   ⟨running (aCore numbers), 3, 1, 0, by decide, by decide, mayIssue_of (by decide), by decide⟩,
   ⟨running (aCore numbers), 3, 1, 0, 0, 0, Instr.vlq8 3 0 1 0 0, by decide, by decide, mayIssue_of (by decide), by decide, by decide, by decide⟩,
   ⟨running (aCore numbers), 3, 3, 0, by decide, by decide, mayIssue_of (by decide), by decide, by decide⟩,
   ⟨running (aCore numbers), 3, 3, 0, by decide, by decide, mayIssue_of (by decide), by decide, by decide, by decide⟩,
   ⟨running (aCore numbers), 3, 1, by decide, by decide, mayIssue_of (by decide), by decide⟩⟩

-- ScalarLoadsAndStores.

theorem witness_ScalarLoadsAndStores :
    (∃ (s : State) (c : CoreId) (sa : SReg) (imm : Imm13), s.MayIssue c ∧
      (s.coreAddr c sa imm 1 % 1 = 0 ∧
  (s.coreReads (BitVec.toNat c) (s.coreAddr c sa imm 1) 1 = true ∨
    s.coreAddr c sa imm 1 + 1 ≤ 393216 ∨ 458752 ≤ s.coreAddr c sa imm 1 ∧ s.coreAddr c sa imm 1 + 1 ≤ 522240))) ∧
    (∃ (s : State) (c : CoreId) (sa : SReg) (imm : Imm13), s.MayIssue c ∧
      (s.coreAddr c sa imm 1 % 2 = 0 ∧
  (s.coreReads (BitVec.toNat c) (s.coreAddr c sa imm 1) 2 = true ∨
    s.coreAddr c sa imm 1 + 2 ≤ 393216 ∨ 458752 ≤ s.coreAddr c sa imm 1 ∧ s.coreAddr c sa imm 1 + 2 ≤ 522240))) ∧
    (∃ (s : State) (c : CoreId) (sa : SReg) (imm : Imm13), s.MayIssue c ∧
      (s.coreAddr c sa imm 1 % 4 = 0 ∧
  (s.coreReads (BitVec.toNat c) (s.coreAddr c sa imm 1) 4 = true ∨
    s.coreAddr c sa imm 1 + 4 ≤ 393216 ∨ 458752 ≤ s.coreAddr c sa imm 1 ∧ s.coreAddr c sa imm 1 + 4 ≤ 522240))) ∧
    (∃ (s : State) (c : CoreId) (sa : SReg) (imm : Imm13), s.MayIssue c ∧
      (s.coreAddr c sa imm 1 % 8 = 0 ∧
  (s.coreReads (BitVec.toNat c) (s.coreAddr c sa imm 1) 8 = true ∨
    s.coreAddr c sa imm 1 + 8 ≤ 393216 ∨ 458752 ≤ s.coreAddr c sa imm 1 ∧ s.coreAddr c sa imm 1 + 8 ≤ 522240))) ∧
    (∃ (s : State) (c : CoreId) (sa : SReg) (imm : Imm13), s.MayIssue c ∧
      (s.coreAddr c sa imm 1 % 1 = 0 ∧
  (coreKey (BitVec.toNat c) (s.coreAddr c sa imm 1)).isSome = true ∧
    (s.coreWrites (BitVec.toNat c) (s.coreAddr c sa imm 1) 1 = true ∨ s.coreAddr c sa imm 1 + 1 ≤ 393216))) ∧
    (∃ (s : State) (c : CoreId) (sa : SReg) (imm : Imm13), s.MayIssue c ∧
      (s.coreAddr c sa imm 1 % 2 = 0 ∧
  (coreKey (BitVec.toNat c) (s.coreAddr c sa imm 1)).isSome = true ∧
    (s.coreWrites (BitVec.toNat c) (s.coreAddr c sa imm 1) 2 = true ∨ s.coreAddr c sa imm 1 + 2 ≤ 393216))) ∧
    (∃ (s : State) (c : CoreId) (sa : SReg) (imm : Imm13), s.MayIssue c ∧
      (s.coreAddr c sa imm 1 % 4 = 0 ∧
  (coreKey (BitVec.toNat c) (s.coreAddr c sa imm 1)).isSome = true ∧
    (s.coreWrites (BitVec.toNat c) (s.coreAddr c sa imm 1) 4 = true ∨ s.coreAddr c sa imm 1 + 4 ≤ 393216))) ∧
    (∃ (s : State) (c : CoreId) (sa : SReg) (imm : Imm13), s.MayIssue c ∧
      (s.coreAddr c sa imm 1 % 8 = 0 ∧
  (coreKey (BitVec.toNat c) (s.coreAddr c sa imm 1)).isSome = true ∧
    (s.coreWrites (BitVec.toNat c) (s.coreAddr c sa imm 1) 8 = true ∨ s.coreAddr c sa imm 1 + 8 ≤ 393216))) :=
  ⟨⟨running (aCore numbers), 3, 1, 0, mayIssue_of (by decide), by decide⟩,
   ⟨running (aCore numbers), 3, 1, 1, mayIssue_of (by decide), by decide⟩,
   ⟨running (aCore numbers), 3, 2, 1, mayIssue_of (by decide), by decide⟩,
   ⟨running (aCore numbers), 3, 2, 1, mayIssue_of (by decide), by decide⟩,
   ⟨running (aCore numbers), 3, 1, 0, mayIssue_of (by decide), by decide⟩,
   ⟨running (aCore numbers), 3, 1, 1, mayIssue_of (by decide), by decide⟩,
   ⟨running (aCore numbers), 3, 2, 1, mayIssue_of (by decide), by decide⟩,
   ⟨running (aCore numbers), 3, 2, 1, mayIssue_of (by decide), by decide⟩⟩

-- VectorLoadsAndStores.

theorem witness_VectorLoadsAndStores :
    (∃ (s : State) (c : CoreId) (sa : SReg) (p : PReg) (imm : Imm13), s.MayIssue c ∧
      s.coreAddr c sa imm 64 % 64 = 0 ∧
      (∀ k < 64,
  ((s.core (BitVec.toNat c)).rp p).getLsbD k = true → s.coreReads (BitVec.toNat c) (s.coreAddr c sa imm 64 + k) 1 = true)) ∧
    (∃ (s : State) (c : CoreId) (sa : SReg) (p : PReg) (imm : Imm13), s.MayIssue c ∧
      s.coreAddr c sa imm 64 % 64 = 0 ∧
      (coreKey (BitVec.toNat c) (s.coreAddr c sa imm 64)).isSome = true ∧
      (∀ k < 64,
  ((s.core (BitVec.toNat c)).rp p).getLsbD k = true →
    s.coreWrites (BitVec.toNat c) (s.coreAddr c sa imm 64 + k) 1 = true)) ∧
    (∃ (s : State) (c : CoreId) (vd : VReg) (sa : SReg) (p : PReg) (imm : Imm13), s.MayIssue c ∧
      BitVec.toNat vd % 2 = 0 ∧
      (∃ key, ∀ k < 33, coreKey (BitVec.toNat c) (s.coreAddr c sa imm 1 + k) = some (key + k)) ∧
      s.coreReads (BitVec.toNat c) (s.coreAddr c sa imm 1) 33 = true ∧
      (∃ k < 16, ((s.core (BitVec.toNat c)).rp p).getLsbD k = true)) ∧
    (∃ (s : State) (c : CoreId) (vd : VReg) (sa : SReg) (p : PReg) (imm : Imm13), s.MayIssue c ∧
      BitVec.toNat vd % 2 = 0 ∧
      (∃ key, ∀ k < 17, coreKey (BitVec.toNat c) (s.coreAddr c sa imm 1 + k) = some (key + k)) ∧
      s.coreReads (BitVec.toNat c) (s.coreAddr c sa imm 1) 17 = true ∧
      (∃ k < 16, ((s.core (BitVec.toNat c)).rp p).getLsbD k = true)) ∧
    (∃ (s : State) (c : CoreId) (vd : VReg) (sa : SReg) (imm : Imm13), s.MayIssue c ∧
      BitVec.toNat vd % 2 = 0 ∧
      (∃ key, ∀ k < 33, coreKey (BitVec.toNat c) (s.coreAddr c sa imm 1 + k) = some (key + k)) ∧
      s.coreWrites (BitVec.toNat c) (s.coreAddr c sa imm 1) 33 = true) ∧
    (∃ (s : State) (c : CoreId) (vd : VReg) (sa : SReg) (imm : Imm13), s.MayIssue c ∧
      BitVec.toNat vd % 2 = 0 ∧
      (∃ key, ∀ k < 17, coreKey (BitVec.toNat c) (s.coreAddr c sa imm 1 + k) = some (key + k)) ∧
      s.coreWrites (BitVec.toNat c) (s.coreAddr c sa imm 1) 17 = true) :=
  ⟨⟨running (aCore numbers), 3, 4, 1, 0, mayIssue_of (by decide), by decide, by decide⟩,
   ⟨running (aCore numbers), 3, 0, 0, 0, mayIssue_of (by decide), by decide, by decide, by decide⟩,
   ⟨running (aCore numbers), 3, 0, 2, 0, 1, mayIssue_of (by decide), by decide, ⟨587202560, by decide⟩, by decide, by decide⟩,
   ⟨running (aCore numbers), 3, 0, 2, 0, 1, mayIssue_of (by decide), by decide, ⟨587202560, by decide⟩, by decide, by decide⟩,
   ⟨running (aCore numbers), 3, 0, 2, 1, mayIssue_of (by decide), by decide, ⟨587202560, by decide⟩, by decide⟩,
   ⟨running (aCore numbers), 3, 0, 2, 1, mayIssue_of (by decide), by decide, ⟨587202560, by decide⟩, by decide⟩⟩

-- VectorInteger.

theorem witness_VectorInteger :
    (∃ (s : State) (c : CoreId) (et : ElemType), s.MayIssue c ∧
      et.isInt = true ∧
      et = ElemType.int8) ∧
    (∃ (s : State) (c : CoreId) (et : ElemType), s.MayIssue c ∧
      et.isInt = true ∧
      et = ElemType.int16) :=
  ⟨⟨running (aCore numbers), 3, ElemType.int8, mayIssue_of (by decide), by decide, by decide⟩,
   ⟨running (aCore numbers), 3, ElemType.int16, mayIssue_of (by decide), by decide, by decide⟩⟩

-- VectorFloatingPoint.

theorem witness_VectorFloatingPoint :
    ∃ (s : State) (c : CoreId) (et : ElemType), s.MayIssue c ∧
      et.isInt = false :=
  ⟨running (aCore numbers), 3, ElemType.fp32, mayIssue_of (by decide), by decide⟩

-- ComparesAndPredicates.

theorem witness_ComparesAndPredicates :
    ∃ (s : State) (c : CoreId), s.MayIssue c :=
  ⟨running (aCore numbers), 3, mayIssue_of (by decide)⟩

-- SelectPermuteAndSpecials.

theorem witness_SelectPermuteAndSpecials :
    ∃ (s : State) (c : CoreId), s.MayIssue c :=
  ⟨running (aCore numbers), 3, mayIssue_of (by decide)⟩

-- ConversionAndMovement.

namespace ConversionAndMovement
def state1 : State := running { aCore numbers with v := (Vector.replicate 16 0).set! 2 0x7FC00000, p := (Vector.replicate 8 0).set! 1 1 }
end ConversionAndMovement
theorem witness_ConversionAndMovement :
    (∃ (s : State) (c : CoreId) (et : ElemType) (dst : ElemType), s.MayIssue c ∧
      et.isInt = true ∧
      dst.isInt = true) ∧
    (∃ (s : State) (c : CoreId) (et : ElemType) (dst : ElemType), s.MayIssue c ∧
      et.isInt = true ∧
      dst.isInt = false) ∧
    (∃ (s : State) (c : CoreId) (et : ElemType) (dst : ElemType), s.MayIssue c ∧
      et.isInt = false ∧
      dst.isInt = true) ∧
    (∃ (s : State) (c : CoreId) (et : ElemType) (dst : ElemType), s.MayIssue c ∧
      et.isInt = false ∧
      dst.isInt = false) ∧
    (∃ (s : State) (c : CoreId) (m : Imm6) (et : ElemType), s.MayIssue c ∧
      BitVec.toNat m < 512 / laneBits et) ∧
    (∃ (s : State) (c : CoreId) (v : VReg) (p : PReg) (et : ElemType) (k : Nat), s.MayIssue c ∧
      et.isInt = true ∧
      k ∈ List.filter (fun k => ((s.core (BitVec.toNat c)).rp p).getLsbD k) (List.range (512 / laneBits et)) ∧
      (∀ j ∈ List.filter (fun k => ((s.core (BitVec.toNat c)).rp p).getLsbD k) (List.range (512 / laneBits et)),
  (lane (laneBits et) ((s.core (BitVec.toNat c)).rv v) j).toInt ≤
    (lane (laneBits et) ((s.core (BitVec.toNat c)).rv v) k).toInt)) ∧
    (∃ (s : State) (c : CoreId) (v : VReg) (p : PReg) (et : ElemType) (k : Nat), s.MayIssue c ∧
      et.isInt = true ∧
      k ∈ List.filter (fun k => ((s.core (BitVec.toNat c)).rp p).getLsbD k) (List.range (512 / laneBits et)) ∧
      (∀ j ∈ List.filter (fun k => ((s.core (BitVec.toNat c)).rp p).getLsbD k) (List.range (512 / laneBits et)),
  (lane (laneBits et) ((s.core (BitVec.toNat c)).rv v) k).toInt ≤
    (lane (laneBits et) ((s.core (BitVec.toNat c)).rv v) j).toInt)) ∧
    (∃ (s : State) (c : CoreId) (v : VReg) (p : PReg) (et : ElemType) (k : Nat), s.MayIssue c ∧
      et.isInt = false ∧
      k ∈ List.filter (fun k => ((s.core (BitVec.toNat c)).rp p).getLsbD k) (List.range (512 / laneBits et)) ∧
      (∀ j ∈ List.filter (fun k => ((s.core (BitVec.toNat c)).rp p).getLsbD k) (List.range (512 / laneBits et)),
  ((laneFmt et).val (lane (laneBits et) ((s.core (BitVec.toNat c)).rv v) j).toNat).isNan = false ∧
    ((laneFmt et).val (lane (laneBits et) ((s.core (BitVec.toNat c)).rv v) j).toNat).isInf = false) ∧
      (∀ j ∈ List.filter (fun k => ((s.core (BitVec.toNat c)).rp p).getLsbD k) (List.range (512 / laneBits et)),
  fpLt ((laneFmt et).val (lane (laneBits et) ((s.core (BitVec.toNat c)).rv v) k).toNat)
        ((laneFmt et).val (lane (laneBits et) ((s.core (BitVec.toNat c)).rv v) j).toNat) =
      false ∧
    (fpEq ((laneFmt et).val (lane (laneBits et) ((s.core (BitVec.toNat c)).rv v) k).toNat)
          ((laneFmt et).val (lane (laneBits et) ((s.core (BitVec.toNat c)).rv v) j).toNat) =
        true →
      j = k))) ∧
    (∃ (s : State) (c : CoreId) (v : VReg) (p : PReg) (et : ElemType) (k : Nat), s.MayIssue c ∧
      et.isInt = false ∧
      k ∈ List.filter (fun k => ((s.core (BitVec.toNat c)).rp p).getLsbD k) (List.range (512 / laneBits et)) ∧
      (∀ j ∈ List.filter (fun k => ((s.core (BitVec.toNat c)).rp p).getLsbD k) (List.range (512 / laneBits et)),
  ((laneFmt et).val (lane (laneBits et) ((s.core (BitVec.toNat c)).rv v) j).toNat).isNan = false ∧
    ((laneFmt et).val (lane (laneBits et) ((s.core (BitVec.toNat c)).rv v) j).toNat).isInf = false) ∧
      (∀ j ∈ List.filter (fun k => ((s.core (BitVec.toNat c)).rp p).getLsbD k) (List.range (512 / laneBits et)),
  fpLt ((laneFmt et).val (lane (laneBits et) ((s.core (BitVec.toNat c)).rv v) j).toNat)
        ((laneFmt et).val (lane (laneBits et) ((s.core (BitVec.toNat c)).rv v) k).toNat) =
      false ∧
    (fpEq ((laneFmt et).val (lane (laneBits et) ((s.core (BitVec.toNat c)).rv v) k).toNat)
          ((laneFmt et).val (lane (laneBits et) ((s.core (BitVec.toNat c)).rv v) j).toNat) =
        true →
      j = k))) ∧
    (∃ (s : State) (c : CoreId) (v : VReg) (p : PReg) (et : ElemType) (k : Nat), s.MayIssue c ∧
      et.isInt = false ∧
      k ∈ List.filter (fun k => ((s.core (BitVec.toNat c)).rp p).getLsbD k) (List.range (512 / laneBits et)) ∧
      ((laneFmt et).val (lane (laneBits et) ((s.core (BitVec.toNat c)).rv v) k).toNat).isNan = true) ∧
    (∃ (s : State) (c : CoreId) (p : PReg) (et : ElemType), s.MayIssue c ∧
      List.filter (fun k => ((s.core (BitVec.toNat c)).rp p).getLsbD k) (List.range (512 / laneBits et)) = []) ∧
    (∃ (s : State) (c : CoreId) (v : VReg) (p : PReg) (et : ElemType) (k : Nat), s.MayIssue c ∧
      et.isInt = true ∧
      k ∈ List.filter (fun k => ((s.core (BitVec.toNat c)).rp p).getLsbD k) (List.range (512 / laneBits et)) ∧
      (∀ j ∈ List.filter (fun k => ((s.core (BitVec.toNat c)).rp p).getLsbD k) (List.range (512 / laneBits et)),
  (lane (laneBits et) ((s.core (BitVec.toNat c)).rv v) j).toInt <
      (lane (laneBits et) ((s.core (BitVec.toNat c)).rv v) k).toInt ∨
    (lane (laneBits et) ((s.core (BitVec.toNat c)).rv v) j).toInt =
        (lane (laneBits et) ((s.core (BitVec.toNat c)).rv v) k).toInt ∧
      k ≤ j)) ∧
    (∃ (s : State) (c : CoreId) (v : VReg) (p : PReg) (et : ElemType) (k : Nat), s.MayIssue c ∧
      et.isInt = false ∧
      k ∈ List.filter (fun k => ((s.core (BitVec.toNat c)).rp p).getLsbD k) (List.range (512 / laneBits et)) ∧
      ((∀ j ∈ List.filter (fun k => ((s.core (BitVec.toNat c)).rp p).getLsbD k) (List.range (512 / laneBits et)),
    ((laneFmt et).val (lane (laneBits et) ((s.core (BitVec.toNat c)).rv v) j).toNat).isNan = false ∧
      (fpLt ((laneFmt et).val (lane (laneBits et) ((s.core (BitVec.toNat c)).rv v) j).toNat)
            ((laneFmt et).val (lane (laneBits et) ((s.core (BitVec.toNat c)).rv v) k).toNat) =
          true ∨
        fpEq ((laneFmt et).val (lane (laneBits et) ((s.core (BitVec.toNat c)).rv v) j).toNat)
              ((laneFmt et).val (lane (laneBits et) ((s.core (BitVec.toNat c)).rv v) k).toNat) =
            true ∧
          k ≤ j)) ∨
  ((laneFmt et).val (lane (laneBits et) ((s.core (BitVec.toNat c)).rv v) k).toNat).isNan = true ∧
    ∀ j ∈ List.filter (fun k => ((s.core (BitVec.toNat c)).rp p).getLsbD k) (List.range (512 / laneBits et)),
      ((laneFmt et).val (lane (laneBits et) ((s.core (BitVec.toNat c)).rv v) j).toNat).isNan = true → k ≤ j)) :=
  ⟨⟨ConversionAndMovement.state1, 3, ElemType.int8, ElemType.int8, mayIssue_of (by decide), by decide, by decide⟩,
   ⟨ConversionAndMovement.state1, 3, ElemType.int8, ElemType.fp32, mayIssue_of (by decide), by decide, by decide⟩,
   ⟨ConversionAndMovement.state1, 3, ElemType.fp32, ElemType.int8, mayIssue_of (by decide), by decide, by decide⟩,
   ⟨ConversionAndMovement.state1, 3, ElemType.fp32, ElemType.fp32, mayIssue_of (by decide), by decide, by decide⟩,
   ⟨ConversionAndMovement.state1, 3, 3, ElemType.int8, mayIssue_of (by decide), by decide⟩,
   ⟨ConversionAndMovement.state1, 3, 0, 0, ElemType.int8, 0, mayIssue_of (by decide), by decide, by decide, by decide⟩,
   ⟨ConversionAndMovement.state1, 3, 0, 0, ElemType.int8, 0, mayIssue_of (by decide), by decide, by decide, by decide⟩,
   ⟨ConversionAndMovement.state1, 3, 0, 1, ElemType.fp32, 0, mayIssue_of (by decide), by decide, by decide, by decide, by decide⟩,
   ⟨ConversionAndMovement.state1, 3, 0, 1, ElemType.fp32, 0, mayIssue_of (by decide), by decide, by decide, by decide, by decide⟩,
   ⟨ConversionAndMovement.state1, 3, 2, 0, ElemType.fp32, 0, mayIssue_of (by decide), by decide, by decide, by decide⟩,
   ⟨ConversionAndMovement.state1, 3, 2, ElemType.int8, mayIssue_of (by decide), by decide⟩,
   ⟨ConversionAndMovement.state1, 3, 0, 0, ElemType.int8, 0, mayIssue_of (by decide), by decide, by decide, by decide⟩,
   ⟨ConversionAndMovement.state1, 3, 0, 0, ElemType.fp32, 0, mayIssue_of (by decide), by decide, by decide, by decide⟩⟩

-- KernelSynchronisation.

namespace KernelSynchronisation
def state1 : State := running (aCore numbers) { state := .done }
def state2 : State := running { aCore numbers with stores := [⟨0x10000000, [1, 2], false⟩] }
def state3 : State := running { state := .barrier, stores := [⟨0x10000000, [1, 2], true⟩, ⟨0x10000001, [3], false⟩] } { state := .barrier, stores := [⟨0x20000000, [7], true⟩] }
def state4 : State := running { state := .barrier } { state := .barrier }
def state5 : State := running { state := .xred, xred := some (.fsum, 1, 5) } { state := .xred, xred := some (.fsum, 1, 5) }
def kernelRun1 : KernelRun := { coat := 0, index := 0, cores := [3, 4], unordered := false, limit := 4 }
end KernelSynchronisation
theorem witness_KernelSynchronisation :
    (∃ (s : State) (c : CoreId) (k : KernelRun), s.MayIssue c ∧
      s.kernelOf (BitVec.toNat c) = some k ∧
      (∀ d ∈ k.cores, d ≠ BitVec.toNat c → (s.core d).state ≠ CoreRun.done)) ∧
    (∃ (s : State) (c : CoreId) (sd : SReg) (sa : SReg) (k : KernelRun) (i : Instr), s.MayIssue c ∧
      s.kernelOf (BitVec.toNat c) = some k ∧
      (∃ d ∈ k.cores, d ≠ BitVec.toNat c ∧ (s.core d).state = CoreRun.done) ∧
      i ∈ [Instr.bar c, Instr.xredFsum c sd sa, Instr.xredIsum c sd sa]) ∧
    (∃ (s : State) (w : Nat) (i : Nat) (k : KernelRun), s.kernelRun w i = some k ∧
      (∀ d ∈ k.cores, (s.core d).state = CoreRun.barrier)) ∧
    (∃ (s : State) (w : Nat) (i : Nat) (k : KernelRun) (op : XredOp) (sd : Nat → SReg) (v : Nat → BitVec 64), s.kernelRun w i = some k ∧
      k.cores ≠ [] ∧
      (∀ d ∈ k.cores, (s.core d).state = CoreRun.xred ∧ (s.core d).xred = some (op, sd d, v d))) :=
  ⟨⟨KernelSynchronisation.state2, 3, KernelSynchronisation.kernelRun1, mayIssue_of (by decide), by decide, by decide⟩,
   ⟨KernelSynchronisation.state1, 3, 1, 1, KernelSynchronisation.kernelRun1, Instr.bar 3, mayIssue_of (by decide), by decide, by decide, by decide⟩,
   ⟨KernelSynchronisation.state3, 0, 0, KernelSynchronisation.kernelRun1, by decide, by decide⟩,
   ⟨KernelSynchronisation.state5, 0, 0, KernelSynchronisation.kernelRun1, XredOp.fsum, fun x => 1, fun x => 5, by decide, by decide, by decide⟩⟩

-- KernelLifecycle.

namespace KernelLifecycle
def work1 : Work := ⟨{ aBatch with runs := [{}] }, anImage, 0, aCoat, {}⟩
def state2 : State := running (aCore numbers) { state := .barrier }
def state3 : State := running { state := .done } { state := .done }
def state4 : State := running { state := .done, stores := [⟨0x10000000, [1, 2], true⟩] } { state := .done, stores := [⟨0x20000000, [7], false⟩] }
def state5 : State := setFields (running { state := .done } { state := .run, onHost := false }) ((List.range 64).map fun c => (Fld.TRIM_MAP_CORE c, if c = 4 then 3 else c))
end KernelLifecycle
theorem witness_KernelLifecycle :
    (∃ (s : State) (i : Nat) (j : Nat) (w : Work) (k : Kernel), s.coatAt i = some w ∧
      (w.g.kernelsOf w.c)[j]? = some k ∧
      s.kernelMay w j k = true ∧
      s.trim.cores.length = 64 ∧
      k.codeSize ≤ 65536 ∧
      k.zeroSize ≤ 393216) ∧
    (∃ (s : State) (c : CoreId) (k : KernelRun), s.MayIssue c ∧
      s.kernelOf (BitVec.toNat c) = some k ∧
      (∀ d ∈ k.cores, d ≠ BitVec.toNat c → (s.core d).state ≠ CoreRun.barrier ∧ (s.core d).state ≠ CoreRun.xred)) ∧
    (∃ (s : State) (c : CoreId) (k : KernelRun), s.MayIssue c ∧
      s.kernelOf (BitVec.toNat c) = some k ∧
      (∃ d ∈ k.cores, d ≠ BitVec.toNat c ∧ ((s.core d).state = CoreRun.barrier ∨ (s.core d).state = CoreRun.xred))) ∧
    (∃ (s : State) (i : Nat) (j : Nat) (k : KernelRun), s.kernelRun i j = some k ∧
      (∀ d ∈ k.cores, (s.core d).state = CoreRun.done)) ∧
    (∃ (s : State) (h : Nat) (a : CoreId) (b : CoreId), a ≠ b ∧
      s.trim.cores.length = 64 ∧
      (∀ (c : CoreId), s.rget (Fld.TRIM_MAP_CORE (BitVec.toNat c)) = h ↔ c = a ∨ c = b) ∧
      (s.core (BitVec.toNat a)).onHost = true ∧
      (s.core (BitVec.toNat b)).onHost = false ∧
      (s.core (BitVec.toNat a)).state ≠ CoreRun.run ∧
      (s.core (BitVec.toNat a)).state ≠ CoreRun.allCredits) :=
  ⟨⟨atCoat anImage aBatch, 0, 0, KernelLifecycle.work1, aKernel, by decide, by decide, by decide, by decide, by decide, by decide⟩,
   ⟨running (aCore numbers), 3, { coat := 0, index := 0, cores := [3, 4], unordered := false, limit := 4 : KernelRun }, mayIssue_of (by decide), by decide, by decide⟩,
   ⟨KernelLifecycle.state2, 3, { coat := 0, index := 0, cores := [3, 4], unordered := false, limit := 4 : KernelRun }, mayIssue_of (by decide), by decide, by decide⟩,
   ⟨KernelLifecycle.state3, 0, 0, { coat := 0, index := 0, cores := [3, 4], unordered := false, limit := 4 : KernelRun }, by decide, by decide⟩,
   ⟨KernelLifecycle.state5, 3, 3, 4, by decide, by decide, by decide, by decide, by decide, by decide, by decide⟩⟩

-- DeliveryCredits.

namespace DeliveryCredits
def sending (n : Nat) (st : CoreRun := .run) (sd : Option SReg := none) : Machine.Core := { aCore [(1, 64), (2, 9 * 2 ^ 32 + 8), (3, 100)] with credits := n, state := st, send := sd }
def sends (x : Machine.Core) : State :=
  let s := atCoat anImage aBatch
  { s with
    trim := { (running x).trim with rr := 2 }
    srv := { s.srv with requests := [(9, { aRequest with outSize := 108 })] } }
def aWork : Work := ⟨{ aBatch with runs := [{}] }, anImage, 0, aCoat, {}⟩
def state4 : State := sends (sending 3 .allCredits)
def state5 : State := sends (sending 0 .credit (some 1))
def state6 : State := let s := sends (sending 3); { s with trim := { s.trim with cores := s.trim.cores.map fun (x : Machine.Core) => if x.credits = 3 then x else { x with credits := 4 } } }
def request1 : Request := { aRequest with outSize := 108 }
end DeliveryCredits
theorem witness_DeliveryCredits :
    (∃ (s : State) (c : CoreId) (sa : SReg), s.trim.cores.length = 64 ∧
      s.MayIssue c ∧
      BitVec.toNat sa ≤ 29 ∧
      (s.core (BitVec.toNat c)).credits = 0) ∧
    (∃ (s : State) (c : CoreId) (sa : SReg), s.trim.cores.length = 64 ∧
      s.MayIssue c ∧
      BitVec.toNat sa ≤ 29 ∧
      (s.core (BitVec.toNat c)).credits = 4) ∧
    (∃ (s : State) (c : CoreId) (sa : SReg), s.trim.cores.length = 64 ∧
      s.MayIssue c ∧
      BitVec.toNat sa ≤ 29 ∧
      (s.core (BitVec.toNat c)).credits ≠ 4) ∧
    (∃ (s : State) (c : CoreId) (sa : SReg) (w : Work) (k : Kernel), s.trim.cores.length = 64 ∧
      s.MayIssue c ∧
      BitVec.toNat sa ≤ 29 ∧
      0 < (s.core (BitVec.toNat c)).credits ∧
      s.bindingOf (BitVec.toNat c) = some (w, k) ∧
      (1 ≤ ((s.core (BitVec.toNat c)).rs (sa + 2)).toNat % 2 ^ 13 ∧
  ((s.core (BitVec.toNat c)).rs (sa + 2)).toNat % 2 ^ 13 ≤ 4096) ∧
      ((s.core (BitVec.toNat c)).rs sa).toNat + ((s.core (BitVec.toNat c)).rs (sa + 2)).toNat % 2 ^ 13 ≤ 393216 ∧
      (∃ r ∈ w.b.rows, r.tag = ((s.core (BitVec.toNat c)).rs (sa + 1)).toNat / 2 ^ 32) ∧
      (((s.core (BitVec.toNat c)).rs (sa + 2)).toNat < 2 ^ 13 →
  (∀ d ∈ w.run.deliveries,
      d.row = ((s.core (BitVec.toNat c)).rs (sa + 1)).toNat / 2 ^ 32 →
        d.status = false →
          ((s.core (BitVec.toNat c)).rs (sa + 1)).toNat % 2 ^ 32 +
                ((s.core (BitVec.toNat c)).rs (sa + 2)).toNat % 2 ^ 13 ≤
              d.offset ∨
            d.offset + d.bytes.length ≤ ((s.core (BitVec.toNat c)).rs (sa + 1)).toNat % 2 ^ 32) ∧
    (∀ (z : Nat),
        s.skimOf w.b (((s.core (BitVec.toNat c)).rs (sa + 1)).toNat / 2 ^ 32) = some z →
          ((s.core (BitVec.toNat c)).rs (sa + 1)).toNat % 2 ^ 32 +
              ((s.core (BitVec.toNat c)).rs (sa + 2)).toNat % 2 ^ 13 ≤
            320) ∧
      (s.skimOf w.b (((s.core (BitVec.toNat c)).rs (sa + 1)).toNat / 2 ^ 32) = none →
        ∃ q,
          s.request (((s.core (BitVec.toNat c)).rs (sa + 1)).toNat / 2 ^ 32) = some q ∧
            ((s.core (BitVec.toNat c)).rs (sa + 1)).toNat % 2 ^ 32 +
                  ((s.core (BitVec.toNat c)).rs (sa + 2)).toNat % 2 ^ 13 ≤
                q.outSize ∧
              ∀ d ∈ q.delivered,
                ((s.core (BitVec.toNat c)).rs (sa + 1)).toNat % 2 ^ 32 +
                      ((s.core (BitVec.toNat c)).rs (sa + 2)).toNat % 2 ^ 13 ≤
                    d.1 ∨
                  d.1 + d.2 ≤ ((s.core (BitVec.toNat c)).rs (sa + 1)).toNat % 2 ^ 32)) ∧
      (2 ^ 13 ≤ ((s.core (BitVec.toNat c)).rs (sa + 2)).toNat →
  ((s.core (BitVec.toNat c)).rs (sa + 2)).toNat < 2 ^ 14 ∧ ((s.core (BitVec.toNat c)).rs (sa + 2)).toNat % 2 ^ 13 = 16)) ∧
    (∃ (s : State) (c : CoreId), s.trim.cores.length = 64 ∧
      (s.core (BitVec.toNat c)).credits < 4 ∧
      s.nextSlot = some (BitVec.toNat c) ∧
      (s.core (BitVec.toNat c)).state ≠ CoreRun.credit) ∧
    (∃ (s : State) (c : CoreId) (sa : SReg) (w : Work) (k : Kernel), s.trim.cores.length = 64 ∧
      (s.core (BitVec.toNat c)).credits < 4 ∧
      s.nextSlot = some (BitVec.toNat c) ∧
      BitVec.toNat sa ≤ 29 ∧
      (s.core (BitVec.toNat c)).state = CoreRun.credit ∧
      (s.core (BitVec.toNat c)).send = some sa ∧
      s.bindingOf (BitVec.toNat c) = some (w, k) ∧
      (1 ≤ ((s.core (BitVec.toNat c)).rs (sa + 2)).toNat % 2 ^ 13 ∧
  ((s.core (BitVec.toNat c)).rs (sa + 2)).toNat % 2 ^ 13 ≤ 4096) ∧
      ((s.core (BitVec.toNat c)).rs sa).toNat + ((s.core (BitVec.toNat c)).rs (sa + 2)).toNat % 2 ^ 13 ≤ 393216 ∧
      (∃ r ∈ w.b.rows, r.tag = ((s.core (BitVec.toNat c)).rs (sa + 1)).toNat / 2 ^ 32) ∧
      (((s.core (BitVec.toNat c)).rs (sa + 2)).toNat < 2 ^ 13 →
  (∀ d ∈ w.run.deliveries,
      d.row = ((s.core (BitVec.toNat c)).rs (sa + 1)).toNat / 2 ^ 32 →
        d.status = false →
          ((s.core (BitVec.toNat c)).rs (sa + 1)).toNat % 2 ^ 32 +
                ((s.core (BitVec.toNat c)).rs (sa + 2)).toNat % 2 ^ 13 ≤
              d.offset ∨
            d.offset + d.bytes.length ≤ ((s.core (BitVec.toNat c)).rs (sa + 1)).toNat % 2 ^ 32) ∧
    (∀ (z : Nat),
        s.skimOf w.b (((s.core (BitVec.toNat c)).rs (sa + 1)).toNat / 2 ^ 32) = some z →
          ((s.core (BitVec.toNat c)).rs (sa + 1)).toNat % 2 ^ 32 +
              ((s.core (BitVec.toNat c)).rs (sa + 2)).toNat % 2 ^ 13 ≤
            320) ∧
      (s.skimOf w.b (((s.core (BitVec.toNat c)).rs (sa + 1)).toNat / 2 ^ 32) = none →
        ∃ q,
          s.request (((s.core (BitVec.toNat c)).rs (sa + 1)).toNat / 2 ^ 32) = some q ∧
            ((s.core (BitVec.toNat c)).rs (sa + 1)).toNat % 2 ^ 32 +
                  ((s.core (BitVec.toNat c)).rs (sa + 2)).toNat % 2 ^ 13 ≤
                q.outSize ∧
              ∀ d ∈ q.delivered,
                ((s.core (BitVec.toNat c)).rs (sa + 1)).toNat % 2 ^ 32 +
                      ((s.core (BitVec.toNat c)).rs (sa + 2)).toNat % 2 ^ 13 ≤
                    d.1 ∨
                  d.1 + d.2 ≤ ((s.core (BitVec.toNat c)).rs (sa + 1)).toNat % 2 ^ 32)) ∧
      (2 ^ 13 ≤ ((s.core (BitVec.toNat c)).rs (sa + 2)).toNat →
  ((s.core (BitVec.toNat c)).rs (sa + 2)).toNat < 2 ^ 14 ∧ ((s.core (BitVec.toNat c)).rs (sa + 2)).toNat % 2 ^ 13 = 16)) ∧
    (∃ (s : State) (c : CoreId), s.trim.cores.length = 64 ∧
      (∀ (d : CoreId), (s.core (BitVec.toNat d)).credits < 4 ↔ d = c)) :=
  ⟨⟨DeliveryCredits.sends (DeliveryCredits.sending 0), 3, 1, by decide, mayIssue_of (by decide), by decide, by decide⟩,
   ⟨DeliveryCredits.sends (DeliveryCredits.sending 4), 3, 1, by decide, mayIssue_of (by decide), by decide, by decide⟩,
   ⟨DeliveryCredits.sends (DeliveryCredits.sending 0), 3, 1, by decide, mayIssue_of (by decide), by decide, by decide⟩,
   ⟨DeliveryCredits.sends (DeliveryCredits.sending 3), 3, 1, DeliveryCredits.aWork, aKernel, by decide, mayIssue_of (by decide), by decide, by decide, by decide, by decide, by decide, by decide, by decide, by decide⟩,
   ⟨DeliveryCredits.sends (DeliveryCredits.sending 0), 3, by decide, by decide, by decide, by decide⟩,
   ⟨DeliveryCredits.state5, 3, 1, DeliveryCredits.aWork, aKernel, by decide, by decide, by decide, by decide, by decide, by decide, by decide, by decide, by decide, by decide, by decide, by decide⟩,
   ⟨DeliveryCredits.sends (DeliveryCredits.sending 0), 3, by decide, by decide⟩⟩

-- LinksAndAddressResolution.

namespace LinksAndAddressResolution
def livePorts : State := linkedPorts [(Fld.CLK_STATUS_LOCK, 15)]
def withNet (f : NetState → NetState) : State := { livePorts with net := f livePorts.net }
def state2 : State := setFields livePorts [(Fld.CLK_STATUS_XA_FAIL, 1)]
def state3 : State := withNet fun n => { n with ports := [{ aPort with dadAt := some 0 }] }
def state4 : State := withNet fun n => { n with neighbors := [⟨0, true, 6, 98, false, 0, 0⟩] }
def state5 : State := withNet fun n => { n with neighbors := [⟨0, true, 6, 98, false, 0, 3⟩] }
def arpPacket1 : ArpPacket := ⟨0, 0, 99, 0x0A000001, 0x0A0000FE, none⟩
def arpPacket2 : ArpPacket := ⟨0, 0, 99, 0x0A000001, 5, none⟩
def ndPacket1 : NdPacket := ⟨0, 0, 98, 6, 5, true, none⟩
def ndPacket2 : NdPacket := ⟨0, 0, 98, 0, 5, false, none⟩
def ndPacket3 : NdPacket := ⟨0, 0, 98, 6, 7, true, none⟩
def ndPacket4 : NdPacket := ⟨0, 0, 98, 0, linkLocal 0, false, none⟩
def echoPacket1 : EchoPacket := ⟨0, 0, false, 0x0A000001, 0x0A0000FE, 1, 2, [3], none⟩
def echoPacket2 : EchoPacket := ⟨0, 0, true, 6, 5, 1, 2, [3], none⟩
def echoPacket3 : EchoPacket := ⟨0, 0, false, 0x0A000007, 0x0A0000FE, 1, 2, [3], none⟩
def echoPacket4 : EchoPacket := ⟨0, 0, false, 0x0A000001, 7, 1, 2, [3], none⟩
def neighbor1 : Neighbor := ⟨0, true, 6, 98, false, 0, 0⟩
def neighbor2 : Neighbor := ⟨0, true, 6, 98, false, 0, 3⟩
end LinksAndAddressResolution
theorem witness_LinksAndAddressResolution :
    (∃ (s : State) (port : Nat), port < 6 ∧
      s.rget Fld.CLK_STATUS_XA_FAIL = 0 ∧
      (s.rget Fld.CLK_STATUS_LOCK).testBit 1 = true ∧
      (s.rget Fld.SYS_GATE_PORT).testBit port = true ∧
      port < s.net.ports.length) ∧
    (∃ (s : State) (port : Nat), port < 6 ∧
      (s.rget Fld.CLK_STATUS_XA_FAIL = 1 ∨
  (s.rget Fld.CLK_STATUS_LOCK).testBit 1 = false ∨ (s.rget Fld.SYS_GATE_PORT).testBit port = false)) ∧
    (∃ (s : State) (a : ArpPacket), s.PlainPort a.port ∧
      a.vlan = (s.port a.port).applied.vlan ∧
      a.sec = none ∧
      s.portAddress a.port false a.target = false) ∧
    (∃ (s : State) (a : ArpPacket), s.PlainPort a.port ∧
      a.vlan = (s.port a.port).applied.vlan ∧
      a.sec = none ∧
      (s.port a.port).applied.v4 = true ∧
      a.target = (s.port a.port).applied.ipv4) ∧
    (∃ (s : State) (n : NdPacket), s.PlainPort n.port ∧
      n.vlan = (s.port n.port).applied.vlan ∧
      n.sec = none ∧
      s.portAddress n.port true n.target = true ∧
      n.ip ≠ 0) ∧
    (∃ (s : State) (n : NdPacket), s.PlainPort n.port ∧
      n.vlan = (s.port n.port).applied.vlan ∧
      n.sec = none ∧
      s.portAddress n.port true n.target = true ∧
      n.ip = 0 ∧
      (n.target ≠ linkLocal (s.portMac n.port) ∨ s.detecting n.port = false)) ∧
    (∃ (s : State) (n : NdPacket), s.PlainPort n.port ∧
      n.vlan = (s.port n.port).applied.vlan ∧
      n.sec = none ∧
      s.portAddress n.port true n.target = false ∧
      n.target ≠ linkLocal (s.portMac n.port)) ∧
    (∃ (s : State) (n : NdPacket), s.PlainPort n.port ∧
      n.vlan = (s.port n.port).applied.vlan ∧
      n.sec = none ∧
      n.ip = 0 ∧
      n.target = linkLocal (s.portMac n.port) ∧
      n.mac ≠ s.portMac n.port ∧
      s.detecting n.port = true ∧
      n.port < s.net.ports.length) ∧
    (∃ (s : State) (e : EchoPacket) (hop : Nat) (mac : Nat), s.PlainPort e.port ∧
      e.vlan = (s.port e.port).applied.vlan ∧
      e.sec = none ∧
      s.nextHop e.port e.v6 e.src = some hop ∧
      (mtuOk e.port e.v6 e.data.length = true ∧ s.portAddress e.port e.v6 e.dst = true) ∧
      s.Knows e.port e.v6 hop mac) ∧
    (∃ (s : State) (e : EchoPacket) (hop : Nat), s.PlainPort e.port ∧
      e.vlan = (s.port e.port).applied.vlan ∧
      e.sec = none ∧
      s.nextHop e.port e.v6 e.src = some hop ∧
      (mtuOk e.port e.v6 e.data.length = true ∧ s.portAddress e.port e.v6 e.dst = true) ∧
      s.neighbor e.port e.v6 hop = none) ∧
    (∃ (s : State) (e : EchoPacket) (hop : Nat) (n : Neighbor), s.PlainPort e.port ∧
      e.vlan = (s.port e.port).applied.vlan ∧
      e.sec = none ∧
      s.nextHop e.port e.v6 e.src = some hop ∧
      (mtuOk e.port e.v6 e.data.length = true ∧ s.portAddress e.port e.v6 e.dst = true) ∧
      s.net.neighbors = [n] ∧
      s.neighbor e.port e.v6 hop = some n ∧
      n.stale (s.now (portSide e.port)) = true ∧
      n.probes < 3) ∧
    (∃ (s : State) (e : EchoPacket) (hop : Nat) (n : Neighbor), s.PlainPort e.port ∧
      e.vlan = (s.port e.port).applied.vlan ∧
      e.sec = none ∧
      s.nextHop e.port e.v6 e.src = some hop ∧
      (mtuOk e.port e.v6 e.data.length = true ∧ s.portAddress e.port e.v6 e.dst = true) ∧
      s.net.neighbors = [n] ∧
      s.neighbor e.port e.v6 hop = some n ∧
      n.stale (s.now (portSide e.port)) = true ∧
      3 ≤ n.probes) ∧
    (∃ (s : State) (e : EchoPacket) (hop : Nat), s.PlainPort e.port ∧
      e.vlan = (s.port e.port).applied.vlan ∧
      e.sec = none ∧
      s.nextHop e.port e.v6 e.src = some hop ∧
      ¬(mtuOk e.port e.v6 e.data.length = true ∧ s.portAddress e.port e.v6 e.dst = true)) :=
  ⟨⟨LinksAndAddressResolution.livePorts, 0, by decide, by decide, by decide, by decide, by decide⟩,
   ⟨LinksAndAddressResolution.state2, 0, by decide, by decide⟩,
   ⟨LinksAndAddressResolution.livePorts, LinksAndAddressResolution.arpPacket2, by unfold State.PlainPort; exact (by decide), by decide, by decide, by decide⟩,
   ⟨LinksAndAddressResolution.livePorts, LinksAndAddressResolution.arpPacket1, by unfold State.PlainPort; exact (by decide), by decide, by decide, by decide, by decide⟩,
   ⟨LinksAndAddressResolution.livePorts, LinksAndAddressResolution.ndPacket1, by unfold State.PlainPort; exact (by decide), by decide, by decide, by decide, by decide⟩,
   ⟨LinksAndAddressResolution.livePorts, LinksAndAddressResolution.ndPacket2, by unfold State.PlainPort; exact (by decide), by decide, by decide, by decide, by decide, by decide⟩,
   ⟨LinksAndAddressResolution.livePorts, LinksAndAddressResolution.ndPacket3, by unfold State.PlainPort; exact (by decide), by decide, by decide, by decide, by decide⟩,
   ⟨LinksAndAddressResolution.state3, LinksAndAddressResolution.ndPacket4, by unfold State.PlainPort; exact (by decide), by decide, by decide, by decide, by decide, by decide, by decide, by decide⟩,
   ⟨LinksAndAddressResolution.livePorts, LinksAndAddressResolution.echoPacket1, 167772161, 99, by unfold State.PlainPort; exact (by decide), by decide, by decide, by decide, by decide, knows_of (by decide)⟩,
   ⟨LinksAndAddressResolution.livePorts, LinksAndAddressResolution.echoPacket3, (LinksAndAddressResolution.livePorts.nextHop LinksAndAddressResolution.echoPacket3.port
      LinksAndAddressResolution.echoPacket3.v6 LinksAndAddressResolution.echoPacket3.src).getD
  167772161, by unfold State.PlainPort; exact (by decide), by decide, by decide, by decide, by decide, by decide⟩,
   ⟨LinksAndAddressResolution.state4, LinksAndAddressResolution.echoPacket2, 6, LinksAndAddressResolution.neighbor1, by unfold State.PlainPort; exact (by decide), by decide, by decide, by decide, by decide, by decide, by decide, by decide, by decide⟩,
   ⟨LinksAndAddressResolution.state5, LinksAndAddressResolution.echoPacket2, 6, LinksAndAddressResolution.neighbor2, by unfold State.PlainPort; exact (by decide), by decide, by decide, by decide, by decide, by decide, by decide, by decide, by decide⟩,
   ⟨LinksAndAddressResolution.livePorts, LinksAndAddressResolution.echoPacket4, 167772161, by unfold State.PlainPort; exact (by decide), by decide, by decide, by decide, by decide⟩⟩

-- Macsec.

namespace Macsec
def secured (rx : List MacsecSa) (tx : Option MacsecSa) : State :=
  { linkedPorts with net := { linkedPorts.net with ports := [aPort, aPort, { aPort with rxSas := rx, txSa := tx }, aPort, aPort, aPort] } }.rset Fld.NET_PCFG_MACSEC 1 2
def rxSa : MacsecSa := { an := 1, cipher := 1, sci := 77, key := [], salt := [], ssci := 0, pn := 100, seen := [100, 99] }
def txSa (pn : Nat) : MacsecSa := { an := 2, cipher := 1, sci := 0, key := [], salt := [], ssci := 0, pn := pn }
def state1 : State := secured [rxSa] (some (txSa 5))
def state2 : State := secured [rxSa] (some (txSa (2 ^ 32)))
def arpPacket1 : ArpPacket := ⟨2, 0, 99, 0x0A000001, 0x0A0000FE, some ⟨1, 77, 101, true⟩⟩
def arpPacket2 : ArpPacket := ⟨2, 0, 99, 0x0A000001, 7, some ⟨1, 77, 101, true⟩⟩
def arpPacket3 : ArpPacket := ⟨2, 0, 99, 0x0A000001, 0x0A0000FE, some ⟨1, 77, 99, true⟩⟩
def arpPacket4 : ArpPacket := ⟨2, 0, 99, 0x0A000001, 0x0A0000FE, some ⟨1, 78, 101, true⟩⟩
def arpPacket5 : ArpPacket := ⟨2, 0, 99, 0x0A000001, 0x0A0000FE, none⟩
def msg1 : Msg := aMsg 4 (bytes 80 [(0, [3, 1, 0, 1])])
def msg2 : Msg := aMsg 4 (bytes 80 [(0, [3, 1, 1, 2, 9])])
def msg3 : Msg := aMsg 4 (bytes 80 [(0, [1])])
end Macsec
theorem witness_Macsec :
    (∃ (s : State) (a : ArpPacket), s.portLive a.port = true ∧
      s.rget Fld.NET_PCFG_MACSEC a.port = 1 ∧
      a.vlan = (s.port a.port).applied.vlan ∧
      a.port < s.net.ports.length ∧
      a.sec = none) ∧
    (∃ (s : State) (a : ArpPacket) (g : MacsecTag), s.portLive a.port = true ∧
      s.rget Fld.NET_PCFG_MACSEC a.port = 1 ∧
      a.vlan = (s.port a.port).applied.vlan ∧
      a.port < s.net.ports.length ∧
      a.sec = some g ∧
      ((∀ r ∈ (s.port a.port).rxSas, r.an = g.an → r.sci ≠ g.sci) ∨ g.ok = false)) ∧
    (∃ (s : State) (a : ArpPacket) (g : MacsecTag) (r : MacsecSa), s.portLive a.port = true ∧
      s.rget Fld.NET_PCFG_MACSEC a.port = 1 ∧
      a.vlan = (s.port a.port).applied.vlan ∧
      a.port < s.net.ports.length ∧
      a.sec = some g ∧
      (s.port a.port).rxSas = [r] ∧
      r.an = g.an ∧
      r.sci = g.sci ∧
      g.ok = true ∧
      (g.pn + 64 ≤ r.pn ∨ g.pn ∈ r.seen)) ∧
    (∃ (s : State) (a : ArpPacket) (g : MacsecTag) (r : MacsecSa), s.portLive a.port = true ∧
      s.rget Fld.NET_PCFG_MACSEC a.port = 1 ∧
      a.vlan = (s.port a.port).applied.vlan ∧
      a.port < s.net.ports.length ∧
      a.sec = some g ∧
      (s.port a.port).rxSas = [r] ∧
      r.an = g.an ∧
      r.sci = g.sci ∧
      g.ok = true ∧
      r.pn < g.pn + 64 ∧
      g.pn ∉ r.seen ∧
      s.portAddress a.port false a.target = false) ∧
    (∃ (s : State) (a : ArpPacket) (g : MacsecTag) (r : MacsecSa) (sa : MacsecSa), s.portLive a.port = true ∧
      s.rget Fld.NET_PCFG_MACSEC a.port = 1 ∧
      a.vlan = (s.port a.port).applied.vlan ∧
      a.port < s.net.ports.length ∧
      a.sec = some g ∧
      (s.port a.port).rxSas = [r] ∧
      r.an = g.an ∧
      r.sci = g.sci ∧
      g.ok = true ∧
      r.pn < g.pn + 64 ∧
      g.pn ∉ r.seen ∧
      s.portAddress a.port false a.target = true ∧
      (s.port a.port).txSa = some sa ∧
      sa.pn ≤ if Option.any (fun x => x.cipher == 2) (s.port a.port).txSa = true then 2 ^ 64 - 1 else 2 ^ 32 - 1) ∧
    (∃ (s : State) (a : ArpPacket) (g : MacsecTag) (r : MacsecSa) (sa : MacsecSa), s.portLive a.port = true ∧
      s.rget Fld.NET_PCFG_MACSEC a.port = 1 ∧
      a.vlan = (s.port a.port).applied.vlan ∧
      a.port < s.net.ports.length ∧
      a.sec = some g ∧
      (s.port a.port).rxSas = [r] ∧
      r.an = g.an ∧
      r.sci = g.sci ∧
      g.ok = true ∧
      r.pn < g.pn + 64 ∧
      g.pn ∉ r.seen ∧
      s.portAddress a.port false a.target = true ∧
      (s.port a.port).txSa = some sa ∧
      (if Option.any (fun x => x.cipher == 2) (s.port a.port).txSa = true then 2 ^ 64 - 1 else 2 ^ 32 - 1) < sa.pn) ∧
    (∃ (s : State) (m : Msg) (x : Session), s.Hears m x 5 m.payload.length ∧
      (m.payload.length ≠ 80 ∨
  u8 m.payload 0 < 2 ∨
    5 < u8 m.payload 0 ∨
      3 < u8 m.payload 1 ∨
        1 < u8 m.payload 2 ∨
          u8 m.payload 3 = 0 ∨
            2 < u8 m.payload 3 ∨
              u8 m.payload 3 = 2 ∧ s.rget Fld.NET_PCFG_XPN (u8 m.payload 0) = 0 ∨
                allZero m.payload 12 20 = false ∨
                  u8 m.payload 2 = 0 ∧ allZero m.payload 4 8 = false ∨
                    u8 m.payload 3 = 1 ∧ allZero m.payload 64 16 = false)) ∧
    (∃ (s : State) (m : Msg) (x : Session), s.Hears m x 5 m.payload.length ∧
      m.payload.length = 80 ∧
      2 ≤ u8 m.payload 0 ∧
      u8 m.payload 0 ≤ 5 ∧
      u8 m.payload 1 ≤ 3 ∧
      (u8 m.payload 3 = 1 ∧ allZero m.payload 64 16 = true ∨ u8 m.payload 3 = 2 ∧ s.rget Fld.NET_PCFG_XPN (u8 m.payload 0) = 1) ∧
      allZero m.payload 12 20 = true ∧
      u8 m.payload 0 < s.net.ports.length ∧
      u8 m.payload 2 = 0 ∧
      allZero m.payload 4 8 = true) ∧
    (∃ (s : State) (m : Msg) (x : Session), s.Hears m x 5 m.payload.length ∧
      m.payload.length = 80 ∧
      2 ≤ u8 m.payload 0 ∧
      u8 m.payload 0 ≤ 5 ∧
      u8 m.payload 1 ≤ 3 ∧
      (u8 m.payload 3 = 1 ∧ allZero m.payload 64 16 = true ∨ u8 m.payload 3 = 2 ∧ s.rget Fld.NET_PCFG_XPN (u8 m.payload 0) = 1) ∧
      allZero m.payload 12 20 = true ∧
      u8 m.payload 0 < s.net.ports.length ∧
      u8 m.payload 2 = 1) :=
  ⟨⟨Macsec.state1, Macsec.arpPacket5, by decide, by decide, by decide, by decide, by decide⟩,
   ⟨Macsec.state1, Macsec.arpPacket4, { an := 1, sci := 78, pn := 101, ok := true : MacsecTag }, by decide, by decide, by decide, by decide, by decide, by decide⟩,
   ⟨Macsec.state1, Macsec.arpPacket3, { an := 1, sci := 77, pn := 99, ok := true : MacsecTag }, Macsec.rxSa, by decide, by decide, by decide, by decide, by decide, by decide, by decide, by decide, by decide, by decide⟩,
   ⟨Macsec.state1, Macsec.arpPacket2, { an := 1, sci := 77, pn := 101, ok := true : MacsecTag }, Macsec.rxSa, by decide, by decide, by decide, by decide, by decide, by decide, by decide, by decide, by decide, by decide, by decide, by decide⟩,
   ⟨Macsec.state1, Macsec.arpPacket1, { an := 1, sci := 77, pn := 101, ok := true : MacsecTag }, Macsec.rxSa, Macsec.txSa 5, by decide, by decide, by decide, by decide, by decide, by decide, by decide, by decide, by decide, by decide, by decide, by decide, by decide, by decide⟩,
   ⟨Macsec.state2, Macsec.arpPacket1, { an := 1, sci := 77, pn := 101, ok := true : MacsecTag }, Macsec.rxSa, (Macsec.state2.port Macsec.arpPacket1.port).txSa.getD Macsec.rxSa, by decide, by decide, by decide, by decide, by decide, by decide, by decide, by decide, by decide, by decide, by decide, by decide, by decide, by decide⟩,
   ⟨Macsec.state1, Macsec.msg2, aSession 4, hears_of (by decide), by decide⟩,
   ⟨Macsec.state1, Macsec.msg1, aSession 4, hears_of (by decide), by decide, by decide, by decide, by decide, by decide, by decide, by decide, by decide, by decide⟩,
   ⟨serving.rset Fld.NET_PCFG_XPN 1 3, Macsec.msg2, aSession 4, hears_of (by decide), by decide, by decide, by decide, by decide, by decide, by decide, by decide, by decide⟩⟩

-- PathTimers.

namespace PathTimers
def p0 : Path := { aPath 0 0 .a with ackOwed := 1 }
def p1 : Path := aPath 0 0 .a
def inFlight : SentFrame := ⟨3, ⟨7, 0, 4⟩, 0, false, 0⟩
def p2 : Path := { aPath 0 0 .a with unacked := [inFlight] }
def p3 : Path := { aPath 0 0 .a with unacked := [inFlight], expiries := 7 }
def sess (p : Path) : Session := { aSession 1 with paths := [p], sending := [(7, ⟨[1, 2, 3, 4, 5, 6], [], []⟩)] }
def onPath0 (p : Path) : State := { linkedPorts with net := { linkedPorts.net with sessions := [(1, sess p)] } }
def wireMsg1 : WireMsg := ⟨[1, 2, 3, 4, 5, 6], [], []⟩
end PathTimers
theorem witness_PathTimers :
    (∃ (s : State) (n : Nat) (k : Nat) (hop : Nat) (mac : Nat) (x : Session) (p : Machine.Path), s.session n = some x ∧
      x.path k = some p ∧
      s.PlainPort p.port ∧
      s.nextHop p.port p.peer.v6 p.peer.addr = some hop ∧
      s.Knows p.port p.peer.v6 hop mac ∧
      0 < p.ackOwed) ∧
    (∃ (s : State) (n : Nat) (k : Nat) (hop : Nat) (mac : Nat) (x : Session) (p : Machine.Path), s.session n = some x ∧
      x.path k = some p ∧
      s.PlainPort p.port ∧
      s.nextHop p.port p.peer.v6 p.peer.addr = some hop ∧
      s.Knows p.port p.peer.v6 hop mac ∧
      p.ackOwed = 0) ∧
    (∃ (s : State) (n : Nat) (k : Nat) (hop : Nat) (mac : Nat) (x : Session) (p : Machine.Path), s.session n = some x ∧
      x.path k = some p ∧
      s.PlainPort p.port ∧
      s.nextHop p.port p.peer.v6 p.peer.addr = some hop ∧
      s.Knows p.port p.peer.v6 hop mac ∧
      p.unacked = [] ∧
      s.feUp p.fe = true ∧
      p.txNext ≤ 4294967294) ∧
    (∃ (s : State) (n : Nat) (k : Nat) (hop : Nat) (mac : Nat) (x : Session) (p : Machine.Path) (f : SentFrame) (l : List SentFrame) (w : WireMsg), s.session n = some x ∧
      x.path k = some p ∧
      s.PlainPort p.port ∧
      s.nextHop p.port p.peer.v6 p.peer.addr = some hop ∧
      s.Knows p.port p.peer.v6 hop mac ∧
      p.unacked = f :: l ∧
      (∀ g ∈ l, g.packet ≠ f.packet) ∧
      0 < f.frag.length ∧
      x.sending.fetch f.frag.message = some w ∧
      p.txNext ≤ 4294967294 ∧
      (p.expiries < 7 ∨ p.down = true)) ∧
    (∃ (s : State) (n : Nat) (k : Nat) (hop : Nat) (mac : Nat) (x : Session) (p : Machine.Path) (f : SentFrame) (l : List SentFrame) (w : WireMsg), s.session n = some x ∧
      x.path k = some p ∧
      s.PlainPort p.port ∧
      s.nextHop p.port p.peer.v6 p.peer.addr = some hop ∧
      s.Knows p.port p.peer.v6 hop mac ∧
      p.unacked = f :: l ∧
      (∀ g ∈ l, g.packet ≠ f.packet) ∧
      0 < f.frag.length ∧
      x.sending.fetch f.frag.message = some w ∧
      p.txNext ≤ 4294967294 ∧
      7 ≤ p.expiries ∧
      p.down = false ∧
      x.paths = [p]) :=
  ⟨⟨PathTimers.onPath0 PathTimers.p0, 1, 0, 167772161, 99, PathTimers.sess PathTimers.p0, PathTimers.p0, by decide, by decide, (by unfold State.PlainPort; decide), by decide, knows_of (by decide), by decide⟩,
   ⟨PathTimers.onPath0 PathTimers.p1, 1, 0, 167772161, 99, PathTimers.sess PathTimers.p1, PathTimers.p1, by decide, by decide, (by unfold State.PlainPort; decide), by decide, knows_of (by decide), by decide⟩,
   ⟨PathTimers.onPath0 PathTimers.p0, 1, 0, 167772161, 99, PathTimers.sess PathTimers.p0, PathTimers.p0, by decide, by decide, (by unfold State.PlainPort; decide), by decide, knows_of (by decide), by decide, by decide, by decide⟩,
   ⟨PathTimers.onPath0 PathTimers.p2, 1, 0, 167772161, 99, PathTimers.sess PathTimers.p2, PathTimers.p2, PathTimers.inFlight, [], { bytes := [1, 2, 3, 4, 5, 6] }, by decide, by decide, (by unfold State.PlainPort; decide), by decide, knows_of (by decide), by decide, by decide, by decide, by decide, by decide, by decide⟩,
   ⟨PathTimers.onPath0 PathTimers.p3, 1, 0, 167772161, 99, PathTimers.sess PathTimers.p3, PathTimers.p3, PathTimers.inFlight, [], { bytes := [1, 2, 3, 4, 5, 6] }, by decide, by decide, (by unfold State.PlainPort; decide), by decide, knows_of (by decide), by decide, by decide, by decide, by decide, by decide, by decide, by decide, by decide⟩⟩

-- FramesReceived.

namespace FramesReceived
def onAir (x : Session) : State := { linkedPorts with net := { linkedPorts.net with sessions := [(1, x)] } }
def arrives (b : List Byte) : Datagram := ⟨0, 0, ⟨false, 0x0A000001, 47100⟩, 0x0A0000FE, 47100, false, false, false, none, b⟩
def frameOf (b : List Byte) : RxFrame := (parseFrame b).getD ⟨0, 0, 0, 0, 0, []⟩
def pA : Path := aPath 0 0 .a
def pB : Path := { aPath 0 0 .a with unacked := [⟨3, ⟨7, 0, 4⟩, 0, true, 0⟩], rxCum := 4 }
def xA : Session := aSession 1
def xB : Session := { aSession 1 with window := 2, paths := [pA] }
def xC : Session := { aSession 1 with paths := [pB], sending := [(7, ⟨[1, 2, 3, 4], [], []⟩)] }
def fData : List Byte := dataBytes 1 0 0 1 9 0 [7, 8, 9]
def fAck : List Byte := ackBytes 1 { pA with rxCum := 3, echo := 9 } 5 0
def fProbe : List Byte := probeBytes 1 0 0 4
def fReset : List Byte := resetBytes 1 0 1 1 1
def fReset0 : List Byte := resetBytes 1 0 0 5 0
def fAckOld : List Byte := ackBytes 1 { pA with rxCum := 3, echo := 9, rxEpoch := 3 } 5 0
end FramesReceived
theorem witness_FramesReceived :
    (∃ (s : State) (d : Datagram) (f : RxFrame) (kind : Nat) (x : Session) (p : Machine.Path), s.OnPath d f kind x p ∧
      x.closing = false ∧
      kind = 1 ∧
      f.epoch = p.rxEpoch ∧
      f.packet = p.rxCum + 1 ∧
      p.rxAbove = [] ∧
      p.ackOwed = 0 ∧
      x.nextDeliver ≤ u64 f.bytes 16 ∧
      u64 f.bytes 16 ≠ 0 ∧
      u64 f.bytes 16 < 2 ^ 43 ∧
      x.ahead.has (u64 f.bytes 16) = false ∧
      x.assemblies.fetch (u64 f.bytes 16) = none ∧
      u32 f.bytes 24 = 0 ∧
      0 < (List.drop 32 f.bytes).length ∧
      (List.drop 32 f.bytes).length < 32 ∧
      x.rxBegun - x.rxConsumed + (List.drop 32 f.bytes).length ≤ x.window ∧
      x.counter < 2 ^ 63 - 2 ∧
      x.nextDeliver < 2 ^ 43) ∧
    (∃ (s : State) (d : Datagram) (f : RxFrame) (kind : Nat) (x : Session) (p : Machine.Path), s.OnPath d f kind x p ∧
      x.closing = false ∧
      kind = 1 ∧
      f.epoch = p.rxEpoch ∧
      p.has f.packet = false ∧
      x.nextDeliver ≤ u64 f.bytes 16 ∧
      u64 f.bytes 16 ≠ 0 ∧
      u64 f.bytes 16 < 2 ^ 43 ∧
      x.ahead.has (u64 f.bytes 16) = false ∧
      x.assemblies.fetch (u64 f.bytes 16) = none ∧
      u32 f.bytes 24 = 0 ∧
      0 < (List.drop 32 f.bytes).length ∧
      (List.drop 32 f.bytes).length < 32 ∧
      x.window < x.rxBegun - x.rxConsumed + (List.drop 32 f.bytes).length) ∧
    (∃ (s : State) (d : Datagram) (f : RxFrame) (kind : Nat) (x : Session) (p : Machine.Path), s.OnPath d f kind x p ∧
      x.closing = false ∧
      kind = 2 ∧
      f.epoch = p.txEpoch ∧
      x.paths = [p] ∧
      p.toSend = [] ∧
      (∀ g ∈ p.unacked, g.packet ≤ u32 f.bytes 16) ∧
      (∀ g ∈ p.unacked, g.retx = true ∨ g.packet ≠ u32 f.bytes 32)) ∧
    (∃ (s : State) (d : Datagram) (f : RxFrame) (kind : Nat) (x : Session) (p : Machine.Path) (hop : Nat) (mac : Nat), s.OnPath d f kind x p ∧
      x.closing = false ∧
      kind = 3 ∧
      f.epoch = p.rxEpoch ∧
      p.has f.packet = true ∧
      s.nextHop p.port p.peer.v6 p.peer.addr = some hop ∧
      s.Knows p.port p.peer.v6 hop mac) ∧
    (∃ (s : State) (d : Datagram) (f : RxFrame) (kind : Nat) (x : Session) (p : Machine.Path), s.OnPath d f kind x p ∧
      x.closing = false ∧
      kind = 4 ∧
      (0 < (u16 f.bytes 16 + 65536 - p.rxEpoch % 65536) % 65536 ∧ (u16 f.bytes 16 + 65536 - p.rxEpoch % 65536) % 65536 < 32768)) ∧
    (∃ (s : State) (d : Datagram) (f : RxFrame) (kind : Nat) (x : Session) (p : Machine.Path), s.OnPath d f kind x p ∧
      x.closing = false ∧
      kind = 4 ∧
      (¬(0 < (u16 f.bytes 16 + 65536 - p.rxEpoch % 65536) % 65536 ∧
    (u16 f.bytes 16 + 65536 - p.rxEpoch % 65536) % 65536 < 32768))) ∧
    (∃ (s : State) (d : Datagram) (f : RxFrame) (kind : Nat) (x : Session) (p : Machine.Path), s.OnPath d f kind x p ∧
      x.closing = false ∧
      kind ≠ 1) ∧
    (∃ (s : State) (d : Datagram) (f : RxFrame) (kind : Nat) (x : Session) (p : Machine.Path), s.OnPath d f kind x p ∧
      x.closing = false ∧
      kind = 2 ∧
      f.epoch ≠ p.txEpoch) :=
  ⟨⟨FramesReceived.onAir FramesReceived.xA, FramesReceived.arrives FramesReceived.fData, FramesReceived.frameOf FramesReceived.fData, 1, FramesReceived.xA, FramesReceived.pA, onPath_of (by decide), by decide, by decide, by decide, by decide, by decide, by decide, by decide, by decide, by decide, by decide, by decide, by decide, by decide, by decide, by decide, by decide, by decide⟩,
   ⟨FramesReceived.onAir FramesReceived.xB, FramesReceived.arrives FramesReceived.fData, FramesReceived.frameOf FramesReceived.fData, 1, FramesReceived.xB, FramesReceived.pA, onPath_of (by decide), by decide, by decide, by decide, by decide, by decide, by decide, by decide, by decide, by decide, by decide, by decide, by decide, by decide⟩,
   ⟨FramesReceived.onAir FramesReceived.xA, FramesReceived.arrives FramesReceived.fAck, FramesReceived.frameOf FramesReceived.fAck, 2, FramesReceived.xA, FramesReceived.pA, onPath_of (by decide), by decide, by decide, by decide, by decide, by decide, by decide, by decide⟩,
   ⟨FramesReceived.onAir FramesReceived.xC, FramesReceived.arrives FramesReceived.fProbe, FramesReceived.frameOf FramesReceived.fProbe, 3, FramesReceived.xC, FramesReceived.pB, 167772161, 99, onPath_of (by decide), by decide, by decide, by decide, by decide, by decide, knows_of (by decide)⟩,
   ⟨FramesReceived.onAir FramesReceived.xA, FramesReceived.arrives FramesReceived.fReset, FramesReceived.frameOf FramesReceived.fReset, 4, FramesReceived.xA, FramesReceived.pA, onPath_of (by decide), by decide, by decide, by decide⟩,
   ⟨FramesReceived.onAir FramesReceived.xA, FramesReceived.arrives FramesReceived.fReset0, FramesReceived.frameOf FramesReceived.fReset0, 4, FramesReceived.xA, FramesReceived.pA, onPath_of (by decide), by decide, by decide, by decide⟩,
   ⟨FramesReceived.onAir FramesReceived.xA, FramesReceived.arrives FramesReceived.fAck, FramesReceived.frameOf FramesReceived.fAck, 2, FramesReceived.xA, FramesReceived.pA, onPath_of (by decide), by decide, by decide⟩,
   ⟨FramesReceived.onAir FramesReceived.xA, FramesReceived.arrives FramesReceived.fAckOld, FramesReceived.frameOf FramesReceived.fAckOld, 2, FramesReceived.xA, FramesReceived.pA, onPath_of (by decide), by decide, by decide, by decide⟩⟩

-- MessagesSentAndReceived.

namespace MessagesSentAndReceived
def onAir (x : Session) : State := { linkedPorts with net := { linkedPorts.net with sessions := [(1, x)] } }
def arrives (b : List Byte) (addr : Nat := 0x0A000001) : Datagram := ⟨0, 0, ⟨false, addr, 47100⟩, 0x0A0000FE, 47100, false, false, false, none, b⟩
def frameOf (b : List Byte) : RxFrame := (parseFrame b).getD ⟨0, 0, 0, 0, 0, []⟩
def wireOf (type session len number tag : Nat) : List Byte :=
  leBytes 2 0x5451 ++ leBytes 2 0x0103 ++ leBytes 2 type ++ leBytes 2 0 ++ leBytes 4 session ++ leBytes 4 len ++ leBytes 8 number ++ leBytes 4 tag ++ zeroBytes 4 ++ zeroBytes (len + 16)
def xA : Session := { aSession 1 with minor := 3 }
def aReady : ModMsg := { number := 2 ^ 20, type := 3, code := 0, payload := [1] }
def xB : Session := { aSession 1 with ready := [aReady] }
def xC : Session := { aSession 1 with ready := [aReady], partnerWindow := 3 }
def fNew : List Byte := dataBytes 1 0 0 1 2 0 (wireOf 0x0100 1 0 2 9)
def fOld : List Byte := dataBytes 1 0 0 1 1 0 (wireOf 0x0100 1 0 1 9)
def fPath : List Byte := dataBytes 1 1 0 1 2 0 (wireOf 4 1 32 2 9)
def fNoPath : List Byte := dataBytes 1 1 0 1 2 0 (wireOf 0x0100 1 32 2 9)
def fOpen : List Byte := dataBytes 0 0 0 1 1 0 ((wireOf 1 0 288 1 9).take 320)
end MessagesSentAndReceived
theorem witness_MessagesSentAndReceived :
    (∃ (s : State) (d : Datagram) (f : RxFrame) (x : Session) (p : Machine.Path), s.OnPath d f 1 x p ∧
      x.closing = false ∧
      f.epoch = p.rxEpoch ∧
      p.has f.packet = false ∧
      x.ahead = [] ∧
      x.assemblies.fetch x.nextDeliver = none ∧
      x.nextDeliver < 2 ^ 43 - 1 ∧
      x.counter < 2 ^ 63 - 2 ∧
      x.nextDeliver ≠ 0 ∧
      u64 f.bytes 16 = x.nextDeliver ∧
      u32 f.bytes 24 = 0 ∧
      (List.drop 32 f.bytes).length = 48 + u32 (List.drop 32 f.bytes) 12 ∧
      u16 (List.drop 32 f.bytes) 0 = 21585 ∧
      u16 (List.drop 32 f.bytes) 2 = 256 + x.minor ∧
      u16 (List.drop 32 f.bytes) 6 = 0 ∧
      u32 (List.drop 32 f.bytes) 8 = x.number ∧
      u64 (List.drop 32 f.bytes) 16 = x.nextDeliver ∧
      u16 (List.drop 32 f.bytes) 28 = 0 ∧
      u16 (List.drop 32 f.bytes) 30 = 0 ∧
      x.rxBegun - x.rxConsumed + (48 + u32 (List.drop 32 f.bytes) 12) ≤ x.window ∧
      u16 (List.drop 32 f.bytes) 4 ∈ [3, 256, 288, 768, 1024, 1536]) ∧
    (∃ (s : State) (d : Datagram) (f : RxFrame) (x : Session) (p : Machine.Path), s.OnPath d f 1 x p ∧
      x.closing = false ∧
      f.epoch = p.rxEpoch ∧
      p.has f.packet = false ∧
      x.repeats = [] ∧
      u64 f.bytes 16 < x.nextDeliver ∧
      u64 f.bytes 16 ≠ 0 ∧
      u64 f.bytes 16 < 2 ^ 43 ∧
      u32 f.bytes 24 = 0 ∧
      (List.drop 32 f.bytes).length = 48 + u32 (List.drop 32 f.bytes) 12 ∧
      u16 (List.drop 32 f.bytes) 0 = 21585 ∧
      u16 (List.drop 32 f.bytes) 2 = 256 + x.minor ∧
      u16 (List.drop 32 f.bytes) 6 = 0 ∧
      u32 (List.drop 32 f.bytes) 8 = x.number ∧
      u64 (List.drop 32 f.bytes) 16 = u64 f.bytes 16 ∧
      u16 (List.drop 32 f.bytes) 28 = 0 ∧
      u16 (List.drop 32 f.bytes) 30 = 0) ∧
    (∃ (s : State) (d : Datagram) (f : RxFrame) (x : Session), s.Takes d ∧
      parseFrame d.bytes = some f ∧
      f.kind = 1 ∧
      s.session f.session = some x ∧
      f.session ≠ 0 ∧
      x.closing = false ∧
      s.feUp (portSide d.port) = true ∧
      (∀ p ∈ x.paths, ¬(p.port = d.port ∧ p.peer = d.peer)) ∧
      x.ahead = [] ∧
      s.net.newPaths = [] ∧
      x.nextDeliver < 2 ^ 43 ∧
      u64 f.bytes 16 = x.nextDeliver ∧
      u32 f.bytes 24 = 0 ∧
      (List.drop 32 f.bytes).length = 80 ∧
      x.rxBegun - x.rxConsumed + 80 ≤ x.window ∧
      (u16 (List.drop 32 f.bytes) 0 = 21585 ∧
  u16 (List.drop 32 f.bytes) 2 = 256 + x.minor ∧
    u16 (List.drop 32 f.bytes) 6 = 0 ∧
      u32 (List.drop 32 f.bytes) 8 = f.session ∧
        u32 (List.drop 32 f.bytes) 12 = 32 ∧
          u64 (List.drop 32 f.bytes) 16 = x.nextDeliver ∧
            u16 (List.drop 32 f.bytes) 28 = 0 ∧ u16 (List.drop 32 f.bytes) 30 = 0) ∧
      u16 (List.drop 32 f.bytes) 4 = 4) ∧
    (∃ (s : State) (d : Datagram) (f : RxFrame) (x : Session), s.Takes d ∧
      parseFrame d.bytes = some f ∧
      f.kind = 1 ∧
      s.session f.session = some x ∧
      f.session ≠ 0 ∧
      x.closing = false ∧
      s.feUp (portSide d.port) = true ∧
      (∀ p ∈ x.paths, ¬(p.port = d.port ∧ p.peer = d.peer)) ∧
      x.ahead = [] ∧
      s.net.newPaths = [] ∧
      x.nextDeliver < 2 ^ 43 ∧
      u64 f.bytes 16 = x.nextDeliver ∧
      u32 f.bytes 24 = 0 ∧
      (List.drop 32 f.bytes).length = 80 ∧
      x.rxBegun - x.rxConsumed + 80 ≤ x.window ∧
      u16 (List.drop 32 f.bytes) 4 ≠ 4) ∧
    (∃ (s : State) (d : Datagram) (f : RxFrame), s.Takes d ∧
      parseFrame d.bytes = some f ∧
      f.kind = 1 ∧
      f.session = 0 ∧
      f.path = 0 ∧
      u64 f.bytes 16 = 1 ∧
      u32 f.bytes 24 = 0 ∧
      (∀ o ∈ s.net.opens, ¬(o.port = d.port ∧ o.peer = d.peer)) ∧
      (List.drop 32 f.bytes).length = 320 ∧
      u32 (List.drop 32 f.bytes) 12 = 288) ∧
    (∃ (s : State) (n : Nat) (x : Session) (m : ModMsg), s.session n = some x ∧
      s.nextReady x = some m ∧
      x.closing = false ∧
      x.counter < 2 ^ 63 - 2 ∧
      x.nextDeliver < 2 ^ 43 ∧
      (∀ q ∈ s.srv.sequences, q.2.phase ≠ SeqPhase.unsent) ∧
      (x.txBegun - x.txConsumed + (32 + m.payload.length + if m.plain = true then 0 else 16) ≤ x.partnerWindow)) ∧
    (∃ (s : State) (n : Nat) (x : Session) (m : ModMsg), s.session n = some x ∧
      s.nextReady x = some m ∧
      x.closing = false ∧
      x.counter < 2 ^ 63 - 2 ∧
      x.nextDeliver < 2 ^ 43 ∧
      (∀ q ∈ s.srv.sequences, q.2.phase ≠ SeqPhase.unsent) ∧
      (x.partnerWindow < x.txBegun - x.txConsumed + (32 + m.payload.length + if m.plain = true then 0 else 16))) :=
  ⟨⟨MessagesSentAndReceived.onAir MessagesSentAndReceived.xA, MessagesSentAndReceived.arrives MessagesSentAndReceived.fNew, MessagesSentAndReceived.frameOf MessagesSentAndReceived.fNew, MessagesSentAndReceived.xA, aPath 0 0 Side.a, onPath_of (by decide), by decide, by decide, by decide, by decide, by decide, by decide, by decide, by decide, by decide, by decide, by decide, by decide, by decide, by decide, by decide, by decide, by decide, by decide, by decide, by decide⟩,
   ⟨MessagesSentAndReceived.onAir MessagesSentAndReceived.xA, MessagesSentAndReceived.arrives MessagesSentAndReceived.fOld, MessagesSentAndReceived.frameOf MessagesSentAndReceived.fOld, MessagesSentAndReceived.xA, aPath 0 0 Side.a, onPath_of (by decide), by decide, by decide, by decide, by decide, by decide, by decide, by decide, by decide, by decide, by decide, by decide, by decide, by decide, by decide, by decide, by decide⟩,
   ⟨MessagesSentAndReceived.onAir MessagesSentAndReceived.xA, MessagesSentAndReceived.arrives MessagesSentAndReceived.fPath 167772162, MessagesSentAndReceived.frameOf MessagesSentAndReceived.fPath, MessagesSentAndReceived.xA, takes_of (by decide), by decide, by decide, by decide, by decide, by decide, by decide, by decide, by decide, by decide, by decide, by decide, by decide, by decide, by decide, by decide, by decide⟩,
   ⟨MessagesSentAndReceived.onAir MessagesSentAndReceived.xA, MessagesSentAndReceived.arrives MessagesSentAndReceived.fNoPath 167772162, MessagesSentAndReceived.frameOf MessagesSentAndReceived.fNoPath, MessagesSentAndReceived.xA, takes_of (by decide), by decide, by decide, by decide, by decide, by decide, by decide, by decide, by decide, by decide, by decide, by decide, by decide, by decide, by decide, by decide⟩,
   ⟨MessagesSentAndReceived.onAir MessagesSentAndReceived.xA, MessagesSentAndReceived.arrives MessagesSentAndReceived.fOpen, MessagesSentAndReceived.frameOf MessagesSentAndReceived.fOpen, takes_of (by decide), by decide, by decide, by decide, by decide, by decide, by decide, by decide, by decide, by decide⟩,
   ⟨MessagesSentAndReceived.onAir MessagesSentAndReceived.xB, 1, MessagesSentAndReceived.xB, MessagesSentAndReceived.aReady, by decide, by decide, by decide, by decide, by decide, by decide, by decide⟩,
   ⟨MessagesSentAndReceived.onAir MessagesSentAndReceived.xC, 1, MessagesSentAndReceived.xC, MessagesSentAndReceived.aReady, by decide, by decide, by decide, by decide, by decide, by decide, by decide⟩⟩

-- SessionOpening.

namespace SessionOpening
def openWire : List Byte := bytes 320 [(0, [0x51, 0x54, 0, 1, 1, 0, 1, 0]), (12, [0x20, 1]), (16, [1]), (32, [1, 3, 1]), (40, [0, 0, 1])]
def opening : State :=
  State.rset { linkedPorts with net := { linkedPorts.net with sessions := [], openInbox := [⟨0, ⟨false, 0x0A000001, 47100⟩, openWire⟩] }, cont := { linkedPorts.cont with acting := true } } Fld.MEM_STATUS_TRAINED 1
def taken : List Nat × State := (opening.takePages (opening.grantWindow (u32 (openWire.drop 32) 8) / 65536)).getD ([], opening)
def peerAddr1 : PeerAddr := ⟨false, 0x0A000001, 47100⟩
end SessionOpening
theorem witness_SessionOpening :
    ∃ (s : State) (port : Nat) (peer : PeerAddr) (wire : List Byte) (hop : Nat) (mac : Nat) (index : Nat) (pages : List Nat) (s1 : State), s.supActs = true ∧
      (s.twinActs = true ∨ u8 (List.drop 32 wire) 2 = 5) ∧
      s.boot.step = 11 ∧
      s.rget Fld.SEC_TRNG_FAIL = 0 ∧
      s.PlainPort port ∧
      s.feUp (portSide port) = true ∧
      s.nextHop port peer.v6 peer.addr = some hop ∧
      s.Knows port peer.v6 hop mac ∧
      s.net.openInbox = [{ port := port, peer := peer, wire := wire : OpenRequest }] ∧
      wire.length = 320 ∧
      u16 wire 0 = 21585 ∧
      u16 wire 4 = 1 ∧
      u16 wire 6 = 1 ∧
      u32 wire 8 = 0 ∧
      u32 wire 12 = 288 ∧
      u64 wire 16 = 1 ∧
      u16 wire 28 = 0 ∧
      u16 wire 30 = 0 ∧
      s.net.sessions.firstFree 0 16384 = some index ∧
      s.takePages (s.grantWindow (u32 (List.drop 32 wire) 8) / 65536) = some (pages, s1) :=
  ⟨SessionOpening.opening, 0, SessionOpening.peerAddr1, SessionOpening.openWire, 167772161, 99, 0, SessionOpening.taken.1, SessionOpening.taken.2, by decide, by decide, by decide, by decide, by unfold State.PlainPort; exact (by decide), by decide, by decide, knows_of (by decide), by decide, by decide, by decide, by decide, by decide, by decide, by decide, by decide, by decide, by decide, by decide, by decide⟩

-- SessionsCloseAndGainPaths.

namespace SessionsCloseAndGainPaths
def state1 : State := { serving with net := { sessions := [(1, { aSession 1 with authWait := [3] }), (2, { aSession 2 with paths := [aPath 0 0 .a, aPath 1 1 .b, aPath 2 2 .a, aPath 3 3 .b] })] } }
def msg3 : Msg := aMsg 1 (bytes 32 [(3, [1])])
def peerAddr1 : PeerAddr := ⟨false, 0x0A000001, 47100⟩
def session1 : Session := { aSession 2 with paths := [aPath 0 0 .a, aPath 1 1 .b, aPath 2 2 .a, aPath 3 3 .b] }
end SessionsCloseAndGainPaths
theorem witness_SessionsCloseAndGainPaths :
    (∃ (s : State) (m : Msg) (x : Session), s.Hears m x 3 32 ∧
      s.mayActFor m.session = true ∧
      allZero m.payload 0 32 = false) ∧
    (∃ (s : State) (m : Msg) (x : Session), s.Hears m x 3 32 ∧
      s.mayActFor m.session = true ∧
      allZero m.payload 0 32 = true ∧
      s.NoWork m.session) ∧
    (∃ (s : State) (m : Msg) (x : Session) (k : Nat), s.session m.session = some x ∧
      x.closing = false ∧
      s.mayActFor m.session = true ∧
      s.NoWork m.session ∧
      k ∈ x.authWait) ∧
    (∃ (s : State) (m : Msg) (x : Session) (k : Nat), s.session m.session = some x ∧
      x.closing = false ∧
      s.mayActFor m.session = true ∧
      s.NoWork m.session ∧
      (k ∉ x.authWait)) ∧
    (∃ (s : State) (m : Msg) (x : Session), s.Hears m x 4 32 ∧
      allZero m.payload 0 32 = true ∧
      4 ≤ x.paths.length) ∧
    (∃ (s : State) (m : Msg) (x : Session) (port : Nat) (q : Machine.Path), s.Hears m x 4 32 ∧
      allZero m.payload 0 32 = true ∧
      x.paths = [q] ∧
      q.down = false ∧
      (3 ≤ x.minor ∨ 2 ≤ port ∨ portSide port = q.home)) ∧
    (∃ (s : State) (m : Msg) (x : Session) (port : Nat) (q : Machine.Path), s.Hears m x 4 32 ∧
      allZero m.payload 0 32 = true ∧
      x.paths = [q] ∧
      x.minor < 3 ∧
      port < 2 ∧
      portSide port ≠ q.home) :=
  ⟨⟨serving, SessionsCloseAndGainPaths.msg3, aSession 1, hears_of (by decide), by decide, by decide⟩,
   ⟨SessionsCloseAndGainPaths.state1, aMsg 2 (zeroBytes 32), SessionsCloseAndGainPaths.session1, hears_of (by decide), by decide, by decide, noWork_of (by decide)⟩,
   ⟨SessionsCloseAndGainPaths.state1, aMsg 1 (zeroBytes 32), (SessionsCloseAndGainPaths.state1.session (aMsg 1 (zeroBytes 32)).session).getD SessionsCloseAndGainPaths.session1, 3, by decide, by decide, by decide, noWork_of (by decide), by decide⟩,
   ⟨SessionsCloseAndGainPaths.state1, aMsg 2 (zeroBytes 32), SessionsCloseAndGainPaths.session1, 0, by decide, by decide, by decide, noWork_of (by decide), by decide⟩,
   ⟨SessionsCloseAndGainPaths.state1, aMsg 2 (zeroBytes 32), SessionsCloseAndGainPaths.session1, hears_of (by decide), by decide, by decide⟩,
   ⟨serving, aMsg 2 (zeroBytes 32), aSession 2, 0, aPath 0 0 Side.a, hears_of (by decide), by decide, by decide, by decide, by decide⟩,
   ⟨serving, aMsg 2 (zeroBytes 32), aSession 2, 1, aPath 0 0 Side.a, hears_of (by decide), by decide, by decide, by decide, by decide, by decide⟩⟩

-- CounterClearsAndNetSettings.

namespace CounterClearsAndNetSettings
def state1 : State := setFields serving [(Fld.SYS_GATE_ARR, 1), (Fld.SYS_GATE_FEED, 1), (Fld.SYS_GATE_TRIM, 1), (Fld.SYS_GATE_MEM, 1), (Fld.SYS_GATE_VID, 1)]
end CounterClearsAndNetSettings
theorem witness_CounterClearsAndNetSettings :
    (∃ (s : State), s.rget Fld.SYS_GATE_ARR = 1) ∧
    (∃ (s : State), s.rget Fld.SYS_GATE_FEED = 1) ∧
    (∃ (s : State), s.rget Fld.SYS_GATE_TRIM = 1) ∧
    (∃ (s : State), s.rget Fld.SYS_GATE_MEM = 1) ∧
    (∃ (s : State), s.rget Fld.SYS_GATE_VID = 1) ∧
    (∃ (s : State) (f : Machine.Field) (i : Instr), (f, i) ∈
  [(Fld.SYS_GATE_ARR, Instr.arrCounterClear), (Fld.SYS_GATE_FEED, Instr.feedCounterClear),
    (Fld.SYS_GATE_TRIM, Instr.trimCounterClear), (Fld.SYS_GATE_MEM, Instr.memCounterClear),
    (Fld.SYS_GATE_VID, Instr.vidCounterClear)] ∧
      s.rget f = 0) ∧
    (∃ (s : State), s.net.ports.length = 6) :=
  ⟨⟨CounterClearsAndNetSettings.state1, by decide⟩,
   ⟨CounterClearsAndNetSettings.state1, by decide⟩,
   ⟨CounterClearsAndNetSettings.state1, by decide⟩,
   ⟨CounterClearsAndNetSettings.state1, by decide⟩,
   ⟨CounterClearsAndNetSettings.state1, by decide⟩,
   ⟨serving, Fld.SYS_GATE_ARR, Instr.arrCounterClear, by decide, by decide⟩,
   ⟨CounterClearsAndNetSettings.state1, by decide⟩⟩

-- ManagementReads.

namespace ManagementReads
def aRead (addr count : Nat) (l : List (Nat × List Byte) := []) : Msg := aMsg 2 (bytes 32 ([(0, leBytes 4 addr), (4, leBytes 2 count)] ++ l))
def state1 : State := setFields serving [(Fld.SYS_GATE_ARR, 0)]
end ManagementReads
theorem witness_ManagementReads :
    (∃ (s : State) (m : Msg) (x : Session), s.session m.session = some x ∧
      x.closing = false ∧
      s.mayActFor m.session = true ∧
      s.leftToTwin m = false ∧
      s.roleAllows x.role 768 = false) ∧
    (∃ (s : State) (m : Msg) (x : Session), s.session m.session = some x ∧
      x.closing = false ∧
      s.mayActFor m.session = true ∧
      s.leftToTwin m = false ∧
      s.roleAllows x.role 768 = true ∧
      m.payload.length ≠ 32) ∧
    (∃ (s : State) (m : Msg) (x : Session), s.session m.session = some x ∧
      x.closing = false ∧
      s.mayActFor m.session = true ∧
      s.leftToTwin m = false ∧
      s.roleAllows x.role 768 = true ∧
      m.payload.length = 32 ∧
      (allZero m.payload 6 2 = false ∨ 1 < u8 m.payload 16 ∨ allZero m.payload 17 3 = false ∨ allZero m.payload 28 4 = false)) ∧
    (∃ (s : State) (m : Msg) (x : Session), s.session m.session = some x ∧
      x.closing = false ∧
      s.mayActFor m.session = true ∧
      s.leftToTwin m = false ∧
      s.roleAllows x.role 768 = true ∧
      m.payload.length = 32 ∧
      (allZero m.payload 6 2 = true ∧ u8 m.payload 16 = 0 ∧ allZero m.payload 17 15 = true) ∧
      (¬(u32 m.payload 0 % 4 = 0 ∧
    blockMapped (u32 m.payload 0) = true ∧
      1 ≤ u16 m.payload 4 ∧
        u16 m.payload 4 ≤ 1024 ∧ (u32 m.payload 0 + 4 * (u16 m.payload 4 - 1)) / 65536 = u32 m.payload 0 / 65536))) ∧
    (∃ (s : State) (m : Msg) (x : Session), s.session m.session = some x ∧
      x.closing = false ∧
      s.mayActFor m.session = true ∧
      s.leftToTwin m = false ∧
      s.roleAllows x.role 768 = true ∧
      m.payload.length = 32 ∧
      (allZero m.payload 6 2 = true ∧ u8 m.payload 16 = 0 ∧ allZero m.payload 17 15 = true) ∧
      (u32 m.payload 0 % 4 = 0 ∧
  blockMapped (u32 m.payload 0) = true ∧
    1 ≤ u16 m.payload 4 ∧
      u16 m.payload 4 ≤ 1024 ∧ (u32 m.payload 0 + 4 * (u16 m.payload 4 - 1)) / 65536 = u32 m.payload 0 / 65536) ∧
      u32 m.payload 0 / 65536 = 16 ∧
      s.rget Fld.SYS_GATE_ARR = 0) ∧
    (∃ (s : State) (m : Msg) (x : Session), s.session m.session = some x ∧
      x.closing = false ∧
      s.mayActFor m.session = true ∧
      s.leftToTwin m = false ∧
      s.roleAllows x.role 768 = true ∧
      m.payload.length = 32 ∧
      (allZero m.payload 6 2 = true ∧ u8 m.payload 16 = 0 ∧ allZero m.payload 17 15 = true) ∧
      (u32 m.payload 0 % 4 = 0 ∧
  blockMapped (u32 m.payload 0) = true ∧
    1 ≤ u16 m.payload 4 ∧
      u16 m.payload 4 ≤ 1024 ∧ (u32 m.payload 0 + 4 * (u16 m.payload 4 - 1)) / 65536 = u32 m.payload 0 / 65536) ∧
      u32 m.payload 0 / 65536 ∈ [0, 1, 2, 3, 4, 19, 33, 34, 48, 49, 65, 80, 81]) :=
  ⟨⟨ManagementReads.state1, aMsg 1 [], aSession 1, by decide, by decide, by decide, by decide, by decide⟩,
   ⟨ManagementReads.state1, aMsg 2 [], aSession 2, by decide, by decide, by decide, by decide, by decide, by decide⟩,
   ⟨ManagementReads.state1, ManagementReads.aRead 0 1 [(6, [1])], aSession 2, by decide, by decide, by decide, by decide, by decide, by decide, by decide⟩,
   ⟨ManagementReads.state1, ManagementReads.aRead 0 1025, aSession 2, by decide, by decide, by decide, by decide, by decide, by decide, by decide, by decide⟩,
   ⟨ManagementReads.state1, ManagementReads.aRead 1048576 1, aSession 2, by decide, by decide, by decide, by decide, by decide, by decide, by decide, by decide, by decide, by decide⟩,
   ⟨ManagementReads.state1, ManagementReads.aRead 0 1, aSession 2, by decide, by decide, by decide, by decide, by decide, by decide, by decide, by decide, by decide⟩⟩

-- ManagementAndGateWrites.

namespace ManagementAndGateWrites
def aWrite (addr mask value : Nat) (l : List (Nat × List Byte) := []) : Msg := aMsg 3 (bytes 48 ([(0, leBytes 2 1), (32, leBytes 4 addr), (36, leBytes 4 mask), (40, leBytes 4 value)] ++ l))
def state1 : State := setFields serving [(Fld.SYS_GATE_ARR, 0)]
def state2 : State := setFields serving [(Fld.CONT_STATUS_TWIN, 1)]
def state3 : State := { serving with sec := { fuses := [[9]], switch := some { step := 2, reply := ⟨4, 9, 6⟩, enrolment := { rack := [], cartridges := [], tenant := [], isEmpty := false, entries := [], digest := [] }, number := 8, newOwner := none, firstOwner := none } } }
end ManagementAndGateWrites
theorem witness_ManagementAndGateWrites :
    (∃ (s : State) (m : Msg) (x : Session), s.session m.session = some x ∧
      x.closing = false ∧
      s.mayActFor m.session = true ∧
      (x.role ≠ 3 ∨ x.wantsProtected = true)) ∧
    (∃ (s : State) (m : Msg) (x : Session), s.session m.session = some x ∧
      x.closing = false ∧
      s.mayActFor m.session = true ∧
      x.role = 3 ∧
      x.wantsProtected = false ∧
      s.sec.switch ≠ none) ∧
    (∃ (s : State) (m : Msg) (x : Session), s.session m.session = some x ∧
      x.closing = false ∧
      s.mayActFor m.session = true ∧
      x.role = 3 ∧
      x.wantsProtected = false ∧
      s.sec.switch = none ∧
      m.payload.length ≠ 32 + 16 * u16 m.payload 0) ∧
    (∃ (s : State) (m : Msg) (x : Session), s.session m.session = some x ∧
      x.closing = false ∧
      s.mayActFor m.session = true ∧
      x.role = 3 ∧
      x.wantsProtected = false ∧
      s.sec.switch = none ∧
      m.payload.length = 48 ∧
      u16 m.payload 0 = 1 ∧
      allZero m.payload 2 6 = true ∧
      allZero m.payload 16 16 = true ∧
      (u32 m.payload 32 % 4 ≠ 0 ∨
  blockMapped (u32 m.payload 32) = false ∨
    BitVec.ofNat 32 (u32 m.payload 40) &&& ~~~BitVec.ofNat 32 (u32 m.payload 36) ≠ 0)) ∧
    (∃ (s : State) (m : Msg) (x : Session), s.session m.session = some x ∧
      x.closing = false ∧
      s.mayActFor m.session = true ∧
      x.role = 3 ∧
      x.wantsProtected = false ∧
      s.sec.switch = none ∧
      m.payload.length = 48 ∧
      u16 m.payload 0 = 1 ∧
      allZero m.payload 2 6 = true ∧
      allZero m.payload 16 16 = true ∧
      allZero m.payload 44 4 = true ∧
      BitVec.ofNat 32 (u32 m.payload 40) &&& ~~~BitVec.ofNat 32 (u32 m.payload 36) = 0 ∧
      u32 m.payload 32 / 65536 = 16 ∧
      u32 m.payload 32 % 4 = 0 ∧
      s.rget Fld.SYS_GATE_ARR = 0) ∧
    (∃ (s : State) (m : Msg) (x : Session), s.session m.session = some x ∧
      x.closing = false ∧
      s.mayActFor m.session = true ∧
      x.role = 3 ∧
      x.wantsProtected = false ∧
      s.sec.switch = none ∧
      m.payload.length = 48 ∧
      u16 m.payload 0 = 1 ∧
      allZero m.payload 2 6 = true ∧
      allZero m.payload 16 16 = true ∧
      allZero m.payload 44 4 = true ∧
      BitVec.ofNat 32 (u32 m.payload 40) &&& ~~~BitVec.ofNat 32 (u32 m.payload 36) = 0 ∧
      u32 m.payload 32 = 3145740 ∧
      s.twinState ≠ 0) ∧
    (∃ (s : State) (m : Msg) (x : Session), s.session m.session = some x ∧
      x.closing = false ∧
      s.mayActFor m.session = true ∧
      x.role = 3 ∧
      x.wantsProtected = false ∧
      s.sec.switch = none ∧
      m.payload.length = 48 ∧
      u16 m.payload 0 = 1 ∧
      allZero m.payload 2 6 = true ∧
      allZero m.payload 16 16 = true ∧
      allZero m.payload 44 4 = true ∧
      BitVec.ofNat 32 (u32 m.payload 40) &&& ~~~BitVec.ofNat 32 (u32 m.payload 36) = 0 ∧
      u32 m.payload 32 = 3145740 ∧
      s.twinState = 0 ∧
      BitVec.ofNat 32 (u32 m.payload 40) &&& 4278190080 ≠ 0) ∧
    (∃ (s : State) (m : Msg) (x : Session), s.session m.session = some x ∧
      x.closing = false ∧
      s.mayActFor m.session = true ∧
      x.role = 3 ∧
      x.wantsProtected = false ∧
      s.sec.switch = none ∧
      m.payload.length = 48 ∧
      u16 m.payload 0 = 1 ∧
      allZero m.payload 2 6 = true ∧
      allZero m.payload 16 16 = true ∧
      allZero m.payload 44 4 = true ∧
      BitVec.ofNat 32 (u32 m.payload 40) &&& ~~~BitVec.ofNat 32 (u32 m.payload 36) = 0 ∧
      (u32 m.payload 32 = 131168 ∨ u32 m.payload 32 = 196664) ∧
      s.twinState = 0 ∧
      (s.held x.selectors (u32 m.payload 32) ^^^ BitVec.ofNat 32 (u32 m.payload 40)) &&& BitVec.ofNat 32 (u32 m.payload 36) ≠
  0) ∧
    (∃ (s : State) (m : Msg) (x : Session), s.session m.session = some x ∧
      x.closing = false ∧
      s.mayActFor m.session = true ∧
      x.role = 3 ∧
      x.wantsProtected = false ∧
      s.sec.switch = none ∧
      m.payload.length = 48 ∧
      u16 m.payload 0 = 1 ∧
      allZero m.payload 2 6 = true ∧
      allZero m.payload 16 16 = true ∧
      allZero m.payload 44 4 = true ∧
      BitVec.ofNat 32 (u32 m.payload 40) &&& ~~~BitVec.ofNat 32 (u32 m.payload 36) = 0 ∧
      u32 m.payload 32 = 3145740 ∧
      s.twinState = 0 ∧
      BitVec.ofNat 32 (u32 m.payload 40) &&& 4278190080 = 0) ∧
    (∃ (s : State) (mask : Word) (value : Word), ((∃ i < 15,
    BitVec.getLsbD (s.regs.word 16 0) (16 + i) = true ∧
      BitVec.getLsbD mask i = true ∧ BitVec.getLsbD value i ≠ BitVec.getLsbD (s.regs.word 16 0) i) ∨
  (∃ i < 15,
      BitVec.getLsbD (s.regs.word 16 0) i = true ∧
        BitVec.getLsbD (s.regs.word 16 0 &&& ~~~(mask &&& 32767) ||| value &&& mask &&& 32767) i = false ∧
          s.inUse i = true) ∨
    value &&& mask &&& 32768 ≠ 0)) ∧
    (∃ (s : State) (mask : Word) (value : Word), (¬∃ i < 15,
    BitVec.getLsbD (s.regs.word 16 0) (16 + i) = true ∧
      BitVec.getLsbD mask i = true ∧ BitVec.getLsbD value i ≠ BitVec.getLsbD (s.regs.word 16 0) i) ∧
      (¬∃ i < 15,
    BitVec.getLsbD (s.regs.word 16 0) i = true ∧
      BitVec.getLsbD (s.regs.word 16 0 &&& ~~~(mask &&& 32767) ||| value &&& mask &&& 32767) i = false ∧
        s.inUse i = true) ∧
      mask &&& 4294934528 = 0 ∧
      s.mem.cart.present = false) :=
  ⟨⟨ManagementAndGateWrites.state1, aMsg 2 [], aSession 2, by decide, by decide, by decide, by decide⟩,
   ⟨ManagementAndGateWrites.state3, aMsg 3 [], aSession 3, by decide, by decide, by decide, by decide, by decide, by decide⟩,
   ⟨ManagementAndGateWrites.state1, aMsg 3 [], aSession 3, by decide, by decide, by decide, by decide, by decide, by decide, by decide⟩,
   ⟨ManagementAndGateWrites.state1, ManagementAndGateWrites.aWrite 2 1 1, aSession 3, by decide, by decide, by decide, by decide, by decide, by decide, by decide, by decide, by decide, by decide, by decide⟩,
   ⟨ManagementAndGateWrites.state1, ManagementAndGateWrites.aWrite 1048576 1 1, aSession 3, by decide, by decide, by decide, by decide, by decide, by decide, by decide, by decide, by decide, by decide, by decide, by decide, by decide, by decide, by decide⟩,
   ⟨ManagementAndGateWrites.state2, ManagementAndGateWrites.aWrite 3145740 4294967295 4, aSession 3, by decide, by decide, by decide, by decide, by decide, by decide, by decide, by decide, by decide, by decide, by decide, by decide, by decide, by decide⟩,
   ⟨ManagementAndGateWrites.state1, ManagementAndGateWrites.aWrite 3145740 4294967295 4278190080, aSession 3, by decide, by decide, by decide, by decide, by decide, by decide, by decide, by decide, by decide, by decide, by decide, by decide, by decide, by decide, by decide⟩,
   ⟨ManagementAndGateWrites.state1, ManagementAndGateWrites.aWrite 131168 4294967295 1, aSession 3, by decide, by decide, by decide, by decide, by decide, by decide, by decide, by decide, by decide, by decide, by decide, by decide, by decide, by decide, by decide⟩,
   ⟨ManagementAndGateWrites.state1, ManagementAndGateWrites.aWrite 3145740 4294967295 4, aSession 3, by decide, by decide, by decide, by decide, by decide, by decide, by decide, by decide, by decide, by decide, by decide, by decide, by decide, by decide, by decide⟩,
   ⟨ManagementAndGateWrites.state1, 4294967295, 4294967295, by decide⟩,
   ⟨ManagementAndGateWrites.state1, 0, 4294967295, by decide, by decide, by decide, by decide⟩⟩

-- BudgetAccounts.

namespace BudgetAccounts
def state1 : State := { serving with srv := { accounts := [(7, { isOpen := true, interval := 100, grant := 10 })] } }
def msg1 : Msg := aMsg 2 (bytes 40 [(0, leBytes 2 1023), (2, [1]), (16, leBytes 8 (2 ^ 48 - 1))])
def msg2 : Msg := aMsg 2 (bytes 40 [(0, leBytes 2 1023), (2, [2])])
def msg3 : Msg := aMsg 2 (bytes 40 [(0, leBytes 2 1023), (2, [3])])
def msg4 : Msg := aMsg 2 (bytes 40 [(0, leBytes 2 1024), (2, [1])])
def msg6 : Msg := aMsg 2 (bytes 32 [(0, leBytes 2 1024)])
def msg8 : Msg := aMsg 2 (bytes 32 [(0, leBytes 2 7), (4, leBytes 4 10)])
def msg9 : Msg := aMsg 2 (bytes 32 [(0, leBytes 2 7), (4, leBytes 4 11)])
end BudgetAccounts
theorem witness_BudgetAccounts :
    (∃ (s : State) (m : Msg) (x : Session), s.Acts m ∧
      s.Hears m x 288 40 ∧
      allZero m.payload 26 6 = true ∧
      u16 m.payload 0 ≤ 1023 ∧
      u8 m.payload 2 = 1 ∧
      u64 m.payload 16 ≤ 2 ^ 48 - 1) ∧
    (∃ (s : State) (m : Msg) (x : Session), s.Acts m ∧
      s.Hears m x 288 40 ∧
      allZero m.payload 26 6 = true ∧
      u16 m.payload 0 ≤ 1023 ∧
      u8 m.payload 2 = 2) ∧
    (∃ (s : State) (m : Msg) (x : Session), s.Acts m ∧
      s.Hears m x 288 40 ∧
      allZero m.payload 26 6 = true ∧
      u16 m.payload 0 ≤ 1023 ∧
      u8 m.payload 2 = 3) ∧
    (∃ (s : State) (m : Msg) (x : Session), s.Acts m ∧
      s.Hears m x 288 40 ∧
      u8 m.payload 2 = 1 ∧
      allZero m.payload 26 6 = true ∧
      (1023 < u16 m.payload 0 ∨ 2 ^ 48 - 1 < u64 m.payload 16)) ∧
    (∃ (s : State) (m : Msg) (x : Session) (i : Instr), s.Acts m ∧
      s.Hears m x 288 40 ∧
      i ∈ [Instr.budgetOpen m, Instr.budgetClose m, Instr.budgetRead m] ∧
      (u8 m.payload 2 = 0 ∨ 3 < u8 m.payload 2)) ∧
    (∃ (s : State) (m : Msg) (x : Session), s.Acts m ∧
      s.Hears m x 289 32 ∧
      allZero m.payload 2 2 = true ∧
      allZero m.payload 16 16 = true ∧
      1023 < u16 m.payload 0) ∧
    (∃ (s : State) (m : Msg) (x : Session), s.Acts m ∧
      s.Hears m x 289 32 ∧
      allZero m.payload 2 2 = true ∧
      allZero m.payload 16 16 = true ∧
      u16 m.payload 0 ≤ 1023 ∧
      (s.account (u16 m.payload 0)).isOpen = false) ∧
    (∃ (s : State) (m : Msg) (x : Session), s.Acts m ∧
      s.Hears m x 289 32 ∧
      allZero m.payload 2 2 = true ∧
      allZero m.payload 16 16 = true ∧
      u16 m.payload 0 ≤ 1023 ∧
      (s.account (u16 m.payload 0)).isOpen = true ∧
      u32 m.payload 4 ≤ (s.account (u16 m.payload 0)).grant) ∧
    (∃ (s : State) (m : Msg) (x : Session), s.Acts m ∧
      s.Hears m x 289 32 ∧
      allZero m.payload 2 2 = true ∧
      allZero m.payload 16 16 = true ∧
      u16 m.payload 0 ≤ 1023 ∧
      (s.account (u16 m.payload 0)).isOpen = true ∧
      (s.account (u16 m.payload 0)).grant < u32 m.payload 4) ∧
    (∃ (s : State) (c : Nat), s.supActs = true ∧
      (s.account c).isOpen = true ∧
      (s.account c).interval ≠ 0) ∧
    (∃ (s : State) (c : Nat), ((s.account c).isOpen = false ∨ (s.account c).interval = 0)) :=
  ⟨⟨BudgetAccounts.state1, BudgetAccounts.msg1, aSession 2, by unfold State.Acts; exact (by decide), hears_of (by decide), by decide, by decide, by decide, by decide⟩,
   ⟨BudgetAccounts.state1, BudgetAccounts.msg2, aSession 2, by unfold State.Acts; exact (by decide), hears_of (by decide), by decide, by decide, by decide⟩,
   ⟨BudgetAccounts.state1, BudgetAccounts.msg3, aSession 2, by unfold State.Acts; exact (by decide), hears_of (by decide), by decide, by decide, by decide⟩,
   ⟨BudgetAccounts.state1, BudgetAccounts.msg4, aSession 2, by unfold State.Acts; exact (by decide), hears_of (by decide), by decide, by decide, by decide⟩,
   ⟨BudgetAccounts.state1, aMsg 2 (zeroBytes 40), aSession 2, Instr.budgetOpen (aMsg 2 (zeroBytes 40)), by unfold State.Acts; exact (by decide), hears_of (by decide), by decide, by decide⟩,
   ⟨BudgetAccounts.state1, BudgetAccounts.msg6, aSession 2, by unfold State.Acts; exact (by decide), hears_of (by decide), by decide, by decide, by decide⟩,
   ⟨BudgetAccounts.state1, aMsg 2 (zeroBytes 32), aSession 2, by unfold State.Acts; exact (by decide), hears_of (by decide), by decide, by decide, by decide, by decide⟩,
   ⟨BudgetAccounts.state1, BudgetAccounts.msg8, aSession 2, by unfold State.Acts; exact (by decide), hears_of (by decide), by decide, by decide, by decide, by decide, by decide⟩,
   ⟨BudgetAccounts.state1, BudgetAccounts.msg9, aSession 2, by unfold State.Acts; exact (by decide), hears_of (by decide), by decide, by decide, by decide, by decide, by decide⟩,
   ⟨BudgetAccounts.state1, 7, by decide, by decide, by decide⟩,
   ⟨BudgetAccounts.state1, 0, by decide⟩⟩

-- ModelLoadsAndUnloads.

namespace ModelLoadsAndUnloads
def state1 : State := { serving with srv := { slots := [(0, { state := .ready }), (1, { state := .unloading })] } }
def msg1 : Msg := aMsg 2 (bytes 32 [(0, [16])])
def msg3 : Msg := aMsg 2 (bytes 32 [(0, [15])])
def msg4 : Msg := aMsg 2 (bytes 32 [(0, [16]), (1, [1])])
def msg5 : Msg := aMsg 2 (bytes 32 [(0, [15]), (1, [1])])
def msg6 : Msg := aMsg 2 (bytes 32 [(1, [1])])
def msg7 : Msg := aMsg 2 (bytes 32 [(1, [2])])
def instrNat1 : (Instr × Nat) := (Instr.modelUnloadDrain (aMsg 2 (zeroBytes 32)), 1)
end ModelLoadsAndUnloads
theorem witness_ModelLoadsAndUnloads :
    (∃ (s : State) (m : Msg) (x : Session), s.Acts m ∧
      s.Hears m x 304 32 ∧
      allZero m.payload 1 3 = true ∧
      allZero m.payload 20 12 = true ∧
      15 < u8 m.payload 0) ∧
    (∃ (s : State) (m : Msg) (x : Session), s.Acts m ∧
      s.Hears m x 304 32 ∧
      allZero m.payload 1 3 = true ∧
      allZero m.payload 20 12 = true ∧
      u8 m.payload 0 ≤ 15 ∧
      ((s.slot (u8 m.payload 0)).state ≠ SlotState.empty ∨ u8 m.payload 0 ∈ s.srv.loads)) ∧
    (∃ (s : State) (m : Msg) (x : Session), s.Acts m ∧
      s.Hears m x 304 32 ∧
      allZero m.payload 1 3 = true ∧
      allZero m.payload 20 12 = true ∧
      u8 m.payload 0 ≤ 15 ∧
      (s.slot (u8 m.payload 0)).state = SlotState.empty ∧
      (u8 m.payload 0 ∉ s.srv.loads) ∧
      s.workRefused = false ∧
      s.cartHot = false) ∧
    (∃ (s : State) (m : Msg) (x : Session) (i : Instr × Nat), s.Acts m ∧
      s.Hears m x 305 32 ∧
      allZero m.payload 2 30 = true ∧
      i ∈ [(Instr.modelUnloadDrain m, 1), (Instr.modelUnloadAbort m, 2)] ∧
      u8 m.payload 1 = i.2 ∧
      15 < u8 m.payload 0) ∧
    (∃ (s : State) (m : Msg) (x : Session) (i : Instr × Nat), s.Acts m ∧
      s.Hears m x 305 32 ∧
      allZero m.payload 2 30 = true ∧
      i ∈ [(Instr.modelUnloadDrain m, 1), (Instr.modelUnloadAbort m, 2)] ∧
      u8 m.payload 1 = i.2 ∧
      u8 m.payload 0 ≤ 15 ∧
      (s.slot (u8 m.payload 0)).state ≠ SlotState.ready) ∧
    (∃ (s : State) (m : Msg) (x : Session), s.Acts m ∧
      s.Hears m x 305 32 ∧
      allZero m.payload 2 30 = true ∧
      u8 m.payload 1 = 1 ∧
      u8 m.payload 0 ≤ 15 ∧
      (s.slot (u8 m.payload 0)).state = SlotState.ready) ∧
    (∃ (s : State) (m : Msg) (x : Session), s.Acts m ∧
      s.Hears m x 305 32 ∧
      allZero m.payload 2 30 = true ∧
      u8 m.payload 1 = 2 ∧
      u8 m.payload 0 ≤ 15 ∧
      (s.slot (u8 m.payload 0)).state = SlotState.ready ∧
      s.srv.requests.wf = true ∧
      (∀ r ∈ s.srv.requests, r.1 = r.2.row ∧ (r.2.slot = u8 m.payload 0 → r.2.seq = none)) ∧
      (∀ q ∈ s.srv.sequences, q.2.slot ≠ u8 m.payload 0)) ∧
    (∃ (s : State) (j : Nat), (s.slot j).state = SlotState.unloading ∧
      (s.slot j).reload = false ∧
      s.slotInUse j = false) ∧
    (∃ (s : State) (j : Nat), ((s.slot j).state ≠ SlotState.unloading ∨ s.slotInUse j = true)) :=
  ⟨⟨ModelLoadsAndUnloads.state1, ModelLoadsAndUnloads.msg1, aSession 2, by unfold State.Acts; exact (by decide), hears_of (by decide), by decide, by decide, by decide⟩,
   ⟨ModelLoadsAndUnloads.state1, aMsg 2 (zeroBytes 32), aSession 2, by unfold State.Acts; exact (by decide), hears_of (by decide), by decide, by decide, by decide, by decide⟩,
   ⟨ModelLoadsAndUnloads.state1, ModelLoadsAndUnloads.msg3, aSession 2, by unfold State.Acts; exact (by decide), hears_of (by decide), by decide, by decide, by decide, by decide, by decide, by decide, by decide⟩,
   ⟨ModelLoadsAndUnloads.state1, ModelLoadsAndUnloads.msg4, aSession 2, (Instr.modelUnloadDrain ModelLoadsAndUnloads.msg4, 1), by unfold State.Acts; exact (by decide), hears_of (by decide), by decide, by decide, by decide, by decide⟩,
   ⟨ModelLoadsAndUnloads.state1, ModelLoadsAndUnloads.msg5, aSession 2, (Instr.modelUnloadDrain ModelLoadsAndUnloads.msg5, 1), by unfold State.Acts; exact (by decide), hears_of (by decide), by decide, by decide, by decide, by decide, by decide⟩,
   ⟨ModelLoadsAndUnloads.state1, ModelLoadsAndUnloads.msg6, aSession 2, by unfold State.Acts; exact (by decide), hears_of (by decide), by decide, by decide, by decide, by decide⟩,
   ⟨ModelLoadsAndUnloads.state1, ModelLoadsAndUnloads.msg7, aSession 2, by unfold State.Acts; exact (by decide), hears_of (by decide), by decide, by decide, by decide, by decide, by decide, by decide, by decide⟩,
   ⟨ModelLoadsAndUnloads.state1, 1, by decide, by decide, by decide⟩,
   ⟨ModelLoadsAndUnloads.state1, 0, by decide⟩⟩

-- LoadsRunInOrder.

namespace LoadsRunInOrder
def loadingSlot : ModelSlot := { state := .loading, step := 1, reply := some ⟨2, 2, 77⟩, record := 9, object := 1 }
def loadState (x : ModelSlot) (l : List (Field × Nat)) (objs : List (Nat × List Byte) := []) : State :=
  setFields { serving with srv := { slots := [(0, x)], loads := [0] }, cont := { acting := true }, mem := { cart := { present := true, objects := objs } } } l
def emptyImage : Image := { header := aHeader, coats := [] }
def state1 : State := loadState loadingSlot [(Fld.SYS_GATE_PCIE, 0)]
def state2 : State := loadState loadingSlot [(Fld.SYS_GATE_PCIE, 1), (Fld.SEC_CART_STATE, 3)]
def state3 : State := loadState loadingSlot [(Fld.SYS_GATE_PCIE, 1), (Fld.SEC_CART_STATE, 2)]
def state4 : State := loadState loadingSlot [(Fld.SYS_GATE_PCIE, 1), (Fld.SEC_CART_STATE, 1)]
def state5 : State := loadState loadingSlot [(Fld.SYS_GATE_PCIE, 1), (Fld.SEC_CART_STATE, 1)] [(1, [1, 2, 3])]
def state6 : State := loadState { loadingSlot with step := 2, image := some emptyImage } []
def state7 : State := loadState { loadingSlot with step := 2, image := some (coatImage 1 []) } []
def state8 : State := loadState { loadingSlot with step := 3, image := some emptyImage } []
def state9 : State := { loadState loadingSlot [] with srv := { (loadState loadingSlot []).srv with loadsLost := true } }
def state10 : State := { loadState loadingSlot [] with srv := { (loadState loadingSlot []).srv with loadRecord := some 7 } }
def state11 : State := { serving with srv := { loadRecord := some 7 }, cont := { nextIndex := 8 } }
end LoadsRunInOrder
theorem witness_LoadsRunInOrder :
    (∃ (s : State) (k : Nat) (rest : List Nat) (i : Instr), s.srv.loads = k :: rest ∧
      k ≤ 15 ∧
      s.supActs = true ∧
      ((s.slot k).state = SlotState.loading ∨ (s.slot k).state = SlotState.empty) ∧
      (s.slot k).reload = false ∧
      s.srv.loadsLost = true ∧
      s.srv.loadRecord = none ∧
      i ∈ [Instr.loadStart, Instr.loadWeights, Instr.loadComplete]) ∧
    (∃ (s : State) (k : Nat) (rest : List Nat) (i : Nat), s.srv.loads = k :: rest ∧
      k ≤ 15 ∧
      s.supActs = true ∧
      ((s.slot k).state = SlotState.loading ∨ (s.slot k).state = SlotState.empty) ∧
      (s.slot k).reload = false ∧
      s.srv.loadRecord = some i ∧
      s.durable i = false) ∧
    (∃ (s : State) (k : Nat) (rest : List Nat), s.srv.loads = k :: rest ∧
      k ≤ 15 ∧
      s.supActs = true ∧
      ((s.slot k).state = SlotState.loading ∨ (s.slot k).state = SlotState.empty) ∧
      (s.slot k).reload = false ∧
      s.srv.loadsLost = false ∧
      s.srv.loadRecord = none ∧
      (s.slot k).step = 1 ∧
      s.rget Fld.SYS_GATE_PCIE = 0) ∧
    (∃ (s : State) (k : Nat) (rest : List Nat), s.srv.loads = k :: rest ∧
      k ≤ 15 ∧
      s.supActs = true ∧
      ((s.slot k).state = SlotState.loading ∨ (s.slot k).state = SlotState.empty) ∧
      (s.slot k).reload = false ∧
      s.srv.loadsLost = false ∧
      s.srv.loadRecord = none ∧
      (s.slot k).step = 1 ∧
      s.rget Fld.SYS_GATE_PCIE = 1 ∧
      s.rget Fld.SEC_CART_STATE = 3) ∧
    (∃ (s : State) (k : Nat) (rest : List Nat), s.srv.loads = k :: rest ∧
      k ≤ 15 ∧
      s.supActs = true ∧
      ((s.slot k).state = SlotState.loading ∨ (s.slot k).state = SlotState.empty) ∧
      (s.slot k).reload = false ∧
      s.srv.loadsLost = false ∧
      s.srv.loadRecord = none ∧
      (s.slot k).step = 1 ∧
      s.rget Fld.SYS_GATE_PCIE = 1 ∧
      s.rget Fld.SEC_CART_STATE ≠ 1 ∧
      s.rget Fld.SEC_CART_STATE ≠ 3) ∧
    (∃ (s : State) (k : Nat) (rest : List Nat), s.srv.loads = k :: rest ∧
      k ≤ 15 ∧
      s.supActs = true ∧
      ((s.slot k).state = SlotState.loading ∨ (s.slot k).state = SlotState.empty) ∧
      (s.slot k).reload = false ∧
      s.srv.loadsLost = false ∧
      s.srv.loadRecord = none ∧
      (s.slot k).step = 1 ∧
      s.rget Fld.SYS_GATE_PCIE = 1 ∧
      s.rget Fld.SEC_CART_STATE = 1 ∧
      s.mem.cart.objects.fetch (s.slot k).object = none) ∧
    (∃ (s : State) (k : Nat) (rest : List Nat) (b : List Byte), s.srv.loads = k :: rest ∧
      k ≤ 15 ∧
      s.supActs = true ∧
      ((s.slot k).state = SlotState.loading ∨ (s.slot k).state = SlotState.empty) ∧
      (s.slot k).reload = false ∧
      s.srv.loadsLost = false ∧
      s.srv.loadRecord = none ∧
      (s.slot k).step = 1 ∧
      s.rget Fld.SYS_GATE_PCIE = 1 ∧
      s.rget Fld.SEC_CART_STATE = 1 ∧
      s.mem.cart.objects.fetch (s.slot k).object = some b) ∧
    (∃ (s : State) (k : Nat) (rest : List Nat) (g : Image) (e : LoadErr), s.srv.loads = k :: rest ∧
      k ≤ 15 ∧
      s.supActs = true ∧
      ((s.slot k).state = SlotState.loading ∨ (s.slot k).state = SlotState.empty) ∧
      (s.slot k).reload = false ∧
      s.srv.loadsLost = false ∧
      (s.slot k).image = some g ∧
      (s.slot k).step = 2 ∧
      check9 ((s.mem.cart.objects.fetch (s.slot k).object).getD []) s.mem.cart.objects g = some e) ∧
    (∃ (s : State) (k : Nat) (rest : List Nat) (g : Image), s.srv.loads = k :: rest ∧
      k ≤ 15 ∧
      s.supActs = true ∧
      ((s.slot k).state = SlotState.loading ∨ (s.slot k).state = SlotState.empty) ∧
      (s.slot k).reload = false ∧
      s.srv.loadsLost = false ∧
      (s.slot k).image = some g ∧
      (s.slot k).step = 2 ∧
      check9 ((s.mem.cart.objects.fetch (s.slot k).object).getD []) s.mem.cart.objects g = none) ∧
    (∃ (s : State) (k : Nat) (rest : List Nat) (g : Image), s.srv.loads = k :: rest ∧
      k ≤ 15 ∧
      s.supActs = true ∧
      ((s.slot k).state = SlotState.loading ∨ (s.slot k).state = SlotState.empty) ∧
      (s.slot k).reload = false ∧
      s.srv.loadsLost = false ∧
      (s.slot k).image = some g ∧
      (s.slot k).step = 3) ∧
    (∃ (s : State) (i : Nat), s.srv.loads = [] ∧
      s.srv.loadRecord = some i ∧
      s.durable i = true) :=
  ⟨⟨LoadsRunInOrder.state9, 0, [], Instr.loadStart, by decide, by decide, by decide, by decide, by decide, by decide, by decide, by decide⟩,
   ⟨LoadsRunInOrder.state10, 0, [], 7, by decide, by decide, by decide, by decide, by decide, by decide, by decide⟩,
   ⟨LoadsRunInOrder.state1, 0, [], by decide, by decide, by decide, by decide, by decide, by decide, by decide, by decide, by decide⟩,
   ⟨LoadsRunInOrder.state2, 0, [], by decide, by decide, by decide, by decide, by decide, by decide, by decide, by decide, by decide, by decide⟩,
   ⟨LoadsRunInOrder.state3, 0, [], by decide, by decide, by decide, by decide, by decide, by decide, by decide, by decide, by decide, by decide, by decide⟩,
   ⟨LoadsRunInOrder.state4, 0, [], by decide, by decide, by decide, by decide, by decide, by decide, by decide, by decide, by decide, by decide, by decide⟩,
   ⟨LoadsRunInOrder.state5, 0, [], [1, 2, 3], by decide, by decide, by decide, by decide, by decide, by decide, by decide, by decide, by decide, by decide, by decide⟩,
   ⟨LoadsRunInOrder.state7, 0, [], coatImage 1 [], (check9 ((LoadsRunInOrder.state7.mem.cart.objects.fetch (LoadsRunInOrder.state7.slot 0).object).getD [])
      LoadsRunInOrder.state7.mem.cart.objects (coatImage 1 [])).getD
  (LoadErr.at0 0), by decide, by decide, by decide, by decide, by decide, by decide, by decide, by decide, by decide⟩,
   ⟨LoadsRunInOrder.state6, 0, [], LoadsRunInOrder.emptyImage, by decide, by decide, by decide, by decide, by decide, by decide, by decide, by decide, by decide⟩,
   ⟨LoadsRunInOrder.state8, 0, [], LoadsRunInOrder.emptyImage, by decide, by decide, by decide, by decide, by decide, by decide, by decide, by decide⟩,
   ⟨LoadsRunInOrder.state11, 7, by decide, by decide, by decide⟩⟩

-- PassSubmission.

namespace PassSubmission
/-- A journal of `n` records: from 66060287 on it has no room for new work (R349). -/
def fullState (n : Nat) : State := { serving with cont := { journal := List.replicate n { index := 1, origin := 0, epoch := 0, session := 0, subject := 0, body := .preempt 0 } } }
theorem fold_replicate (n a c : Nat) (r : JRecord) (f : JRecord → Nat) (h : f r = c) :
    (List.replicate n r).foldl (fun m r => m + f r) a = a + n * c := by
  induction n generalizing a with
  | zero => simp
  | succ n ih => rw [List.replicate_succ, List.foldl_cons, ih, h, Nat.add_mul]; omega
theorem journal_full (n : Nat) (h : 66060287 ≤ n) : (fullState n).journalFull 128 = true := by
  have e : (fullState n).journalUsed = 0 + n * 64 := fold_replicate n 0 64 _ (fun r => recordSpace r.body) (by decide)
  simp only [State.journalFull, e, decide_eq_true_eq]; omega
def passImage : Image := { anImage with bindings := [⟨5, 0, 0, 4⟩, ⟨6, 0, 0, 8⟩] }
def passState : State := State.rset { serving with srv := { slots := [(0, { state := .ready, image := some passImage, passCost := 5 })], accounts := [(0, { isOpen := true, balance := 9 })] } } Fld.MEM_STATUS_TRAINED 1
def passMsg : Msg := aMsg 2 (bytes 36 [(24, [4])])
def passTaken : List Nat × List Nat × State := (passState.takeRequestPages 2 0 1 1).getD ([], [], passState)
end PassSubmission
theorem witness_PassSubmission :
    (∃ (s : State) (m : Msg) (x : Session) (c : Code), s.Hears m x 256 m.payload.length ∧
      s.Acts m ∧
      (if m.payload.length ≠ 32 + u32 m.payload 24 then some Code.E_INPUT_SIZE
  else
    if allZero m.payload 5 3 = false ∨ allZero m.payload 28 4 = false then some Code.E_RESERVED
    else
      if s.rbit Fld.MEM_STATUS_OUT = true then some Code.F_MEM
      else
        match s.readyImage (u8 m.payload 2) with
        | none => some Code.E_SLOT_STATE
        | some g =>
          if g.header.kind ≠ 1 then some Code.E_MODEL_KIND
          else
            if (s.account (u16 m.payload 0)).isOpen = false then some Code.E_CUSTOMER
            else
              if s.customerAllowed x (u16 m.payload 0) = false then some Code.E_ROLE
              else
                if s.tagLive m.session m.tag = true then some Code.E_TAG_BUSY
                else
                  if
                      3 < u8 m.payload 3 ∨
                        16 < u8 m.payload 4 ∧ u8 m.payload 4 ≠ 255 ∨ u32 m.payload 12 ≠ 0 ∧ g.dynamic = false then
                    some Code.E_PARAM
                  else
                    if g.header.nondet = true ∧ x.wantsProtected = true then some Code.E_NONDET
                    else
                      if (List.drop 32 m.payload).length ≠ g.inputSize then some Code.E_INPUT_SIZE
                      else
                        if x.partnerWindow < g.outputSize + 80 then some Code.E_WINDOW
                        else
                          if g.heightOk (u32 m.payload 12) = false then some Code.E_COUNT_RANGE
                          else
                            if g.inputExpsOk (List.drop 32 m.payload) = false then some Code.E_FORMAT
                            else
                              if (s.account (u16 m.payload 0)).balance < (s.slot (u8 m.payload 2)).passCost then
                                some Code.E_BUDGET
                              else
                                if s.placeFree (u16 m.payload 0) = false ∨ s.workRefused = true then some Code.B_RETRY
                                else none) =
  some c ∧
      s.journalFull 128 = false) ∧
    (∃ (s : State) (m : Msg) (x : Session) (c : Code), s.Hears m x 256 m.payload.length ∧
      s.Acts m ∧
      (if m.payload.length ≠ 32 + u32 m.payload 24 then some Code.E_INPUT_SIZE
  else
    if allZero m.payload 5 3 = false ∨ allZero m.payload 28 4 = false then some Code.E_RESERVED
    else
      if s.rbit Fld.MEM_STATUS_OUT = true then some Code.F_MEM
      else
        match s.readyImage (u8 m.payload 2) with
        | none => some Code.E_SLOT_STATE
        | some g =>
          if g.header.kind ≠ 1 then some Code.E_MODEL_KIND
          else
            if (s.account (u16 m.payload 0)).isOpen = false then some Code.E_CUSTOMER
            else
              if s.customerAllowed x (u16 m.payload 0) = false then some Code.E_ROLE
              else
                if s.tagLive m.session m.tag = true then some Code.E_TAG_BUSY
                else
                  if
                      3 < u8 m.payload 3 ∨
                        16 < u8 m.payload 4 ∧ u8 m.payload 4 ≠ 255 ∨ u32 m.payload 12 ≠ 0 ∧ g.dynamic = false then
                    some Code.E_PARAM
                  else
                    if g.header.nondet = true ∧ x.wantsProtected = true then some Code.E_NONDET
                    else
                      if (List.drop 32 m.payload).length ≠ g.inputSize then some Code.E_INPUT_SIZE
                      else
                        if x.partnerWindow < g.outputSize + 80 then some Code.E_WINDOW
                        else
                          if g.heightOk (u32 m.payload 12) = false then some Code.E_COUNT_RANGE
                          else
                            if g.inputExpsOk (List.drop 32 m.payload) = false then some Code.E_FORMAT
                            else
                              if (s.account (u16 m.payload 0)).balance < (s.slot (u8 m.payload 2)).passCost then
                                some Code.E_BUDGET
                              else
                                if s.placeFree (u16 m.payload 0) = false ∨ s.workRefused = true then some Code.B_RETRY
                                else none) =
  some c ∧
      s.journalFull 128 = true) ∧
    (∃ (s : State) (m : Msg) (x : Session) (g : Image) (inp : List Nat) (stg : List Nat) (s1 : State), s.Hears m x 256 m.payload.length ∧
      s.Acts m ∧
      (if m.payload.length ≠ 32 + u32 m.payload 24 then some Code.E_INPUT_SIZE
  else
    if allZero m.payload 5 3 = false ∨ allZero m.payload 28 4 = false then some Code.E_RESERVED
    else
      if s.rbit Fld.MEM_STATUS_OUT = true then some Code.F_MEM
      else
        match s.readyImage (u8 m.payload 2) with
        | none => some Code.E_SLOT_STATE
        | some g =>
          if g.header.kind ≠ 1 then some Code.E_MODEL_KIND
          else
            if (s.account (u16 m.payload 0)).isOpen = false then some Code.E_CUSTOMER
            else
              if s.customerAllowed x (u16 m.payload 0) = false then some Code.E_ROLE
              else
                if s.tagLive m.session m.tag = true then some Code.E_TAG_BUSY
                else
                  if
                      3 < u8 m.payload 3 ∨
                        16 < u8 m.payload 4 ∧ u8 m.payload 4 ≠ 255 ∨ u32 m.payload 12 ≠ 0 ∧ g.dynamic = false then
                    some Code.E_PARAM
                  else
                    if g.header.nondet = true ∧ x.wantsProtected = true then some Code.E_NONDET
                    else
                      if (List.drop 32 m.payload).length ≠ g.inputSize then some Code.E_INPUT_SIZE
                      else
                        if x.partnerWindow < g.outputSize + 80 then some Code.E_WINDOW
                        else
                          if g.heightOk (u32 m.payload 12) = false then some Code.E_COUNT_RANGE
                          else
                            if g.inputExpsOk (List.drop 32 m.payload) = false then some Code.E_FORMAT
                            else
                              if (s.account (u16 m.payload 0)).balance < (s.slot (u8 m.payload 2)).passCost then
                                some Code.E_BUDGET
                              else
                                if s.placeFree (u16 m.payload 0) = false ∨ s.workRefused = true then some Code.B_RETRY
                                else none) =
  none ∧
      s.readyImage (u8 m.payload 2) = some g ∧
      s.takeRequestPages m.session (u16 m.payload 0) (ceilDiv (List.drop 32 m.payload).length 65536)
    (ceilDiv g.outputSize 65536) =
  some (inp, stg, s1)) :=
  ⟨⟨serving, aMsg 2 [1, 2, 3, 4], aSession 2, (if (aMsg 2 [1, 2, 3, 4]).payload.length ≠ 32 + u32 (aMsg 2 [1, 2, 3, 4]).payload 24 then some Code.E_INPUT_SIZE
    else
      if allZero (aMsg 2 [1, 2, 3, 4]).payload 5 3 = false ∨ allZero (aMsg 2 [1, 2, 3, 4]).payload 28 4 = false then
        some Code.E_RESERVED
      else
        if serving.rbit Fld.MEM_STATUS_OUT = true then some Code.F_MEM
        else
          match serving.readyImage (u8 (aMsg 2 [1, 2, 3, 4]).payload 2) with
          | none => some Code.E_SLOT_STATE
          | some g =>
            if g.header.kind ≠ 1 then some Code.E_MODEL_KIND
            else
              if (serving.account (u16 (aMsg 2 [1, 2, 3, 4]).payload 0)).isOpen = false then some Code.E_CUSTOMER
              else
                if serving.customerAllowed (aSession 2) (u16 (aMsg 2 [1, 2, 3, 4]).payload 0) = false then
                  some Code.E_ROLE
                else
                  if serving.tagLive (aMsg 2 [1, 2, 3, 4]).session (aMsg 2 [1, 2, 3, 4]).tag = true then
                    some Code.E_TAG_BUSY
                  else
                    if
                        3 < u8 (aMsg 2 [1, 2, 3, 4]).payload 3 ∨
                          16 < u8 (aMsg 2 [1, 2, 3, 4]).payload 4 ∧ u8 (aMsg 2 [1, 2, 3, 4]).payload 4 ≠ 255 ∨
                            u32 (aMsg 2 [1, 2, 3, 4]).payload 12 ≠ 0 ∧ g.dynamic = false then
                      some Code.E_PARAM
                    else
                      if g.header.nondet = true ∧ (aSession 2).wantsProtected = true then some Code.E_NONDET
                      else
                        if (List.drop 32 (aMsg 2 [1, 2, 3, 4]).payload).length ≠ g.inputSize then some Code.E_INPUT_SIZE
                        else
                          if (aSession 2).partnerWindow < g.outputSize + 80 then some Code.E_WINDOW
                          else
                            if g.heightOk (u32 (aMsg 2 [1, 2, 3, 4]).payload 12) = false then some Code.E_COUNT_RANGE
                            else
                              if g.inputExpsOk (List.drop 32 (aMsg 2 [1, 2, 3, 4]).payload) = false then
                                some Code.E_FORMAT
                              else
                                if
                                    (serving.account (u16 (aMsg 2 [1, 2, 3, 4]).payload 0)).balance <
                                      (serving.slot (u8 (aMsg 2 [1, 2, 3, 4]).payload 2)).passCost then
                                  some Code.E_BUDGET
                                else
                                  if
                                      serving.placeFree (u16 (aMsg 2 [1, 2, 3, 4]).payload 0) = false ∨
                                        serving.workRefused = true then
                                    some Code.B_RETRY
                                  else none).getD
  Code.E_PARAM, hears_of (by decide), by unfold State.Acts; exact (by decide), by decide, by decide⟩,
   ⟨PassSubmission.fullState 66060287, aMsg 2 [1, 2, 3, 4], aSession 2, (if (aMsg 2 [1, 2, 3, 4]).payload.length ≠ 32 + u32 (aMsg 2 [1, 2, 3, 4]).payload 24 then some Code.E_INPUT_SIZE
    else
      if allZero (aMsg 2 [1, 2, 3, 4]).payload 5 3 = false ∨ allZero (aMsg 2 [1, 2, 3, 4]).payload 28 4 = false then
        some Code.E_RESERVED
      else
        if (PassSubmission.fullState 66060287).rbit Fld.MEM_STATUS_OUT = true then some Code.F_MEM
        else
          match (PassSubmission.fullState 66060287).readyImage (u8 (aMsg 2 [1, 2, 3, 4]).payload 2) with
          | none => some Code.E_SLOT_STATE
          | some g =>
            if g.header.kind ≠ 1 then some Code.E_MODEL_KIND
            else
              if ((PassSubmission.fullState 66060287).account (u16 (aMsg 2 [1, 2, 3, 4]).payload 0)).isOpen = false then
                some Code.E_CUSTOMER
              else
                if (PassSubmission.fullState 66060287).customerAllowed (aSession 2) (u16 (aMsg 2 [1, 2, 3, 4]).payload 0) = false then
                  some Code.E_ROLE
                else
                  if (PassSubmission.fullState 66060287).tagLive (aMsg 2 [1, 2, 3, 4]).session (aMsg 2 [1, 2, 3, 4]).tag = true then
                    some Code.E_TAG_BUSY
                  else
                    if
                        3 < u8 (aMsg 2 [1, 2, 3, 4]).payload 3 ∨
                          16 < u8 (aMsg 2 [1, 2, 3, 4]).payload 4 ∧ u8 (aMsg 2 [1, 2, 3, 4]).payload 4 ≠ 255 ∨
                            u32 (aMsg 2 [1, 2, 3, 4]).payload 12 ≠ 0 ∧ g.dynamic = false then
                      some Code.E_PARAM
                    else
                      if g.header.nondet = true ∧ (aSession 2).wantsProtected = true then some Code.E_NONDET
                      else
                        if (List.drop 32 (aMsg 2 [1, 2, 3, 4]).payload).length ≠ g.inputSize then some Code.E_INPUT_SIZE
                        else
                          if (aSession 2).partnerWindow < g.outputSize + 80 then some Code.E_WINDOW
                          else
                            if g.heightOk (u32 (aMsg 2 [1, 2, 3, 4]).payload 12) = false then some Code.E_COUNT_RANGE
                            else
                              if g.inputExpsOk (List.drop 32 (aMsg 2 [1, 2, 3, 4]).payload) = false then
                                some Code.E_FORMAT
                              else
                                if
                                    ((PassSubmission.fullState 66060287).account (u16 (aMsg 2 [1, 2, 3, 4]).payload 0)).balance <
                                      ((PassSubmission.fullState 66060287).slot (u8 (aMsg 2 [1, 2, 3, 4]).payload 2)).passCost then
                                  some Code.E_BUDGET
                                else
                                  if
                                      (PassSubmission.fullState 66060287).placeFree (u16 (aMsg 2 [1, 2, 3, 4]).payload 0) = false ∨
                                        (PassSubmission.fullState 66060287).workRefused = true then
                                    some Code.B_RETRY
                                  else none).getD
  Code.E_PARAM, hears_of (by decide), by unfold State.Acts; exact (by decide), by decide, PassSubmission.journal_full _ (by decide)⟩,
   ⟨PassSubmission.passState, PassSubmission.passMsg, aSession 2, PassSubmission.passImage, PassSubmission.passTaken.1, PassSubmission.passTaken.2.1, PassSubmission.passTaken.2.2, hears_of (by decide), by unfold State.Acts; exact (by decide), by decide, by decide, by decide⟩⟩

-- GenerationSubmission.

namespace GenerationSubmission
/-- A journal of `n` records: from 66060287 on it has no room for new work (R349). -/
def fullState (n : Nat) : State := { serving with cont := { journal := List.replicate n { index := 1, origin := 0, epoch := 0, session := 0, subject := 0, body := .preempt 0 } } }
theorem fold_replicate (n a c : Nat) (r : JRecord) (f : JRecord → Nat) (h : f r = c) :
    (List.replicate n r).foldl (fun m r => m + f r) a = a + n * c := by
  induction n generalizing a with
  | zero => simp
  | succ n ih => rw [List.replicate_succ, List.foldl_cons, ih, h, Nat.add_mul]; omega
theorem journal_full (n : Nat) (h : 66060287 ≤ n) : (fullState n).journalFull 128 = true := by
  have e : (fullState n).journalUsed = 0 + n * 64 := fold_replicate n 0 64 _ (fun r => recordSpace r.body) (by decide)
  simp only [State.journalFull, e, decide_eq_true_eq]; omega
def genImage (skimPair : List Byte) (skim : Bool) (ident : List Byte) : Image := { anImage with header := { aHeader with kind := 2, context := 64, skimPair := skimPair, skim := skim, ident := ident } }
def genState : State := State.rset { serving with srv := { slots := [(0, { state := .ready, image := some (genImage [7] false [1]), promptCost := 1, tokenCost := 1 }), (1, { state := .ready, image := some (genImage [] true [7]), promptCost := 1, tokenCost := 1 })], accounts := [(0, { isOpen := true, balance := 9 })] } } Fld.MEM_STATUS_TRAINED 1
def genMsg (flags : Nat) : Msg := aMsg 2 (bytes 88 [(5, leBytes 1 flags), (12, [4]), (40, [2]), (80, [6]), (84, [7])])
def firstTaken : Nat × State := (genState.firstPages 0 0 0 (genImage [7] false [1]) [6, 7]).getD (0, genState)
def genTaken : List Nat × List Nat × State := (firstTaken.2.takeRequestPages 2 0 1 1).getD ([], [], genState)
end GenerationSubmission
theorem witness_GenerationSubmission :
    (∃ (s : State) (m : Msg) (x : Session) (c : Code), s.Hears m x 257 m.payload.length ∧
      s.Acts m ∧
      ((if m.payload.length ≠ 80 + 4 * u32 m.payload 40 then some Code.E_INPUT_SIZE
  else
    if 16 ≤ u8 m.payload 5 ∨ allZero m.payload 44 4 = false then some Code.E_RESERVED
    else
      if s.rbit Fld.MEM_STATUS_OUT = true then some Code.F_MEM
      else
        match s.readyImage (u8 m.payload 2) with
        | none => some Code.E_SLOT_STATE
        | some g =>
          if g.header.kind ≠ 2 ∨ (u8 m.payload 5).testBit 0 = true ∧ s.skimSlot g = none then some Code.E_MODEL_KIND
          else
            if (s.account (u16 m.payload 0)).isOpen = false then some Code.E_CUSTOMER
            else
              if s.customerAllowed x (u16 m.payload 0) = false then some Code.E_ROLE
              else
                if s.tagLive m.session m.tag = true then some Code.E_TAG_BUSY
                else
                  if
                      3 < u8 m.payload 3 ∨
                        16 < u8 m.payload 4 ∧ u8 m.payload 4 ≠ 255 ∨ genFieldsOk m.payload = false then
                    some Code.E_PARAM
                  else
                    if
                        ((u8 m.payload 5).testBit 2 = true ∨ (u8 m.payload 5).testBit 3 = true) ∧
                            (g.header.nondet = false ∨ x.wantsProtected = true) ∨
                          g.header.nondet = true ∧ x.wantsProtected = true ∨
                            (u8 m.payload 5).testBit 0 = true ∧
                              (match (s.skimSlot g).bind s.readyImage with
                                | some h => h.header.nondet
                                | none => false) =
                                true then
                      some Code.E_NONDET
                    else
                      if g.header.context - 1 < u32 m.payload 40 then some Code.E_CONTEXT_LIMIT
                      else
                        if
                            (s.account (u16 m.payload 0)).balance <
                              u32 m.payload 40 * (s.slot (u8 m.payload 2)).promptCost +
                                (s.slot (u8 m.payload 2)).tokenCost then
                          some Code.E_BUDGET
                        else
                          if
                              s.placeFree (u16 m.payload 0) = false ∨
                                s.workRefused = true ∨
                                  s.slotsFree (u16 m.payload 0) (if (u8 m.payload 5).testBit 0 = true then 2 else 1) =
                                    false then
                            some Code.B_RETRY
                          else none) =
  some c) ∧
      s.journalFull 128 = false) ∧
    (∃ (s : State) (m : Msg) (x : Session) (g : Image) (q : Nat) (q2 : Nat) (shared : Nat) (inp : List Nat) (stg : List Nat) (s1 : State) (s2 : State), s.Hears m x 257 m.payload.length ∧
      s.Acts m ∧
      ((if m.payload.length ≠ 80 + 4 * u32 m.payload 40 then some Code.E_INPUT_SIZE
  else
    if 16 ≤ u8 m.payload 5 ∨ allZero m.payload 44 4 = false then some Code.E_RESERVED
    else
      if s.rbit Fld.MEM_STATUS_OUT = true then some Code.F_MEM
      else
        match s.readyImage (u8 m.payload 2) with
        | none => some Code.E_SLOT_STATE
        | some g =>
          if g.header.kind ≠ 2 ∨ (u8 m.payload 5).testBit 0 = true ∧ s.skimSlot g = none then some Code.E_MODEL_KIND
          else
            if (s.account (u16 m.payload 0)).isOpen = false then some Code.E_CUSTOMER
            else
              if s.customerAllowed x (u16 m.payload 0) = false then some Code.E_ROLE
              else
                if s.tagLive m.session m.tag = true then some Code.E_TAG_BUSY
                else
                  if
                      3 < u8 m.payload 3 ∨
                        16 < u8 m.payload 4 ∧ u8 m.payload 4 ≠ 255 ∨ genFieldsOk m.payload = false then
                    some Code.E_PARAM
                  else
                    if
                        ((u8 m.payload 5).testBit 2 = true ∨ (u8 m.payload 5).testBit 3 = true) ∧
                            (g.header.nondet = false ∨ x.wantsProtected = true) ∨
                          g.header.nondet = true ∧ x.wantsProtected = true ∨
                            (u8 m.payload 5).testBit 0 = true ∧
                              (match (s.skimSlot g).bind s.readyImage with
                                | some h => h.header.nondet
                                | none => false) =
                                true then
                      some Code.E_NONDET
                    else
                      if g.header.context - 1 < u32 m.payload 40 then some Code.E_CONTEXT_LIMIT
                      else
                        if
                            (s.account (u16 m.payload 0)).balance <
                              u32 m.payload 40 * (s.slot (u8 m.payload 2)).promptCost +
                                (s.slot (u8 m.payload 2)).tokenCost then
                          some Code.E_BUDGET
                        else
                          if
                              s.placeFree (u16 m.payload 0) = false ∨
                                s.workRefused = true ∨
                                  s.slotsFree (u16 m.payload 0) (if (u8 m.payload 5).testBit 0 = true then 2 else 1) =
                                    false then
                            some Code.B_RETRY
                          else none) =
  none) ∧
      s.readyImage (u8 m.payload 2) = some g ∧
      s.freeSlot 0 = some q ∧
      ((u8 m.payload 5).testBit 0 = true → s.freeSlot (q + 1) = some q2) ∧
      s.firstPages q (u8 m.payload 2) (u16 m.payload 0) g
    (List.map (fun i => u32 m.payload (80 + 4 * i)) (List.range (u32 m.payload 40))) =
  some (shared, s1) ∧
      s1.takeRequestPages m.session (u16 m.payload 0) (ceilDiv m.payload.length 65536) 1 = some (inp, stg, s2)) :=
  ⟨⟨serving, aMsg 2 [1, 2, 3, 4], aSession 2, (if (aMsg 2 [1, 2, 3, 4]).payload.length ≠ 80 + 4 * u32 (aMsg 2 [1, 2, 3, 4]).payload 40 then some Code.E_INPUT_SIZE
    else
      if 16 ≤ u8 (aMsg 2 [1, 2, 3, 4]).payload 5 ∨ allZero (aMsg 2 [1, 2, 3, 4]).payload 44 4 = false then
        some Code.E_RESERVED
      else
        if serving.rbit Fld.MEM_STATUS_OUT = true then some Code.F_MEM
        else
          match serving.readyImage (u8 (aMsg 2 [1, 2, 3, 4]).payload 2) with
          | none => some Code.E_SLOT_STATE
          | some g =>
            if
                g.header.kind ≠ 2 ∨
                  (u8 (aMsg 2 [1, 2, 3, 4]).payload 5).testBit 0 = true ∧ serving.skimSlot g = none then
              some Code.E_MODEL_KIND
            else
              if (serving.account (u16 (aMsg 2 [1, 2, 3, 4]).payload 0)).isOpen = false then some Code.E_CUSTOMER
              else
                if serving.customerAllowed (aSession 2) (u16 (aMsg 2 [1, 2, 3, 4]).payload 0) = false then
                  some Code.E_ROLE
                else
                  if serving.tagLive (aMsg 2 [1, 2, 3, 4]).session (aMsg 2 [1, 2, 3, 4]).tag = true then
                    some Code.E_TAG_BUSY
                  else
                    if
                        3 < u8 (aMsg 2 [1, 2, 3, 4]).payload 3 ∨
                          16 < u8 (aMsg 2 [1, 2, 3, 4]).payload 4 ∧ u8 (aMsg 2 [1, 2, 3, 4]).payload 4 ≠ 255 ∨
                            genFieldsOk (aMsg 2 [1, 2, 3, 4]).payload = false then
                      some Code.E_PARAM
                    else
                      if
                          ((u8 (aMsg 2 [1, 2, 3, 4]).payload 5).testBit 2 = true ∨
                                (u8 (aMsg 2 [1, 2, 3, 4]).payload 5).testBit 3 = true) ∧
                              (g.header.nondet = false ∨ (aSession 2).wantsProtected = true) ∨
                            g.header.nondet = true ∧ (aSession 2).wantsProtected = true ∨
                              (u8 (aMsg 2 [1, 2, 3, 4]).payload 5).testBit 0 = true ∧
                                (match (serving.skimSlot g).bind serving.readyImage with
                                  | some h => h.header.nondet
                                  | none => false) =
                                  true then
                        some Code.E_NONDET
                      else
                        if g.header.context - 1 < u32 (aMsg 2 [1, 2, 3, 4]).payload 40 then some Code.E_CONTEXT_LIMIT
                        else
                          if
                              (serving.account (u16 (aMsg 2 [1, 2, 3, 4]).payload 0)).balance <
                                u32 (aMsg 2 [1, 2, 3, 4]).payload 40 *
                                    (serving.slot (u8 (aMsg 2 [1, 2, 3, 4]).payload 2)).promptCost +
                                  (serving.slot (u8 (aMsg 2 [1, 2, 3, 4]).payload 2)).tokenCost then
                            some Code.E_BUDGET
                          else
                            if
                                serving.placeFree (u16 (aMsg 2 [1, 2, 3, 4]).payload 0) = false ∨
                                  serving.workRefused = true ∨
                                    serving.slotsFree (u16 (aMsg 2 [1, 2, 3, 4]).payload 0)
                                        (if (u8 (aMsg 2 [1, 2, 3, 4]).payload 5).testBit 0 = true then 2 else 1) =
                                      false then
                              some Code.B_RETRY
                            else none).getD
  Code.E_PARAM, hears_of (by decide), by unfold State.Acts; exact (by decide), by decide, by decide⟩,
   ⟨GenerationSubmission.genState, GenerationSubmission.genMsg 0, aSession 2, GenerationSubmission.genImage [7] false [1], 0, 0, 0, GenerationSubmission.genTaken.1, GenerationSubmission.genTaken.2.1, GenerationSubmission.firstTaken.2, GenerationSubmission.genTaken.2.2, hears_of (by decide), by unfold State.Acts; exact (by decide), by decide, by decide, by decide, by decide, by decide, by decide⟩⟩

-- CandidatesAndCancellation.

namespace CandidatesAndCancellation
def state1 : State := generating { aSequence with phase := .candidates, cand := true }
def state2 : State := { serving with srv := { requests := [(9, { aRequest with started := true })] } }
def state3 : State := { serving with srv := { requests := [(9, aRequest)] } }
def candidates (l : List (Nat × List Byte)) : Msg := aMsg 1 (bytes 352 ([(0, leBytes 4 77), (4, leBytes 4 1), (8, [1]), (32, [255])] ++ l))
def msg3 : Msg := candidates [(0, leBytes 4 77), (8, [2]), (33, [9])]
def msg4 : Msg := candidates [(4, leBytes 4 0)]
def msg5 : Msg := candidates [(4, leBytes 4 0), (8, [2]), (33, [9])]
def msg6 : Msg := candidates [(4, leBytes 4 2)]
def msg7 : Msg := candidates [(4, leBytes 4 2), (8, [2]), (33, [9])]
def msg9 : Msg := aMsg 1 (bytes 32 [(0, leBytes 4 77)])
def natRequest2 : (Nat × Request) := (9, { aRequest with started := true })
end CandidatesAndCancellation
theorem witness_CandidatesAndCancellation :
    (∃ (s : State) (m : Msg) (x : Session), s.Acts m ∧
      s.Hears m x 258 352 ∧
      allZero m.payload 9 23 = true ∧
      s.waitingSeq m.session (u32 m.payload 0) (u32 m.payload 4) = none) ∧
    (∃ (s : State) (m : Msg) (x : Session) (q : Nat) (y : Sequence) (r : Request) (g : Image), s.Acts m ∧
      s.Hears m x 258 352 ∧
      allZero m.payload 9 23 = true ∧
      s.waitingSeq m.session (u32 m.payload 0) (u32 m.payload 4) = some q ∧
      s.seq q = some y ∧
      s.request y.row = some r ∧
      (s.slot y.slot).image = some g ∧
      ({ parents := List.map (fun i => if i = 0 then 0 else u8 m.payload (32 + i)) (List.range (u8 m.payload 8)),
          tokens := List.map (fun i => u32 m.payload (96 + 4 * i)) (List.range (u8 m.payload 8)) : Machine.Tree }.valid
      (u8 m.payload 32) =
    false ∨
  ¬(u32 m.payload 96 = 0 ∧
        allZero m.payload (32 + u8 m.payload 8) (64 - u8 m.payload 8) = true ∧
          allZero m.payload (96 + 4 * u8 m.payload 8) (256 - 4 * u8 m.payload 8) = true) ∨
    1 < u8 m.payload 8 ∧ (g.attns.all fun x => x.stencil) = false)) ∧
    (∃ (s : State) (m : Msg) (x : Session) (q : Nat) (y : Sequence) (r : Request) (g : Image), s.Acts m ∧
      s.Hears m x 258 352 ∧
      allZero m.payload 9 23 = true ∧
      s.waitingSeq m.session (u32 m.payload 0) (u32 m.payload 4) = some q ∧
      s.seq q = some y ∧
      s.request y.row = some r ∧
      (s.slot y.slot).image = some g ∧
      { parents := List.map (fun i => if i = 0 then 0 else u8 m.payload (32 + i)) (List.range (u8 m.payload 8)),
        tokens := List.map (fun i => u32 m.payload (96 + 4 * i)) (List.range (u8 m.payload 8)) : Machine.Tree }.valid
    (u8 m.payload 32) =
  true ∧
      (u32 m.payload 96 = 0 ∧
  allZero m.payload (32 + u8 m.payload 8) (64 - u8 m.payload 8) = true ∧
    allZero m.payload (96 + 4 * u8 m.payload 8) (256 - 4 * u8 m.payload 8) = true) ∧
      (u8 m.payload 8 ≤ 1 ∨ (g.attns.all fun x => x.stencil) = true) ∧
      s.unsentTokens y < 256) ∧
    (∃ (s : State) (m : Msg) (x : Session), s.Acts m ∧
      s.Hears m x 259 32 ∧
      allZero m.payload 4 28 = true ∧
      List.find? (fun r => r.2.session == m.session && r.2.tag == u32 m.payload 0) s.srv.requests = none) ∧
    (∃ (s : State) (m : Msg) (x : Session) (r : Nat × Request), s.Acts m ∧
      s.Hears m x 259 32 ∧
      allZero m.payload 4 28 = true ∧
      List.find? (fun r => r.2.session == m.session && r.2.tag == u32 m.payload 0) s.srv.requests = some r ∧
      s.request r.1 = some r.2 ∧
      r.2.seq = none ∧
      r.2.started = true) ∧
    (∃ (s : State) (m : Msg) (x : Session) (r : Nat × Request), s.Acts m ∧
      s.Hears m x 259 32 ∧
      allZero m.payload 4 28 = true ∧
      List.find? (fun r => r.2.session == m.session && r.2.tag == u32 m.payload 0) s.srv.requests = some r ∧
      s.request r.1 = some r.2 ∧
      r.2.seq = none ∧
      r.2.started = false ∧
      r.1 = r.2.row ∧
      0 < r.2.debit) :=
  ⟨⟨CandidatesAndCancellation.state1, aMsg 1 (zeroBytes 352), aSession 1, by unfold State.Acts; exact (by decide), hears_of (by decide), by decide, by decide⟩,
   ⟨CandidatesAndCancellation.state1, CandidatesAndCancellation.msg5, aSession 1, 4, (CandidatesAndCancellation.state1.seq 4).getD aSequence, (CandidatesAndCancellation.state1.request ((CandidatesAndCancellation.state1.seq 4).getD aSequence).row).getD aRequest, (CandidatesAndCancellation.state1.slot ((CandidatesAndCancellation.state1.seq 4).getD aSequence).slot).image.getD
  anImage, by unfold State.Acts; exact (by decide), hears_of (by decide), by decide, by decide, by decide, by decide, by decide, by decide⟩,
   ⟨CandidatesAndCancellation.state1, CandidatesAndCancellation.msg4, aSession 1, 4, (CandidatesAndCancellation.state1.seq 4).getD aSequence, (CandidatesAndCancellation.state1.request ((CandidatesAndCancellation.state1.seq 4).getD aSequence).row).getD aRequest, (CandidatesAndCancellation.state1.slot ((CandidatesAndCancellation.state1.seq 4).getD aSequence).slot).image.getD
  anImage, by unfold State.Acts; exact (by decide), hears_of (by decide), by decide, by decide, by decide, by decide, by decide, by decide, by decide, by decide, by decide⟩,
   ⟨CandidatesAndCancellation.state1, aMsg 1 (zeroBytes 32), aSession 1, by unfold State.Acts; exact (by decide), hears_of (by decide), by decide, by decide⟩,
   ⟨CandidatesAndCancellation.state2, CandidatesAndCancellation.msg9, aSession 1, CandidatesAndCancellation.natRequest2, by unfold State.Acts; exact (by decide), hears_of (by decide), by decide, by decide, by decide, by decide, by decide⟩,
   ⟨CandidatesAndCancellation.state3, CandidatesAndCancellation.msg9, aSession 1, (9, aRequest), by unfold State.Acts; exact (by decide), hears_of (by decide), by decide, by decide, by decide, by decide, by decide, by decide, by decide⟩⟩

-- QueuesAndBatches.

namespace QueuesAndBatches
def queued : QUnit := { key := ⟨0, 0, 0, 0⟩, kind := .pass, row := 9, customer := 1, admitRec := 9, entered := 0 }
def state1 : State := { (atCoat anImage aBatch) with srv := { (atCoat anImage aBatch).srv with batch := none, queue := [queued], requests := [(9, aRequest)] } }
def state2 : State := { serving with srv := { requests := [(9, { aRequest with started := true })] } }
def state3 : State := { (atCoat anImage aBatch) with srv := { (atCoat anImage aBatch).srv with batch := none, suspended := [aBatch] } }
def state4 : State := setFields { serving with srv := { requests := [(9, aRequest)] } } [(Fld.SRV_HOLD_GRID_US, 0)]
def state5 : State := { (atCoat anImage aBatch) with srv := { (atCoat anImage aBatch).srv with batch := none, queue := [queued], held := [queued], requests := [(9, aRequest)] } }
end QueuesAndBatches
theorem witness_QueuesAndBatches :
    (∃ (s : State) (k : QueueKey), s.unitsOf k = []) ∧
    (∃ (s : State) (k : QueueKey) (u : QUnit) (l : List QUnit), s.unitsOf k = u :: l ∧
      u ∈ s.srv.held) ∧
    (∃ (s : State) (k : QueueKey) (u : QUnit) (l : List QUnit), s.unitsOf k = u :: l ∧
      u ∉ s.srv.held) ∧
    (∃ (s : State) (row : Nat) (r : Request), s.request row = some r ∧
      r.started = true) ∧
    (∃ (s : State) (row : Nat) (r : Request), s.request row = some r ∧
      r.started = false ∧
      s.mayActFor r.session = true ∧
      r.deadline < 2 ^ 64 ∧
      r.row = row ∧
      r.seq = none ∧
      0 < r.debit ∧
      s.rget Fld.SRV_HOLD_GRID_US = 0 ∧
      r.mute = false) ∧
    (∃ (s : State), s.cont.activating = none ∧
      (s.srv.batch.isSome = true ∨
  s.arr.stopped = true ∨ s.srv.affected ≠ [] ∨ s.cont.quiesced = true ∨ s.rget Fld.MEM_STATUS_OUT = 1)) ∧
    (∃ (s : State) (b : Batch) (l : List Batch), s.cont.activating = none ∧
      s.srv.batch = none ∧
      s.arr.stopped = false ∧
      s.srv.affected = [] ∧
      s.cont.quiesced = false ∧
      s.rget Fld.MEM_STATUS_OUT = 0 ∧
      s.fwu.stopped ≠ some 6 ∧
      s.rget Fld.SRV_MODE_FIXED = 0 ∧
      s.srv.suspended = b :: l ∧
      s.slotRuns b.slot = true) ∧
    (∃ (s : State), s.cont.activating = none ∧
      s.srv.batch = none ∧
      s.arr.stopped = false ∧
      s.srv.affected = [] ∧
      s.cont.quiesced = false ∧
      s.rget Fld.MEM_STATUS_OUT = 0 ∧
      s.fwu.stopped ≠ some 6 ∧
      s.rget Fld.SRV_MODE_FIXED = 0 ∧
      (∀ b ∈ s.srv.suspended, s.slotRuns b.slot = false) ∧
      s.chosenQueue = none) ∧
    (∃ (s : State) (k : QueueKey) (g : Image), s.cont.activating = none ∧
      s.srv.batch = none ∧
      s.arr.stopped = false ∧
      s.srv.affected = [] ∧
      s.cont.quiesced = false ∧
      s.rget Fld.MEM_STATUS_OUT = 0 ∧
      s.fwu.stopped ≠ some 6 ∧
      s.rget Fld.SRV_MODE_FIXED = 0 ∧
      (∀ b ∈ s.srv.suspended, s.slotRuns b.slot = false) ∧
      s.chosenQueue = some k ∧
      (s.slot k.slot).image = some g ∧
      1 ≤ g.header.batchRows ∧
      (∀ u ∈ s.unitsOf k, u.kind = UnitKind.pass ∧ u.rows = 1 ∧ ∃ r, s.request u.row = some r ∧ r.row = u.row)) :=
  ⟨⟨QueuesAndBatches.state2, { slot := 0, phase := 0, priority := 0, bucket := 0 : QueueKey }, by decide⟩,
   ⟨QueuesAndBatches.state5, { slot := 0, phase := 0, priority := 0, bucket := 0 : QueueKey }, QueuesAndBatches.queued, [], by decide, by decide⟩,
   ⟨QueuesAndBatches.state1, { slot := 0, phase := 0, priority := 0, bucket := 0 : QueueKey }, QueuesAndBatches.queued, [], by decide, by decide⟩,
   ⟨QueuesAndBatches.state2, 9, (QueuesAndBatches.state2.request 9).getD aRequest, by decide, by decide⟩,
   ⟨QueuesAndBatches.state4, 9, aRequest, by decide, by decide, by decide, by decide, by decide, by decide, by decide, by decide, by decide⟩,
   ⟨running (aCore numbers), by decide, by decide⟩,
   ⟨QueuesAndBatches.state3, aBatch, [], by decide, by decide, by decide, by decide, by decide, by decide, by decide, by decide, by decide, by decide⟩,
   ⟨QueuesAndBatches.state2, by decide, by decide, by decide, by decide, by decide, by decide, by decide, by decide, by decide, by decide⟩,
   ⟨QueuesAndBatches.state1, { slot := 0, phase := 0, priority := 0, bucket := 0 : QueueKey }, anImage, by decide, by decide, by decide, by decide, by decide, by decide, by decide, by decide, by decide, by decide, by decide, by decide, by decide⟩⟩

-- DecodingSteps.

namespace DecodingSteps
def decoding (x : Sequence) : State :=
  let s := setFields (generating { x with sampled := [7] }) [(Fld.SRV_ALLOW_LOW, 0), (Fld.SRV_HOLD_GRID_US, 0)]
  { s with srv := { s.srv with sequences := s.srv.sequences ++ [(5, { aSequence with isSkim := true, phase := .running, partner := some 4 })] } }
def cancelledStep : State := { decoding { aSequence with phase := .recorded, stepTokens := [7] } with srv := { (decoding { aSequence with phase := .recorded, stepTokens := [7] }).srv with requests := [(9, { aRequest with gen := true, seq := some 4, cancelled := true })] } }
def state1 : State := decoding { aSequence with phase := .running }
def state2 : State := decoding { aSequence with phase := .running, stopTokens := [7] }
def state3 : State := decoding { aSequence with phase := .running, tokenLimit := 1 }
def state4 : State := decoding { aSequence with phase := .running, prompt := List.replicate 63 5 }
def state5 : State := decoding { aSequence with phase := .prompt }
def state6 : State := decoding { aSequence with phase := .recorded, stepTokens := [7], flush := 4 }
def state7 : State := decoding { aSequence with phase := .recorded, stepTokens := [7], flush := 1 }
def state8 : State := decoding { aSequence with phase := .preempted }
def state9 : State := decoding { aSequence with phase := .recorded, stepTokens := [7], flush := 4, lost := true }
end DecodingSteps
theorem witness_DecodingSteps :
    (∃ (s : State) (q : Nat) (x : Sequence) (r : Request) (g : Image), s.seq q = some x ∧
      s.request x.row = some r ∧
      (s.slot x.slot).image = some g ∧
      x.phase = SeqPhase.running ∧
      s.seqInBatch q = false ∧
      x.isSkim = false ∧
      r.code = 0 ∧
      r.cancelled = false ∧
      x.elapsed = false ∧
      x.stepTokens = [] ∧
      (∀ k ∈ x.stepTree.acceptedTokens x.sampled (x.stepTree.accept x.sampled x.stepTree.tokens.length 0), k ∉ x.stopTokens) ∧
      s.rget Fld.SRV_ALLOW_LOW * (s.slot x.slot).tokenCost +
    (s.slot x.slot).tokenCost *
      (x.stepTree.acceptedTokens x.sampled (x.stepTree.accept x.sampled x.stepTree.tokens.length 0)).length ≤
  x.allowance ∧
      x.emitted.length +
    (x.stepTree.acceptedTokens x.sampled (x.stepTree.accept x.sampled x.stepTree.tokens.length 0)).length <
  x.tokenLimit ∧
      x.prompt.length + x.emitted.length +
    (x.stepTree.acceptedTokens x.sampled (x.stepTree.accept x.sampled x.stepTree.tokens.length 0)).length <
  g.header.context) ∧
    (∃ (s : State) (q : Nat) (x : Sequence) (r : Request) (g : Image), s.seq q = some x ∧
      s.request x.row = some r ∧
      (s.slot x.slot).image = some g ∧
      x.phase = SeqPhase.running ∧
      s.seqInBatch q = false ∧
      x.isSkim = false ∧
      r.code = 0 ∧
      r.cancelled = false ∧
      x.elapsed = false ∧
      x.stepTokens = [] ∧
      x.tree = none ∧
      s.mayActFor r.session = true ∧
      (s.slot x.slot).tokenCost ≤ x.allowance ∧
      listAt 0 x.sampled 0 ∈ x.stopTokens) ∧
    (∃ (s : State) (q : Nat) (x : Sequence) (r : Request) (g : Image), s.seq q = some x ∧
      s.request x.row = some r ∧
      (s.slot x.slot).image = some g ∧
      x.phase = SeqPhase.running ∧
      s.seqInBatch q = false ∧
      x.isSkim = false ∧
      r.code = 0 ∧
      r.cancelled = false ∧
      x.elapsed = false ∧
      x.stepTokens = [] ∧
      x.tree = none ∧
      s.mayActFor r.session = true ∧
      (s.slot x.slot).tokenCost ≤ x.allowance ∧
      (listAt 0 x.sampled 0 ∉ x.stopTokens) ∧
      x.emitted.length + 1 = x.tokenLimit) ∧
    (∃ (s : State) (q : Nat) (x : Sequence) (r : Request) (g : Image), s.seq q = some x ∧
      s.request x.row = some r ∧
      (s.slot x.slot).image = some g ∧
      x.phase = SeqPhase.running ∧
      s.seqInBatch q = false ∧
      x.isSkim = false ∧
      r.code = 0 ∧
      r.cancelled = false ∧
      x.elapsed = false ∧
      x.stepTokens = [] ∧
      x.tree = none ∧
      s.mayActFor r.session = true ∧
      (s.slot x.slot).tokenCost ≤ x.allowance ∧
      (listAt 0 x.sampled 0 ∉ x.stopTokens) ∧
      x.emitted.length + 1 ≠ x.tokenLimit ∧
      x.prompt.length + x.emitted.length + 1 = g.header.context) ∧
    (∃ (s : State) (q : Nat) (x : Sequence) (r : Request) (g : Image), s.seq q = some x ∧
      s.request x.row = some r ∧
      (s.slot x.slot).image = some g ∧
      x.phase ≠ SeqPhase.running) ∧
    (∃ (s : State) (q : Nat) (x : Sequence) (r : Request) (g : Image) (k : Nat) (y : Sequence), s.seq q = some x ∧
      s.request x.row = some r ∧
      (s.slot x.slot).image = some g ∧
      x.phase = SeqPhase.running ∧
      s.seqInBatch q = false ∧
      x.isSkim = true ∧
      x.partner = some k ∧
      k ≠ q ∧
      s.seq k = some y) ∧
    (∃ (s : State) (q : Nat) (x : Sequence) (r : Request) (g : Image), s.seq q = some x ∧
      s.request x.row = some r ∧
      (s.slot x.slot).image = some g ∧
      (x.phase ≠ SeqPhase.recorded ∨ s.durable x.stepRecord = false)) ∧
    (∃ (s : State) (q : Nat) (x : Sequence) (r : Request) (g : Image), s.seq q = some x ∧
      s.request x.row = some r ∧
      (s.slot x.slot).image = some g ∧
      x.phase = SeqPhase.recorded ∧
      s.durable x.stepRecord = true ∧
      x.stop = none ∧
      x.partner = none ∧
      x.cand = false ∧
      x.skim = false ∧
      s.rget Fld.SRV_HOLD_GRID_US = 0 ∧
      r.mute = false ∧
      r.cancelled = true ∧
      r.row = x.row) ∧
    (∃ (s : State) (q : Nat) (x : Sequence) (r : Request) (g : Image), s.seq q = some x ∧
      s.request x.row = some r ∧
      (s.slot x.slot).image = some g ∧
      x.phase = SeqPhase.recorded ∧
      s.durable x.stepRecord = true ∧
      x.stop = none ∧
      x.partner = none ∧
      x.cand = false ∧
      x.skim = false ∧
      s.rget Fld.SRV_HOLD_GRID_US = 0 ∧
      r.mute = false ∧
      r.cancelled = false ∧
      x.lost = true ∧
      (x.emitted ++ x.stepTokens).length - x.sent < x.flush) ∧
    (∃ (s : State) (q : Nat) (x : Sequence) (r : Request) (g : Image), s.seq q = some x ∧
      s.request x.row = some r ∧
      (s.slot x.slot).image = some g ∧
      x.phase = SeqPhase.recorded ∧
      s.durable x.stepRecord = true ∧
      x.stop = none ∧
      x.partner = none ∧
      x.cand = false ∧
      x.skim = false ∧
      s.rget Fld.SRV_HOLD_GRID_US = 0 ∧
      r.mute = false ∧
      r.cancelled = false ∧
      x.lost = false ∧
      (x.emitted ++ x.stepTokens).length - x.sent < x.flush ∧
      s.unsentTokens
    { row := x.row, slot := x.slot, prompt := x.prompt, emitted := x.emitted ++ x.stepTokens, seed := x.seed, temperature := x.temperature, skim := x.skim, cand := x.cand, elapsed := x.elapsed, elapsedLimit := x.elapsedLimit, admittedAt := x.admittedAt, stopTokens := x.stopTokens, flush := x.flush, tokenLimit := x.tokenLimit, allowance := x.allowance, allowRecord := x.allowRecord, sent := x.sent, ordinal := x.ordinal, phase := x.phase, done := x.done, rebuild := x.rebuild, committed := x.prompt.length + (x.emitted ++ x.stepTokens).length - 1, stepRecord := x.stepRecord, stop := x.stop, shared := x.shared, records := x.records, partner := x.partner, isSkim := x.isSkim, draft := x.draft : Sequence } <
  256) ∧
    (∃ (s : State) (q : Nat) (x : Sequence) (r : Request) (g : Image), s.seq q = some x ∧
      s.request x.row = some r ∧
      (s.slot x.slot).image = some g ∧
      x.phase = SeqPhase.recorded ∧
      s.durable x.stepRecord = true ∧
      x.stop = none ∧
      x.partner = none ∧
      x.cand = false ∧
      x.skim = false ∧
      s.rget Fld.SRV_HOLD_GRID_US = 0 ∧
      r.mute = false ∧
      r.cancelled = false ∧
      x.flush ≤ (x.emitted ++ x.stepTokens).length - x.sent ∧
      0 < x.flush) ∧
    (∃ (s : State) (q : Nat) (x : Sequence) (r : Request) (g : Image), s.seq q = some x ∧
      s.request x.row = some r ∧
      (s.slot x.slot).image = some g ∧
      x.phase = SeqPhase.preempted) ∧
    (∃ (s : State) (q : Nat) (x : Sequence) (r : Request) (g : Image), s.seq q = some x ∧
      s.request x.row = some r ∧
      (s.slot x.slot).image = some g ∧
      x.phase ≠ SeqPhase.preempted) :=
  ⟨⟨DecodingSteps.state1, 4, (DecodingSteps.state1.seq 4).getD aSequence, (DecodingSteps.state1.request ((DecodingSteps.state1.seq 4).getD aSequence).row).getD aRequest, (DecodingSteps.state1.slot ((DecodingSteps.state1.seq 4).getD aSequence).slot).image.getD anImage, by decide, by decide, by decide, by decide, by decide, by decide, by decide, by decide, by decide, by decide, by decide, by decide, by decide, by decide⟩,
   ⟨DecodingSteps.state2, 4, (DecodingSteps.state2.seq 4).getD aSequence, (DecodingSteps.state2.request ((DecodingSteps.state2.seq 4).getD aSequence).row).getD aRequest, (DecodingSteps.state2.slot ((DecodingSteps.state2.seq 4).getD aSequence).slot).image.getD anImage, by decide, by decide, by decide, by decide, by decide, by decide, by decide, by decide, by decide, by decide, by decide, by decide, by decide, by decide⟩,
   ⟨DecodingSteps.state3, 4, (DecodingSteps.state3.seq 4).getD aSequence, (DecodingSteps.state3.request ((DecodingSteps.state3.seq 4).getD aSequence).row).getD aRequest, (DecodingSteps.state3.slot ((DecodingSteps.state3.seq 4).getD aSequence).slot).image.getD anImage, by decide, by decide, by decide, by decide, by decide, by decide, by decide, by decide, by decide, by decide, by decide, by decide, by decide, by decide, by decide⟩,
   ⟨DecodingSteps.state4, 4, (DecodingSteps.state4.seq 4).getD aSequence, (DecodingSteps.state4.request ((DecodingSteps.state4.seq 4).getD aSequence).row).getD aRequest, (DecodingSteps.state4.slot ((DecodingSteps.state4.seq 4).getD aSequence).slot).image.getD anImage, by decide, by decide, by decide, by decide, by decide, by decide, by decide, by decide, by decide, by decide, by decide, by decide, by decide, by decide, by decide, by decide⟩,
   ⟨DecodingSteps.state5, 4, (DecodingSteps.state5.seq 4).getD aSequence, (DecodingSteps.state5.request ((DecodingSteps.state5.seq 4).getD aSequence).row).getD aRequest, (DecodingSteps.state5.slot ((DecodingSteps.state5.seq 4).getD aSequence).slot).image.getD anImage, by decide, by decide, by decide, by decide⟩,
   ⟨DecodingSteps.state1, 5, (DecodingSteps.state1.seq 5).getD aSequence, (DecodingSteps.state1.request ((DecodingSteps.state1.seq 5).getD aSequence).row).getD aRequest, (DecodingSteps.state1.slot ((DecodingSteps.state1.seq 5).getD aSequence).slot).image.getD anImage, 4, (DecodingSteps.state1.seq 4).getD aSequence, by decide, by decide, by decide, by decide, by decide, by decide, by decide, by decide, by decide⟩,
   ⟨DecodingSteps.state1, 4, (DecodingSteps.state1.seq 4).getD aSequence, (DecodingSteps.state1.request ((DecodingSteps.state1.seq 4).getD aSequence).row).getD aRequest, (DecodingSteps.state1.slot ((DecodingSteps.state1.seq 4).getD aSequence).slot).image.getD anImage, by decide, by decide, by decide, by decide⟩,
   ⟨DecodingSteps.cancelledStep, 4, (DecodingSteps.cancelledStep.seq 4).getD aSequence, (DecodingSteps.cancelledStep.request ((DecodingSteps.cancelledStep.seq 4).getD aSequence).row).getD aRequest, (DecodingSteps.cancelledStep.slot ((DecodingSteps.cancelledStep.seq 4).getD aSequence).slot).image.getD anImage, by decide, by decide, by decide, by decide, by decide, by decide, by decide, by decide, by decide, by decide, by decide, by decide, by decide⟩,
   ⟨DecodingSteps.state9, 4, (DecodingSteps.state9.seq 4).getD aSequence, (DecodingSteps.state9.request ((DecodingSteps.state9.seq 4).getD aSequence).row).getD aRequest, (DecodingSteps.state9.slot ((DecodingSteps.state9.seq 4).getD aSequence).slot).image.getD anImage, by decide, by decide, by decide, by decide, by decide, by decide, by decide, by decide, by decide, by decide, by decide, by decide, by decide, by decide⟩,
   ⟨DecodingSteps.state6, 4, (DecodingSteps.state6.seq 4).getD aSequence, (DecodingSteps.state6.request ((DecodingSteps.state6.seq 4).getD aSequence).row).getD aRequest, (DecodingSteps.state6.slot ((DecodingSteps.state6.seq 4).getD aSequence).slot).image.getD anImage, by decide, by decide, by decide, by decide, by decide, by decide, by decide, by decide, by decide, by decide, by decide, by decide, by decide, by decide, by decide⟩,
   ⟨DecodingSteps.state7, 4, (DecodingSteps.state7.seq 4).getD aSequence, (DecodingSteps.state7.request ((DecodingSteps.state7.seq 4).getD aSequence).row).getD aRequest, (DecodingSteps.state7.slot ((DecodingSteps.state7.seq 4).getD aSequence).slot).image.getD anImage, by decide, by decide, by decide, by decide, by decide, by decide, by decide, by decide, by decide, by decide, by decide, by decide, by decide, by decide⟩,
   ⟨DecodingSteps.state8, 4, (DecodingSteps.state8.seq 4).getD aSequence, (DecodingSteps.state8.request ((DecodingSteps.state8.seq 4).getD aSequence).row).getD aRequest, (DecodingSteps.state8.slot ((DecodingSteps.state8.seq 4).getD aSequence).slot).image.getD anImage, by decide, by decide, by decide, by decide⟩,
   ⟨DecodingSteps.state1, 4, (DecodingSteps.state1.seq 4).getD aSequence, (DecodingSteps.state1.request ((DecodingSteps.state1.seq 4).getD aSequence).row).getD aRequest, (DecodingSteps.state1.slot ((DecodingSteps.state1.seq 4).getD aSequence).slot).image.getD anImage, by decide, by decide, by decide, by decide⟩⟩

-- FixedSlotMode.

namespace FixedSlotMode
/-- A batch whose first coat has begun. -/
def withinCoat (f : FrameState) : State :=
  setFields { serving with srv := { batch := some { aBatch with runs := [{ begun := true }] }, frame := f } } [(Fld.SRV_MODE_FIXED, 1)]
def state1 : State := setFields serving [(Fld.SRV_MODE_FIXED, 1)]
def state2 : State := setFields (running (aCore [])) [(Fld.SRV_MODE_FIXED, 1)]
def state4 : State := withinCoat { late := true }
def state5 : State := { serving with srv := { frame := { pending := some true } } }
end FixedSlotMode
theorem witness_FixedSlotMode :
    (∃ (s : State), (s.rget Fld.MEM_LAYOUT_SPILL_GIB = 0 ∨
  s.rget Fld.PWR_CAP_MW <
      (64 * s.rget (Fld.PWR_MODEL_BASE_W (s.rget Fld.SRV_GUARD_OP)) +
            s.rget (Fld.PWR_MODEL_ARRAY_W (s.rget Fld.SRV_GUARD_OP)) *
              s.rget (Fld.PWR_OP_CEIL (s.rget Fld.SRV_GUARD_OP))) *
          1000 /
        64 ∨
    s.rget Fld.SRV_MODE_FIXED = 1)) ∧
    (∃ (s : State), s.rget Fld.MEM_LAYOUT_SPILL_GIB ≠ 0 ∧
      (64 * s.rget (Fld.PWR_MODEL_BASE_W (s.rget Fld.SRV_GUARD_OP)) +
        s.rget (Fld.PWR_MODEL_ARRAY_W (s.rget Fld.SRV_GUARD_OP)) * s.rget (Fld.PWR_OP_CEIL (s.rget Fld.SRV_GUARD_OP))) *
      1000 /
    64 ≤
  s.rget Fld.PWR_CAP_MW ∧
      s.rget Fld.SRV_MODE_FIXED = 0) ∧
    (∃ (s : State), (s.srv.frame.pending ≠ some true ∨ s.srv.batch.isSome = true)) ∧
    (∃ (s : State), s.srv.frame.pending = some true ∧
      s.srv.batch = none) ∧
    (∃ (s : State), s.rget Fld.SRV_MODE_FIXED = 1 ∧
      s.srv.batch = none) ∧
    (∃ (s : State) (b : Batch), s.rget Fld.SRV_MODE_FIXED = 1 ∧
      s.srv.batch = some b ∧
      (b.atBoundary = true ∧ b.stays = false)) ∧
    (∃ (s : State) (b : Batch), s.rget Fld.SRV_MODE_FIXED = 1 ∧
      s.srv.batch = some b ∧
      ¬(b.atBoundary = true ∧ b.stays = false) ∧
      s.srv.frame.late = true) ∧
    (∃ (s : State) (b : Batch), s.rget Fld.SRV_MODE_FIXED = 1 ∧
      s.srv.batch = some b ∧
      ¬(b.atBoundary = true ∧ b.stays = false) ∧
      s.srv.frame.late = false) :=
  ⟨⟨FixedSlotMode.state1, by decide⟩,
   ⟨FixedSlotMode.state5, by decide, by decide, by decide⟩,
   ⟨FixedSlotMode.state1, by decide⟩,
   ⟨FixedSlotMode.state5, by decide, by decide⟩,
   ⟨FixedSlotMode.state1, by decide, by decide⟩,
   ⟨FixedSlotMode.state2, FixedSlotMode.state2.srv.batch.getD aBatch, by decide, by decide, by decide⟩,
   ⟨FixedSlotMode.state4, FixedSlotMode.state4.srv.batch.getD aBatch, by decide, by decide, by decide, by decide⟩,
   ⟨FixedSlotMode.withinCoat { : FrameState }, (FixedSlotMode.withinCoat { : FrameState }).srv.batch.getD aBatch, by decide, by decide, by decide, by decide⟩⟩

-- ArrayTilesAndPasses.

namespace ArrayTilesAndPasses
/-- An array coat with these passes, `issued` of them issued. -/
def arrayAt (a : ArrState) (r : CoatRun := { passes := [aPass], units := 1 }) : State :=
  { (atCoat (coatImage 1 [1]) { aBatch with runs := [r] }) with arr := a }
def state2 : State := arrayAt { halves := [(0, aTile)] }
def state3 : State := arrayAt { halves := [(0, aTile), (1, aTile)] }
def state4 : State := arrayAt { active := some aTile } { begun := true, passes := [aPass, aPass], issued := 1, units := 1 }
def state5 : State := arrayAt { shadow := some aTile }
def state6 : State := arrayAt { stopped := true }
def state7 : State := arrayAt { flights := [⟨aPass, [], aTile⟩] } { passes := [aPass], issued := 1, units := 1 }
def state8 : State := arrayAt { flights := [⟨aPass, [], aTile⟩], bank0 := { phase := .landed, pass := some aPass } } { passes := [aPass], issued := 1, units := 1 }
def state9 : State := arrayAt { shadow := some aTile } { passes := [aPass], units := 1, retried := true }
def state10 : State := arrayAt { flights := [⟨aPass, [], aTile⟩] } { passes := [aPass], issued := 1, units := 1, retried := true }
def work1 : Work := ⟨aBatch, coatImage 1 [1], 0, aCoat, {}⟩
def op1 : Op := ⟨aProgram 1, [aProgram 1], .bf16, { kind := 1, format := 6, scale := 0, object := 0, offset := 0, length := 0, elements := 0, digest := [] }, .bf16, 256, 256⟩
def optionArrayError2 : (Option ArrayError) := some { kind := .residue }
end ArrayTilesAndPasses
theorem witness_ArrayTilesAndPasses :
    (∃ (s : State) (k : TileKey) (t : Tile) (h : Nat) (u : State), s.arr.stopped = false ∧
      s.nextTile = some k ∧
      s.loadTile k = some t ∧
      s.accessAll 80 (s.tilePages k) = (u, true) ∧
      ((h = 0 ∧ ∀ x ∈ s.arr.halves, x.1 ≠ 0) ∨ h = 1 ∧ (∃ x ∈ s.arr.halves, x.1 = 0) ∧ ∀ x ∈ s.arr.halves, x.1 ≠ 1)) ∧
    (∃ (s : State), (∃ x ∈ s.arr.halves, x.1 = 0) ∧
      (∃ x ∈ s.arr.halves, x.1 = 1)) ∧
    (∃ (s : State), (s.arr.stopped = true ∨ s.nextTile = none)) ∧
    (∃ (s : State) (x : Nat × Tile) (l : List (Nat × Tile)), s.arr.shadow = none ∧
      s.arr.halves = x :: l) ∧
    (∃ (s : State), (s.arr.shadow ≠ none ∨ s.arr.halves = [])) ∧
    (∃ (s : State) (w : Work) (o : Op) (p : Pass), s.issuing = some w ∧
      w.g.op w.c = some o ∧
      w.run.passes[w.run.issued]? = some p ∧
      ¬(s.arr.stopped = false ∧
    s.rget Fld.ARR_REMAP_UNUSABLE = 0 ∧
      s.mayWork w = true ∧ w.setFree = true ∧ s.bankTakes p = true ∧ w.stripeThere o p = true)) ∧
    (∃ (s : State) (w : Work) (o : Op) (p : Pass), s.issuing = some w ∧
      w.g.op w.c = some o ∧
      w.run.passes[w.run.issued]? = some p ∧
      (∀ (x : Tile), s.arr.active = some x → x.key ≠ p.key) ∧
      (∀ (x : Tile), s.arr.shadow = some x → x.key ≠ p.key)) ∧
    (∃ (s : State) (w : Work) (o : Op) (p : Pass) (t : Tile) (u : State) (l : Option (Option Nat × Option Nat)), s.issuing = some w ∧
      w.g.op w.c = some o ∧
      w.run.passes[w.run.issued]? = some p ∧
      (s.arr.stopped = false ∧
  s.rget Fld.ARR_REMAP_UNUSABLE = 0 ∧
    s.mayWork w = true ∧ w.setFree = true ∧ s.bankTakes p = true ∧ w.stripeThere o p = true) ∧
      t.key = p.key ∧
      (s.openWindows w).reach w (67 + w.generator) (o.sources p) = (u, true) ∧
      (s.arr.active = some t ∨ ((∀ (x : Tile), s.arr.active = some x → x.key ≠ p.key) ∧ s.arr.shadow = some t) ∧ l = none)) ∧
    (∃ (s : State) (w : Work) (o : Op) (p : Pass) (t : Tile), s.issuing = some w ∧
      w.g.op w.c = some o ∧
      w.run.passes[w.run.issued]? = some p ∧
      (s.arr.stopped = false ∧
  s.rget Fld.ARR_REMAP_UNUSABLE = 0 ∧
    s.mayWork w = true ∧ w.setFree = true ∧ s.bankTakes p = true ∧ w.stripeThere o p = true) ∧
      t.key = p.key ∧
      ((∀ (x : Tile), s.arr.active = some x → x.key ≠ p.key) ∧ s.arr.shadow = some t) ∧
      w.run.retried = false ∧
      w.c.kind = 1 ∧
      w.run.complete = false) ∧
    (∃ (s : State) (w : Work) (o : Op) (p : Pass) (t : Tile), s.issuing = some w ∧
      w.g.op w.c = some o ∧
      w.run.passes[w.run.issued]? = some p ∧
      (s.arr.stopped = false ∧
  s.rget Fld.ARR_REMAP_UNUSABLE = 0 ∧
    s.mayWork w = true ∧ w.setFree = true ∧ s.bankTakes p = true ∧ w.stripeThere o p = true) ∧
      t.key = p.key ∧
      ((∀ (x : Tile), s.arr.active = some x → x.key ≠ p.key) ∧ s.arr.shadow = some t) ∧
      w.run.retried = true) ∧
    (∃ (s : State), (s.arr.stopped = true ∨ s.arr.flights = [])) ∧
    (∃ (s : State) (f : Flight) (l : List Flight) (w : Work) (o : Op), s.arr.flights = f :: l ∧
      s.coatAt f.pass.key.coat = some w ∧
      w.g.op w.c = some o ∧
      s.arr.stopped = false ∧
      (s.arr.bankOf f.pass.bank).phase ≠ BankPhase.free ∧
      ¬((s.arr.bankOf f.pass.bank).phase = BankPhase.filling ∧
    ∃ q, (s.arr.bankOf f.pass.bank).pass = some q ∧ q.sameUnit f.pass = true)) ∧
    (∃ (s : State) (f : Flight) (l : List Flight) (w : Work) (o : Op), s.arr.flights = f :: l ∧
      s.coatAt f.pass.key.coat = some w ∧
      w.g.op w.c = some o ∧
      s.arr.stopped = false ∧
      ((s.arr.bankOf f.pass.bank).phase = BankPhase.free ∨
  (s.arr.bankOf f.pass.bank).phase = BankPhase.filling ∧
    ∃ q, (s.arr.bankOf f.pass.bank).pass = some q ∧ q.sameUnit f.pass = true) ∧
      w.run.retried = false ∧
      w.c.kind = 1 ∧
      w.run.complete = false) ∧
    (∃ (s : State) (f : Flight) (l : List Flight) (w : Work) (o : Op), s.arr.flights = f :: l ∧
      s.coatAt f.pass.key.coat = some w ∧
      w.g.op w.c = some o ∧
      s.arr.stopped = false ∧
      ((s.arr.bankOf f.pass.bank).phase = BankPhase.free ∨
  (s.arr.bankOf f.pass.bank).phase = BankPhase.filling ∧
    ∃ q, (s.arr.bankOf f.pass.bank).pass = some q ∧ q.sameUnit f.pass = true) ∧
      w.run.retried = true) :=
  ⟨⟨ArrayTilesAndPasses.arrayAt { : ArrState }, aKey, ((ArrayTilesAndPasses.arrayAt { : ArrState }).loadTile aKey).getD aTile, 0, ArrayTilesAndPasses.arrayAt { : ArrState }, by decide, by decide, by decide, by decide, by decide⟩,
   ⟨ArrayTilesAndPasses.state3, by decide, by decide⟩,
   ⟨ArrayTilesAndPasses.state2, by decide⟩,
   ⟨ArrayTilesAndPasses.state2, (0, aTile), ArrayTilesAndPasses.state2.arr.halves.tail, by decide, by decide⟩,
   ⟨ArrayTilesAndPasses.arrayAt { : ArrState }, by decide⟩,
   ⟨ArrayTilesAndPasses.state6, ArrayTilesAndPasses.state6.issuing.getD ArrayTilesAndPasses.work1, ArrayTilesAndPasses.op1, aPass, by decide, by decide, by decide, by decide⟩,
   ⟨ArrayTilesAndPasses.arrayAt { : ArrState }, (ArrayTilesAndPasses.arrayAt { : ArrState }).issuing.getD ArrayTilesAndPasses.work1, ArrayTilesAndPasses.op1, aPass, by decide, by decide, by decide, by decide, by decide⟩,
   ⟨ArrayTilesAndPasses.state4, ArrayTilesAndPasses.state4.issuing.getD ArrayTilesAndPasses.work1, ArrayTilesAndPasses.op1, aPass, aTile, ArrayTilesAndPasses.state4, none, by decide, by decide, by decide, by decide, by decide, by decide, by decide⟩,
   ⟨ArrayTilesAndPasses.state5, ArrayTilesAndPasses.state5.issuing.getD ArrayTilesAndPasses.work1, ArrayTilesAndPasses.op1, aPass, aTile, by decide, by decide, by decide, by decide, by decide, by decide, by decide, by decide, by decide⟩,
   ⟨ArrayTilesAndPasses.state9, ArrayTilesAndPasses.state9.issuing.getD ArrayTilesAndPasses.work1, ArrayTilesAndPasses.op1, aPass, aTile, by decide, by decide, by decide, by decide, by decide, by decide, by decide⟩,
   ⟨ArrayTilesAndPasses.arrayAt { : ArrState }, by decide⟩,
   ⟨ArrayTilesAndPasses.state8, { pass := aPass, rows := [], tile := aTile : Flight }, ArrayTilesAndPasses.state8.arr.flights.tail, (ArrayTilesAndPasses.state8.coatAt { pass := aPass, rows := [], tile := aTile : Flight }.pass.key.coat).getD
  ArrayTilesAndPasses.work1, ArrayTilesAndPasses.op1, by decide, by decide, by decide, by decide, by decide, by decide⟩,
   ⟨ArrayTilesAndPasses.state7, { pass := aPass, rows := [], tile := aTile : Flight }, ArrayTilesAndPasses.state7.arr.flights.tail, (ArrayTilesAndPasses.state7.coatAt { pass := aPass, rows := [], tile := aTile : Flight }.pass.key.coat).getD
  ArrayTilesAndPasses.work1, ArrayTilesAndPasses.op1, by decide, by decide, by decide, by decide, by decide, by decide, by decide, by decide⟩,
   ⟨ArrayTilesAndPasses.state10, { pass := aPass, rows := [], tile := aTile : Flight }, ArrayTilesAndPasses.state10.arr.flights.tail, (ArrayTilesAndPasses.state10.coatAt { pass := aPass, rows := [], tile := aTile : Flight }.pass.key.coat).getD
  ArrayTilesAndPasses.work1, ArrayTilesAndPasses.op1, by decide, by decide, by decide, by decide, by decide, by decide⟩⟩

-- DrainsAndCoats.

namespace DrainsAndCoats
/-- An array coat whose banks are as given. -/
def draining (x : AccBank) (y : AccBank := {}) (stopped retried : Bool := false) : State :=
  { (atCoat (coatImage 1 [1]) { aBatch with runs := [{ begun := true, retried := retried, passes := [aPass], issued := 1, landed := 1, units := 1 }] }) with arr := { bank0 := x, bank1 := y, stopped := stopped } }
def laterPass : Pass := { aPass with bank := 1, unit := 1 }
/-- A coat with one kernel and no array pass, whose progress is as given. -/
def coated (l : List CoatRun) : State := atCoat { anImage with coats := l.map fun _ => aCoat } { aBatch with runs := l }
def state2 : State := draining { phase := .landed, pass := some aPass, entries := [([{}] : List AccEntry)] }
def state3 : State := draining { phase := .draining, pass := some aPass, entries := [([{}] : List AccEntry)] }
def state4 : State := draining { phase := .draining, pass := some aPass, entries := [([{}] : List AccEntry)], next := 1 }
def state5 : State := draining { phase := .landed, pass := some laterPass } { phase := .landed, pass := some aPass }
def state6 : State := draining { phase := .landed, pass := some aPass, entries := [([{}] : List AccEntry)], next := 1 } {} true
def state8 : State := coated [{ kernelsStarted := [0], kernelsEnded := [0] }]
def state9 : State := coated [{ kernelsStarted := [0], kernelsEnded := [0] }, {}]
def state10 : State := draining { phase := .landed, pass := some aPass, entries := [([{}] : List AccEntry)] } { phase := .draining, pass := some laterPass }
def state11 : State := draining { phase := .landed, pass := some aPass } {} false true
def state12 : State := draining { phase := .draining, pass := some aPass } {} false true
def work1 : Work := ⟨aBatch, coatImage 1 [1], 0, aCoat, {}⟩
def op1 : Op := ⟨aProgram 1, [aProgram 1], .bf16, { kind := 1, format := 6, scale := 0, object := 0, offset := 0, length := 0, elements := 0, digest := [] }, .bf16, 256, 256⟩
end DrainsAndCoats
theorem witness_DrainsAndCoats :
    (∃ (s : State) (bank : Nat), bank ≤ 1 ∧
      ((s.arr.bankOf bank).phase ≠ BankPhase.landed ∨
  (s.arr.bankOf (1 - bank)).phase = BankPhase.draining ∨ s.arr.stopped = true)) ∧
    (∃ (s : State) (bank : Nat) (p : Pass) (q : Pass), bank ≤ 1 ∧
      (s.arr.bankOf bank).phase = BankPhase.landed ∧
      (s.arr.bankOf (1 - bank)).phase = BankPhase.landed ∧
      (s.arr.bankOf bank).pass = some p ∧
      (s.arr.bankOf (1 - bank)).pass = some q ∧
      (q.key.coat < p.key.coat ∨ q.key.coat = p.key.coat ∧ q.unit < p.unit)) ∧
    (∃ (s : State) (bank : Nat), bank ≤ 1 ∧
      ((s.arr.bankOf bank).phase ≠ BankPhase.draining ∨ s.arr.stopped = true)) ∧
    (∃ (s : State) (bank : Nat) (p : Pass) (w : Work) (o : Op) (f : Machine.Format) (n : Nat) (u : State), bank ≤ 1 ∧
      (s.arr.bankOf bank).pass = some p ∧
      s.coatAt p.key.coat = some w ∧
      w.g.op w.c = some o ∧
      Format.ofCode w.c.format = some f ∧
      s.arr.stopped = false ∧
      s.arr.drains bank = true ∧
      ((s.countHold Fld.ARR_ACC_CORR_COUNT n).openWindows w).reach w 66 [(w.c.dest, true)] = (u, true)) ∧
    (∃ (s : State) (bank : Nat) (p : Pass) (w : Work) (o : Op) (f : Machine.Format), bank ≤ 1 ∧
      (s.arr.bankOf bank).pass = some p ∧
      s.coatAt p.key.coat = some w ∧
      w.g.op w.c = some o ∧
      Format.ofCode w.c.format = some f ∧
      s.arr.stopped = false ∧
      s.arr.drains bank = true ∧
      w.run.retried = false ∧
      w.c.kind = 1 ∧
      w.run.complete = false) ∧
    (∃ (s : State) (bank : Nat) (p : Pass) (w : Work) (o : Op) (f : Machine.Format), bank ≤ 1 ∧
      (s.arr.bankOf bank).pass = some p ∧
      s.coatAt p.key.coat = some w ∧
      w.g.op w.c = some o ∧
      Format.ofCode w.c.format = some f ∧
      s.arr.stopped = false ∧
      s.arr.drains bank = true ∧
      w.run.retried = true) ∧
    (∃ (s : State) (bank : Nat) (p : Pass) (w : Work) (o : Op) (f : Machine.Format) (n : Nat) (u : State), bank ≤ 1 ∧
      (s.arr.bankOf bank).pass = some p ∧
      s.coatAt p.key.coat = some w ∧
      w.g.op w.c = some o ∧
      Format.ofCode w.c.format = some f ∧
      s.arr.stopped = false ∧
      (s.arr.bankOf bank).phase = BankPhase.draining ∧
      ((s.countHold Fld.ARR_ACC_CORR_COUNT n).openWindows w).reach w 66 [(w.c.dest, true)] = (u, true)) ∧
    (∃ (s : State) (bank : Nat) (p : Pass) (w : Work) (o : Op) (f : Machine.Format), bank ≤ 1 ∧
      (s.arr.bankOf bank).pass = some p ∧
      s.coatAt p.key.coat = some w ∧
      w.g.op w.c = some o ∧
      Format.ofCode w.c.format = some f ∧
      s.arr.stopped = false ∧
      (s.arr.bankOf bank).phase = BankPhase.draining ∧
      w.run.retried = false ∧
      w.c.kind = 1 ∧
      w.run.complete = false) ∧
    (∃ (s : State) (bank : Nat) (p : Pass) (w : Work) (o : Op) (f : Machine.Format), bank ≤ 1 ∧
      (s.arr.bankOf bank).pass = some p ∧
      s.coatAt p.key.coat = some w ∧
      w.g.op w.c = some o ∧
      Format.ofCode w.c.format = some f ∧
      s.arr.stopped = false ∧
      (s.arr.bankOf bank).phase = BankPhase.draining ∧
      w.run.retried = true) ∧
    (∃ (s : State) (bank : Nat), bank ≤ 1 ∧
      ((s.arr.bankOf bank).phase ≠ BankPhase.draining ∨ (s.arr.bankOf bank).next < (s.arr.bankOf bank).entries.length)) ∧
    (∃ (s : State) (bank : Nat) (p : Pass), bank ≤ 1 ∧
      (s.arr.bankOf bank).phase = BankPhase.draining ∧
      (s.arr.bankOf bank).entries.length ≤ (s.arr.bankOf bank).next ∧
      (s.arr.bankOf bank).pass = some p) ∧
    (∃ (s : State) (i : Nat) (w : Work), s.cont.activating = none ∧
      s.coatAt i = some w ∧
      ¬(s.mayWork w = true ∧
    w.run.drained = w.run.units ∧
      w.run.landed = w.run.passes.length ∧
        w.programsRun = true ∧
          s.sliceRuns 9 0 = false ∧
            (w.c.kind = 4 → w.run.attentionDone = true) ∧
              w.run.kernelsEnded.length = w.c.kernels ∧ s.arr.stopped = false)) ∧
    (∃ (s : State) (i : Nat) (w : Work), s.cont.activating = none ∧
      s.coatAt i = some w ∧
      (s.mayWork w = true ∧
  w.run.drained = w.run.units ∧
    w.run.landed = w.run.passes.length ∧
      w.programsRun = true ∧
        s.sliceRuns 9 0 = false ∧
          (w.c.kind = 4 → w.run.attentionDone = true) ∧ w.run.kernelsEnded.length = w.c.kernels ∧ s.arr.stopped = false) ∧
      ¬∀ j < w.b.runs.length, j ≠ i → w.b.completed j = true) ∧
    (∃ (s : State) (i : Nat) (w : Work), s.cont.activating = none ∧
      s.coatAt i = some w ∧
      (s.mayWork w = true ∧
  w.run.drained = w.run.units ∧
    w.run.landed = w.run.passes.length ∧
      w.programsRun = true ∧
        s.sliceRuns 9 0 = false ∧
          (w.c.kind = 4 → w.run.attentionDone = true) ∧ w.run.kernelsEnded.length = w.c.kernels ∧ s.arr.stopped = false) ∧
      (∀ j < w.b.runs.length, j ≠ i → w.b.completed j = true)) ∧
    (∃ (s : State) (i : Nat), s.cont.activating = none ∧
      s.coatAt i = none) :=
  ⟨⟨DrainsAndCoats.draining { : AccBank }, 0, by decide, by decide⟩,
   ⟨DrainsAndCoats.state5, 0, DrainsAndCoats.laterPass, aPass, by decide, by decide, by decide, by decide, by decide, by decide⟩,
   ⟨DrainsAndCoats.draining { : AccBank }, 0, by decide, by decide⟩,
   ⟨DrainsAndCoats.state2, 0, aPass, (DrainsAndCoats.state2.coatAt aPass.key.coat).getD DrainsAndCoats.work1, DrainsAndCoats.op1, Format.bf16, 0, DrainsAndCoats.state2, by decide, by decide, by decide, by decide, by decide, by decide, by decide, by decide⟩,
   ⟨DrainsAndCoats.state2, 0, aPass, (DrainsAndCoats.state2.coatAt aPass.key.coat).getD DrainsAndCoats.work1, DrainsAndCoats.op1, Format.bf16, by decide, by decide, by decide, by decide, by decide, by decide, by decide, by decide, by decide, by decide⟩,
   ⟨DrainsAndCoats.state11, 0, aPass, (DrainsAndCoats.state11.coatAt aPass.key.coat).getD DrainsAndCoats.work1, DrainsAndCoats.op1, Format.bf16, by decide, by decide, by decide, by decide, by decide, by decide, by decide, by decide⟩,
   ⟨DrainsAndCoats.state3, 0, aPass, (DrainsAndCoats.state3.coatAt aPass.key.coat).getD DrainsAndCoats.work1, DrainsAndCoats.op1, Format.bf16, 0, DrainsAndCoats.state3, by decide, by decide, by decide, by decide, by decide, by decide, by decide, by decide⟩,
   ⟨DrainsAndCoats.state3, 0, aPass, (DrainsAndCoats.state3.coatAt aPass.key.coat).getD DrainsAndCoats.work1, DrainsAndCoats.op1, Format.bf16, by decide, by decide, by decide, by decide, by decide, by decide, by decide, by decide, by decide, by decide⟩,
   ⟨DrainsAndCoats.state12, 0, aPass, (DrainsAndCoats.state12.coatAt aPass.key.coat).getD DrainsAndCoats.work1, DrainsAndCoats.op1, Format.bf16, by decide, by decide, by decide, by decide, by decide, by decide, by decide, by decide⟩,
   ⟨DrainsAndCoats.draining { : AccBank }, 0, by decide, by decide⟩,
   ⟨DrainsAndCoats.state4, 0, aPass, by decide, by decide, by decide, by decide⟩,
   ⟨DrainsAndCoats.draining { : AccBank }, 0, ((DrainsAndCoats.draining { : AccBank }).coatAt 0).getD DrainsAndCoats.work1, by decide, by decide, by decide⟩,
   ⟨DrainsAndCoats.state9, 0, (DrainsAndCoats.state9.coatAt 0).getD DrainsAndCoats.work1, by decide, by decide, by decide, by decide⟩,
   ⟨DrainsAndCoats.state8, 0, (DrainsAndCoats.state8.coatAt 0).getD DrainsAndCoats.work1, by decide, by decide, by decide, by decide⟩,
   ⟨DrainsAndCoats.draining { : AccBank }, 1, by decide, by decide⟩⟩

-- FeedProgramsAndAttention.

namespace FeedProgramsAndAttention
/-- A coat of one program of a kind; bank 0 holds a box count. -/
def feeding (kind boxes : Nat) : State :=
  { (atCoat (coatImage 3 [kind]) aBatch) with mem := { banks := if boxes = 0 then [] else [(0, BitVec.ofNat 8 boxes)] } }
def state6 : State := atCoat (coatImage 1 [1, 2]) { aBatch with runs := [{ passes := [aPass], units := 1 }] }
def state7 : State := atCoat (coatImage 4 []) aBatch
def state8 : State := atCoat (coatImage 4 []) { aBatch with runs := [{ begun := true, attentionDone := true }] }
def rowRec1 : RowRec := { tag := 9, seq := 0, seed := 0, step := 0, length := 0 }
def attnRec1 : AttnRec := { paged := false, causal := false, stencil := true, kvFormat := 6, qFormat := 6, qHeads := 1, kvHeads := 1, dim := 1, layer := 0, scale := 0, q := 0, k := 0, v := 0, out := 0, page := 0 }
def work1 : Work := ⟨aBatch, coatImage 1 [1], 0, aCoat, {}⟩
end FeedProgramsAndAttention
theorem witness_FeedProgramsAndAttention :
    (∃ (s : State) (i : Nat) (c : Instr) (kind : Nat), (c, kind) ∈ [(Instr.windowGather i, 3), (Instr.cropAndResize i, 4), (Instr.argmax i, 5)] ∧
      s.programDue i kind = none) ∧
    (∃ (s : State) (i : Nat) (w : Work) (p : Program) (j : Nat) (u : State), s.programDue i 3 = some (w, p, j) ∧
      (s.openWindows w).reach w (67 + w.generator) p.uses = (u, true)) ∧
    (∃ (s : State) (i : Nat) (w : Work) (p : Program) (j : Nat) (f : Machine.Format) (u : State) (r : RowRec), s.programDue i 4 = some (w, p, j) ∧
      Format.ofCode p.format = some f ∧
      (s.openWindows w).reach w (67 + w.generator) p.uses = (u, true) ∧
      w.b.rows = [r] ∧
      (p.maxb < leNat (u.bindRead w.b.slot w.g p.aux r ((w.g.binding p.aux).rowOff 0 p.boxBytes) 4) ∨
  w.g.boxRoom p 0 < leNat (u.bindRead w.b.slot w.g p.aux r ((w.g.binding p.aux).rowOff 0 p.boxBytes) 4))) ∧
    (∃ (s : State) (i : Nat) (w : Work) (p : Program) (j : Nat) (f : Machine.Format) (u : State) (r : RowRec), s.programDue i 4 = some (w, p, j) ∧
      Format.ofCode p.format = some f ∧
      (s.openWindows w).reach w (67 + w.generator) p.uses = (u, true) ∧
      w.b.rows = [r] ∧
      leNat (u.bindRead w.b.slot w.g p.aux r ((w.g.binding p.aux).rowOff 0 p.boxBytes) 4) ≤ p.maxb ∧
      leNat (u.bindRead w.b.slot w.g p.aux r ((w.g.binding p.aux).rowOff 0 p.boxBytes) 4) ≤ w.g.boxRoom p 0 ∧
      leNat (u.bindRead w.b.slot w.g p.aux r ((w.g.binding p.aux).rowOff 0 p.boxBytes) 4) = 0) ∧
    (∃ (s : State) (i : Nat) (w : Work) (p : Program) (j : Nat) (f : Machine.Format) (u : State) (r : RowRec), s.programDue i 4 = some (w, p, j) ∧
      Format.ofCode p.format = some f ∧
      (s.openWindows w).reach w (67 + w.generator) p.uses = (u, true) ∧
      w.b.rows = [r] ∧
      leNat (u.bindRead w.b.slot w.g p.aux r ((w.g.binding p.aux).rowOff 0 p.boxBytes) 4) ≤ p.maxb ∧
      leNat (u.bindRead w.b.slot w.g p.aux r ((w.g.binding p.aux).rowOff 0 p.boxBytes) 4) ≤ w.g.boxRoom p 0 ∧
      leNat (u.bindRead w.b.slot w.g p.aux r ((w.g.binding p.aux).rowOff 0 p.boxBytes) 4) ≠ 0) ∧
    (∃ (s : State) (i : Nat) (w : Work) (p : Program) (j : Nat) (f : Machine.Format) (u : State), s.programDue i 5 = some (w, p, j) ∧
      Format.ofCode p.format = some f ∧
      (s.openWindows w).reach w (67 + w.generator) p.uses = (u, true)) ∧
    (∃ (vs : List FpVal) (k : Nat), vs ≠ [] ∧
      k < vs.length ∧
      k < argmaxOf vs) ∧
    (∃ (s : State) (i : Nat) (w : Work) (rs : Nat) (u : State), s.coatAt i = some w ∧
      w.run.nextStripe [] (List.map (fun x => x.rowStripe) (List.drop w.run.issued w.run.passes)) = some rs ∧
      List.filter (fun x => x.kind == 2) (w.g.programsOf w.c) ≠ [] ∧
      s.mayWork w = true ∧
      w.setFree = true ∧
      (s.openWindows w).reach w (67 + w.generator)
    (List.map (fun p => [(p.src, false), (p.dst, true)])
        (List.filter (fun x => x.kind == 2) (w.g.programsOf w.c))).flatten =
  (u, true)) ∧
    (∃ (s : State) (i : Nat) (w : Work), s.coatAt i = some w ∧
      (w.run.nextStripe [] (List.map (fun x => x.rowStripe) (List.drop w.run.issued w.run.passes)) = none ∨
  List.filter (fun x => x.kind == 2) (w.g.programsOf w.c) = [] ∨ s.mayWork w = false ∨ w.setFree = false)) ∧
    (∃ (s : State) (i : Nat) (w : Work) (a : AttnRec) (f : AttnFmt), s.coatAt i = some w ∧
      w.g.attnOf w.c = some a ∧
      attnFmt a w.c = some f ∧
      ¬(w.run.attentionDone = false ∧
    s.mayWork w = true ∧ s.arrayFree w = true ∧ s.arr.stopped = false ∧ s.rget Fld.ARR_REMAP_UNUSABLE = 0)) ∧
    (∃ (s : State) (i : Nat) (w : Work) (a : AttnRec) (f : AttnFmt) (u1 : State) (u2 : State) (u3 : State), s.coatAt i = some w ∧
      w.g.attnOf w.c = some a ∧
      attnFmt a w.c = some f ∧
      (w.run.attentionDone = false ∧
  s.mayWork w = true ∧ s.arrayFree w = true ∧ s.arr.stopped = false ∧ s.rget Fld.ARR_REMAP_UNUSABLE = 0) ∧
      (s.openWindows w).reach w (67 + w.generator) [(a.q, false), (a.k, false), (a.v, false)] = (u1, true) ∧
      u1.accessAll (67 + w.generator)
    (if a.paged = true then
      u1.kvAccesses w a
        (if a.paged = true then w.g.kv.getD { format := f.kv, layers := 1, heads := a.kvHeads, dim := a.dim : KvShape }
        else { format := f.kv, layers := 1, heads := a.kvHeads, dim := a.dim : KvShape })
    else []) =
  (u2, true) ∧
      (u2.openWindows w).reach w 66 [(a.out, true)] = (u3, true)) :=
  ⟨⟨FeedProgramsAndAttention.feeding 3 0, 0, Instr.cropAndResize 0, 4, by decide, by decide⟩,
   ⟨FeedProgramsAndAttention.feeding 3 0, 0, (((FeedProgramsAndAttention.feeding 3 0).programDue 0 3).getD (FeedProgramsAndAttention.work1, aProgram 3, 0)).1, aProgram 3, 0, FeedProgramsAndAttention.feeding 3 0, by decide, by decide⟩,
   ⟨FeedProgramsAndAttention.feeding 4 3, 0, (((FeedProgramsAndAttention.feeding 4 3).programDue 0 4).getD (FeedProgramsAndAttention.work1, aProgram 3, 0)).1, (((FeedProgramsAndAttention.feeding 4 3).programDue 0 4).getD (FeedProgramsAndAttention.work1, aProgram 3, 0)).2.1, 0, Format.bf16, FeedProgramsAndAttention.feeding 4 3, FeedProgramsAndAttention.rowRec1, by decide, by decide, by decide, by decide, by decide⟩,
   ⟨FeedProgramsAndAttention.feeding 4 0, 0, (((FeedProgramsAndAttention.feeding 4 0).programDue 0 4).getD (FeedProgramsAndAttention.work1, aProgram 3, 0)).1, (((FeedProgramsAndAttention.feeding 4 0).programDue 0 4).getD (FeedProgramsAndAttention.work1, aProgram 3, 0)).2.1, 0, Format.bf16, FeedProgramsAndAttention.feeding 4 0, FeedProgramsAndAttention.rowRec1, by decide, by decide, by decide, by decide, by decide, by decide, by decide⟩,
   ⟨FeedProgramsAndAttention.feeding 4 1, 0, (((FeedProgramsAndAttention.feeding 4 1).programDue 0 4).getD (FeedProgramsAndAttention.work1, aProgram 3, 0)).1, (((FeedProgramsAndAttention.feeding 4 1).programDue 0 4).getD (FeedProgramsAndAttention.work1, aProgram 3, 0)).2.1, 0, Format.bf16, FeedProgramsAndAttention.feeding 4 1, FeedProgramsAndAttention.rowRec1, by decide, by decide, by decide, by decide, by decide, by decide, by decide⟩,
   ⟨FeedProgramsAndAttention.feeding 5 0, 0, (((FeedProgramsAndAttention.feeding 5 0).programDue 0 5).getD (FeedProgramsAndAttention.work1, aProgram 3, 0)).1, (((FeedProgramsAndAttention.feeding 5 0).programDue 0 5).getD (FeedProgramsAndAttention.work1, aProgram 3, 0)).2.1, 0, Format.bf16, FeedProgramsAndAttention.feeding 5 0, by decide, by decide, by decide⟩,
   ⟨[FpVal.fin false 0 0, FpVal.fin false 1 0], 0, by decide, by decide, by decide⟩,
   ⟨FeedProgramsAndAttention.state6, 0, (FeedProgramsAndAttention.state6.coatAt 0).getD FeedProgramsAndAttention.work1, 0, FeedProgramsAndAttention.state6, by decide, by decide, by decide, by decide, by decide, by decide⟩,
   ⟨FeedProgramsAndAttention.feeding 3 0, 0, ((FeedProgramsAndAttention.feeding 3 0).coatAt 0).getD FeedProgramsAndAttention.work1, by decide, by decide⟩,
   ⟨FeedProgramsAndAttention.state8, 0, (FeedProgramsAndAttention.state8.coatAt 0).getD FeedProgramsAndAttention.work1, FeedProgramsAndAttention.attnRec1, { kv := Format.bf16, q := Format.bf16, out := Format.bf16 : AttnFmt }, by decide, by decide, by decide, by decide⟩,
   ⟨FeedProgramsAndAttention.state7, 0, (FeedProgramsAndAttention.state7.coatAt 0).getD FeedProgramsAndAttention.work1, FeedProgramsAndAttention.attnRec1, { kv := Format.bf16, q := Format.bf16, out := Format.bf16 : AttnFmt }, FeedProgramsAndAttention.state7, FeedProgramsAndAttention.state7, FeedProgramsAndAttention.state7, by decide, by decide, by decide, by decide, by decide, by decide, by decide⟩⟩

-- TranslationAndPages.

namespace TranslationAndPages
def aTable (ro : Bool) (l : Memory) (spill : Dict (List Byte) := []) : State :=
  setFields { serving with mem := { descs := [(4, { base := 0, length := 2, readOnly := ro }), (5, { base := 2, length := 1 })], dram := l, pool := [(2, .awaiting)], cart := { spill := spill } } } [(Fld.MEM_STATUS_TRAINED, 1)]
def state2 : State := aTable false [(0, 1), (1, 0x58), (2, 2)]
def state3 : State := aTable true [(0, 1), (1, 0x58), (2, 2)]
def state4 : State := aTable false [(0, 4)] [(0, zeroBytes 65536)]
def state5 : State := { aTable false [] with net := {} }
def state6 : State := { aTable false [(0, 1), (1, 0x58), (2, 2)] with cont := { acting := false } }
end TranslationAndPages
theorem witness_TranslationAndPages :
    (∃ (s : State) (owner : Nat) (vpn : Nat), (s.desc owner).length ≤ vpn) ∧
    (∃ (s : State) (owner : Nat) (vpn : Nat), vpn < (s.desc owner).length ∧
      entryC (s.entry ((s.desc owner).base + vpn)) = false ∧
      entryV (s.entry ((s.desc owner).base + vpn)) = false) ∧
    (∃ (s : State) (owner : Nat) (vpn : Nat) (write : Bool), vpn < (s.desc owner).length ∧
      entryC (s.entry ((s.desc owner).base + vpn)) = false ∧
      entryV (s.entry ((s.desc owner).base + vpn)) = true ∧
      ¬(write = true ∧ (entryW (s.entry ((s.desc owner).base + vpn)) = false ∨ (s.desc owner).readOnly = true))) ∧
    (∃ (s : State) (owner : Nat) (vpn : Nat) (write : Bool), vpn < (s.desc owner).length ∧
      entryC (s.entry ((s.desc owner).base + vpn)) = false ∧
      entryV (s.entry ((s.desc owner).base + vpn)) = true ∧
      (write = true ∧ (entryW (s.entry ((s.desc owner).base + vpn)) = false ∨ (s.desc owner).readOnly = true)) ∧
      (4096 ≤ owner ∨ (s.desc owner).readOnly = true)) ∧
    (∃ (s : State) (owner : Nat) (vpn : Nat) (write : Bool), vpn < (s.desc owner).length ∧
      entryC (s.entry ((s.desc owner).base + vpn)) = false ∧
      entryV (s.entry ((s.desc owner).base + vpn)) = true ∧
      (write = true ∧ (entryW (s.entry ((s.desc owner).base + vpn)) = false ∨ (s.desc owner).readOnly = true)) ∧
      owner < 4096 ∧
      (s.desc owner).readOnly = false ∧
      (s.supActs = false ∨ s.takePages 1 = none)) ∧
    (∃ (s : State) (owner : Nat) (vpn : Nat) (write : Bool) (p : Nat) (s1 : State), vpn < (s.desc owner).length ∧
      entryC (s.entry ((s.desc owner).base + vpn)) = false ∧
      entryV (s.entry ((s.desc owner).base + vpn)) = true ∧
      (write = true ∧ (entryW (s.entry ((s.desc owner).base + vpn)) = false ∨ (s.desc owner).readOnly = true)) ∧
      owner < 4096 ∧
      (s.desc owner).readOnly = false ∧
      s.supActs = true ∧
      (s.desc owner).base + vpn < 4194304 ∧
      s.takePages 1 = some ([p], s1) ∧
      p ≠ entryPage (s.entry ((s.desc owner).base + vpn))) ∧
    (∃ (s : State) (owner : Nat) (vpn : Nat), ((s.desc owner).length ≤ vpn ∨ entryC (s.entry ((s.desc owner).base + vpn)) = false ∨ s.supActs = false)) ∧
    (∃ (s : State) (owner : Nat) (vpn : Nat) (b : List Byte) (p : Nat) (s1 : State), vpn < (s.desc owner).length ∧
      entryC (s.entry ((s.desc owner).base + vpn)) = true ∧
      s.supActs = true ∧
      (s.desc owner).base + vpn < 4194304 ∧
      s.mem.cart.spill.fetch (entryCart (s.entry ((s.desc owner).base + vpn))) = some b ∧
      b.length = 65536 ∧
      s.takePages 1 = some ([p], s1)) ∧
    (∃ (s : State) (owner : Nat), (¬(s.srv.batch = none ∨ ∃ b, s.srv.batch = some b ∧ b.suspended = true) ∨
  ¬((s.desc owner).length ≠ 0 ∧ ∃ r ∈ s.ranges, r.1 = (s.desc owner).base + (s.desc owner).length) ∨
    s.supActs = false ∨ s.findRun ((s.desc owner).length + 1) = none)) ∧
    (∃ (s : State) (owner : Nat) (n : Nat), (s.srv.batch = none ∨ ∃ b, s.srv.batch = some b ∧ b.suspended = true) ∧
      ((s.desc owner).length ≠ 0 ∧ ∃ r ∈ s.ranges, r.1 = (s.desc owner).base + (s.desc owner).length) ∧
      s.supActs = true ∧
      s.findRun ((s.desc owner).length + 1) = some n ∧
      (n + (s.desc owner).length ≤ (s.desc owner).base ∨ (s.desc owner).base + (s.desc owner).length ≤ n)) ∧
    (∃ (s : State) (page : Nat), s.mem.pool.fetch page ≠ some PageState.awaiting) ∧
    (∃ (s : State) (page : Nat), s.mem.pool.fetch page = some PageState.awaiting ∧
      s.mem.held = [] ∧
      (∀ y ∈ s.net.sessions, y.2.window / 65536 ≤ y.2.pages.length ∧ s.session y.2.number = some y.2)) :=
  ⟨⟨TranslationAndPages.aTable false [], 0, 0, by decide⟩,
   ⟨TranslationAndPages.aTable false [], 4, 0, by decide, by decide, by decide⟩,
   ⟨TranslationAndPages.state2, 4, 0, false, by decide, by decide, by decide, by decide⟩,
   ⟨TranslationAndPages.state3, 4, 0, true, by decide, by decide, by decide, by decide, by decide⟩,
   ⟨TranslationAndPages.state6, 4, 0, true, by decide, by decide, by decide, by decide, by decide, by decide, by decide⟩,
   ⟨TranslationAndPages.state2, 4, 0, true, ((TranslationAndPages.state2.takePages 1).getD ([], TranslationAndPages.aTable false [])).1.headD 0, ((TranslationAndPages.state2.takePages 1).getD ([], TranslationAndPages.aTable false [])).2, by decide, by decide, by decide, by decide, by decide, by decide, by decide, by decide, by decide, by decide⟩,
   ⟨TranslationAndPages.aTable false [], 0, 0, by decide⟩,
   ⟨TranslationAndPages.state4, 4, 0, zeroBytes 65536, ((TranslationAndPages.state4.takePages 1).getD ([], TranslationAndPages.aTable false [])).1.headD 0, ((TranslationAndPages.state4.takePages 1).getD ([], TranslationAndPages.aTable false [])).2, by decide, by decide, by decide, by decide, rfl, List.length_replicate, rfl⟩,
   ⟨TranslationAndPages.aTable false [], 0, by decide⟩,
   ⟨TranslationAndPages.aTable false [], 4, 3, by decide, by decide, by decide, by decide, by decide⟩,
   ⟨TranslationAndPages.aTable false [], 0, by decide⟩,
   ⟨TranslationAndPages.state5, 2, by decide, by decide, by decide⟩⟩

-- SpillAndRestore.

namespace SpillAndRestore
def suspended (b : Batch) (fixed : Nat) : State := setFields (atCoat anImage { b with suspended := true }) [(Fld.SRV_MODE_FIXED, fixed)]
def withPage (s : State) : State := { s with mem := { descs := [(4, { base := 0, length := 2 })], dram := [(0, 1), (1, 0x58), (2, 2)] } }
def state2 : State := { suspended aBatch 1 with srv := { (suspended aBatch 1).srv with spillUsed := 2 ^ 60 } }
def state3 : State := suspended { aBatch with resuming := true } 0
def state5 : State := setFields (withPage (generating { aSequence with phase := .candidates, cand := true })) [(Fld.MEM_CTRL_CART_SPILL, 1)]
def state6 : State := setFields (withPage (generating { aSequence with phase := .candidates, cand := true })) [(Fld.MEM_CTRL_CART_SPILL, 1), (Fld.SEC_CART_STATE, 1)]
def batch1 : Batch := { aBatch with suspended := true }
def batch2 : Batch := { aBatch with suspended := true, resuming := true }
end SpillAndRestore
theorem witness_SpillAndRestore :
    (∃ (s : State), (∀ (b : Batch), s.srv.batch = some b → b.suspended = false)) ∧
    (∃ (s : State) (b : Batch) (g : Image), s.srv.batch = some b ∧
      (s.slot b.slot).image = some g ∧
      b.suspended = true ∧
      b.resuming = false ∧
      s.rget Fld.SRV_MODE_FIXED = 1 ∧
      (s.spillGib ≠ 0 ∧ s.srv.spillUsed + spilledBytes (s.spillRanges g b) ≤ s.spillGib * 2 ^ 30)) ∧
    (∃ (s : State) (b : Batch) (g : Image), s.srv.batch = some b ∧
      (s.slot b.slot).image = some g ∧
      b.suspended = true ∧
      b.resuming = false ∧
      s.rget Fld.SRV_MODE_FIXED = 1 ∧
      ¬(s.spillGib ≠ 0 ∧ s.srv.spillUsed + spilledBytes (s.spillRanges g b) ≤ s.spillGib * 2 ^ 30)) ∧
    (∃ (s : State) (b : Batch) (g : Image), s.srv.batch = some b ∧
      (s.slot b.slot).image = some g ∧
      b.suspended = true ∧
      b.resuming = true) ∧
    (∃ (s : State) (b : Batch) (g : Image), s.srv.batch = some b ∧
      (s.slot b.slot).image = some g ∧
      b.suspended = true ∧
      b.resuming = false ∧
      s.rget Fld.SRV_MODE_FIXED = 0) ∧
    (∃ (s : State), (s.rget Fld.MEM_CTRL_CART_SPILL = 0 ∨
  s.rget Fld.SRV_MODE_FIXED = 1 ∨ s.supActs = false ∨ s.cont.quiesced = true ∨ s.cartHot = true ∨ s.idleVictim = none)) ∧
    (∃ (s : State) (q : Nat) (x : Sequence) (r : Request), s.rget Fld.MEM_CTRL_CART_SPILL = 1 ∧
      s.rget Fld.SRV_MODE_FIXED = 0 ∧
      s.supActs = true ∧
      s.cont.quiesced = false ∧
      s.cartHot = false ∧
      s.idleVictim = some q ∧
      s.seq q = some x ∧
      s.request x.row = some r ∧
      (s.rget Fld.SEC_CART_STATE ≠ 1 ∨ s.rget Fld.SYS_CART_LIFE_EOL = 1 ∨ s.mem.cart.readOnly = true)) ∧
    (∃ (s : State) (q : Nat) (x : Sequence) (r : Request), s.rget Fld.MEM_CTRL_CART_SPILL = 1 ∧
      s.rget Fld.SRV_MODE_FIXED = 0 ∧
      s.supActs = true ∧
      s.cont.quiesced = false ∧
      s.cartHot = false ∧
      s.idleVictim = some q ∧
      s.seq q = some x ∧
      s.request x.row = some r ∧
      s.rget Fld.SEC_CART_STATE = 1 ∧
      s.rget Fld.SYS_CART_LIFE_EOL = 0 ∧
      s.mem.cart.readOnly = false ∧
      (s.desc q).base + (s.desc q).length ≤ 4194304 ∧
      List.length s.mem.cart.spill + (s.desc q).length < 2 ^ 32 ∧
      (∀ k < (s.desc q).length, entryV (s.entry ((s.desc q).base + k)) = true → 512 ≤ entryPage (s.entry ((s.desc q).base + k)))) :=
  ⟨⟨SpillAndRestore.state5, by decide⟩,
   ⟨SpillAndRestore.suspended aBatch 1, (SpillAndRestore.suspended aBatch 1).srv.batch.getD SpillAndRestore.batch1, anImage, by decide, by decide, by decide, by decide, by decide, by decide⟩,
   ⟨SpillAndRestore.state2, SpillAndRestore.state2.srv.batch.getD SpillAndRestore.batch1, anImage, by decide, by decide, by decide, by decide, by decide, by decide⟩,
   ⟨SpillAndRestore.state3, SpillAndRestore.state3.srv.batch.getD SpillAndRestore.batch1, anImage, by decide, by decide, by decide, by decide⟩,
   ⟨SpillAndRestore.suspended aBatch 0, (SpillAndRestore.suspended aBatch 0).srv.batch.getD SpillAndRestore.batch1, anImage, by decide, by decide, by decide, by decide, by decide⟩,
   ⟨SpillAndRestore.suspended aBatch 1, by decide⟩,
   ⟨SpillAndRestore.state5, 4, (SpillAndRestore.state5.seq 4).getD aSequence, (SpillAndRestore.state5.request ((SpillAndRestore.state5.seq 4).getD aSequence).row).getD aRequest, by decide, by decide, by decide, by decide, by decide, by decide, by decide, by decide, by decide⟩,
   ⟨SpillAndRestore.state6, 4, (SpillAndRestore.state6.seq 4).getD aSequence, (SpillAndRestore.state6.request ((SpillAndRestore.state6.seq 4).getD aSequence).row).getD aRequest, by decide, by decide, by decide, by decide, by decide, by decide, by decide, by decide, by decide, by decide, by decide, by decide, by decide, by decide⟩⟩

-- MemoryFaults.

namespace MemoryFaults
def state1 : State := setFields serving [(Fld.MEM_CTRL_PATROL_EN, 0)]
end MemoryFaults
theorem witness_MemoryFaults :
    (∃ (s : State), s.rget Fld.MEM_CTRL_PATROL_EN = 0) ∧
    (∃ (s : State) (c : Nat), s.rget Fld.MEM_CTRL_PATROL_EN = 1 ∧
      c < 80) ∧
    (∃ (s : State) (c : Nat), c < 80 ∧
      s.channelMarked c = false) ∧
    (∃ (s : State) (n : Nat) (wrong : List (Nat × Nat × Byte)), badWords (granuleOutcome (s.markedIn (n % 8)) wrong) = 0 ∧
      ((leftOver (granuleOutcome (s.markedIn (n % 8)) wrong)).all fun x => x == 0) = true) ∧
    (∃ (s : State) (n : Nat) (wrong : List (Nat × Nat × Byte)), 0 < badWords (granuleOutcome (s.markedIn (n % 8)) wrong)) ∧
    (∃ (d : List Byte) (p : Nat) (q : Nat) (f : Byte), d.length = 8 ∧
      p < 10 ∧
      q < 10 ∧
      q ≠ p ∧
      f ≠ 0) ∧
    (∃ (g : Nat) (p : Nat) (j : Nat), g < 2 ^ 27 * 8 ∧
      p < 10 ∧
      j < 32) :=
  ⟨⟨MemoryFaults.state1, by decide⟩,
   ⟨serving, 0, by decide, by decide⟩,
   ⟨MemoryFaults.state1, 0, by decide, by decide⟩,
   ⟨MemoryFaults.state1, 0, [], by decide, by decide⟩,
   ⟨MemoryFaults.state1, 0, [(0, 0, 1), (1, 0, 1)], by decide⟩,
   ⟨zeroBytes 8, 0, 1, 1, by decide, by decide, by decide, by decide, by decide⟩,
   ⟨0, 0, 0, by decide, by decide, by decide⟩⟩

-- BankFaults.

theorem witness_BankFaults :
    (∃ (m1 : Nat) (m2 : Nat) (d1 : List Byte) (d2 : List Byte), d1.length = 64 ∧
      d2.length = 64 ∧
      (max m1 m2 < 2 ∨ 65 < max m1 m2)) ∧
    (∃ (m1 : Nat) (m2 : Nat) (d1 : List Byte) (d2 : List Byte), d1.length = 64 ∧
      d2.length = 64 ∧
      2 ≤ max m1 m2 ∧
      max m1 m2 ≤ 65) ∧
    (∃ (wrong : List Nat), (List.filter (fun n => decide (2 ≤ n)) wrong).length = 0) ∧
    (∃ (bank : Nat) (wrong : List Nat) (master : Nat), 0 < (List.filter (fun n => decide (2 ≤ n)) wrong).length ∧
      (master < 2 ∨ 65 < master) ∧
      ¬(bank = 100 ∧ master = 76)) ∧
    (∃ (wrong : List Nat) (master : Nat), 0 < (List.filter (fun n => decide (2 ≤ n)) wrong).length ∧
      2 ≤ master ∧
      master ≤ 65) ∧
    (∃ (bank : Nat) (wrong : List Nat), 0 < (List.filter (fun n => decide (2 ≤ n)) wrong).length ∧
      bank = 100) :=
  ⟨⟨70, 70, zeroBytes 64, zeroBytes 64, by decide, by decide, by decide⟩,
   ⟨0, 2, zeroBytes 64, zeroBytes 64, by decide, by decide, by decide, by decide⟩,
   ⟨[1], by decide⟩,
   ⟨70, [2, 1, 0], 70, by decide, by decide, by decide⟩,
   ⟨[2, 1, 0], 2, by decide, by decide, by decide⟩,
   ⟨100, [2, 1, 0], by decide, by decide⟩⟩

-- VideoContexts.

namespace VideoContexts
/-- A VIDEO_OPEN of context 5, with bytes of its own. -/
def opening (l : List (Nat × List Byte)) : Msg := aMsg 1 (bytes 64 ([(0, [5]), (1, [1]), (2, [255]), (4, [1]), (7, [255]), (8, leBytes 2 64), (10, leBytes 2 32), (12, [8]), (13, [2]), (14, [255]), (16, leBytes 2 32), (18, leBytes 2 16), (36, leBytes 4 30000), (44, [20]), (45, [4])] ++ l))
def aContext : VideoContext := { videoOf 1 (opening []).payload with units := [0, 4, 8, 12] }
def withContexts (l : List (Nat × VideoContext)) : State := setFields { serving with vid := { contexts := l } } [(Fld.SYS_GATE_VID, 1)]
def state3 : State := withContexts [(5, aContext)]
def state4 : State := withContexts [(5, { aContext with state := 3 })]
def state5 : State := withContexts [(5, { aContext with completions := [3], busy := true, started := 1 })]
def msg2 : Msg := aMsg 1 (bytes 33 [(0, [5]), (16, [1]), (32, [1])])
def msg3 : Msg := aMsg 1 (bytes 36 [(0, [5])])
def msg4 : Msg := aMsg 1 (bytes 36 [(0, [5]), (16, [4])])
def msg5 : Msg := aMsg 1 (bytes 32 [(0, [5]), (1, [1])])
def msg6 : Msg := aMsg 1 (bytes 32 [(0, [5]), (1, [2])])
end VideoContexts
theorem witness_VideoContexts :
    (∃ (s : State) (m : Msg) (x : Session) (c : Code), s.supActs = true ∧
      s.Hears m x 512 64 ∧
      (if s.rget Fld.SYS_GATE_VID = 0 then some Code.E_GATED
  else
    if
        (videoOf m.session m.payload).kind = 0 ∨
          4 < (videoOf m.session m.payload).kind ∨ 16 ≤ u8 m.payload 3 ∨ allZero m.payload 46 18 = false then
      some Code.E_RESERVED
    else
      if s.cont.quiesced = true then some Code.B_RETRY
      else
        if
            (videoOf m.session m.payload).slot ≤ 15 ∧
              (if (videoOf m.session m.payload).slot ≤ 15 then s.readyImage (videoOf m.session m.payload).slot
                else none) =
                none then
          some Code.E_SLOT_STATE
        else
          if
              63 < u8 m.payload 0 ∨
                (videoOf m.session m.payload).rangesOk = false ∨
                  (videoOf m.session m.payload).kind = 4 ∧ s.sourceOk (videoOf m.session m.payload) = false ∨
                    (videoOf m.session m.payload).bindingsOk
                        (if (videoOf m.session m.payload).slot ≤ 15 then s.readyImage (videoOf m.session m.payload).slot
                        else none) =
                      false then
            some Code.E_VIDEO_PARAM
          else
            if s.video (u8 m.payload 0) ≠ none then some Code.E_VIDEO_STATE
            else
              if
                  (if (videoOf m.session m.payload).kind ≤ 2 then 1990656000000 else 497664000000) <
                      s.videoLoad (decide (3 ≤ (videoOf m.session m.payload).kind)) +
                        (videoOf m.session m.payload).maxWidth * (videoOf m.session m.payload).maxHeight *
                          (videoOf m.session m.payload).frameRate ∨
                    s.freeUnits (videoOf m.session m.payload).full
                        (if (videoOf m.session m.payload).kind ≤ 2 then (videoOf m.session m.payload).references + 2
                        else 4) =
                      none then
                some Code.B_RETRY
              else none) =
  some c) ∧
    (∃ (s : State) (m : Msg) (x : Session) (l : List Nat), s.supActs = true ∧
      s.Hears m x 512 64 ∧
      (if s.rget Fld.SYS_GATE_VID = 0 then some Code.E_GATED
  else
    if
        (videoOf m.session m.payload).kind = 0 ∨
          4 < (videoOf m.session m.payload).kind ∨ 16 ≤ u8 m.payload 3 ∨ allZero m.payload 46 18 = false then
      some Code.E_RESERVED
    else
      if s.cont.quiesced = true then some Code.B_RETRY
      else
        if
            (videoOf m.session m.payload).slot ≤ 15 ∧
              (if (videoOf m.session m.payload).slot ≤ 15 then s.readyImage (videoOf m.session m.payload).slot
                else none) =
                none then
          some Code.E_SLOT_STATE
        else
          if
              63 < u8 m.payload 0 ∨
                (videoOf m.session m.payload).rangesOk = false ∨
                  (videoOf m.session m.payload).kind = 4 ∧ s.sourceOk (videoOf m.session m.payload) = false ∨
                    (videoOf m.session m.payload).bindingsOk
                        (if (videoOf m.session m.payload).slot ≤ 15 then s.readyImage (videoOf m.session m.payload).slot
                        else none) =
                      false then
            some Code.E_VIDEO_PARAM
          else
            if s.video (u8 m.payload 0) ≠ none then some Code.E_VIDEO_STATE
            else
              if
                  (if (videoOf m.session m.payload).kind ≤ 2 then 1990656000000 else 497664000000) <
                      s.videoLoad (decide (3 ≤ (videoOf m.session m.payload).kind)) +
                        (videoOf m.session m.payload).maxWidth * (videoOf m.session m.payload).maxHeight *
                          (videoOf m.session m.payload).frameRate ∨
                    s.freeUnits (videoOf m.session m.payload).full
                        (if (videoOf m.session m.payload).kind ≤ 2 then (videoOf m.session m.payload).references + 2
                        else 4) =
                      none then
                some Code.B_RETRY
              else none) =
  none ∧
      s.freeUnits (videoOf m.session m.payload).full
    (if (videoOf m.session m.payload).kind ≤ 2 then (videoOf m.session m.payload).references + 2 else 4) =
  some l) ∧
    (∃ (s : State) (m : Msg) (x : Session), s.supActs = true ∧
      s.Hears m x 513 m.payload.length ∧
      m.payload.length ≠ 32 + u32 m.payload 16) ∧
    (∃ (s : State) (m : Msg) (x : Session), s.supActs = true ∧
      s.Hears m x 513 m.payload.length ∧
      m.payload.length = 32 + u32 m.payload 16 ∧
      u8 m.payload 1 < 2 ∧
      allZero m.payload 2 6 = true ∧
      allZero m.payload 20 12 = true ∧
      s.video (u8 m.payload 0) = none) ∧
    (∃ (s : State) (m : Msg) (x : Session) (v : VideoContext), s.supActs = true ∧
      s.Hears m x 513 m.payload.length ∧
      m.payload.length = 32 + u32 m.payload 16 ∧
      u8 m.payload 1 < 2 ∧
      allZero m.payload 2 6 = true ∧
      allZero m.payload 20 12 = true ∧
      s.video (u8 m.payload 0) = some v ∧
      (v.session ≠ m.session ∨ v.state = 3 ∨ v.kind = 4 ∨ v.ended = true ∨ v.closing ≠ none)) ∧
    (∃ (s : State) (m : Msg) (x : Session) (v : VideoContext), s.supActs = true ∧
      s.Hears m x 513 m.payload.length ∧
      m.payload.length = 32 + u32 m.payload 16 ∧
      u8 m.payload 1 < 2 ∧
      allZero m.payload 2 6 = true ∧
      allZero m.payload 20 12 = true ∧
      s.video (u8 m.payload 0) = some v ∧
      v.session = m.session ∧
      v.state = 1 ∧
      v.kind ≤ 2 ∧
      v.ended = false ∧
      v.closing = none ∧
      s.workRefused = false) ∧
    (∃ (s : State) (m : Msg) (x : Session) (i : Instr × Nat), s.supActs = true ∧
      s.Hears m x 514 32 ∧
      allZero m.payload 2 30 = true ∧
      i ∈ [(Instr.videoCloseDrain m, 1), (Instr.videoCloseAbort m, 2)] ∧
      u8 m.payload 1 = i.2 ∧
      (∀ (v : VideoContext), s.video (u8 m.payload 0) = some v → v.session = m.session → v.closing = none → False)) ∧
    (∃ (s : State) (m : Msg) (x : Session) (v : VideoContext), s.supActs = true ∧
      s.Hears m x 514 32 ∧
      allZero m.payload 2 30 = true ∧
      s.video (u8 m.payload 0) = some v ∧
      v.session = m.session ∧
      v.closing = none ∧
      (∀ c ∈ s.vid.contexts, c.2.source ≠ u8 m.payload 0 ∨ c.2.kind ≠ 4) ∧
      u8 m.payload 1 = 1 ∧
      v.kind ≤ 2 ∧
      v.pictures = [] ∧
      (v.busy = true ∨ v.nextUnit ≠ none)) ∧
    (∃ (s : State) (m : Msg) (x : Session) (v : VideoContext), s.supActs = true ∧
      s.Hears m x 514 32 ∧
      allZero m.payload 2 30 = true ∧
      s.video (u8 m.payload 0) = some v ∧
      v.session = m.session ∧
      v.closing = none ∧
      (∀ c ∈ s.vid.contexts, c.2.source ≠ u8 m.payload 0 ∨ c.2.kind ≠ 4) ∧
      u8 m.payload 1 = 1 ∧
      v.kind ≤ 2 ∧
      v.pictures = [] ∧
      v.busy = false ∧
      v.nextUnit = none) ∧
    (∃ (s : State) (m : Msg) (x : Session) (v : VideoContext), s.supActs = true ∧
      s.Hears m x 514 32 ∧
      allZero m.payload 2 30 = true ∧
      s.video (u8 m.payload 0) = some v ∧
      v.session = m.session ∧
      v.closing = none ∧
      (∀ c ∈ s.vid.contexts, c.2.source ≠ u8 m.payload 0 ∨ c.2.kind ≠ 4) ∧
      u8 m.payload 1 = 2 ∧
      (∀ r ∈ s.srv.requests, Option.all (fun x => x.1 != u8 m.payload 0) r.2.picture = true)) :=
  ⟨⟨serving, VideoContexts.opening [], aSession 1, Code.E_GATED, by decide, hears_of (by decide), by decide⟩,
   ⟨VideoContexts.withContexts [], VideoContexts.opening [], aSession 1, ((VideoContexts.withContexts []).freeUnits
      (videoOf (VideoContexts.opening []).session (VideoContexts.opening []).payload).full
      (if (videoOf (VideoContexts.opening []).session (VideoContexts.opening []).payload).kind ≤ 2 then
        (videoOf (VideoContexts.opening []).session (VideoContexts.opening []).payload).references + 2
      else 4)).getD
  [], by decide, hears_of (by decide), by decide, by decide⟩,
   ⟨serving, VideoContexts.opening [], aSession 1, by decide, hears_of (by decide), by decide⟩,
   ⟨serving, VideoContexts.msg2, aSession 1, by decide, hears_of (by decide), by decide, by decide, by decide, by decide, by decide⟩,
   ⟨VideoContexts.state4, VideoContexts.msg2, aSession 1, (VideoContexts.state4.video (u8 VideoContexts.msg2.payload 0)).getD VideoContexts.aContext, by decide, hears_of (by decide), by decide, by decide, by decide, by decide, by decide, by decide⟩,
   ⟨VideoContexts.state3, VideoContexts.msg2, aSession 1, VideoContexts.aContext, by decide, hears_of (by decide), by decide, by decide, by decide, by decide, by decide, by decide, by decide, by decide, by decide, by decide, by decide⟩,
   ⟨serving, VideoContexts.msg5, aSession 1, (Instr.videoCloseDrain VideoContexts.msg5, 1), by decide, hears_of (by decide), by decide, by decide, by decide, by decide⟩,
   ⟨VideoContexts.state5, VideoContexts.msg5, aSession 1, (VideoContexts.state5.video (u8 VideoContexts.msg5.payload 0)).getD VideoContexts.aContext, by decide, hears_of (by decide), by decide, by decide, by decide, by decide, by decide, by decide, by decide, by decide, by decide⟩,
   ⟨VideoContexts.state3, VideoContexts.msg5, aSession 1, VideoContexts.aContext, by decide, hears_of (by decide), by decide, by decide, by decide, by decide, by decide, by decide, by decide, by decide, by decide, by decide⟩,
   ⟨VideoContexts.state3, VideoContexts.msg6, aSession 1, VideoContexts.aContext, by decide, hears_of (by decide), by decide, by decide, by decide, by decide, by decide, by decide, by decide⟩⟩

-- VideoPictures.

namespace VideoPictures
def aPicture (isRef deliver : Bool) : Picture := { number := 0, planes := { width := 16, height := 16, luma := [], cb := [], cr := [] }, isRef := isRef, deliver := deliver }
def aContext : VideoContext := { videoOf 1 (bytes 64 [(0, [5]), (1, [1]), (7, [255]), (14, [255])]) with units := [0, 4], completions := [3, 5] }
def videoImage : Image := { anImage with bindings := [⟨7, 0, 0, 4096⟩] }
def withContexts (l : List (Nat × VideoContext)) : State :=
  setFields { serving with vid := { contexts := l, pipes := [none, some 5, none, none] }, srv := { slots := [(0, { state := .ready, image := some videoImage })] } } [(Fld.CLK_STATUS_LOCK, 15)]
/-- The video binding is too large for the bank. -/
def slotless : State :=
  { withContexts [(5, { aContext with frameBinding := 0, pictures := [aPicture true true] })] with srv := { slots := [(0, { state := .ready, image := some { anImage with bindings := [⟨7, 0, 0, 8388608⟩] } })] } }
def state2 : State := withContexts [(5, aContext)]
def state3 : State := withContexts [(5, { aContext with pictures := [aPicture true true] })]
def state4 : State := withContexts [(5, { aContext with frameBinding := 0, pictures := [aPicture true true] })]
def state5 : State := withContexts [(5, { aContext with kind := 3, state := 2, data := [⟨1, 70, 5, []⟩] })]
end VideoPictures
theorem witness_VideoPictures :
    (∃ (s : State), s.vid.contexts.wf = true ∧
      (¬((s.rget Fld.CLK_STATUS_LOCK).testBit 3 = true ∧ s.fwu.stopped ≠ some 5) ∨ ∀ p ∈ s.vid.pipes, p ≠ none)) ∧
    (∃ (s : State) (c : Nat) (x : VideoContext) (k : Nat) (n : Nat), s.vid.contexts.wf = true ∧
      ((s.rget Fld.CLK_STATUS_LOCK).testBit 3 = true ∧ s.fwu.stopped ≠ some 5) ∧
      List.findIdx? (fun x => x.isNone) s.vid.pipes = some n ∧
      s.video c = some x ∧
      x.state = 1 ∧
      x.busy = false ∧
      x.held = false ∧
      x.pictures.length < x.units.length ∧
      x.nextUnit = some k ∧
      (∀ d ∈ s.vid.contexts,
  d.1 ≠ c → d.2.mayDecode = true → d.2.unitFree = true → Option.all (fun x => decide (k < x)) d.2.nextUnit = true)) ∧
    (∃ (s : State) (pipe : Nat), s.vid.pipes[pipe]?.bind id = none) ∧
    (∃ (s : State) (pipe : Nat) (c : Nat) (x : VideoContext), s.vid.pipes[pipe]? = some (some c) ∧
      s.video c = some x) ∧
    (∃ (s : State), (s.supActs = false ∨ ∀ c ∈ s.vid.contexts, (c.2.due fun x => x.deliver) = none)) ∧
    (∃ (s : State) (c : Nat) (x : VideoContext) (p : Picture) (g : Image), s.supActs = true ∧
      s.vid.contexts = [(c, x)] ∧
      (x.due fun x => x.deliver) = some p ∧
      s.readyImage x.slot = some g ∧
      s.slotsFor x g = none) ∧
    (∃ (s : State) (c : Nat) (x : VideoContext) (p : Picture) (g : Image) (i : Nat) (n : Nat) (y : Session), s.supActs = true ∧
      s.vid.contexts = [(c, x)] ∧
      (x.due fun x => x.deliver) = some p ∧
      s.readyImage x.slot = some g ∧
      s.slotsFor x g = some [(i, n)] ∧
      i = x.frameBinding ∧
      x.closing = none ∧
      s.session x.session = some y) ∧
    (∃ (s : State), (¬((s.rget Fld.CLK_STATUS_LOCK).testBit 3 = true ∧ s.fwu.stopped ≠ some 5) ∨ ∀ c ∈ s.vid.contexts, s.toEncode c.2 = none)) ∧
    (∃ (s : State) (c : Nat) (x : VideoContext) (d : VideoChunk) (y : Session), ((s.rget Fld.CLK_STATUS_LOCK).testBit 3 = true ∧ s.fwu.stopped ≠ some 5) ∧
      s.vid.contexts = [(c, x)] ∧
      x.kind = 3 ∧
      x.state = 2 ∧
      x.data[x.coded]? = some d ∧
      x.closing = none ∧
      s.session x.session = some y) :=
  ⟨⟨serving, by decide, by decide⟩,
   ⟨VideoPictures.state2, 5, VideoPictures.aContext, 3, 0, by decide, by decide, by decide, by decide, by decide, by decide, by decide, by decide, by decide, by decide⟩,
   ⟨serving, 0, by decide⟩,
   ⟨VideoPictures.state2, 1, 5, VideoPictures.aContext, by decide, by decide⟩,
   ⟨serving, by decide⟩,
   ⟨VideoPictures.slotless, 5, (List.headD VideoPictures.slotless.vid.contexts (0, VideoPictures.aContext)).2, VideoPictures.aPicture true true, (VideoPictures.slotless.readyImage
      (List.headD VideoPictures.slotless.vid.contexts (0, VideoPictures.aContext)).2.slot).getD
  VideoPictures.videoImage, by decide, by decide, by decide, by decide, by decide⟩,
   ⟨VideoPictures.state4, 5, (List.headD VideoPictures.state4.vid.contexts (0, VideoPictures.aContext)).2, VideoPictures.aPicture true true, VideoPictures.videoImage, 0, 0, aSession 1, by decide, by decide, by decide, by decide, by decide, by decide, by decide, by decide⟩,
   ⟨serving, by decide⟩,
   ⟨VideoPictures.state5, 5, (List.headD VideoPictures.state5.vid.contexts (0, VideoPictures.aContext)).2, { message := 1, tag := 70, stamp := 5, bytes := [] : VideoChunk }, aSession 1, by decide, by decide, by decide, by decide, by decide, by decide, by decide⟩⟩

-- PowerCapsAndPoints.

namespace PowerCapsAndPoints
def state1 : State := setFields serving [(Fld.PWR_STATUS_POINT, 1), (Fld.PWR_STATUS_TARGET, 2), (Fld.PWR_PACE_EMERG, 8)]
def state2 : State := setFields { serving with pwr := { reply := some { reply := ⟨4, 2, 77⟩, stamp := 0, clamped := false } } } [(Fld.BIST_STATUS_DONE, 1)]
def state3 : State := setFields serving [(Fld.PWR_STATUS_POINT, 2), (Fld.PWR_STATUS_TARGET, 2)]
def state4 : State := setFields serving [(Fld.SRV_MODE_FIXED, 1)]
def msg2 : Msg := aMsg 4 (bytes 32 [(0, leBytes 4 139999)])
def msg3 : Msg := aMsg 4 (bytes 32 [(0, leBytes 4 140000)])
def capReply1 : CapReply := { reply := ⟨4, 2, 77⟩, stamp := 0, clamped := false }
end PowerCapsAndPoints
theorem witness_PowerCapsAndPoints :
    (∃ (s : State) (m : Msg) (x : Session), s.boot.down = false ∧
      s.Hears m x 1024 32 ∧
      allZero m.payload 4 4 = true ∧
      allZero m.payload 16 16 = true ∧
      (1 ≤ u32 m.payload 0 ∧ u32 m.payload 0 < 140000 ∨ 480000 < u32 m.payload 0)) ∧
    (∃ (s : State) (m : Msg) (x : Session), s.boot.down = false ∧
      s.Hears m x 1024 32 ∧
      allZero m.payload 4 4 = true ∧
      allZero m.payload 16 16 = true ∧
      (u32 m.payload 0 = 0 ∨ 140000 ≤ u32 m.payload 0 ∧ u32 m.payload 0 ≤ 480000)) ∧
    (∃ (s : State), (s.rget Fld.PWR_STATUS_POINT ≠ s.rget Fld.PWR_STATUS_TARGET ∨ s.pwr.reply = none)) ∧
    (∃ (s : State) (r : CapReply), s.pwr.reply = some r ∧
      s.rget Fld.PWR_STATUS_POINT = s.rget Fld.PWR_STATUS_TARGET) ∧
    (∃ (s : State), s.powered = false) ∧
    (∃ (s : State), s.powered = true) ∧
    (∃ (s : State), s.rget Fld.PWR_STATUS_POINT ≠ s.rget Fld.PWR_STATUS_TARGET) ∧
    (∃ (s : State), (s.rget Fld.PWR_STATUS_EMERG = 1 ∨ 64 ≤ s.rget Fld.PWR_PACE_EMERG)) ∧
    (∃ (s : State), s.rget Fld.PWR_STATUS_EMERG = 0 ∧
      s.rget Fld.PWR_PACE_EMERG < 64) ∧
    (∃ (s : State) (m : Msg) (x : Session), s.session m.session = some x ∧
      x.closing = false ∧
      s.mayActFor m.session = true ∧
      (x.role ≠ 3 ∨ x.wantsProtected = true)) ∧
    (∃ (s : State) (m : Msg) (x : Session) (w : Word), s.MayWrite m x ∧
      (w &&& 4292870144 ≠ 0 ∨
  (BitVec.extractLsb' 4 7 w).toNat = 0 ∨
    64 < (BitVec.extractLsb' 4 7 w).toNat ∨
      (BitVec.extractLsb' 11 10 w).toNat ≠ 0 ∧
        ((BitVec.extractLsb' 11 10 w).toNat < 550 ∨
          850 < (BitVec.extractLsb' 11 10 w).toNat ∨ (BitVec.extractLsb' 11 10 w).toNat % 5 ≠ 0))) ∧
    (∃ (s : State) (m : Msg) (x : Session) (w : Word), s.MayWrite m x ∧
      ¬(w &&& 4292870144 ≠ 0 ∨
    (BitVec.extractLsb' 4 7 w).toNat = 0 ∨
      64 < (BitVec.extractLsb' 4 7 w).toNat ∨
        (BitVec.extractLsb' 11 10 w).toNat ≠ 0 ∧
          ((BitVec.extractLsb' 11 10 w).toNat < 550 ∨
            850 < (BitVec.extractLsb' 11 10 w).toNat ∨ (BitVec.extractLsb' 11 10 w).toNat % 5 ≠ 0)) ∧
      (BitVec.getLsbD w 0 = true ∧ s.rget Fld.SRV_MODE_FIXED = 1)) ∧
    (∃ (s : State) (m : Msg) (x : Session) (w : Word), s.MayWrite m x ∧
      ¬(w &&& 4292870144 ≠ 0 ∨
    (BitVec.extractLsb' 4 7 w).toNat = 0 ∨
      64 < (BitVec.extractLsb' 4 7 w).toNat ∨
        (BitVec.extractLsb' 11 10 w).toNat ≠ 0 ∧
          ((BitVec.extractLsb' 11 10 w).toNat < 550 ∨
            850 < (BitVec.extractLsb' 11 10 w).toNat ∨ (BitVec.extractLsb' 11 10 w).toNat % 5 ≠ 0)) ∧
      ¬(BitVec.getLsbD w 0 = true ∧ s.rget Fld.SRV_MODE_FIXED = 1)) :=
  ⟨⟨PowerCapsAndPoints.state1, PowerCapsAndPoints.msg2, aSession 4, by decide, hears_of (by decide), by decide, by decide, by decide⟩,
   ⟨PowerCapsAndPoints.state1, PowerCapsAndPoints.msg3, aSession 4, by decide, hears_of (by decide), by decide, by decide, by decide⟩,
   ⟨PowerCapsAndPoints.state1, by decide⟩,
   ⟨PowerCapsAndPoints.state2, PowerCapsAndPoints.capReply1, by decide, by decide⟩,
   ⟨PowerCapsAndPoints.state1, by decide⟩,
   ⟨PowerCapsAndPoints.state2, by decide⟩,
   ⟨PowerCapsAndPoints.state1, by decide⟩,
   ⟨PowerCapsAndPoints.state2, by decide⟩,
   ⟨PowerCapsAndPoints.state1, by decide, by decide⟩,
   ⟨PowerCapsAndPoints.state1, PowerCapsAndPoints.msg2, aSession 4, by decide, by decide, by decide, by decide⟩,
   ⟨PowerCapsAndPoints.state1, aMsg 3 [], aSession 3, 0, mayWrite_of (by decide), by decide⟩,
   ⟨PowerCapsAndPoints.state4, aMsg 3 [], aSession 3, 1025, mayWrite_of (by decide), by decide, by decide⟩,
   ⟨PowerCapsAndPoints.state1, aMsg 3 [], aSession 3, 1024, mayWrite_of (by decide), by decide, by decide⟩⟩

-- ClocksAndMeasurement.

namespace ClocksAndMeasurement
def state1 : State := setFields { serving with pwr := { badCounts := [1, 1, 1, 1], measuring := true } } [(Fld.CLK_STATUS_OSC_FAIL, 1)]
end ClocksAndMeasurement
theorem witness_ClocksAndMeasurement :
    (∃ (s : State) (osc : Nat), osc < 4 ∧
      s.pwr.badCounts.length = 4 ∧
      (s.rget Fld.CLK_STATUS_OSC_FAIL).testBit osc = true) ∧
    (∃ (s : State) (osc : Nat) (count : Nat), osc < 4 ∧
      s.pwr.badCounts.length = 4 ∧
      (s.rget Fld.CLK_STATUS_OSC_FAIL).testBit osc = false ∧
      (if osc < 2 then 180000 ≤ count ∧ count ≤ 220000 else 3113 ≤ count ∧ count ≤ 3440)) ∧
    (∃ (s : State) (osc : Nat) (count : Nat), osc < 4 ∧
      s.pwr.badCounts.length = 4 ∧
      (s.rget Fld.CLK_STATUS_OSC_FAIL).testBit osc = false ∧
      (¬if osc < 2 then 180000 ≤ count ∧ count ≤ 220000 else 3113 ≤ count ∧ count ≤ 3440) ∧
      s.pwr.badCounts[osc]? = some 0) ∧
    (∃ (s : State) (osc : Nat) (count : Nat), osc < 4 ∧
      s.pwr.badCounts.length = 4 ∧
      (s.rget Fld.CLK_STATUS_OSC_FAIL).testBit osc = false ∧
      (¬if osc < 2 then 180000 ≤ count ∧ count ≤ 220000 else 3113 ≤ count ∧ count ≤ 3440) ∧
      s.pwr.badCounts[osc]? = some 1) ∧
    (∃ (w : Word), (10 < Fld.CLK_MEAS_CFG_REF.of w ∨ 10 < Fld.CLK_MEAS_CFG_TARGET.of w ∨ Fld.CLK_MEAS_CFG_WINDOW.of w = 0)) ∧
    (∃ (w : Word), Fld.CLK_MEAS_CFG_REF.of w ≤ 10 ∧
      Fld.CLK_MEAS_CFG_TARGET.of w ≤ 10 ∧
      Fld.CLK_MEAS_CFG_WINDOW.of w ≠ 0) ∧
    (∃ (s : State), s.pwr.measuring = false) ∧
    (∃ (s : State), s.pwr.measuring = true) :=
  ⟨⟨ClocksAndMeasurement.state1, 0, by decide, by decide, by decide⟩,
   ⟨ClocksAndMeasurement.state1, 1, 180000, by decide, by decide, by decide, by decide⟩,
   ⟨serving, 0, 179999, by decide, by decide, by decide, by decide, by decide⟩,
   ⟨ClocksAndMeasurement.state1, 1, 179999, by decide, by decide, by decide, by decide, by decide⟩,
   ⟨0, by decide⟩,
   ⟨16776960, by decide, by decide, by decide⟩,
   ⟨serving, by decide⟩,
   ⟨ClocksAndMeasurement.state1, by decide⟩⟩

-- ThermalInterval.

namespace ThermalInterval
def state2 : State := { serving with boot := { down := true } }
def thermalSnapshot1 : ThermalSnapshot := ⟨List.replicate 24 (some 640), List.replicate 24 (some 650), 480, 480, 560, some 1200⟩
end ThermalInterval
theorem witness_ThermalInterval :
    (∃ (s : State), s.boot.down = true) ∧
    (∃ (s : State), s.boot.down = false) :=
  ⟨⟨ThermalInterval.state2, by decide⟩,
   ⟨serving, by decide⟩⟩

-- CoolantAndAirflow.

namespace CoolantAndAirflow
def state1 : State := { serving with thm := { flowCount := 1, flowSum := 700 } }
def state2 : State := { serving with thm := { stopped := true } }
def state3 : State := { serving with variant := .a, thm := { airLost := true } }
end CoolantAndAirflow
theorem witness_CoolantAndAirflow :
    (∃ (s : State), (s.variant = Variant.a ∨ s.boot.down = true ∨ s.thm.flowCount = 0)) ∧
    (∃ (s : State), s.variant = Variant.w ∧
      s.boot.down = false ∧
      s.thm.flowCount ≠ 0 ∧
      s.thm.inletCap < 2 ^ 19) ∧
    (∃ (s : State), s.thm.stopped = false) ∧
    (∃ (s : State), s.thm.stopped = true ∧
      s.variant = Variant.w ∧
      s.boot.down = false ∧
      s.thm.band < 8) ∧
    (∃ (s : State), (s.thm.airLost = false ∨ s.boot.down = true)) ∧
    (∃ (s : State), s.thm.airLost = true ∧
      s.boot.down = false ∧
      s.variant = Variant.a ∧
      s.thm.inletCap < 2 ^ 19) :=
  ⟨⟨CoolantAndAirflow.state2, by decide⟩,
   ⟨CoolantAndAirflow.state1, by decide, by decide, by decide, by decide⟩,
   ⟨CoolantAndAirflow.state1, by decide⟩,
   ⟨CoolantAndAirflow.state2, by decide, by decide, by decide, by decide⟩,
   ⟨CoolantAndAirflow.state1, by decide⟩,
   ⟨CoolantAndAirflow.state3, by decide, by decide, by decide, by decide⟩⟩

-- FrontEndPair.

namespace FrontEndPair
def state1 : State := { serving with cont := { feA := { state := .up, beat := 5, seen := 5, still := 800, interval := 5 }, acting := false } }
end FrontEndPair
theorem witness_FrontEndPair :
    (∃ (s : State) (x : Side), ((s.fe x).state = FeState.up ∨ (s.fe x).state = FeState.clean)) ∧
    (∃ (s : State) (x : Side), ¬((s.fe x).state = FeState.up ∨ (s.fe x).state = FeState.clean)) ∧
    (∃ (s : State) (x : Side), ((s.fe x).state = FeState.up ∨ (s.fe x).state = FeState.clean)) ∧
    (∃ (s : State), s.cont.acting = false) ∧
    (∃ (s : State), s.cont.acting = true) ∧
    (∃ (s : State), (s.fe Side.a).state ≠ FeState.clean ∧
      (s.fe Side.b).state ≠ FeState.clean) :=
  ⟨⟨FrontEndPair.state1, Side.a, by decide⟩,
   ⟨FrontEndPair.state1, Side.b, by decide⟩,
   ⟨FrontEndPair.state1, Side.a, by decide⟩,
   ⟨FrontEndPair.state1, by decide⟩,
   ⟨serving, by decide⟩,
   ⟨FrontEndPair.state1, by decide, by decide⟩⟩

-- SupervisorsAndReplay.

namespace SupervisorsAndReplay
def aUnit : QUnit := { key := ⟨0, 0, 0, 0⟩, kind := .pass, row := 9, customer := 1, admitRec := 9, entered := 0 }
def state1 : State := { serving with cont := { supB := .holder } }
def state2 : State := { serving with cont := { released := true } }
def state3 : State := { serving with cont := { supB := .unusable } }
def state4 : State := setFields { serving with cont := { standbyCount := 5, standbyPolls := 69 } } [(Fld.CONT_RENEWALS_COUNT, 5)]
def state5 : State := setFields { serving with cont := { standbyCount := 6, standbyPolls := 69 } } [(Fld.CONT_RENEWALS_COUNT, 5)]
def state6 : State := { serving with cont := { claimed := some 4, acting := false } }
def state7 : State := setFields { serving with cont := { supA := .standby, supB := .holder } } [(Fld.CONT_STATUS_ACTIVE, 1)]
def state8 : State := setFields { serving with cont := { supA := .unusable, supB := .holder } } [(Fld.CONT_STATUS_ACTIVE, 1)]
def state9 : State := setFields { serving with cont := { supA := .standby, supB := .holder, acting := false, released := true } } [(Fld.CONT_STATUS_ACTIVE, 1)]
def state10 : State := { serving with srv := { affected := [aUnit] } }
def state11 : State := { serving with boot := { down := true } }
def state12 : State := { serving with srv := { loadsLost := true, loads := [1], slots := [(1, { state := .loading, step := 2 })] } }
def state13 : State := { serving with srv := { affected := [aUnit], loadsLost := true, loads := [1], slots := [(1, { state := .loading, step := 2 })] } }
def state14 : State := { serving with cont := { claimed := some 4, acting := false }, srv := { loads := [1], slots := [(1, { state := .loading, step := 2 })] } }
end SupervisorsAndReplay
theorem witness_SupervisorsAndReplay :
    (∃ (s : State), s.sup (otherSide s.active) = SupState.holder) ∧
    (∃ (s : State), s.sup (otherSide s.active) ≠ SupState.holder ∧
      (s.sup s.active ≠ SupState.holder ∨ s.cont.released = true ∨ s.boot.down = true)) ∧
    (∃ (s : State), s.sup (otherSide s.active) ≠ SupState.holder ∧
      s.sup s.active = SupState.holder ∧
      s.cont.released = false ∧
      s.boot.down = false) ∧
    (∃ (s : State), (s.sup (otherSide s.active) ≠ SupState.standby ∨ s.boot.down = true)) ∧
    (∃ (s : State), s.sup (otherSide s.active) = SupState.standby ∧
      s.boot.down = false ∧
      s.cont.released = true) ∧
    (∃ (s : State), s.sup (otherSide s.active) = SupState.standby ∧
      s.boot.down = false ∧
      s.cont.released = false ∧
      s.rget Fld.CONT_RENEWALS_COUNT ≠ s.cont.standbyCount) ∧
    (∃ (s : State), s.sup (otherSide s.active) = SupState.standby ∧
      s.boot.down = false ∧
      s.cont.released = false ∧
      s.rget Fld.CONT_RENEWALS_COUNT = s.cont.standbyCount ∧
      s.cont.standbyPolls < 69) ∧
    (∃ (s : State), s.sup (otherSide s.active) = SupState.standby ∧
      s.boot.down = false ∧
      s.cont.released = false ∧
      s.rget Fld.CONT_RENEWALS_COUNT = s.cont.standbyCount ∧
      69 ≤ s.cont.standbyPolls) ∧
    (∃ (s : State), (s.cont.claimed = none ∨ s.boot.down = true)) ∧
    (∃ (s : State), s.cont.claimed ≠ none ∧
      s.boot.down = false) ∧
    (∃ (s : State), s.active = s.preferred) ∧
    (∃ (s : State), s.active ≠ s.preferred ∧
      s.sup (otherSide s.active) ≠ SupState.standby) ∧
    (∃ (s : State), s.active ≠ s.preferred ∧
      s.sup (otherSide s.active) = SupState.standby ∧
      s.holderActs = true) ∧
    (∃ (s : State), s.active ≠ s.preferred ∧
      s.sup (otherSide s.active) = SupState.standby ∧
      s.holderActs = false) ∧
    (∃ (s : State), (s.twinState = 0 ∨ s.twinState = 3)) ∧
    (∃ (s : State), (s.srv.affected = [] ∧ s.srv.loadsLost = false ∨ s.supActs = false ∨ s.sliceRuns 7 0 = true ∨ s.sliceRuns 9 0 = true)) ∧
    (∃ (s : State), s.srv.affected = [] ∧
      s.srv.loadsLost = true ∧
      s.supActs = true ∧
      s.sliceRuns 7 0 = false ∧
      s.sliceRuns 9 0 = false) ∧
    (∃ (s : State), s.srv.affected ≠ [] ∧
      s.supActs = true ∧
      s.sliceRuns 7 0 = false ∧
      s.sliceRuns 9 0 = false) :=
  ⟨⟨SupervisorsAndReplay.state1, by decide⟩,
   ⟨SupervisorsAndReplay.state2, by decide, by decide⟩,
   ⟨SupervisorsAndReplay.state3, by decide, by decide, by decide, by decide⟩,
   ⟨SupervisorsAndReplay.state1, by decide⟩,
   ⟨SupervisorsAndReplay.state2, by decide, by decide, by decide⟩,
   ⟨SupervisorsAndReplay.state5, by decide, by decide, by decide, by decide⟩,
   ⟨SupervisorsAndReplay.state6, by decide, by decide, by decide, by decide, by decide⟩,
   ⟨SupervisorsAndReplay.state4, by decide, by decide, by decide, by decide, by decide⟩,
   ⟨SupervisorsAndReplay.state1, by decide⟩,
   ⟨SupervisorsAndReplay.state6, by decide, by decide⟩,
   ⟨SupervisorsAndReplay.state1, by decide⟩,
   ⟨SupervisorsAndReplay.state8, by decide, by decide⟩,
   ⟨SupervisorsAndReplay.state7, by decide, by decide, by decide⟩,
   ⟨SupervisorsAndReplay.state9, by decide, by decide, by decide⟩,
   ⟨SupervisorsAndReplay.state1, by decide⟩,
   ⟨SupervisorsAndReplay.state1, by decide⟩,
   ⟨SupervisorsAndReplay.state12, by decide, by decide, by decide, by decide, by decide⟩,
   ⟨SupervisorsAndReplay.state10, by decide, by decide, by decide, by decide⟩⟩

-- MirroringBetweenTwins.

namespace MirroringBetweenTwins
def twinned (tw : Nat) (c : ContState) : State := setFields { serving with cont := { c with config := { pairs := [1, 0], identities := [[9], [1, 2, 3]], epoch := 3 } } } [(Fld.SYS_STRAPS_PARITY_OK, 1), (Fld.SYS_STRAPS_SLOT, 0), (Fld.CONT_STATUS_TWIN, tw)]
def mirrorBytes (op count index epoch number : Nat) (rest : List Byte) : List Byte := [BitVec.ofNat 8 op, 0] ++ leBytes 2 count ++ leBytes 4 0 ++ leBytes 8 index ++ leBytes 8 epoch ++ leBytes 8 number ++ rest
def carrying (l : List JRecord) (epoch : Nat := 3) : Msg := aMsg 5 (mirrorBytes 1 l.length 9 epoch 0 (l.map recordBytes).flatten)
def admitRecord : JRecord := { index := 9, session := 1, body := .admitted [1, 2] 1 0 0 0 5 1 0 [] }
def fetched (session number : Nat) : Msg := aMsg 5 (mirrorBytes 4 0 session 3 number (leBytes 4 0 ++ leBytes 4 0x0100 ++ leBytes 8 session ++ leBytes 8 number ++ leBytes 8 77 ++ [1, 2]))
def jRecord2 : JRecord := { index := 9, body := .budget 1 50 4 true }
def jRecord3 : JRecord := { index := 9, body := .lease 4 }
def jRecord4 : JRecord := { index := 9, session := 1, body := .session .opened 40 }
def listJRecord2 : (List JRecord) := [{ index := 9, body := .budget 1 50 4 true }]
def listJRecord3 : (List JRecord) := [{ index := 9, body := .lease 4 }]
def msg2 : Msg := carrying [{ index := 9, body := .budget 1 50 4 true }]
def msg3 : Msg := carrying [{ index := 9, body := .lease 4 }]
def msg5 : Msg := carrying [{ index := 9, body := .lease 4 }] 7
def msg6 : Msg := aMsg 5 (mirrorBytes 2 0 5 3 0 [])
def msg7 : Msg := aMsg 5 (mirrorBytes 3 0 1 3 2 [])
def msg8 : Msg := aMsg 5 (mirrorBytes 3 0 1 3 9 [])
def state3 : State := twinned 1 { twinHealthy := true }
def state4 : State := twinned 1 { twin := { joining := true } }
def state6 : State := twinned 2 { twin := { wanting := [admitRecord] } }
def state7 : State := { twinned 2 {} with net := { (twinned 2 {}).net with inbox := [{ session := 1, type := 0x0100, number := 2, tag := 77, payload := [1] }] } }
def state8 : State := twinned 1 { journal := [{ index := 9, session := 1, body := .session .opened 40 }] }
def session3 : Session := { aSession 5 with partnerKey := [] }
def delivered1 : Delivered := { session := 1, type := 0x0100, number := 2, tag := 77, payload := [1] }
end MirroringBetweenTwins
theorem witness_MirroringBetweenTwins :
    (∃ (m : Msg) (l : List JRecord), (u16 m.payload 2 ≠ l.length ∨ List.drop 32 m.payload ≠ (List.map recordBytes l).flatten)) ∧
    (∃ (s : State) (m : Msg) (x : Session) (l : List JRecord), u16 m.payload 2 = l.length ∧
      List.drop 32 m.payload = (List.map recordBytes l).flatten ∧
      (s.supActs = true ∧
  s.Hears m x 1280 m.payload.length ∧
    32 ≤ m.payload.length ∧ u8 m.payload 0 = 1 ∧ u8 m.payload 1 = 0 ∧ (1 < 3 → allZero m.payload 24 8 = true)) ∧
      (¬s.fromPair x = true ∨
  s.twinState ≠ 2 ∧ s.twinState ≠ 4 ∨
    ¬(u64 m.payload 16 ≤ s.cont.config.epoch ∨
        (l.any fun r =>
            match r.body with
            | RecBody.config e digest => e == u64 m.payload 16
            | x => false) =
          true))) ∧
    (∃ (s : State) (m : Msg) (x : Session) (l : List JRecord) (r : JRecord), u16 m.payload 2 = l.length ∧
      List.drop 32 m.payload = (List.map recordBytes l).flatten ∧
      (s.supActs = true ∧
  s.Hears m x 1280 m.payload.length ∧
    32 ≤ m.payload.length ∧ u8 m.payload 0 = 1 ∧ u8 m.payload 1 = 0 ∧ (1 < 3 → allZero m.payload 24 8 = true)) ∧
      l = [r] ∧
      s.fromPair x = true ∧
      (u64 m.payload 16 ≤ s.cont.config.epoch ∨
  (l.any fun r =>
      match r.body with
      | RecBody.config e digest => e == u64 m.payload 16
      | x => false) =
    true) ∧
      s.twinState = 2 ∧
      s.cont.twin.applied < r.index ∧
      (∀ q ∈ s.cont.journal, q.index ≠ r.index) ∧
      r.session ≠ m.session ∧
      recType r.body = 1) ∧
    (∃ (s : State) (m : Msg) (x : Session) (l : List JRecord) (r : JRecord) (cu : Nat) (b : Nat) (g : Nat) (o : Bool), u16 m.payload 2 = l.length ∧
      List.drop 32 m.payload = (List.map recordBytes l).flatten ∧
      (s.supActs = true ∧
  s.Hears m x 1280 m.payload.length ∧
    32 ≤ m.payload.length ∧ u8 m.payload 0 = 1 ∧ u8 m.payload 1 = 0 ∧ (1 < 3 → allZero m.payload 24 8 = true)) ∧
      l = [r] ∧
      s.fromPair x = true ∧
      (u64 m.payload 16 ≤ s.cont.config.epoch ∨
  (l.any fun r =>
      match r.body with
      | RecBody.config e digest => e == u64 m.payload 16
      | x => false) =
    true) ∧
      s.twinState = 2 ∧
      s.cont.twin.applied < r.index ∧
      (∀ q ∈ s.cont.journal, q.index ≠ r.index) ∧
      r.session ≠ m.session ∧
      r.session = 0 ∧
      r.body = RecBody.budget cu b g o) ∧
    (∃ (s : State) (m : Msg) (x : Session) (l : List JRecord) (r : JRecord) (e : Nat), u16 m.payload 2 = l.length ∧
      List.drop 32 m.payload = (List.map recordBytes l).flatten ∧
      (s.supActs = true ∧
  s.Hears m x 1280 m.payload.length ∧
    32 ≤ m.payload.length ∧ u8 m.payload 0 = 1 ∧ u8 m.payload 1 = 0 ∧ (1 < 3 → allZero m.payload 24 8 = true)) ∧
      l = [r] ∧
      s.fromPair x = true ∧
      (u64 m.payload 16 ≤ s.cont.config.epoch ∨
  (l.any fun r =>
      match r.body with
      | RecBody.config e digest => e == u64 m.payload 16
      | x => false) =
    true) ∧
      s.twinState = 2 ∧
      s.cont.twin.applied < r.index ∧
      (∀ q ∈ s.cont.journal, q.index ≠ r.index) ∧
      r.session ≠ m.session ∧
      r.body = RecBody.lease e) ∧
    (∃ (s : State) (m : Msg) (x : Session), (s.supActs = true ∧
  s.Hears m x 1280 m.payload.length ∧
    32 ≤ m.payload.length ∧ u8 m.payload 0 = 2 ∧ u8 m.payload 1 = 0 ∧ (2 < 3 → allZero m.payload 24 8 = true)) ∧
      s.fromPair x = true ∧
      s.twinState ≠ 1) ∧
    (∃ (s : State) (m : Msg) (x : Session), (s.supActs = true ∧
  s.Hears m x 1280 m.payload.length ∧
    32 ≤ m.payload.length ∧ u8 m.payload 0 = 2 ∧ u8 m.payload 1 = 0 ∧ (2 < 3 → allZero m.payload 24 8 = true)) ∧
      s.fromPair x = true ∧
      s.twinState = 1) ∧
    (∃ (s : State) (m : Msg) (x : Session), (s.supActs = true ∧
  s.Hears m x 1280 m.payload.length ∧
    32 ≤ m.payload.length ∧ u8 m.payload 0 = 3 ∧ u8 m.payload 1 = 0 ∧ (3 < 3 → allZero m.payload 24 8 = true)) ∧
      s.fromPair x = true ∧
      s.heldCopy (u64 m.payload 8 % 2 ^ 32) (u64 m.payload 24) = none) ∧
    (∃ (s : State) (m : Msg) (x : Session) (d : Delivered) (y : Session), (s.supActs = true ∧
  s.Hears m x 1280 m.payload.length ∧
    32 ≤ m.payload.length ∧ u8 m.payload 0 = 3 ∧ u8 m.payload 1 = 0 ∧ (3 < 3 → allZero m.payload 24 8 = true)) ∧
      s.fromPair x = true ∧
      s.heldCopy (u64 m.payload 8 % 2 ^ 32) (u64 m.payload 24) = some d ∧
      s.session (u64 m.payload 8 % 2 ^ 32) = some y ∧
      s.twinSession = some m.session) ∧
    (∃ (s : State) (m : Msg) (x : Session), (s.supActs = true ∧
  s.Hears m x 1280 m.payload.length ∧
    32 ≤ m.payload.length ∧ u8 m.payload 0 = 4 ∧ u8 m.payload 1 = 0 ∧ (4 < 3 → allZero m.payload 24 8 = true)) ∧
      s.fromPair x = true ∧
      s.session (u32 (List.drop 32 m.payload) 8) = none) ∧
    (∃ (s : State) (m : Msg) (x : Session) (y : Session), (s.supActs = true ∧
  s.Hears m x 1280 m.payload.length ∧
    32 ≤ m.payload.length ∧ u8 m.payload 0 = 4 ∧ u8 m.payload 1 = 0 ∧ (4 < 3 → allZero m.payload 24 8 = true)) ∧
      s.fromPair x = true ∧
      s.session (u32 (List.drop 32 m.payload) 8) = some y ∧
      u32 (List.drop 32 m.payload) 8 % 16384 ≠ m.session % 16384 ∧
      { session := u32 (List.drop 32 m.payload) 8, type := u16 (List.drop 32 m.payload) 4, number := u64 (List.drop 32 m.payload) 16, tag := u32 (List.drop 32 m.payload) 24, payload := List.drop 32 (List.drop 32 m.payload) : Delivered }.number <
  y.nextDeliver) ∧
    (∃ (s : State) (m : Msg) (x : Session) (y : Session), (s.supActs = true ∧
  s.Hears m x 1280 m.payload.length ∧
    32 ≤ m.payload.length ∧ u8 m.payload 0 = 4 ∧ u8 m.payload 1 = 0 ∧ (4 < 3 → allZero m.payload 24 8 = true)) ∧
      s.fromPair x = true ∧
      s.session (u32 (List.drop 32 m.payload) 8) = some y ∧
      u32 (List.drop 32 m.payload) 8 % 16384 ≠ m.session % 16384 ∧
      { session := u32 (List.drop 32 m.payload) 8, type := u16 (List.drop 32 m.payload) 4, number := u64 (List.drop 32 m.payload) 16, tag := u32 (List.drop 32 m.payload) 24, payload := List.drop 32 (List.drop 32 m.payload) : Delivered }.number =
  y.nextDeliver ∧
      y.ahead.fetch
    { session := u32 (List.drop 32 m.payload) 8, type := u16 (List.drop 32 m.payload) 4, number := u64 (List.drop 32 m.payload) 16, tag := u32 (List.drop 32 m.payload) 24, payload := List.drop 32 (List.drop 32 m.payload) : Delivered }.number =
  none) ∧
    (∃ (s : State), (s.supActs = false ∨ s.twinState ≠ 2 ∧ s.twinState ≠ 4 ∨ s.cont.twin.wanting = [])) ∧
    (∃ (s : State) (m : Msg) (x : Session) (r : JRecord) (y : Session), s.supActs = true ∧
      (s.twinState = 2 ∨ s.twinState = 4) ∧
      s.cont.twin.wanting = [r] ∧
      s.net.inbox = [] ∧
      recType r.body = 1 ∧
      s.session r.session = some y ∧
      s.session m.session = some x ∧
      s.twinSession = some m.session) ∧
    (∃ (s : State), (s.twinState ≠ 1 ∨ s.cont.twinHealthy = false ∨ s.supActs = false)) ∧
    (∃ (s : State), s.twinState = 1 ∧
      s.cont.twinHealthy = true ∧
      s.supActs = true) ∧
    (∃ (s : State), (s.supActs = false ∨ s.twinState ≠ 1 ∨ s.cont.twinHealthy = true ∨ s.cont.twin.joining = true ∨ s.twinSession = none)) ∧
    (∃ (s : State) (m : Msg) (x : Session), s.supActs = true ∧
      s.twinState = 1 ∧
      s.cont.twinHealthy = false ∧
      s.cont.twin.joining = false ∧
      s.session m.session = some x ∧
      s.twinSession = some m.session ∧
      s.joinRecords = ([], [])) ∧
    (∃ (s : State) (m : Msg) (x : Session) (r : JRecord), s.supActs = true ∧
      s.twinState = 1 ∧
      s.cont.twinHealthy = false ∧
      s.cont.twin.joining = false ∧
      s.session m.session = some x ∧
      s.twinSession = some m.session ∧
      s.joinRecords = ([r], [])) :=
  ⟨⟨MirroringBetweenTwins.carrying [MirroringBetweenTwins.admitRecord], MirroringBetweenTwins.listJRecord2, by decide⟩,
   ⟨MirroringBetweenTwins.twinned 2 { : ContState }, MirroringBetweenTwins.msg5, aSession 5, MirroringBetweenTwins.listJRecord3, by decide, by decide, ⟨by decide, ⟨hears_of (by decide), by decide⟩⟩, by decide⟩,
   ⟨MirroringBetweenTwins.twinned 2 { : ContState }, MirroringBetweenTwins.carrying [MirroringBetweenTwins.admitRecord], aSession 5, [MirroringBetweenTwins.admitRecord], MirroringBetweenTwins.admitRecord, by decide, by decide, ⟨by decide, ⟨hears_of (by decide), by decide⟩⟩, by decide, by decide, by decide, by decide, by decide, by decide, by decide, by decide⟩,
   ⟨MirroringBetweenTwins.twinned 2 { : ContState }, MirroringBetweenTwins.msg2, aSession 5, MirroringBetweenTwins.listJRecord2, MirroringBetweenTwins.jRecord2, 1, 50, 4, true, by decide, by decide, ⟨by decide, ⟨hears_of (by decide), by decide⟩⟩, by decide, by decide, by decide, by decide, by decide, by decide, by decide, by decide, by decide⟩,
   ⟨MirroringBetweenTwins.twinned 2 { : ContState }, MirroringBetweenTwins.msg3, aSession 5, MirroringBetweenTwins.listJRecord3, MirroringBetweenTwins.jRecord3, 4, by decide, by decide, ⟨by decide, ⟨hears_of (by decide), by decide⟩⟩, by decide, by decide, by decide, by decide, by decide, by decide, by decide, by decide⟩,
   ⟨MirroringBetweenTwins.twinned 2 { : ContState }, MirroringBetweenTwins.msg6, aSession 5, ⟨by decide, ⟨hears_of (by decide), by decide⟩⟩, by decide, by decide⟩,
   ⟨MirroringBetweenTwins.twinned 1 { : ContState }, MirroringBetweenTwins.msg6, aSession 5, ⟨by decide, ⟨hears_of (by decide), by decide⟩⟩, by decide, by decide⟩,
   ⟨MirroringBetweenTwins.twinned 2 { : ContState }, MirroringBetweenTwins.msg7, aSession 5, ⟨by decide, ⟨hears_of (by decide), by decide⟩⟩, by decide, by decide⟩,
   ⟨MirroringBetweenTwins.state7, MirroringBetweenTwins.msg7, aSession 5, MirroringBetweenTwins.delivered1, aSession 1, ⟨by decide, ⟨hears_of (by decide), by decide⟩⟩, by decide, by decide, by decide, by decide⟩,
   ⟨MirroringBetweenTwins.twinned 2 { : ContState }, MirroringBetweenTwins.fetched 99 1, aSession 5, ⟨by decide, ⟨hears_of (by decide), by decide⟩⟩, by decide, by decide⟩,
   ⟨MirroringBetweenTwins.twinned 2 { : ContState }, MirroringBetweenTwins.fetched 1 0, aSession 5, aSession 1, ⟨by decide, ⟨hears_of (by decide), by decide⟩⟩, by decide, by decide, by decide, by decide⟩,
   ⟨MirroringBetweenTwins.twinned 2 { : ContState }, MirroringBetweenTwins.fetched 1 2, aSession 5, aSession 1, ⟨by decide, ⟨hears_of (by decide), by decide⟩⟩, by decide, by decide, by decide, by decide, by decide⟩,
   ⟨MirroringBetweenTwins.twinned 2 { : ContState }, by decide⟩,
   ⟨MirroringBetweenTwins.state6, MirroringBetweenTwins.carrying [MirroringBetweenTwins.admitRecord], aSession 5, MirroringBetweenTwins.admitRecord, aSession 1, by decide, by decide, by decide, by decide, by decide, by decide, by decide, by decide⟩,
   ⟨MirroringBetweenTwins.twinned 2 { : ContState }, by decide⟩,
   ⟨MirroringBetweenTwins.state3, by decide, by decide, by decide⟩,
   ⟨MirroringBetweenTwins.twinned 2 { : ContState }, by decide⟩,
   ⟨MirroringBetweenTwins.twinned 1 { : ContState }, MirroringBetweenTwins.carrying [MirroringBetweenTwins.admitRecord], aSession 5, by decide, by decide, by decide, by decide, by decide, by decide, by decide⟩,
   ⟨MirroringBetweenTwins.state8, MirroringBetweenTwins.carrying [MirroringBetweenTwins.admitRecord], aSession 5, MirroringBetweenTwins.jRecord4, by decide, by decide, by decide, by decide, by decide, by decide, by decide⟩⟩

-- TwinLease.

namespace TwinLease
def twinned (tw : Nat) (c : ContState) : State := setFields { serving with cont := { c with config := { pairs := [1, 0], identities := [[9], [1, 2, 3]], epoch := 3, payload := zeroBytes 48 } } } [(Fld.SYS_STRAPS_PARITY_OK, 1), (Fld.SYS_STRAPS_SLOT, 0), (Fld.CONT_STATUS_TWIN, tw), (Fld.CONT_TWIN_LEASE_EPOCH, 5)]
def upper (s : State) : State := setFields { s with cont := { s.cont with config := { s.cont.config with identities := [[1, 2, 3], [9]] } } } [(Fld.SYS_STRAPS_SLOT, 1)]
def leaseBytes (op epoch config renewal : Nat) (digest : List Byte) : List Byte := leBytes 4 op ++ leBytes 4 epoch ++ leBytes 8 config ++ leBytes 8 0 ++ leBytes 8 renewal ++ digest ++ zeroBytes 16
def leaseMsg (n op epoch config renewal : Nat) (digest : List Byte := zeroBytes 48) : Msg := aMsg n (leaseBytes op epoch config renewal digest)
def msg4 : Msg := leaseMsg 5 1 5 3 0 (List.replicate 48 7)
def state4 : State := twinned 2 { twin := { claiming := some 6 } }
def state5 : State := twinned 1 { twin := { released := true } }
def state6 : State := upper (twinned 1 { twinHealthy := true })
end TwinLease
theorem witness_TwinLease :
    (∃ (s : State), (s.supActs = false ∨ s.twinState ≠ 1 ∨ s.cont.twin.released = true)) ∧
    (∃ (s : State) (m : Msg) (x : Session), s.supActs = true ∧
      s.twinState = 1 ∧
      s.cont.twin.released = false ∧
      s.session m.session = some x ∧
      s.twinSession = some m.session ∧
      s.boundAbove s.cont.twin.mirrored = []) ∧
    (∃ (s : State) (m : Msg) (x : Session), (s.supActs = true ∧
  s.Hears m x 1281 96 ∧ u8 m.payload 0 = 1 ∧ allZero m.payload 1 3 = true ∧ allZero m.payload 80 16 = true) ∧
      (s.fromPair x = true ∧ (u64 m.payload 8 = s.cont.config.epoch → slice m.payload 32 48 = s.configDigest)) ∧
      (u32 m.payload 4 < s.rget Fld.CONT_TWIN_LEASE_EPOCH ∨
  s.twinState = 1 ∧ u32 m.payload 4 = s.rget Fld.CONT_TWIN_LEASE_EPOCH ∨ s.twinState = 0)) ∧
    (∃ (s : State) (m : Msg) (x : Session), (s.supActs = true ∧
  s.Hears m x 1281 96 ∧ u8 m.payload 0 = 1 ∧ allZero m.payload 1 3 = true ∧ allZero m.payload 80 16 = true) ∧
      (s.fromPair x = true ∧ (u64 m.payload 8 = s.cont.config.epoch → slice m.payload 32 48 = s.configDigest)) ∧
      s.rget Fld.CONT_TWIN_LEASE_EPOCH ≤ u32 m.payload 4 ∧
      (s.twinState = 1 → s.rget Fld.CONT_TWIN_LEASE_EPOCH < u32 m.payload 4) ∧
      s.twinState ≠ 0 ∧
      s.twinSession = some m.session) ∧
    (∃ (s : State) (m : Msg) (x : Session), (s.supActs = true ∧
  s.Hears m x 1281 96 ∧ u8 m.payload 0 = 2 ∧ allZero m.payload 1 3 = true ∧ allZero m.payload 80 16 = true) ∧
      (s.fromPair x = true ∧ (u64 m.payload 8 = s.cont.config.epoch → slice m.payload 32 48 = s.configDigest)) ∧
      s.twinState = 1 ∧
      s.cont.twin.released = false ∧
      u64 m.payload 24 = s.cont.twin.renewals) ∧
    (∃ (s : State) (m : Msg) (x : Session), (s.supActs = true ∧
  s.Hears m x 1281 96 ∧ u8 m.payload 0 = 2 ∧ allZero m.payload 1 3 = true ∧ allZero m.payload 80 16 = true) ∧
      (s.fromPair x = true ∧ (u64 m.payload 8 = s.cont.config.epoch → slice m.payload 32 48 = s.configDigest)) ∧
      (s.twinState ≠ 1 ∨ s.cont.twin.released = true ∨ u64 m.payload 24 ≠ s.cont.twin.renewals)) ∧
    (∃ (s : State), (s.twinState ≠ 1 ∨ s.supActs = false ∨ s.cont.twin.released = true)) ∧
    (∃ (s : State) (m : Msg) (x : Session), (s.supActs = true ∧
  s.Hears m x 1281 96 ∧ u8 m.payload 0 = 3 ∧ allZero m.payload 1 3 = true ∧ allZero m.payload 80 16 = true) ∧
      (s.fromPair x = true ∧ (u64 m.payload 8 = s.cont.config.epoch → slice m.payload 32 48 = s.configDigest)) ∧
      s.twinState ≠ 2) ∧
    (∃ (s : State) (m : Msg) (x : Session), (s.supActs = true ∧
  s.Hears m x 1281 96 ∧ u8 m.payload 0 = 3 ∧ allZero m.payload 1 3 = true ∧ allZero m.payload 80 16 = true) ∧
      (s.fromPair x = true ∧ (u64 m.payload 8 = s.cont.config.epoch → slice m.payload 32 48 = s.configDigest)) ∧
      s.twinState = 2 ∧
      u32 m.payload 4 < s.rget Fld.CONT_TWIN_LEASE_EPOCH) ∧
    (∃ (s : State) (m : Msg) (x : Session) (k : Nat) (y : Session), (s.supActs = true ∧
  s.Hears m x 1281 96 ∧ u8 m.payload 0 = 3 ∧ allZero m.payload 1 3 = true ∧ allZero m.payload 80 16 = true) ∧
      (s.fromPair x = true ∧ (u64 m.payload 8 = s.cont.config.epoch → slice m.payload 32 48 = s.configDigest)) ∧
      s.twinState = 2 ∧
      s.rget Fld.CONT_TWIN_LEASE_EPOCH ≤ u32 m.payload 4 ∧
      (s.sessionsOfRole fun x => x == 4) = [k] ∧
      s.session k = some y ∧
      k % 16384 ≠ m.session % 16384) ∧
    (∃ (s : State), (s.twinState ≠ 2 ∨ s.supActs = false)) ∧
    (∃ (s : State) (k : Nat) (y : Session), s.twinState = 2 ∧
      s.supActs = true ∧
      (s.sessionsOfRole fun x => x == 4) = [k] ∧
      s.session k = some y) ∧
    (∃ (s : State) (m : Msg) (x : Session), s.supActs = true ∧
      s.session m.session = some x ∧
      x.closing = false ∧
      x.role = 4 ∧
      m.payload.length = 96 ∧
      allZero m.payload 1 3 = true ∧
      allZero m.payload 80 16 = true ∧
      u8 m.payload 0 = 5 ∧
      (s.cont.twin.claiming ≠ some (u32 m.payload 4) ∨ s.twinState ≠ 2)) ∧
    (∃ (s : State) (m : Msg) (x : Session), s.supActs = true ∧
      s.session m.session = some x ∧
      x.closing = false ∧
      x.role = 4 ∧
      m.payload.length = 96 ∧
      allZero m.payload 1 3 = true ∧
      allZero m.payload 80 16 = true ∧
      u8 m.payload 0 = 5 ∧
      s.cont.twin.claiming = some (u32 m.payload 4) ∧
      s.twinState = 2) ∧
    (∃ (s : State) (m : Msg) (x : Session), s.supActs = true ∧
      s.session m.session = some x ∧
      x.closing = false ∧
      x.role = 4 ∧
      m.payload.length = 96 ∧
      allZero m.payload 1 3 = true ∧
      allZero m.payload 80 16 = true ∧
      u8 m.payload 0 = 6) ∧
    (∃ (s : State) (m : Msg) (x : Session) (k : Nat) (t : Nat), s.mySlot = some k ∧
      s.twinSlot = some t ∧
      s.twinState = 1 ∧
      s.cont.twinHealthy = true ∧
      s.supActs = true ∧
      t < k ∧
      s.cont.twin.released = false ∧
      s.session m.session = some x ∧
      s.twinSession = some m.session) ∧
    (∃ (s : State), (s.twinState ≠ 1 ∨
  s.cont.twinHealthy = false ∨
    s.supActs = false ∨
      s.twinSlot = none ∨ s.cont.twin.released = true ∨ ∃ k t, s.mySlot = some k ∧ s.twinSlot = some t ∧ k ≤ t)) :=
  ⟨⟨TwinLease.twinned 2 { : ContState }, by decide⟩,
   ⟨TwinLease.twinned 1 { : ContState }, TwinLease.leaseMsg 5 1 5 4 0, aSession 5, by decide, by decide, by decide, by decide, by decide, by decide⟩,
   ⟨TwinLease.twinned 1 { : ContState }, TwinLease.leaseMsg 5 1 5 4 0, aSession 5, ⟨by decide, ⟨hears_of (by decide), by decide⟩⟩, by decide, by decide⟩,
   ⟨TwinLease.twinned 1 { : ContState }, TwinLease.leaseMsg 5 1 6 4 0, aSession 5, ⟨by decide, ⟨hears_of (by decide), by decide⟩⟩, by decide, by decide, by decide, by decide, by decide⟩,
   ⟨TwinLease.twinned 1 { : ContState }, TwinLease.leaseMsg 5 2 5 4 0, aSession 5, ⟨by decide, ⟨hears_of (by decide), by decide⟩⟩, by decide, by decide, by decide, by decide⟩,
   ⟨TwinLease.twinned 1 { : ContState }, TwinLease.leaseMsg 5 2 5 4 9, aSession 5, ⟨by decide, ⟨hears_of (by decide), by decide⟩⟩, by decide, by decide⟩,
   ⟨TwinLease.twinned 2 { : ContState }, by decide⟩,
   ⟨TwinLease.twinned 1 { : ContState }, TwinLease.leaseMsg 5 3 4 4 0, aSession 5, ⟨by decide, ⟨hears_of (by decide), by decide⟩⟩, by decide, by decide⟩,
   ⟨TwinLease.twinned 2 { : ContState }, TwinLease.leaseMsg 5 3 4 4 0, aSession 5, ⟨by decide, ⟨hears_of (by decide), by decide⟩⟩, by decide, by decide, by decide⟩,
   ⟨TwinLease.twinned 2 { : ContState }, TwinLease.leaseMsg 5 3 5 4 0, aSession 5, 4, aSession 4, ⟨by decide, ⟨hears_of (by decide), by decide⟩⟩, by decide, by decide, by decide, by decide, by decide, by decide⟩,
   ⟨TwinLease.twinned 1 { : ContState }, by decide⟩,
   ⟨TwinLease.twinned 2 { : ContState }, 4, aSession 4, by decide, by decide, by decide, by decide⟩,
   ⟨TwinLease.twinned 1 { : ContState }, TwinLease.leaseMsg 4 5 6 4 0, aSession 4, by decide, by decide, by decide, by decide, by decide, by decide, by decide, by decide, by decide⟩,
   ⟨TwinLease.state4, TwinLease.leaseMsg 4 5 6 4 0, aSession 4, by decide, by decide, by decide, by decide, by decide, by decide, by decide, by decide, by decide, by decide⟩,
   ⟨TwinLease.twinned 1 { : ContState }, TwinLease.leaseMsg 4 6 6 4 0, aSession 4, by decide, by decide, by decide, by decide, by decide, by decide, by decide, by decide⟩,
   ⟨TwinLease.state6, TwinLease.leaseMsg 5 1 5 4 0, aSession 5, 1, 0, by decide, by decide, by decide, by decide, by decide, by decide, by decide, by decide, by decide⟩,
   ⟨TwinLease.twinned 1 { : ContState }, .inr (.inl (by decide))⟩⟩

theorem witness_TwinLease_other_configuration :
    ∃ (s : State) (m : Msg) (x : Session), (s.supActs = true ∧ s.Hears m x 1281 96 ∧ u8 m.payload 0 = 1 ∧ allZero m.payload 1 3 = true ∧
        allZero m.payload 80 16 = true) ∧
      s.fromPair x = true ∧ u64 m.payload 8 = s.cont.config.epoch ∧ slice m.payload 32 48 ≠ s.configDigest := by
  have two : ∀ d : List Byte, slice (TwinLease.leaseMsg 5 1 5 3 0).payload 32 48 = d →
      slice (TwinLease.leaseMsg 5 1 5 3 0 (List.replicate 48 7)).payload 32 48 ≠ d := by
    intro d h
    rw [← h]
    decide
  by_cases h : slice (TwinLease.leaseMsg 5 1 5 3 0).payload 32 48 = (TwinLease.twinned 1 {}).configDigest
  · exact ⟨TwinLease.twinned 1 {}, TwinLease.leaseMsg 5 1 5 3 0 (List.replicate 48 7), aSession 5,
      ⟨by decide, hears_of (by decide), by decide, by decide, by decide⟩, by decide, by decide, two _ h⟩
  · exact ⟨TwinLease.twinned 1 {}, TwinLease.leaseMsg 5 1 5 3 0, aSession 5,
      ⟨by decide, hears_of (by decide), by decide, by decide, by decide⟩, by decide, by decide, h⟩

-- ConfigurationAndHeartbeat.

namespace ConfigurationAndHeartbeat
def aConfig (epoch : Nat) (l : List (Nat × List Byte)) (writes : List (Nat × Nat) := []) : Msg :=
  aMsg 4 (bytes 1600 ([(0, leBytes 8 epoch), (8, leBytes 2 writes.length), (16, List.replicate 32 255)] ++ l) ++ (writes.map fun w => leBytes 4 w.1 ++ leBytes 4 w.2).flatten)
def aStaged : StagedConfig := { epoch := 6, payload := [1], pairs := [], identities := [], writes := [] }
def state1 : State := { serving with cont := { config := { epoch := 5 }, staged := some aStaged } }
def state2 : State := { serving with cont := { config := { epoch := 5 }, staged := some aStaged }, srv := { batch := some aBatch } }
def state3 : State := setFields { serving with cont := { config := { epoch := 5 }, staged := some aStaged } } [(Fld.FWU_STATE_STATE, 3)]
def state4 : State := { serving with cont := { acting := false } }
def msg5 : Msg := aConfig 6 [] [(0x30000, 4)]
def msg6 : Msg := aMsg 4 (bytes 32 [(9, [1])])
def msg7 : Msg := aMsg 4 (bytes 32 [(0, leBytes 8 7)])
def msg8 : Msg := aMsg 4 (bytes 32 [(0, leBytes 8 6)])
end ConfigurationAndHeartbeat
theorem witness_ConfigurationAndHeartbeat :
    (∃ (s : State) (m : Msg) (x : Session), s.mayActFor m.session = true ∧
      s.Hears m x 1040 m.payload.length ∧
      (m.payload.length < 1600 ∨ m.payload.length ≠ 1600 + 8 * u16 m.payload 8)) ∧
    (∃ (s : State) (m : Msg) (x : Session), s.mayActFor m.session = true ∧
      s.Hears m x 1040 m.payload.length ∧
      1600 ≤ m.payload.length ∧
      m.payload.length = 1600 + 8 * u16 m.payload 8 ∧
      (¬(allZero m.payload 10 6 = true ∧ allZero m.payload 48 16 = true))) ∧
    (∃ (s : State) (m : Msg) (x : Session), s.mayActFor m.session = true ∧
      s.Hears m x 1040 m.payload.length ∧
      1600 ≤ m.payload.length ∧
      m.payload.length = 1600 + 8 * u16 m.payload 8 ∧
      (allZero m.payload 10 6 = true ∧ allZero m.payload 48 16 = true) ∧
      (u64 m.payload 0 ≤ s.cont.config.epoch ∨
  1024 < u16 m.payload 8 ∨
    ¬∀ k < 32,
        u8 m.payload (16 + k) = 255 ∨
          u8 m.payload (16 + k) < 32 ∧
            u8 m.payload (16 + k) ≠ k ∧
              u8 m.payload (16 + u8 m.payload (16 + k)) = k ∧ slice m.payload (64 + 48 * k) 48 ≠ zeroBytes 48)) ∧
    (∃ (s : State) (m : Msg) (x : Session) (r : Code), s.mayActFor m.session = true ∧
      s.Hears m x 1040 m.payload.length ∧
      1600 ≤ m.payload.length ∧
      m.payload.length = 1600 + 8 * u16 m.payload 8 ∧
      (allZero m.payload 10 6 = true ∧ allZero m.payload 48 16 = true) ∧
      s.cont.config.epoch < u64 m.payload 0 ∧
      u16 m.payload 8 ≤ 1024 ∧
      (∀ k < 32,
  u8 m.payload (16 + k) = 255 ∨
    u8 m.payload (16 + k) < 32 ∧
      u8 m.payload (16 + k) ≠ k ∧
        u8 m.payload (16 + u8 m.payload (16 + k)) = k ∧ slice m.payload (64 + 48 * k) 48 ≠ zeroBytes 48) ∧
      s.configWritesRefusal []
    (List.map
      (fun i =>
        { addr := u32 m.payload (1600 + 8 * i), mask := 4294967295, value := BitVec.ofNat 32 (u32 m.payload (1604 + 8 * i)) : RegWrite })
      (List.range (u16 m.payload 8))) =
  some r) ∧
    (∃ (s : State) (m : Msg) (x : Session), s.mayActFor m.session = true ∧
      s.Hears m x 1040 m.payload.length ∧
      1600 ≤ m.payload.length ∧
      m.payload.length = 1600 + 8 * u16 m.payload 8 ∧
      (allZero m.payload 10 6 = true ∧ allZero m.payload 48 16 = true) ∧
      s.cont.config.epoch < u64 m.payload 0 ∧
      u16 m.payload 8 ≤ 1024 ∧
      (∀ k < 32,
  u8 m.payload (16 + k) = 255 ∨
    u8 m.payload (16 + k) < 32 ∧
      u8 m.payload (16 + k) ≠ k ∧
        u8 m.payload (16 + u8 m.payload (16 + k)) = k ∧ slice m.payload (64 + 48 * k) 48 ≠ zeroBytes 48) ∧
      s.configWritesRefusal []
    (List.map
      (fun i =>
        { addr := u32 m.payload (1600 + 8 * i), mask := 4294967295, value := BitVec.ofNat 32 (u32 m.payload (1604 + 8 * i)) : RegWrite })
      (List.range (u16 m.payload 8))) =
  none) ∧
    (∃ (s : State) (m : Msg) (x : Session), s.mayActFor m.session = true ∧
      s.Hears m x 1041 32 ∧
      allZero m.payload 8 24 = false) ∧
    (∃ (s : State) (m : Msg) (x : Session), s.mayActFor m.session = true ∧
      s.Hears m x 1041 32 ∧
      allZero m.payload 8 24 = true ∧
      (∀ (y : StagedConfig), s.cont.staged = some y → u64 m.payload 0 ≠ y.epoch)) ∧
    (∃ (s : State) (m : Msg) (x : Session) (y : StagedConfig), s.mayActFor m.session = true ∧
      s.Hears m x 1041 32 ∧
      allZero m.payload 8 24 = true ∧
      s.cont.staged = some y ∧
      u64 m.payload 0 = y.epoch ∧
      (¬(s.twinState ≠ 2 ∧ s.twinState ≠ 4 ∧ s.rget Fld.FWU_STATE_STATE < 3 ∧ s.cont.activating = none))) ∧
    (∃ (s : State) (m : Msg) (x : Session) (y : StagedConfig), s.mayActFor m.session = true ∧
      s.Hears m x 1041 32 ∧
      allZero m.payload 8 24 = true ∧
      s.cont.staged = some y ∧
      u64 m.payload 0 = y.epoch ∧
      (s.twinState ≠ 2 ∧ s.twinState ≠ 4 ∧ s.rget Fld.FWU_STATE_STATE < 3 ∧ s.cont.activating = none) ∧
      s.srv.batch ≠ none) ∧
    (∃ (s : State) (m : Msg) (x : Session) (y : StagedConfig), s.mayActFor m.session = true ∧
      s.Hears m x 1041 32 ∧
      allZero m.payload 8 24 = true ∧
      s.cont.staged = some y ∧
      u64 m.payload 0 = y.epoch ∧
      (s.twinState ≠ 2 ∧ s.twinState ≠ 4 ∧ s.rget Fld.FWU_STATE_STATE < 3 ∧ s.cont.activating = none) ∧
      s.srv.batch = none ∧
      s.mayAct = true ∧
      y.writes = [] ∧
      s.mySlot.bind (pairOf y.pairs) = none) ∧
    (∃ (s : State), s.supActs = false) ∧
    (∃ (s : State) (k : Nat) (y : Session), s.supActs = true ∧
      (s.sessionsOfRole fun x => x == 4) = [k] ∧
      s.session k = some y) :=
  ⟨⟨ConfigurationAndHeartbeat.state1, aMsg 4 [], aSession 4, by decide, hears_of (by decide), by decide⟩,
   ⟨ConfigurationAndHeartbeat.state1, ConfigurationAndHeartbeat.aConfig 6 [(10, [1])], aSession 4, by decide, hears_of (by decide), by decide, by decide, by decide⟩,
   ⟨ConfigurationAndHeartbeat.state1, ConfigurationAndHeartbeat.aConfig 5 [], aSession 4, by decide, hears_of (by decide), by decide, by decide, by decide, by decide⟩,
   ⟨ConfigurationAndHeartbeat.state1, ConfigurationAndHeartbeat.msg5, aSession 4, Code.E_PARAM, by decide, hears_of (by decide), by decide, by decide, by decide, by decide, by decide, by decide, by decide⟩,
   ⟨ConfigurationAndHeartbeat.state1, ConfigurationAndHeartbeat.aConfig 6 [], aSession 4, by decide, hears_of (by decide), by decide, by decide, by decide, by decide, by decide, by decide, by decide⟩,
   ⟨ConfigurationAndHeartbeat.state1, ConfigurationAndHeartbeat.msg6, aSession 4, by decide, hears_of (by decide), by decide⟩,
   ⟨ConfigurationAndHeartbeat.state1, ConfigurationAndHeartbeat.msg7, aSession 4, by decide, hears_of (by decide), by decide, by decide⟩,
   ⟨ConfigurationAndHeartbeat.state3, ConfigurationAndHeartbeat.msg8, aSession 4, ConfigurationAndHeartbeat.aStaged, by decide, hears_of (by decide), by decide, by decide, by decide, by decide⟩,
   ⟨ConfigurationAndHeartbeat.state2, ConfigurationAndHeartbeat.msg8, aSession 4, ConfigurationAndHeartbeat.aStaged, by decide, hears_of (by decide), by decide, by decide, by decide, by decide, by decide⟩,
   ⟨ConfigurationAndHeartbeat.state1, ConfigurationAndHeartbeat.msg8, aSession 4, ConfigurationAndHeartbeat.aStaged, by decide, hears_of (by decide), by decide, by decide, by decide, by decide, by decide, by decide, by decide, by decide⟩,
   ⟨ConfigurationAndHeartbeat.state4, by decide⟩,
   ⟨ConfigurationAndHeartbeat.state1, 4, aSession 4, by decide, by decide, by decide⟩⟩

-- TrayPullAndFlushRecord.

namespace TrayPullAndFlushRecord
def state1 : State := { serving with cont := { pull := .waitAck } }
def state2 : State := { serving with cont := { pull := .flushed } }
def state3 : State := setFields serving [(Fld.SYS_J1_PS1_FAULT, 1), (Fld.CONT_STATUS_PULL, 1), (Fld.SYS_J1_PS1, 0), (Fld.SYS_J1_PS2, 1)]
end TrayPullAndFlushRecord
theorem witness_TrayPullAndFlushRecord :
    (∃ (s : State), (s.supActs = false ∨ s.cont.pull = PullStep.flushed ∨ s.cont.pull = PullStep.held)) ∧
    (∃ (s : State), s.supActs = true ∧
      (s.cont.pull = PullStep.none ∨ s.cont.pull = PullStep.waitAck)) ∧
    (∃ (s : State) (k : Nat), (2 ≤ k ∨ s.boot.down = true)) ∧
    (∃ (s : State) (k : Nat), k < 2 ∧
      s.boot.down = false ∧
      (s.rget (if k = 0 then Fld.SYS_J1_PS1_FAULT else Fld.SYS_J1_PS2_FAULT) = 1)) ∧
    (∃ (s : State) (k : Nat), k < 2 ∧
      s.boot.down = false ∧
      (s.rget (if k = 0 then Fld.SYS_J1_PS1_FAULT else Fld.SYS_J1_PS2_FAULT) = 0) ∧
      s.cont.pull = PullStep.none) ∧
    (∃ (s : State), (s.cont.pull ≠ PullStep.waitAck ∨ s.boot.down = true)) ∧
    (∃ (s : State), s.cont.pull = PullStep.waitAck ∧
      s.boot.down = false) ∧
    (∃ (s : State), (s.cont.pull ≠ PullStep.flushed ∨ s.boot.down = true)) ∧
    (∃ (s : State), s.cont.pull = PullStep.flushed ∧
      s.boot.down = false) ∧
    (∃ (s : State), (s.pulling = false ∨ s.rget Fld.SYS_J1_PS1 = s.rget Fld.SYS_J1_PS2)) ∧
    (∃ (s : State) (k : Nat), k < 2 ∧
      s.pulling = true ∧
      (s.rget (if k = 0 then Fld.SYS_J1_PS1 else Fld.SYS_J1_PS2) = 0) ∧
      (s.rget (if 1 - k = 0 then Fld.SYS_J1_PS1 else Fld.SYS_J1_PS2) = 1)) ∧
    (∃ (s : State), s.pulling = false) :=
  ⟨⟨TrayPullAndFlushRecord.state2, by decide⟩,
   ⟨TrayPullAndFlushRecord.state1, by decide, by decide⟩,
   ⟨TrayPullAndFlushRecord.state1, 2, by decide⟩,
   ⟨TrayPullAndFlushRecord.state3, 0, by decide, by decide, by decide⟩,
   ⟨TrayPullAndFlushRecord.state3, 1, by decide, by decide, by decide, by decide⟩,
   ⟨TrayPullAndFlushRecord.state2, by decide⟩,
   ⟨TrayPullAndFlushRecord.state1, by decide, by decide⟩,
   ⟨TrayPullAndFlushRecord.state1, by decide⟩,
   ⟨TrayPullAndFlushRecord.state2, by decide, by decide⟩,
   ⟨TrayPullAndFlushRecord.state1, by decide⟩,
   ⟨TrayPullAndFlushRecord.state3, 0, by decide, by decide, by decide, by decide⟩,
   ⟨TrayPullAndFlushRecord.state1, by decide⟩⟩

-- AttestationTenantsAndDebug.

namespace AttestationTenantsAndDebug
def paired (s : State) : State := setFields { s with cont := { s.cont with config := { pairs := [1, 0], identities := [[9], [1, 2, 3]], epoch := 3 } } } [(Fld.SYS_STRAPS_PARITY_OK, 1), (Fld.SYS_STRAPS_SLOT, 0)]
def asking (flags : Nat) : Msg := aMsg 4 (bytes 64 [(32, [BitVec.ofNat 8 flags])])
/-- A TENANT_SWITCH payload of one rack controller and no enrolment entry, with bytes of its own. -/
def switching (l : List (Nat × List Byte)) : Msg := aMsg 4 (bytes 5264 ([(0, [1]), (3, [1])] ++ l))
def aRun (step : Nat) : SwitchRun := { step := step, reply := ⟨4, 2, 77⟩, number := 1, newOwner := none, firstOwner := none, enrolment := { rack := [], cartridges := [], tenant := [], isEmpty := true, entries := [], digest := [] } }
def state2 : State := setFields { serving with net := { serving.net with sessions := [(4, { aSession 4 with wantsProtected := true })] } } [(Fld.CONT_STATUS_TWIN, 2)]
def state3 : State := setFields serving [(Fld.SEC_TRNG_FAIL, 1)]
def state4 : State := { serving with fwu := { stopped := some 3 } }
def state5 : State := setFields serving [(Fld.FWU_STATE_STATE, 3)]
def state6 : State := { serving with sec := { switch := some (aRun 2) } }
def state7 : State := { serving with sec := { switch := some (aRun 6) } }
def state8 : State := { serving with fwu := { resetDue := true } }
def state9 : State := { serving with boot := { step := 2 } }
def session2 : Session := { aSession 4 with wantsProtected := true }
end AttestationTenantsAndDebug
theorem witness_AttestationTenantsAndDebug :
    (∃ (s : State) (m : Msg) (x : Session), s.leftToTwin m = true ∧
      s.session m.session = some x) ∧
    (∃ (s : State) (m : Msg), s.leftToTwin m = false ∧
      (s.mayActFor m.session = false ∨ s.rget Fld.SEC_TRNG_FAIL = 1 ∨ Option.any (fun x => x.step == 6) s.sec.switch = true)) ∧
    (∃ (s : State) (m : Msg) (x : Session), s.leftToTwin m = false ∧
      s.mayActFor m.session = true ∧
      s.rget Fld.SEC_TRNG_FAIL = 0 ∧
      Option.any (fun x => x.step == 6) s.sec.switch = false ∧
      s.Hears m x 1536 64 ∧
      (4 ≤ u8 m.payload 32 ∨ allZero m.payload 33 31 = false)) ∧
    (∃ (s : State) (m : Msg) (x : Session), s.leftToTwin m = false ∧
      s.mayActFor m.session = true ∧
      s.rget Fld.SEC_TRNG_FAIL = 0 ∧
      Option.any (fun x => x.step == 6) s.sec.switch = false ∧
      s.Hears m x 1536 64 ∧
      u8 m.payload 32 < 4 ∧
      allZero m.payload 33 31 = true ∧
      s.fwu.stopped ≠ none) ∧
    (∃ (s : State) (m : Msg) (x : Session), s.leftToTwin m = false ∧
      s.mayActFor m.session = true ∧
      s.rget Fld.SEC_TRNG_FAIL = 0 ∧
      Option.any (fun x => x.step == 6) s.sec.switch = false ∧
      s.Hears m x 1536 64 ∧
      u8 m.payload 32 < 4 ∧
      allZero m.payload 33 31 = true ∧
      s.fwu.stopped = none) ∧
    (∃ (s : State) (m : Msg) (x : Session), s.mayActFor m.session = true ∧
      s.Hears m x 1538 5264 ∧
      (3 ≤ s.rget Fld.FWU_STATE_STATE ∨ s.sec.switch ≠ none)) ∧
    (∃ (s : State) (m : Msg) (x : Session), s.mayActFor m.session = true ∧
      s.Hears m x 1538 5264 ∧
      (¬(3 ≤ s.rget Fld.FWU_STATE_STATE ∨ s.sec.switch ≠ none)) ∧
      switchReservedOk m.payload = false) ∧
    (∃ (s : State) (m : Msg) (x : Session), s.mayActFor m.session = true ∧
      s.Hears m x 1538 5264 ∧
      (¬(3 ≤ s.rget Fld.FWU_STATE_STATE ∨ s.sec.switch ≠ none)) ∧
      switchReservedOk m.payload = true ∧
      switchRangeOk m.payload = false) ∧
    (∃ (s : State) (m : Msg) (x : Session), s.mayActFor m.session = true ∧
      s.Hears m x 1538 5264 ∧
      (¬(3 ≤ s.rget Fld.FWU_STATE_STATE ∨ s.sec.switch ≠ none)) ∧
      (switchReservedOk m.payload = true ∧ switchRangeOk m.payload = true)) ∧
    (∃ (s : State), Option.any (fun x => x.step == 2) s.sec.switch = false) ∧
    (∃ (s : State) (r : SwitchRun), s.sec.switch = some r ∧
      r.step = 2) ∧
    (∃ (s : State), Option.any (fun x => x.step == 6) s.sec.switch = false ∧
      s.fwu.resetDue = false) ∧
    (∃ (s : State), Option.any (fun x => x.step == 6) s.sec.switch = true ∧
      s.rget Fld.FWU_STATE_STATE < 3) ∧
    (∃ (s : State), Option.any (fun x => x.step == 6) s.sec.switch = false ∧
      s.fwu.resetDue = true ∧
      s.rget Fld.FWU_STATE_STATE < 3) ∧
    (∃ (s : State), (s.boot.step ≠ 2 ∨ s.boot.down = true)) ∧
    (∃ (s : State), s.boot.step = 2 ∧
      s.boot.down = false) :=
  ⟨⟨AttestationTenantsAndDebug.state2, AttestationTenantsAndDebug.asking 0, AttestationTenantsAndDebug.session2, by decide, by decide⟩,
   ⟨AttestationTenantsAndDebug.state3, AttestationTenantsAndDebug.asking 0, by decide, by decide⟩,
   ⟨serving, AttestationTenantsAndDebug.asking 9, aSession 4, by decide, by decide, by decide, by decide, hears_of (by decide), by decide⟩,
   ⟨AttestationTenantsAndDebug.state4, AttestationTenantsAndDebug.asking 0, aSession 4, by decide, by decide, by decide, by decide, hears_of (by decide), by decide, by decide, by decide⟩,
   ⟨serving, AttestationTenantsAndDebug.asking 0, aSession 4, by decide, by decide, by decide, by decide, hears_of (by decide), by decide, by decide, by decide⟩,
   ⟨AttestationTenantsAndDebug.state5, AttestationTenantsAndDebug.switching [], aSession 4, by decide, hears_of (by decide), by decide⟩,
   ⟨serving, AttestationTenantsAndDebug.switching [(6, [1])], aSession 4, by decide, hears_of (by decide), by decide, by decide⟩,
   ⟨serving, AttestationTenantsAndDebug.switching [(3, [9])], aSession 4, by decide, hears_of (by decide), by decide, by decide, by decide⟩,
   ⟨serving, AttestationTenantsAndDebug.switching [], aSession 4, by decide, hears_of (by decide), by decide, by decide⟩,
   ⟨serving, by decide⟩,
   ⟨AttestationTenantsAndDebug.state6, AttestationTenantsAndDebug.aRun 2, by decide, by decide⟩,
   ⟨serving, by decide, by decide⟩,
   ⟨AttestationTenantsAndDebug.state7, by decide, by decide⟩,
   ⟨AttestationTenantsAndDebug.state8, by decide, by decide, by decide⟩,
   ⟨serving, by decide⟩,
   ⟨AttestationTenantsAndDebug.state9, by decide, by decide⟩⟩

-- FirmwareUpdate.

namespace FirmwareUpdate
def image (c v : Nat) : FwImage := { component := c, version := v, security := 2, measurement := [BitVec.ofNat 8 c] }
def package (l : List Nat) : FwPackage := { digest := zeroBytes 48, security := 2, images := l.map (image · 9) }
def withFwu (f : FwuState) (state : Nat) : State := setFields { serving with fwu := f } [(Fld.FWU_STATE_STATE, state)]
def state3 : State := withFwu { length := 65540, blockSize := 65536, blocks := [(65536, [1, 2, 3, 4])] } 1
def state4 : State := withFwu { length := 4, blockSize := 65536 } 1
def state5 : State := withFwu { length := 4, blockSize := 65536, writing := some (package [3]) } 1
def state6 : State := withFwu { staged := some (package [3, 4]) } 2
def state7 : State := withFwu { staged := some (package [1]) } 2
def state8 : State := withFwu { staged := some (package [3]) } 4
def state9 : State := withFwu { staged := some (package [3]), resetDue := true } 2
def state10 : State := withFwu { staged := some (package [3]) } 1
def state11 : State := withFwu { staged := some (package [3, 6]), stopped := some 3 } 3
def state12 : State := withFwu { staged := some (package [3]), stopped := some 5 } 3
def state13 : State := withFwu { stopped := some 2 } 3
def state14 : State := { withFwu {} 0 with net := { sessions := [(4, { aSession 4 with paths := [aPath 0 2 .a] })] } }
def state15 : State := { withFwu { stopped := some 6 } 3 with srv := { batch := some aBatch } }
def msg2 : Msg := aMsg 4 (bytes 64 [(0, leBytes 8 67108864), (8, leBytes 4 1048576)])
def msg3 : Msg := aMsg 4 (bytes 64 [(0, leBytes 8 67108865), (8, leBytes 4 65536)])
def msg4 : Msg := aMsg 4 (bytes 64 [(12, [1])])
def msg6 : Msg := aMsg 4 (bytes 36 [(8, leBytes 4 4)])
def msg7 : Msg := aMsg 4 (bytes 36 [(0, leBytes 8 65536), (8, leBytes 4 4)])
def msg8 : Msg := aMsg 4 (bytes 36 [(8, leBytes 4 4), (12, [1])])
def msg9 : Msg := aMsg 4 (bytes 36 [(8, leBytes 4 5)])
def msg10 : Msg := aMsg 4 (bytes 64 [(0, [1])])
def msg11 : Msg := aMsg 4 (bytes 64 [(0, [2])])
def msg12 : Msg := aMsg 4 (bytes 64 [(0, [3])])
def msg14 : Msg := aMsg 4 (bytes 64 [(0, [1]), (1, [1])])
def session2 : Session := { aSession 4 with paths := [aPath 0 2 .a] }
end FirmwareUpdate
theorem witness_FirmwareUpdate :
    (∃ (s : State) (m : Msg) (x : Session), s.mayActFor m.session = true ∧
      s.Hears m x 1792 64 ∧
      (∃ q ∈ x.paths, 2 ≤ q.port)) ∧
    (∃ (s : State) (m : Msg) (x : Session), (s.mayActFor m.session = true ∧ s.Hears m x 1792 64 ∧ ∀ q ∈ x.paths, q.port < 2) ∧
      3 ≤ s.rget Fld.FWU_STATE_STATE) ∧
    (∃ (s : State) (m : Msg) (x : Session), (s.mayActFor m.session = true ∧ s.Hears m x 1792 64 ∧ ∀ q ∈ x.paths, q.port < 2) ∧
      s.rget Fld.FWU_STATE_STATE < 3 ∧
      allZero m.payload 12 4 = false) ∧
    (∃ (s : State) (m : Msg) (x : Session), (s.mayActFor m.session = true ∧ s.Hears m x 1792 64 ∧ ∀ q ∈ x.paths, q.port < 2) ∧
      s.rget Fld.FWU_STATE_STATE < 3 ∧
      allZero m.payload 12 4 = true ∧
      (¬(1024 ≤ u64 m.payload 0 ∧ u64 m.payload 0 ≤ 67108864 ∧ u32 m.payload 8 ∈ [65536, 131072, 262144, 524288, 1048576]))) ∧
    (∃ (s : State) (m : Msg) (x : Session), (s.mayActFor m.session = true ∧ s.Hears m x 1792 64 ∧ ∀ q ∈ x.paths, q.port < 2) ∧
      s.rget Fld.FWU_STATE_STATE < 3 ∧
      allZero m.payload 12 4 = true ∧
      (1024 ≤ u64 m.payload 0 ∧ u64 m.payload 0 ≤ 67108864 ∧ u32 m.payload 8 ∈ [65536, 131072, 262144, 524288, 1048576])) ∧
    (∃ (s : State) (m : Msg) (x : Session), (s.mayActFor m.session = true ∧ s.Hears m x 1793 m.payload.length ∧ ∀ q ∈ x.paths, q.port < 2) ∧
      m.payload.length ≠ 32 + u32 m.payload 8) ∧
    (∃ (s : State) (m : Msg) (x : Session), (s.mayActFor m.session = true ∧ s.Hears m x 1793 m.payload.length ∧ ∀ q ∈ x.paths, q.port < 2) ∧
      m.payload.length = 32 + u32 m.payload 8 ∧
      allZero m.payload 12 20 = false) ∧
    (∃ (s : State) (m : Msg) (x : Session), (s.mayActFor m.session = true ∧ s.Hears m x 1793 m.payload.length ∧ ∀ q ∈ x.paths, q.port < 2) ∧
      m.payload.length = 32 + u32 m.payload 8 ∧
      allZero m.payload 12 20 = true ∧
      (¬(s.rget Fld.FWU_STATE_STATE = 1 ∧
    u64 m.payload 0 % s.fwu.blockSize = 0 ∧
      u64 m.payload 0 < s.fwu.length ∧ u32 m.payload 8 = min s.fwu.blockSize (s.fwu.length - u64 m.payload 0)))) ∧
    (∃ (s : State) (m : Msg) (x : Session) (d : List Byte), (s.mayActFor m.session = true ∧ s.Hears m x 1793 m.payload.length ∧ ∀ q ∈ x.paths, q.port < 2) ∧
      m.payload.length = 32 + u32 m.payload 8 ∧
      allZero m.payload 12 20 = true ∧
      (s.rget Fld.FWU_STATE_STATE = 1 ∧
  u64 m.payload 0 % s.fwu.blockSize = 0 ∧
    u64 m.payload 0 < s.fwu.length ∧ u32 m.payload 8 = min s.fwu.blockSize (s.fwu.length - u64 m.payload 0)) ∧
      s.fwu.blocks.fetch (u64 m.payload 0) = some d) ∧
    (∃ (s : State) (m : Msg) (x : Session), (s.mayActFor m.session = true ∧ s.Hears m x 1793 m.payload.length ∧ ∀ q ∈ x.paths, q.port < 2) ∧
      m.payload.length = 32 + u32 m.payload 8 ∧
      allZero m.payload 12 20 = true ∧
      (s.rget Fld.FWU_STATE_STATE = 1 ∧
  u64 m.payload 0 % s.fwu.blockSize = 0 ∧
    u64 m.payload 0 < s.fwu.length ∧ u32 m.payload 8 = min s.fwu.blockSize (s.fwu.length - u64 m.payload 0)) ∧
      s.fwu.blocks.fetch (u64 m.payload 0) = none ∧
      ({ length := s.fwu.length, blockSize := s.fwu.blockSize, digest := s.fwu.digest, blocks := s.fwu.blocks.store (u64 m.payload 0) (List.drop 32 m.payload), writing := s.fwu.writing, staged := s.fwu.staged, running := s.fwu.running, confirmed := s.fwu.confirmed, tryOnce := s.fwu.tryOnce, resetDue := s.fwu.resetDue, stopped := s.fwu.stopped, committed := s.fwu.committed, settings := s.fwu.settings : FwuState }.bytesHeld ≠
    s.fwu.length ∨
  s.fwu.writing ≠ none)) ∧
    (∃ (s : State) (m : Msg) (x : Session), (s.mayActFor m.session = true ∧ s.Hears m x 1793 m.payload.length ∧ ∀ q ∈ x.paths, q.port < 2) ∧
      m.payload.length = 32 + u32 m.payload 8 ∧
      allZero m.payload 12 20 = true ∧
      (s.rget Fld.FWU_STATE_STATE = 1 ∧
  u64 m.payload 0 % s.fwu.blockSize = 0 ∧
    u64 m.payload 0 < s.fwu.length ∧ u32 m.payload 8 = min s.fwu.blockSize (s.fwu.length - u64 m.payload 0)) ∧
      s.fwu.blocks.fetch (u64 m.payload 0) = none ∧
      { length := s.fwu.length, blockSize := s.fwu.blockSize, digest := s.fwu.digest, blocks := s.fwu.blocks.store (u64 m.payload 0) (List.drop 32 m.payload), writing := s.fwu.writing, staged := s.fwu.staged, running := s.fwu.running, confirmed := s.fwu.confirmed, tryOnce := s.fwu.tryOnce, resetDue := s.fwu.resetDue, stopped := s.fwu.stopped, committed := s.fwu.committed, settings := s.fwu.settings : FwuState }.bytesHeld =
  s.fwu.length ∧
      s.fwu.writing = none) ∧
    (∃ (s : State), (s.fwu.writing = none ∨ s.rget Fld.FWU_STATE_STATE ≠ 1)) ∧
    (∃ (s : State) (k : FwPackage), s.fwu.writing = some k ∧
      s.rget Fld.FWU_STATE_STATE = 1) ∧
    (∃ (s : State) (m : Msg) (x : Session), (s.mayActFor m.session = true ∧ s.Hears m x 1795 0 ∧ ∀ q ∈ x.paths, q.port < 2)) ∧
    (∃ (s : State) (m : Msg) (x : Session) (mode : Nat) (i : Instr), (mode, i) ∈ [(1, Instr.fwuActivateLive m), (2, Instr.fwuActivateReset m), (3, Instr.fwuDiscard m)] ∧
      (s.mayActFor m.session = true ∧ s.Hears m x 1794 64 ∧ ∀ q ∈ x.paths, q.port < 2) ∧
      u8 m.payload 0 ≠ mode ∧
      1 ≤ u8 m.payload 0 ∧
      u8 m.payload 0 ≤ 3) ∧
    (∃ (s : State) (m : Msg) (x : Session) (mode : Nat) (i : Instr), (mode, i) ∈ [(1, Instr.fwuActivateLive m), (2, Instr.fwuActivateReset m), (3, Instr.fwuDiscard m)] ∧
      (s.mayActFor m.session = true ∧ s.Hears m x 1794 64 ∧ ∀ q ∈ x.paths, q.port < 2) ∧
      (u8 m.payload 0 = 0 ∨
  3 < u8 m.payload 0 ∨ u8 m.payload 0 = mode ∧ (allZero m.payload 1 7 = false ∨ allZero m.payload 56 8 = false))) ∧
    (∃ (s : State) (m : Msg) (x : Session) (mode : Nat) (i : Instr), (mode, i) ∈ [(1, Instr.fwuActivateLive m), (2, Instr.fwuActivateReset m), (3, Instr.fwuDiscard m)] ∧
      (s.mayActFor m.session = true ∧ s.Hears m x 1794 64 ∧ ∀ q ∈ x.paths, q.port < 2) ∧
      u8 m.payload 0 = mode ∧
      allZero m.payload 1 7 = true ∧
      allZero m.payload 56 8 = true ∧
      (s.fwu.staged = none ∨ (∃ k, s.fwu.staged = some k ∧ slice m.payload 8 48 ≠ k.digest) ∨ s.twinSlot ≠ none)) ∧
    (∃ (s : State) (m : Msg) (x : Session) (mode : Nat) (i : Instr) (k : FwPackage), (mode, i) ∈ [(1, Instr.fwuActivateLive m), (2, Instr.fwuActivateReset m), (3, Instr.fwuDiscard m)] ∧
      (s.mayActFor m.session = true ∧ s.Hears m x 1794 64 ∧ ∀ q ∈ x.paths, q.port < 2) ∧
      u8 m.payload 0 = mode ∧
      allZero m.payload 1 7 = true ∧
      allZero m.payload 56 8 = true ∧
      s.fwu.staged = some k ∧
      slice m.payload 8 48 = k.digest ∧
      s.twinSlot = none ∧
      mode = 1 ∧
      (∃ g ∈ k.images, g.component = 1)) ∧
    (∃ (s : State) (m : Msg) (x : Session) (mode : Nat) (i : Instr) (k : FwPackage), (mode, i) ∈ [(1, Instr.fwuActivateLive m), (2, Instr.fwuActivateReset m), (3, Instr.fwuDiscard m)] ∧
      (s.mayActFor m.session = true ∧ s.Hears m x 1794 64 ∧ ∀ q ∈ x.paths, q.port < 2) ∧
      u8 m.payload 0 = mode ∧
      allZero m.payload 1 7 = true ∧
      allZero m.payload 56 8 = true ∧
      s.fwu.staged = some k ∧
      slice m.payload 8 48 = k.digest ∧
      s.twinSlot = none ∧
      mode = 1 ∧
      (∀ g ∈ k.images, g.component ≠ 1) ∧
      (s.rget Fld.FWU_STATE_STATE ≠ 2 ∨ s.fwu.resetDue = true)) ∧
    (∃ (s : State) (m : Msg) (x : Session) (mode : Nat) (i : Instr) (k : FwPackage), (mode, i) ∈ [(1, Instr.fwuActivateLive m), (2, Instr.fwuActivateReset m), (3, Instr.fwuDiscard m)] ∧
      (s.mayActFor m.session = true ∧ s.Hears m x 1794 64 ∧ ∀ q ∈ x.paths, q.port < 2) ∧
      u8 m.payload 0 = mode ∧
      allZero m.payload 1 7 = true ∧
      allZero m.payload 56 8 = true ∧
      s.fwu.staged = some k ∧
      slice m.payload 8 48 = k.digest ∧
      s.twinSlot = none ∧
      mode = 1 ∧
      (∀ g ∈ k.images, g.component ≠ 1) ∧
      s.rget Fld.FWU_STATE_STATE = 2 ∧
      s.fwu.resetDue = false) ∧
    (∃ (s : State) (m : Msg) (x : Session) (mode : Nat) (i : Instr) (k : FwPackage), (mode, i) ∈ [(1, Instr.fwuActivateLive m), (2, Instr.fwuActivateReset m), (3, Instr.fwuDiscard m)] ∧
      (s.mayActFor m.session = true ∧ s.Hears m x 1794 64 ∧ ∀ q ∈ x.paths, q.port < 2) ∧
      u8 m.payload 0 = mode ∧
      allZero m.payload 1 7 = true ∧
      allZero m.payload 56 8 = true ∧
      s.fwu.staged = some k ∧
      slice m.payload 8 48 = k.digest ∧
      s.twinSlot = none ∧
      mode = 2 ∧
      (s.rget Fld.FWU_STATE_STATE ≠ 2 ∨ s.fwu.resetDue = true)) ∧
    (∃ (s : State) (m : Msg) (x : Session) (mode : Nat) (i : Instr) (k : FwPackage), (mode, i) ∈ [(1, Instr.fwuActivateLive m), (2, Instr.fwuActivateReset m), (3, Instr.fwuDiscard m)] ∧
      (s.mayActFor m.session = true ∧ s.Hears m x 1794 64 ∧ ∀ q ∈ x.paths, q.port < 2) ∧
      u8 m.payload 0 = mode ∧
      allZero m.payload 1 7 = true ∧
      allZero m.payload 56 8 = true ∧
      s.fwu.staged = some k ∧
      slice m.payload 8 48 = k.digest ∧
      s.twinSlot = none ∧
      mode = 2 ∧
      s.rget Fld.FWU_STATE_STATE = 2 ∧
      s.fwu.resetDue = false) ∧
    (∃ (s : State) (m : Msg) (x : Session) (mode : Nat) (i : Instr) (k : FwPackage), (mode, i) ∈ [(1, Instr.fwuActivateLive m), (2, Instr.fwuActivateReset m), (3, Instr.fwuDiscard m)] ∧
      (s.mayActFor m.session = true ∧ s.Hears m x 1794 64 ∧ ∀ q ∈ x.paths, q.port < 2) ∧
      u8 m.payload 0 = mode ∧
      allZero m.payload 1 7 = true ∧
      allZero m.payload 56 8 = true ∧
      s.fwu.staged = some k ∧
      slice m.payload 8 48 = k.digest ∧
      s.twinSlot = none ∧
      mode = 3 ∧
      s.rget Fld.FWU_STATE_STATE = 2) ∧
    (∃ (s : State) (m : Msg) (x : Session) (mode : Nat) (i : Instr) (k : FwPackage), (mode, i) ∈ [(1, Instr.fwuActivateLive m), (2, Instr.fwuActivateReset m), (3, Instr.fwuDiscard m)] ∧
      (s.mayActFor m.session = true ∧ s.Hears m x 1794 64 ∧ ∀ q ∈ x.paths, q.port < 2) ∧
      u8 m.payload 0 = mode ∧
      allZero m.payload 1 7 = true ∧
      allZero m.payload 56 8 = true ∧
      s.fwu.staged = some k ∧
      slice m.payload 8 48 = k.digest ∧
      s.twinSlot = none ∧
      mode = 3 ∧
      (s.rget Fld.FWU_STATE_STATE = 3 ∨ s.rget Fld.FWU_STATE_STATE = 4)) ∧
    (∃ (s : State) (m : Msg) (x : Session) (mode : Nat) (i : Instr) (k : FwPackage), (mode, i) ∈ [(1, Instr.fwuActivateLive m), (2, Instr.fwuActivateReset m), (3, Instr.fwuDiscard m)] ∧
      (s.mayActFor m.session = true ∧ s.Hears m x 1794 64 ∧ ∀ q ∈ x.paths, q.port < 2) ∧
      u8 m.payload 0 = mode ∧
      allZero m.payload 1 7 = true ∧
      allZero m.payload 56 8 = true ∧
      s.fwu.staged = some k ∧
      slice m.payload 8 48 = k.digest ∧
      s.twinSlot = none ∧
      mode = 3 ∧
      (s.rget Fld.FWU_STATE_STATE < 2 ∨ 4 < s.rget Fld.FWU_STATE_STATE)) ∧
    (∃ (s : State), (s.fwu.stopped = none ∨ s.fwu.staged = none ∨ s.rget Fld.FWU_STATE_STATE ≠ 3)) ∧
    (∃ (s : State) (c : Nat) (g : FwImage), s.fwu.stopped = some c ∧
      s.fwu.staged ≠ none ∧
      s.rget Fld.FWU_STATE_STATE = 3 ∧
      List.find? (fun x => x.component == c) ((Option.map (fun x => x.images) s.fwu.staged).getD []) = some g ∧
      s.newImageRuns c = true ∧
      s.sec.held = [] ∧
      c < s.sec.meas.length) ∧
    (∃ (s : State) (c : Nat), s.fwu.stopped = some c ∧
      s.newImageRuns c = false) ∧
    (∃ (s : State), (s.fwu.stopped = none ∨ s.rget Fld.FWU_STATE_STATE ≠ 3)) ∧
    (∃ (s : State), s.fwu.stopped ≠ none ∧
      s.rget Fld.FWU_STATE_STATE = 3) ∧
    (∃ (s : State), (s.rget Fld.FWU_STATE_STATE < 3 ∨ 5 < s.rget Fld.FWU_STATE_STATE)) ∧
    (∃ (s : State), 3 ≤ s.rget Fld.FWU_STATE_STATE ∧
      s.rget Fld.FWU_STATE_STATE ≤ 5) ∧
    (∃ (s : State), (s.fwu.staged = none ∨ s.rget Fld.FWU_STATE_STATE ≠ 4)) ∧
    (∃ (s : State) (k : FwPackage), s.fwu.staged = some k ∧
      s.rget Fld.FWU_STATE_STATE = 4 ∧
      k.security < 2 ^ 16) :=
  ⟨⟨FirmwareUpdate.state14, FirmwareUpdate.msg2, FirmwareUpdate.session2, by decide, hears_of (by decide), by decide⟩,
   ⟨FirmwareUpdate.withFwu { : FwuState } 3, FirmwareUpdate.msg2, aSession 4, ⟨by decide, ⟨hears_of (by decide), by decide⟩⟩, by decide⟩,
   ⟨FirmwareUpdate.withFwu { : FwuState } 0, FirmwareUpdate.msg4, aSession 4, ⟨by decide, ⟨hears_of (by decide), by decide⟩⟩, by decide, by decide⟩,
   ⟨FirmwareUpdate.withFwu { : FwuState } 0, FirmwareUpdate.msg3, aSession 4, ⟨by decide, ⟨hears_of (by decide), by decide⟩⟩, by decide, by decide, by decide⟩,
   ⟨FirmwareUpdate.withFwu { : FwuState } 0, FirmwareUpdate.msg2, aSession 4, ⟨by decide, ⟨hears_of (by decide), by decide⟩⟩, by decide, by decide, by decide⟩,
   ⟨FirmwareUpdate.withFwu { : FwuState } 0, aMsg 4 [], aSession 4, ⟨by decide, ⟨hears_of (by decide), by decide⟩⟩, by decide⟩,
   ⟨FirmwareUpdate.withFwu { : FwuState } 0, FirmwareUpdate.msg8, aSession 4, ⟨by decide, ⟨hears_of (by decide), by decide⟩⟩, by decide, by decide⟩,
   ⟨FirmwareUpdate.withFwu { : FwuState } 0, FirmwareUpdate.msg6, aSession 4, ⟨by decide, ⟨hears_of (by decide), by decide⟩⟩, by decide, by decide, by decide⟩,
   ⟨FirmwareUpdate.state3, FirmwareUpdate.msg7, aSession 4, [1, 2, 3, 4], ⟨by decide, ⟨hears_of (by decide), by decide⟩⟩, by decide, by decide, by decide, by decide⟩,
   ⟨FirmwareUpdate.state5, FirmwareUpdate.msg6, aSession 4, ⟨by decide, ⟨hears_of (by decide), by decide⟩⟩, by decide, by decide, by decide, by decide, by decide⟩,
   ⟨FirmwareUpdate.state4, FirmwareUpdate.msg6, aSession 4, ⟨by decide, ⟨hears_of (by decide), by decide⟩⟩, by decide, by decide, by decide, by decide, by decide, by decide⟩,
   ⟨FirmwareUpdate.withFwu { : FwuState } 0, by decide⟩,
   ⟨FirmwareUpdate.state5, FirmwareUpdate.package [3], by decide, by decide⟩,
   ⟨FirmwareUpdate.withFwu { : FwuState } 0, aMsg 4 [], aSession 4, ⟨by decide, ⟨hears_of (by decide), by decide⟩⟩⟩,
   ⟨FirmwareUpdate.withFwu { : FwuState } 0, FirmwareUpdate.msg3, aSession 4, 2, Instr.fwuActivateReset FirmwareUpdate.msg3, by decide, ⟨by decide, ⟨hears_of (by decide), by decide⟩⟩, by decide, by decide, by decide⟩,
   ⟨FirmwareUpdate.withFwu { : FwuState } 0, FirmwareUpdate.msg2, aSession 4, 1, Instr.fwuActivateLive FirmwareUpdate.msg2, by decide, ⟨by decide, ⟨hears_of (by decide), by decide⟩⟩, by decide⟩,
   ⟨FirmwareUpdate.withFwu { : FwuState } 0, FirmwareUpdate.msg10, aSession 4, 1, Instr.fwuActivateLive FirmwareUpdate.msg10, by decide, ⟨by decide, ⟨hears_of (by decide), by decide⟩⟩, by decide, by decide, by decide, by decide⟩,
   ⟨FirmwareUpdate.state7, FirmwareUpdate.msg10, aSession 4, 1, Instr.fwuActivateLive FirmwareUpdate.msg10, FirmwareUpdate.state7.fwu.staged.getD (FirmwareUpdate.package [3]), by decide, ⟨by decide, ⟨hears_of (by decide), by decide⟩⟩, by decide, by decide, by decide, by decide, by decide, by decide, by decide, by decide⟩,
   ⟨FirmwareUpdate.state8, FirmwareUpdate.msg10, aSession 4, 1, Instr.fwuActivateLive FirmwareUpdate.msg10, FirmwareUpdate.package [3], by decide, ⟨by decide, ⟨hears_of (by decide), by decide⟩⟩, by decide, by decide, by decide, by decide, by decide, by decide, by decide, by decide, by decide⟩,
   ⟨FirmwareUpdate.state6, FirmwareUpdate.msg10, aSession 4, 1, Instr.fwuActivateLive FirmwareUpdate.msg10, FirmwareUpdate.state6.fwu.staged.getD (FirmwareUpdate.package [3]), by decide, ⟨by decide, ⟨hears_of (by decide), by decide⟩⟩, by decide, by decide, by decide, by decide, by decide, by decide, by decide, by decide, by decide, by decide⟩,
   ⟨FirmwareUpdate.state8, FirmwareUpdate.msg11, aSession 4, 2, Instr.fwuActivateReset FirmwareUpdate.msg11, FirmwareUpdate.package [3], by decide, ⟨by decide, ⟨hears_of (by decide), by decide⟩⟩, by decide, by decide, by decide, by decide, by decide, by decide, by decide, by decide⟩,
   ⟨FirmwareUpdate.state6, FirmwareUpdate.msg11, aSession 4, 2, Instr.fwuActivateReset FirmwareUpdate.msg11, FirmwareUpdate.state6.fwu.staged.getD (FirmwareUpdate.package [3]), by decide, ⟨by decide, ⟨hears_of (by decide), by decide⟩⟩, by decide, by decide, by decide, by decide, by decide, by decide, by decide, by decide, by decide⟩,
   ⟨FirmwareUpdate.state6, FirmwareUpdate.msg12, aSession 4, 3, Instr.fwuDiscard FirmwareUpdate.msg12, FirmwareUpdate.state6.fwu.staged.getD (FirmwareUpdate.package [3]), by decide, ⟨by decide, ⟨hears_of (by decide), by decide⟩⟩, by decide, by decide, by decide, by decide, by decide, by decide, by decide, by decide⟩,
   ⟨FirmwareUpdate.state8, FirmwareUpdate.msg12, aSession 4, 3, Instr.fwuDiscard FirmwareUpdate.msg12, FirmwareUpdate.package [3], by decide, ⟨by decide, ⟨hears_of (by decide), by decide⟩⟩, by decide, by decide, by decide, by decide, by decide, by decide, by decide, by decide⟩,
   ⟨FirmwareUpdate.state10, FirmwareUpdate.msg12, aSession 4, 3, Instr.fwuDiscard FirmwareUpdate.msg12, FirmwareUpdate.package [3], by decide, ⟨by decide, ⟨hears_of (by decide), by decide⟩⟩, by decide, by decide, by decide, by decide, by decide, by decide, by decide, by decide⟩,
   ⟨FirmwareUpdate.withFwu { : FwuState } 0, by decide⟩,
   ⟨FirmwareUpdate.state11, 3, FirmwareUpdate.image 3 9, by decide, by decide, by decide, by decide, by decide, by decide, by decide⟩,
   ⟨FirmwareUpdate.state15, 6, by decide, by decide⟩,
   ⟨FirmwareUpdate.withFwu { : FwuState } 0, by decide⟩,
   ⟨FirmwareUpdate.state11, by decide, by decide⟩,
   ⟨FirmwareUpdate.withFwu { : FwuState } 0, by decide⟩,
   ⟨FirmwareUpdate.withFwu { : FwuState } 3, by decide, by decide⟩,
   ⟨FirmwareUpdate.withFwu { : FwuState } 0, by decide⟩,
   ⟨FirmwareUpdate.state8, FirmwareUpdate.package [3], by decide, by decide, by decide⟩⟩

-- StartUpAndSelfTest.

namespace StartUpAndSelfTest
def atStep (n : Nat) (due : List (Nat × Nat)) : State := { serving with boot := { step := n, due := due } }
def aSliceReport : SliceReport := { ok := true, repaired := false, failed := [], cols := [], a := List.replicate 48 (some 40), b := List.replicate 48 (some 40) }
def state12 : State := { serving with boot := { step := 11, down := true } }
def state13 : State := { serving with cont := { feA := { state := .up }, supB := .standby } }
def state14 : State := setFields serving [(Fld.BIST_RT_EN, 1), (Fld.BIST_STATUS_DONE, 1)]
def msg3 : Msg := aMsg 1 (bytes 32 [(8, [1])])
end StartUpAndSelfTest
theorem witness_StartUpAndSelfTest :
    (∃ (slots : Nat), slots < 32) ∧
    (∃ (s : State), s.boot.down = false ∧
      s.boot.step = 11 ∧
      s.cont.pull = PullStep.none) ∧
    (∃ (s : State), s.boot.down = false ∧
      s.boot.step ≠ 11) ∧
    (∃ (s : State), (s.boot.down = true ∨ s.boot.due ≠ [] ∨ s.boot.step = 0 ∨ 10 < s.boot.step)) ∧
    (∃ (s : State), s.boot.down = false ∧
      s.boot.due = [] ∧
      s.boot.step = 1) ∧
    (∃ (s : State), s.boot.down = false ∧
      s.boot.due = [] ∧
      s.boot.step = 2) ∧
    (∃ (s : State), s.boot.down = false ∧
      s.boot.due = [] ∧
      s.boot.step = 3) ∧
    (∃ (s : State), s.boot.down = false ∧
      s.boot.due = [] ∧
      s.boot.step = 4) ∧
    (∃ (s : State), s.boot.down = false ∧
      s.boot.due = [] ∧
      s.boot.step = 5) ∧
    (∃ (s : State), s.boot.down = false ∧
      s.boot.due = [] ∧
      s.boot.step = 6) ∧
    (∃ (s : State), s.boot.down = false ∧
      s.boot.due = [] ∧
      s.boot.step = 7) ∧
    (∃ (s : State), s.boot.down = false ∧
      s.boot.due = [] ∧
      s.boot.step = 8) ∧
    (∃ (s : State), s.boot.down = false ∧
      s.boot.due = [] ∧
      s.boot.step = 9) ∧
    (∃ (s : State), s.boot.down = false ∧
      s.boot.due = [] ∧
      s.boot.step = 10) ∧
    (∃ (s : State) (k : Nat) (u : Nat) (r : SliceReport) (i : Instr) (late : Bool), (i, late) ∈ [(Instr.sliceEnd k u r, false), (Instr.sliceBudgetExpiry k u r, true)] ∧
      (k, u) ∉ s.boot.due) ∧
    (∃ (s : State) (k : Nat) (u : Nat) (r : SliceReport) (i : Instr) (late : Bool), (i, late) ∈ [(Instr.sliceEnd k u r, false), (Instr.sliceBudgetExpiry k u r, true)] ∧
      (k, u) ∈ s.boot.due ∧
      k < 14) ∧
    (∃ (s : State) (k : Nat), s.regionTested k = false) ∧
    (∃ (s : State) (k : Nat), s.regionTested k = true) ∧
    (∃ (s : State) (m : Msg) (x : Session) (k : Nat) (u : Nat), k < 16 ∧
      u < 8 ∧
      s.session m.session = some x ∧
      x.closing = false ∧
      s.mayActFor m.session = true ∧
      (x.role ≠ 3 ∨ x.wantsProtected = true)) ∧
    (∃ (s : State) (m : Msg) (x : Session) (k : Nat) (u : Nat), k < 16 ∧
      u < 8 ∧
      s.MayWrite m x ∧
      ¬((k ∈ [7, 8, 9, 10] → u = 0) ∧ (k = 11 → u < 6) ∧ (k = 12 ∨ k = 13 → u < 2) ∧ 7 ≤ k ∧ k ≤ 13)) ∧
    (∃ (s : State) (m : Msg) (x : Session) (k : Nat) (u : Nat), k < 16 ∧
      u < 8 ∧
      s.MayWrite m x ∧
      ((k ∈ [7, 8, 9, 10] → u = 0) ∧ (k = 11 → u < 6) ∧ (k = 12 ∨ k = 13 → u < 2) ∧ 7 ≤ k ∧ k ≤ 13) ∧
      (s.boot.due ≠ [] ∨
  s.rget Fld.SRV_MODE_FIXED = 1 ∨
    (7 ≤ k ∧ k ≤ 9 ∧ ∃ i < 16, (s.slot i).state ≠ SlotState.empty) ∨
      k = 10 ∧ s.vid.contexts ≠ [] ∨
        k = 11 ∧ (s.pathsWhere fun p => p.port == u) ≠ [] ∨
          k = 13 ∧
            ((if u = 0 then Side.a else Side.b) = s.active ∨
              s.sup (if u = 0 then Side.a else Side.b) ≠ SupState.standby))) ∧
    (∃ (s : State) (m : Msg) (x : Session) (k : Nat) (u : Nat), k < 16 ∧
      u < 8 ∧
      s.MayWrite m x ∧
      ((k ∈ [7, 8, 9, 10] → u = 0) ∧ (k = 11 → u < 6) ∧ (k = 12 ∨ k = 13 → u < 2) ∧ 7 ≤ k ∧ k ≤ 13) ∧
      ¬(s.boot.due ≠ [] ∨
    s.rget Fld.SRV_MODE_FIXED = 1 ∨
      (7 ≤ k ∧ k ≤ 9 ∧ ∃ i < 16, (s.slot i).state ≠ SlotState.empty) ∨
        k = 10 ∧ s.vid.contexts ≠ [] ∨
          k = 11 ∧ (s.pathsWhere fun p => p.port == u) ≠ [] ∨
            k = 13 ∧
              ((if u = 0 then Side.a else Side.b) = s.active ∨
                s.sup (if u = 0 then Side.a else Side.b) ≠ SupState.standby)) ∧
      k < 12) ∧
    (∃ (s : State) (m : Msg) (x : Session) (k : Nat) (u : Nat), k < 16 ∧
      u < 8 ∧
      s.MayWrite m x ∧
      ((k ∈ [7, 8, 9, 10] → u = 0) ∧ (k = 11 → u < 6) ∧ (k = 12 ∨ k = 13 → u < 2) ∧ 7 ≤ k ∧ k ≤ 13) ∧
      ¬(s.boot.due ≠ [] ∨
    s.rget Fld.SRV_MODE_FIXED = 1 ∨
      (7 ≤ k ∧ k ≤ 9 ∧ ∃ i < 16, (s.slot i).state ≠ SlotState.empty) ∨
        k = 10 ∧ s.vid.contexts ≠ [] ∨
          k = 11 ∧ (s.pathsWhere fun p => p.port == u) ≠ [] ∨
            k = 13 ∧
              ((if u = 0 then Side.a else Side.b) = s.active ∨
                s.sup (if u = 0 then Side.a else Side.b) ≠ SupState.standby)) ∧
      k = 12 ∧
      (s.fe (if u = 0 then Side.a else Side.b)).state = FeState.up) ∧
    (∃ (s : State) (m : Msg) (x : Session) (k : Nat) (u : Nat), k < 16 ∧
      u < 8 ∧
      s.MayWrite m x ∧
      ((k ∈ [7, 8, 9, 10] → u = 0) ∧ (k = 11 → u < 6) ∧ (k = 12 ∨ k = 13 → u < 2) ∧ 7 ≤ k ∧ k ≤ 13) ∧
      ¬(s.boot.due ≠ [] ∨
    s.rget Fld.SRV_MODE_FIXED = 1 ∨
      (7 ≤ k ∧ k ≤ 9 ∧ ∃ i < 16, (s.slot i).state ≠ SlotState.empty) ∨
        k = 10 ∧ s.vid.contexts ≠ [] ∨
          k = 11 ∧ (s.pathsWhere fun p => p.port == u) ≠ [] ∨
            k = 13 ∧
              ((if u = 0 then Side.a else Side.b) = s.active ∨
                s.sup (if u = 0 then Side.a else Side.b) ≠ SupState.standby)) ∧
      k = 13) ∧
    (∃ (s : State) (m : Msg) (x : Session), s.Hears m x 770 32 ∧
      s.boot.down = true) ∧
    (∃ (s : State) (m : Msg) (x : Session), s.Hears m x 770 32 ∧
      s.boot.down = false ∧
      allZero m.payload 8 24 = false) ∧
    (∃ (s : State) (m : Msg) (x : Session), s.Hears m x 770 32 ∧
      s.boot.down = false ∧
      allZero m.payload 8 24 = true) :=
  ⟨⟨11, by decide⟩,
   ⟨StartUpAndSelfTest.state13, by decide, by decide, by decide⟩,
   ⟨StartUpAndSelfTest.atStep 1 [], by decide, by decide⟩,
   ⟨StartUpAndSelfTest.atStep 4 [(4, 0)], by decide⟩,
   ⟨StartUpAndSelfTest.atStep 1 [], by decide, by decide, by decide⟩,
   ⟨StartUpAndSelfTest.atStep 2 [], by decide, by decide, by decide⟩,
   ⟨StartUpAndSelfTest.atStep 3 [], by decide, by decide, by decide⟩,
   ⟨StartUpAndSelfTest.atStep 4 [], by decide, by decide, by decide⟩,
   ⟨StartUpAndSelfTest.atStep 5 [], by decide, by decide, by decide⟩,
   ⟨StartUpAndSelfTest.atStep 6 [], by decide, by decide, by decide⟩,
   ⟨StartUpAndSelfTest.atStep 7 [], by decide, by decide, by decide⟩,
   ⟨StartUpAndSelfTest.atStep 8 [], by decide, by decide, by decide⟩,
   ⟨StartUpAndSelfTest.atStep 9 [], by decide, by decide, by decide⟩,
   ⟨StartUpAndSelfTest.atStep 10 [], by decide, by decide, by decide⟩,
   ⟨StartUpAndSelfTest.atStep 1 [], 11, 11, StartUpAndSelfTest.aSliceReport, Instr.sliceEnd 11 11 StartUpAndSelfTest.aSliceReport, false, by decide, by decide⟩,
   ⟨StartUpAndSelfTest.atStep 4 [(4, 0)], 4, 0, StartUpAndSelfTest.aSliceReport, Instr.sliceEnd 4 0 StartUpAndSelfTest.aSliceReport, false, by decide, by decide, by decide⟩,
   ⟨StartUpAndSelfTest.atStep 1 [], 11, by decide⟩,
   ⟨StartUpAndSelfTest.state14, 0, by decide⟩,
   ⟨StartUpAndSelfTest.atStep 1 [], aMsg 1 (zeroBytes 32), aSession 1, 11, 0, by decide, by decide, by decide, by decide, by decide, by decide⟩,
   ⟨StartUpAndSelfTest.atStep 1 [], aMsg 3 [], aSession 3, 11, 6, by decide, by decide, mayWrite_of (by decide), by decide⟩,
   ⟨StartUpAndSelfTest.atStep 1 [], aMsg 3 [], aSession 3, 11, 0, by decide, by decide, mayWrite_of (by decide), by decide, by decide⟩,
   ⟨StartUpAndSelfTest.atStep 1 [], aMsg 3 [], aSession 3, 11, 1, by decide, by decide, mayWrite_of (by decide), by decide, by decide, by decide⟩,
   ⟨StartUpAndSelfTest.state13, aMsg 3 [], aSession 3, 12, 0, by decide, by decide, mayWrite_of (by decide), by decide, by decide, by decide, by decide⟩,
   ⟨StartUpAndSelfTest.atStep 1 [], aMsg 3 [], aSession 3, 13, 1, by decide, by decide, mayWrite_of (by decide), by decide, by decide, by decide⟩,
   ⟨StartUpAndSelfTest.state12, aMsg 1 (zeroBytes 32), aSession 1, hears_of (by decide), by decide⟩,
   ⟨StartUpAndSelfTest.atStep 1 [], StartUpAndSelfTest.msg3, aSession 1, hears_of (by decide), by decide, by decide⟩,
   ⟨StartUpAndSelfTest.atStep 1 [], aMsg 1 (zeroBytes 32), aSession 1, hears_of (by decide), by decide, by decide⟩⟩

-- PowerInputAndCartridge.

namespace PowerInputAndCartridge
def aCart (powered : Bool) : Cartridge := { present := true, powered := powered, carrier := [1], genuine := true, devicePct := 3, objects := [(1, [2])] }
def state1 : State := { serving with hw := { vinLow := true } }
def state2 : State := { serving with boot := { down := true } }
def state3 : State := { serving with mem := { cart := aCart true } }
def state4 : State := { serving with mem := { cart := aCart false } }
def cartridgeInfo1 : CartridgeInfo := ⟨[1], true, [], 10, 3, 4, false⟩
end PowerInputAndCartridge
theorem witness_PowerInputAndCartridge :
    (∃ (v : Nat), v < 380) ∧
    (∃ (v : Nat), 380 ≤ v) ∧
    (∃ (v : Nat), v ≤ 395) ∧
    (∃ (v : Nat), 395 < v) ∧
    (∃ (s : State), (s.hw.vinLow = false ∨ s.boot.down = true)) ∧
    (∃ (s : State), s.hw.vinLow = true ∧
      s.boot.down = false) ∧
    (∃ (v : Nat), v ≤ 620) ∧
    (∃ (v : Nat), 620 < v) ∧
    (∃ (s : State), s.boot.down = true) ∧
    (∃ (w : Nat), 140 ≤ w ∧
      w ≤ 480) ∧
    (∃ (w : Nat), (w < 140 ∨ 480 < w)) ∧
    (∃ (s : State), s.mem.cart.present = false) ∧
    (∃ (s : State), s.mem.cart.present = true ∧
      s.mem.cart.powered = false) ∧
    (∃ (s : State), s.mem.cart.present = true ∧
      s.mem.cart.powered = true) ∧
    (∃ (s : State), (s.mem.cart.present = false ∨ s.mem.cart.powered = false)) :=
  ⟨⟨140, by decide⟩,
   ⟨480, by decide⟩,
   ⟨140, by decide⟩,
   ⟨480, by decide⟩,
   ⟨PowerInputAndCartridge.state2, by decide⟩,
   ⟨PowerInputAndCartridge.state1, by decide, by decide⟩,
   ⟨140, by decide⟩,
   ⟨621, by decide⟩,
   ⟨PowerInputAndCartridge.state2, by decide⟩,
   ⟨140, by decide, by decide⟩,
   ⟨621, by decide⟩,
   ⟨PowerInputAndCartridge.state1, by decide⟩,
   ⟨PowerInputAndCartridge.state4, by decide, by decide⟩,
   ⟨PowerInputAndCartridge.state3, by decide, by decide⟩,
   ⟨PowerInputAndCartridge.state1, by decide⟩⟩

-- EmptyQueueIdles.

theorem witness_EmptyQueueIdles :
    ∃ (s : State), s.pending = [] :=
  ⟨serving, by decide⟩

-- ResetState.

theorem witness_ResetState :
    (∃ (k : Nat), k < 16) ∧
    (∃ (f : Field) (v : Nat), (f, v) ∈
  [(Fld.THM_STATUS_LIMIT, 64), (Fld.THM_STATUS_POINT, 7), (Fld.THM_ID_HOTSPOTS, 24), (Fld.THM_ID_SENSORS, 48),
    (Fld.THM_STATUS_HALTED, 0), (Fld.THM_FAULT_STOP, 0), (Fld.ARR_REMAP_ROW_GROUP, 32), (Fld.ARR_REMAP_COL_GROUP, 32),
    (Fld.CONT_STATUS_TWIN, 0), (Fld.CONT_HB_PERIOD_MS, 100), (Fld.CONT_HB_FLUSH_S, 60), (Fld.FWU_STATE_STATE, 0),
    (Fld.BIST_STATUS_DONE, 0), (Fld.BIST_UNUSABLE_BLOCKS, 0), (Fld.MEM_STATUS_OUT, 0), (Fld.NET_UDP_PORT, 47100),
    (Fld.CLK_MEAS_CFG_WINDOW, 38400), (Fld.SRV_MODE_FIXED, 0), (Fld.PWR_PACE_THERMAL, 64)]) :=
  ⟨⟨0, by decide⟩,
   ⟨Fld.THM_STATUS_LIMIT, 64, by decide⟩⟩

-- EveryStepKeepsSoundness.

theorem witness_EveryStepKeepsSoundness : ∃ s : State, s.Sound ∧ s.pending = [.heartbeat] :=
  ⟨{ serving with pending := [.heartbeat] }, ⟨⟨rfl, rfl, by decide, by decide, by decide, by decide⟩, by decide⟩, rfl⟩

-- Ill-formed commands, one for each kind of check of WellFormed.

def okMsg : Msg := aMsg 1 []
def anArp : ArpPacket := { port := 0, vlan := 0, mac := 1, ip := 1, target := 1, sec := none }
def aDatagram : Datagram := { port := 0, vlan := 0, peer := ⟨false, 1, 47100⟩, dst := 0, dstUdp := 47100, options := false, fragment := false, badSum := false, sec := none, bytes := [] }

theorem test_wf_accepts : Instr.wf (.submitPass okMsg) = true ∧ Instr.wf (.arpRequest anArp) = true ∧ Instr.wf (.dataFrame aDatagram) = true ∧
    Instr.wf (.sessionOpen 5 ⟨true, 2 ^ 128 - 1, 65535⟩ []) = true ∧ Instr.wf (.vadd 0 0 0 0 0 .int8) = true ∧ Instr.wf .heartbeat = true := by
  decide
theorem test_wf_message : Instr.wf (.submitPass { okMsg with session := 2 ^ 32 }) = false ∧
    Instr.wf (.cancel { okMsg with number := 2 ^ 63 }) = false ∧ Instr.wf (.mgmtRead { okMsg with tag := 2 ^ 32 }) = false := by decide
theorem test_wf_port : Instr.wf (.sessionOpen 6 ⟨false, 1, 1⟩ []) = false ∧ Instr.wf (.phyLinkChange 6 true) = false ∧
    Instr.wf (.arpRequest { anArp with port := 6 }) = false ∧ Instr.wf (.dataFrame { aDatagram with port := 6 }) = false := by decide
theorem test_wf_peer : Instr.wf (.sessionOpen 0 ⟨false, 2 ^ 32, 1⟩ []) = false ∧ Instr.wf (.sessionOpen 0 ⟨true, 1, 65536⟩ []) = false ∧
    Instr.wf (.pathAdd 0 ⟨true, 2 ^ 128, 1⟩ okMsg) = false := by decide
theorem test_wf_datagram : Instr.wf (.dataFrame { aDatagram with vlan := 4096 }) = false ∧
    Instr.wf (.ackFrame { aDatagram with dstUdp := 65536 }) = false := by decide
theorem test_wf_numbers : Instr.wf (.idleClose (2 ^ 32)) = false ∧ Instr.wf (.authFailTimeout 1 (2 ^ 63)) = false ∧
    Instr.wf (.requestDeadline (2 ^ 32)) = false ∧ Instr.wf (.journalDurable (2 ^ 64)) = false := by decide
theorem test_wf_slots : Instr.wf (.slotEmptied 16) = false ∧ Instr.wf (.stepCommit 4096) = false ∧ Instr.wf (.refillInterval 1024) = false ∧
    Instr.wf (.queueHoldExpiry ⟨16, 0, 0, 0⟩) = false ∧ Instr.wf (.queueHoldExpiry ⟨0, 3, 0, 0⟩) = false := by decide
theorem test_wf_array : Instr.wf (.drainEnd 2) = false ∧ Instr.wf (.coatComplete 4096) = false ∧ Instr.wf (.kernelStart 0 8) = false ∧
    Instr.wf (.passIssue (some (some 32, none))) = false ∧ Instr.wf (.passLanded (some ⟨.residue, none, some 32⟩) 0) = false := by decide
theorem test_wf_trim : Instr.wf (.coreContextSwitch 64) = false ∧ Instr.wf (.vlq8 0 1 0 0 0) = false ∧ Instr.wf (.msend 0 30) = false ∧
    Instr.wf (.barrierRelease 0 8) = false := by decide
theorem test_wf_elements : Instr.wf (.vadd 0 0 0 0 0 .fp32) = false ∧ Instr.wf (.vfadd 0 0 0 0 0 .int8) = false ∧
    Instr.wf (.vdot 0 0 0 0 0 .int32) = false ∧ Instr.wf (.vins 0 0 0 8 .int64) = false := by decide
theorem test_wf_memory : Instr.wf (.translationFault 4128 0 false 0) = false ∧ Instr.wf (.rangeMove 4128) = false ∧
    Instr.wf (.pageCleared 4194304) = false ∧ Instr.wf (.uncorrectableGranule 0 [(10, 0, 1)]) = false ∧
    Instr.wf (.patrolPass [(80, 1)]) = false ∧ Instr.wf (.dqsOscillatorRead [80]) = false ∧ Instr.wf (.mr4Read 8) = false := by decide
theorem test_wf_banks : Instr.wf (.bankCollision 1 1 0 0 (zeroBytes 64) (zeroBytes 64)) = false ∧
    Instr.wf (.bankUncorrectable 0 0x1C 0 (List.replicate 8 0)) = false ∧ Instr.wf (.bankUncorrectable 82 0 0 (List.replicate 8 0)) = false := by
  decide
theorem test_wf_platform : Instr.wf (.pictureDecoded 4) = false ∧ Instr.wf (.rawSliceGo okMsg 16 0) = false ∧
    Instr.wf (.oscillatorCheck 4 0) = false ∧ Instr.wf (.opStep [80]) = false ∧ Instr.wf (.startCapWrite 65536) = false ∧
    Instr.wf (.pullSenseBreak 2) = false ∧ Instr.wf (.auxRise 64 true 0) = false ∧
    Instr.wf (.thermalInterval ⟨[], [], 0, 0, 0, none⟩) = false ∧ Instr.wf (.sliceEnd 14 0 ⟨true, false, [], [], [], []⟩) = false ∧
    Instr.wf (.sliceEnd 1 0 ⟨true, false, [], [], [none], []⟩) = false := by decide

-- The worked examples of the manual (spec/02 to spec/19), by hand from their text.

/-- R39, the block of "Number formats": −3.71, 1.23, 0.8125 and 0.046875, the first two as the nearest FP32. -/
theorem test_qb8_block : qbQuantise 8 ([0xC06D70A4, 0x3F9D70A4, 0x3F500000, 0x3D400000].map fp32.val) = (-5, [-119, 39, 26, 2], 0) := by decide
theorem test_qb4_block : (qbQuantise 4 ([0xC06D70A4, 0x3F9D70A4, 0x3F500000, 0x3D400000].map fp32.val)).1 = -1 := by decide
/-- R102, the 3 × 3 convolution of a 64 × 80 feature map. -/
theorem test_conv_size : outDim 64 1 1 1 3 1 = 64 ∧ outDim 80 1 1 1 3 1 = 80 ∧ outDim 2 0 0 1 3 1 = 0 := by decide
/-- R108, box 0 of the crop, and the video picture's pixel (0, 0). -/
theorem test_crop_point : samplePoint [1327104, 2195456, 1818624, 2686976] 7 7 0 0 = ⟨20, 33, 73, 137⟩ ∧
    ((⟨20, 33, 73, 137⟩ : SamplePoint).taps).map (fun t => t.2.2) = [21777, 25071, 8687, 10001] ∧
    samplePoint [0, 0, 33554432, 41943040] 128 160 0 0 = ⟨1, 1, 128, 128⟩ := by decide
/-- R264 to R266: the pages of the maintenance assistant. -/
theorem test_kv_shape : let k : KvShape := ⟨.qb8, 32, 6, 128⟩
    k.krow = 132 ∧ k.cap = 247 ∧ k.chunks 2000 = 9 ∧ k.vpage 7 0 0 = 1344 ∧ k.keyAt 111 = 14908 ∧ k.valueAt 109 = 47248 := by decide
/-- R274 and R276: the tree of ten nodes, its mask word and its accepted path. -/
def draftTree : Tree := ⟨[0, 0, 0, 1, 1, 2, 3, 4, 6, 8], [9, 1, 2, 3, 4, 5, 6, 7, 8, 9]⟩
theorem test_tree : draftTree.valid 255 = true ∧ (List.range 10).map draftTree.depth = [0, 1, 1, 2, 2, 2, 3, 3, 4, 5] ∧
    slice draftTree.stencil 56 8 = leBytes 8 0x93 ∧ draftTree.accept [1, 4, 0, 0, 77, 0, 0, 0, 0, 0] 64 0 = [1, 4] ∧
    draftTree.acceptedTokens [1, 4, 0, 0, 77, 0, 0, 0, 0, 0] [1, 4] = [1, 4, 77] := by decide
/-- R194: the two entries that the text gives. -/
theorem test_entries : mkEntry 300001 true = 0x0493E103 ∧ mkCartEntry 17 = 0x0000001100000004 ∧ entryPage 0x0493E103 = 300001 := by decide
/-- R178, R180: package 9 holds channels 36 to 39, in groups 4 to 7, at position 4. -/
theorem test_package_nine : (List.range 4).map (packageChannel 9) = [36, 37, 38, 39] ∧ (List.range 4).map (fun k => channelAt (4 + k) 4) = [36, 37, 38, 39] := by
  decide
/-- R179, R181: a codeword with one wrong symbol is corrected, one with two is detected, and with one channel marked its symbol is rebuilt. -/
theorem test_codeword : let w := rsEncode [1, 2, 3, 4, 5, 6, 7, 8]
    syndrome0 w = 0 ∧ syndrome1 w = 0 ∧ rsDecode [] (putSymbol w 3 0x55) = some (w, some 3) ∧
    rsDecode [4] (putSymbol w 4 0xA1) = some (w, none) ∧ rsDecode [4] (putSymbol w 5 0xA1) = none := by decide
/-- R431: what the caps of 250, 400, 320 and 240 W choose. -/
theorem test_chosen_points : serving.chooseFor 250000 = (3, 46) ∧ serving.chooseFor 400000 = (5, 64) := by decide
theorem test_chosen_points_low : serving.chooseFor 320000 = (4, 64) ∧ serving.chooseFor 240000 = (2, 48) := by decide
/-- R401: the versions of "Compatibility". -/
theorem test_firmware_sets : let sup := fun (v p : Nat) => ({ component := 2, version := v, peers := [0, 0, p] } : FwImage)
    let fe := fun (v p : Nat) => ({ component := 3, version := v, peers := [0, p] } : FwImage)
    fwConsistent [sup 0x02020005 0, fe 0x02030001 0x02020000] = true ∧ fwConsistent [sup 0x02040000 0x02030000, fe 0x02030001 0x02020000] = true ∧
    fwConsistent [sup 0x02040000 0x02030000, fe 0x02020000 0] = false := by decide
/-- R486: a cartridge that reports 4,511,718,750 data units, 137 matings and 31 %. -/
def wornCart : State := { serving with mem := { cart := { present := true, powered := true, written := 4511718750 * 512000, matings := 137, devicePct := 31 } } }
theorem test_cartridge_life : wornCart.showLife.rget Fld.SYS_CART_LIFE_USED_PCT = 31 ∧ wornCart.showLife.rget Fld.SYS_CART_LIFE_BASIS = 2 ∧
    wornCart.showLife.rget Fld.SYS_CART_WRITTEN_GB = 2310000 := by decide
/-- R144: the share of core 5 runs on core 0 where core 5 is dead. -/
theorem test_trim_map : (trimMap [5]).take 7 = [0, 1, 2, 3, 4, 0, 6] := by decide
/-- R510: two writes of which the second would stop the video engine, with a context open and without one. -/
def aBlockWrite : Msg := aMsg 3 (leBytes 2 2 ++ zeroBytes 30 ++ leBytes 4 0x30000C ++ leBytes 4 0xFFFF ++ leBytes 4 0x64 ++ zeroBytes 4 ++
  leBytes 4 0x10 ++ leBytes 4 0x10 ++ zeroBytes 8)
def gatedState (open_ : Bool) : State :=
  let s := setFields serving [((⟨0x10, 0, 31⟩ : Field), 0x40073FFF)]
  if open_ then { s with vid := { contexts := [(5, VideoContexts.aContext)] } } else s
def lastCode (s : State) (n : Nat) : Option Code := ((s.session n).bind fun x => x.ready.getLast?).map (·.code)
theorem test_write_refused : lastCode (mgmtWrite aBlockWrite (gatedState true)) 3 = some Code.B_RETRY ∧
    Regs.word (mgmtWrite aBlockWrite (gatedState true)).regs 0x30000C 0 = 0x001000C8 := by decide
theorem test_write_applied : lastCode (mgmtWrite aBlockWrite (gatedState false)) 3 = some Code.OK ∧
    Regs.word (mgmtWrite aBlockWrite (gatedState false)).regs 0x30000C 0 = 0x00100064 ∧
    Regs.word (mgmtWrite aBlockWrite (gatedState false)).regs 0x10 0 = 0x40073FEF := by decide

-- One step, and the queue.

theorem test_step_takes_the_front : step { serving with pending := [.perBankRefresh, .heartbeat] } = .next { serving with pending := [.heartbeat] } := rfl
theorem test_idle_microsecond : ∃ t, step serving = .next t ∧ t.srv.count = 1 ∧ t.pending = [] := ⟨_, rfl, by decide, rfl⟩
theorem test_no_word_spells_a_command : decodeTableWord 32 0x12345678 = none ∧ serving.withFetchWord 32 5 = serving := ⟨rfl, rfl⟩

-- Trim instructions, by hand from R124 to R132.

/-- The next state of one instruction on core 3. -/
def after (i : Instr) (x : Core) : Option Core :=
  match exec i (running x) with
  | .next t => some (t.core 3)
  | _ => none
def result (i : Instr) (r : SReg) : Option (BitVec 64) := (after i (aCore numbers)).map fun x => x.rs r
theorem test_scalar_wraps : result (.add 3 7 1 2) 7 = some 4 ∧ result (.sub 3 7 0 1) 7 = some (-5) ∧ result (.add 3 0 1 2) 0 = some 0 := by decide
theorem test_scalar_products : result (.mul 3 7 1 2) 7 = some (-5) ∧ result (.mulh 3 7 1 2) 7 = some (-1) ∧ result (.mulhu 3 7 1 2) 7 = some 4 := by decide
theorem test_divide_by_zero : result (.div 3 7 1 0) 7 = some (-1) ∧ result (.rem 3 7 1 0) 7 = some 5 ∧ result (.divu 3 7 2 1) 7 = some 0x3333333333333333 := by
  decide
theorem test_scalar_compares : result (.slt 3 7 2 1) 7 = some 1 ∧ result (.sltu 3 7 2 1) 7 = some 0 ∧ result (.max 3 7 2 1) 7 = some 5 := by decide
theorem test_scalar_immediates : result (.addi 3 7 1 0xFFFF) 7 = some 4 ∧ result (.andi 3 7 2 0xFFFF) 7 = some 0xFFFF ∧
    result (.lui 3 7 0x8000) 7 = some 0xFFFFFFFF80000000 := by decide
theorem test_scalar_floats : result (.fadd 3 7 6 6) 7 = some 0x40000000 ∧ result (.fadd 3 7 4 6) 7 = some 0x7FC00000 ∧
    result (.fcvtsw 3 7 1) 7 = some 0x40A00000 ∧ result (.feq 3 7 4 4) 7 = some 0 := by decide
theorem test_branch_taken : (after (.beq 3 1 1 0xFFFF) (aCore numbers)).map (·.pc) = some 0x6000C ∧
    (after (.beq 3 1 2 0xFFFF) (aCore numbers)).map (·.pc) = some 0x60014 := by decide
theorem test_jump_links : (after (.jal 3 7 4) (aCore numbers)).map (fun x => (x.pc, x.rs 7)) = some (0x60020, 0x60014) := by decide

end Sys2Proof.Tests
end

section
/-! Start-up and self-test (R453 to R466): the refutation of O55. A module that cannot serve at step 10 of start-up never raises
the health event of worn couplings, which R482 leaves for a module that serves. -/

namespace Sys2Proof.Machine

/-- Whether the module can serve (R458) is read from the supervisors, the front ends and two bits of CLK.STATUS and SEC.TRNG. -/
theorem State.canServe_congr {s t : State} (hcont : t.cont = s.cont)
    (hcrystal : t.rget Fld.CLK_STATUS_XA_FAIL = s.rget Fld.CLK_STATUS_XA_FAIL)
    (hentropy : t.rget Fld.SEC_TRNG_FAIL = s.rget Fld.SEC_TRNG_FAIL) : t.canServe = s.canServe := by
  simp only [State.canServe, State.sup, State.feUp, State.fe, State.rbit, hcont, hcrystal, hentropy]

/-- What the module shows of its start-up in BIST has no part in whether it can serve. -/
theorem State.canServe_rset_bist (s : State) (f : Field) (v : Nat) (hbits : f.lo + f.width ≤ 32) (hblock : f.addr / 65536 = 4) :
    (s.rset f v).canServe = s.canServe := by
  have haddr : f.addr < 2 ^ 32 := by omega
  have hother : ∀ g : Field, g.addr < 2 ^ 32 → g.addr / 65536 ≠ 4 → (s.rset f v).rget g = s.rget g := fun g hg hne =>
    s.rget_rset_other f g v 0 0 hbits haddr hg (decide_eq_true (.inl fun e => hne (e ▸ hblock)))
  exact State.canServe_congr (by simp) (hother _ (by decide) (by decide)) (hother _ (by decide) (by decide))

/-- A module that cannot serve says so by FAULT# and the status page alone: it raises no health event (R458). -/
@[simp] theorem State.cannotServe_eventPending (s : State) : s.cannotServe.boot.eventPending = s.boot.eventPending := rfl

/-- Step 10 of a module that cannot serve raises no health event, whatever the rise of AUX found (R453, R458, R482). -/
theorem State.enterService_eventPending (s : State) (h : s.canServe = false) :
    s.enterService.boot.eventPending = s.boot.eventPending := by
  have hshown : ((s.rset Fld.BIST_STATUS_DONE 1).rset Fld.BIST_BOOT_MS_MS (min s.boot.slowMs 65535)).canServe = false := by
    rw [State.canServe_rset_bist _ _ _ (by decide) (by decide), State.canServe_rset_bist _ _ _ (by decide) (by decide), h]
  simp [State.enterService, hshown]

/-- The module at step 10 with both front ends failed (R458), after a rise of AUX that was the 180th of its couplings (R482), and no
health event waiting to be sent. -/
def wornWithoutFrontEnds : State :=
  { cont := { feA := { state := .down }, feB := { state := .down } }, boot := { step := 10 },
    hw := { couplings := 180, wearEvent := true } }

/-- Refutes O55: its clause on step 10 has the event of worn couplings raised whether or not the module can serve, and a module that
cannot serve raises none. -/
theorem not_startUpAndSelfTest : ¬ Obligations.StartUpAndSelfTest := by
  unfold Obligations.StartUpAndSelfTest
  intro h
  obtain ⟨-, -, -, -, -, -, -, hsteps, -⟩ := h wornWithoutFrontEnds
  obtain ⟨-, -, -, -, -, -, -, -, -, hstep10⟩ := hsteps rfl rfl
  obtain ⟨t, hrun, -, -, hworn, -⟩ := hstep10 rfl
  have hnext : wornWithoutFrontEnds.enterService = t := Host.Outcome.next.inj hrun
  have hkept := wornWithoutFrontEnds.enterService_eventPending (by decide)
  rw [hnext, hworn rfl] at hkept
  exact absurd hkept (by decide)

end Sys2Proof.Machine
end

section
/-! Reads of the management space (R494 to R503): the settlement of O23. First what an answer to a partner message leaves of the
sessions, the inbox and the other blocks, then the checks of R502 one by one, then MGMT_READ from them. -/

namespace Sys2Proof.Machine

-- Sessions after a change to one of them.

theorem State.session_number {s : State} {n : Nat} {x : Session} (h : s.session n = some x) : x.number = n := by
  unfold State.session at h
  split at h
  · split at h
    · cases h; assumption
    · cases h
  · cases h

/-- The sessions are part of the transport's state. -/
theorem State.session_congr {s t : State} (h : t.net = s.net) (n : Nat) : t.session n = s.session n := by
  unfold State.session; rw [h]

theorem State.session_putSession_self (s : State) (x : Session) : (s.putSession x).session x.number = some x := by
  simp [State.session, State.putSession]

theorem State.session_putSession_other (s : State) (x : Session) (k : Nat) (h : k % 16384 ≠ x.number % 16384) :
    (s.putSession x).session k = s.session k := by
  unfold State.session State.putSession
  rw [Dict.fetch_store_other _ _ _ _ (Ne.symm h)]

theorem State.session_onSession_self {s : State} {n : Nat} {x : Session} (f : Session → Session) (h : s.session n = some x)
    (hnumber : (f x).number = x.number) : (s.onSession n f).session n = some (f x) := by
  have hself := s.session_putSession_self (f x)
  rw [hnumber, State.session_number h] at hself
  simpa only [State.onSession, h] using hself

theorem State.session_onSession_other (s : State) (n k : Nat) (f : Session → Session) (hnumber : ∀ x, (f x).number = x.number)
    (h : k % 16384 ≠ n % 16384) : (s.onSession n f).session k = s.session k := by
  unfold State.onSession
  split
  · rename_i x hx
    exact s.session_putSession_other (f x) k (by rwa [hnumber, State.session_number hx])
  · rfl

@[simp] theorem State.onSession_inbox (s : State) (n : Nat) (f : Session → Session) :
    (s.onSession n f).net.inbox = s.net.inbox := by
  unfold State.onSession; split <;> rfl

theorem State.session_reply_self {s : State} {m : Msg} {x : Session} (type : Nat) (c : Code) (payload : List Byte) (needs : List Nat)
    (h : s.session m.session = some x) : (s.reply m type c payload needs).session m.session = some { x with ready := x.ready ++
      [{ number := replyNumber m.number 0, type := type, code := c, tag := m.tag, payload := payload, needs := needs }] } :=
  State.session_onSession_self _ h rfl

theorem State.session_reply_other (s : State) (m : Msg) (type : Nat) (c : Code) (payload : List Byte) (needs : List Nat) (k : Nat)
    (h : k % 16384 ≠ m.session % 16384) : (s.reply m type c payload needs).session k = s.session k :=
  State.session_onSession_other s m.session k _ (fun _ => rfl) h

theorem State.session_consume_self {s : State} {m : Msg} {x : Session} (h : s.session m.session = some x) :
    (s.consume m).session m.session = some { x with rxConsumed := x.rxConsumed + wireLength m } :=
  State.session_onSession_self _ h rfl

theorem State.session_consume_other (s : State) (m : Msg) (k : Nat) (h : k % 16384 ≠ m.session % 16384) :
    (s.consume m).session k = s.session k := State.session_onSession_other s m.session k _ (fun _ => rfl) h

/-- A reply followed by the consumption of its message is an answer (R320, R325). The state `s1` that replies may differ from `s`, the
one before the command, in the message's own session, and outside the transport. -/
theorem State.answers_reply_consume {s s1 : State} {m : Msg} {x : Session} (type : Nat) (c : Code) (payload : List Byte)
    (needs : List Nat) (hopen : s1.session m.session = some x)
    (hothers : ∀ n, n % 16384 ≠ m.session % 16384 → s1.session n = s.session n) (hinbox : s1.net.inbox = s.net.inbox) :
    s.Answers ((s1.reply m type c payload needs).consume m) m x type c payload needs where
  session := by
    have hlength : x.rxConsumed + wireLength m = x.rxConsumed + 48 + m.payload.length := by unfold wireLength; omega
    rw [State.session_consume_self (State.session_reply_self type c payload needs hopen)]
    simp [Replied, replyNumber, hlength]
  others n hn := by rw [State.session_consume_other _ _ _ hn, State.session_reply_other _ _ _ _ _ _ _ hn, hothers n hn]
  inbox := by simp [State.consume, State.reply, State.pushMsg, hinbox]

/-- A state whose blocks, but for the transport and the registers, are those of another. -/
theorem State.eq_with_net_regs {s t : State} (h : t.pending = s.pending ∧ t.free = s.free ∧ t.variant = s.variant ∧ t.cont = s.cont ∧
      t.srv = s.srv ∧ t.arr = s.arr ∧ t.trim = s.trim ∧ t.mem = s.mem ∧ t.vid = s.vid ∧ t.sec = s.sec ∧ t.fwu = s.fwu ∧
      t.pwr = s.pwr ∧ t.thm = s.thm ∧ t.boot = s.boot ∧ t.hw = s.hw) : t = { s with net := t.net, regs := t.regs } := by
  cases t; cases s; simpa using h

theorem State.eq_with_net {s t : State} (h : t = { s with net := t.net, regs := t.regs }) (hregs : t.regs = s.regs) :
    t = { s with net := t.net } := by
  rwa [hregs] at h

-- Management replies (R503, R511).

/-- SYS.MGMT after a management message has been refused with a code (R511). -/
def State.mgmtNoted (s : State) (c : Code) : State := (s.rset Fld.SYS_MGMT_LAST_CODE c.toNat).countHold Fld.SYS_MGMT_REFUSED

@[simp] theorem State.mgmtNoted_net (s : State) (c : Code) : (s.mgmtNoted c).net = s.net := by simp [State.mgmtNoted]

/-- Block SYS has no FREEZE field, so SYS.MGMT.REFUSED always counts. -/
theorem State.mgmtNoted_eq_rset (s : State) (c : Code) :
    ∃ v, s.mgmtNoted c = (s.rset Fld.SYS_MGMT_LAST_CODE c.toNat).rset Fld.SYS_MGMT_REFUSED v := ⟨_, rfl⟩

theorem State.mgmtNoted_lastCode (s : State) (c : Code) : (s.mgmtNoted c).rget Fld.SYS_MGMT_LAST_CODE = c.toNat := by
  obtain ⟨v, hv⟩ := s.mgmtNoted_eq_rset c
  rw [hv, State.rget_rset_other _ _ _ _ _ _ (by decide) (by decide) (by decide) (by decide),
    State.rget_rset _ _ _ _ (by decide) (by decide)]
  exact Nat.mod_eq_of_lt c.isLt

theorem State.mgmtNoted_regsBut (s : State) (c : Code) :
    s.RegsBut (s.mgmtNoted c) [(Fld.SYS_MGMT_LAST_CODE, 0), (Fld.SYS_MGMT_REFUSED, 0)] := by
  intro g n haddr hfree
  obtain ⟨v, hv⟩ := s.mgmtNoted_eq_rset c
  have hcode : Fld.SYS_MGMT_LAST_CODE.apart g 0 n = true := decide_eq_true (hfree (Fld.SYS_MGMT_LAST_CODE, 0) (by simp))
  have hrefused : Fld.SYS_MGMT_REFUSED.apart g 0 n = true := decide_eq_true (hfree (Fld.SYS_MGMT_REFUSED, 0) (by simp))
  rw [hv, State.rget_rset_other _ _ _ _ _ _ (by decide) (by decide) haddr hrefused,
    State.rget_rset_other _ _ _ _ _ _ (by decide) (by decide) haddr hcode]

theorem State.mgmtReply_of_ok (s : State) (m : Msg) (type : Nat) (payload : List Byte) :
    s.mgmtReply m type Code.OK payload = (s.reply m type Code.OK payload).consume m := by
  simp [State.mgmtReply]

theorem State.mgmtReply_of_refusal (s : State) (m : Msg) (type : Nat) (payload : List Byte) {c : Code} (h : c ≠ Code.OK) :
    s.mgmtReply m type c payload = ((s.mgmtNoted c).reply m type c payload).consume m := by
  simp [State.mgmtReply, h, State.mgmtNoted]

-- The range and the selectors that a payload names (R501, R502).

/-- Bytes that lie among zero bytes are zero. -/
theorem allZero_within (p : List Byte) (off n k j : Nat) (h : allZero p off n = true) (hin : k + j ≤ n) :
    allZero p (off + k) j = true := by
  have hpart : (p.drop (off + k)).take j = (((p.drop off).take n).drop k).take j := by
    rw [List.drop_take, List.take_take, List.drop_drop, Nat.min_eq_left (by omega)]
  simp only [allZero, List.all_eq_true, hpart] at h ⊢
  exact fun b hb => h b (List.mem_of_mem_drop (List.mem_of_mem_take hb))

/-- The reserved bytes of a MGMT_READ without an override are zero (R501). -/
def ReadPlain (p : List Byte) : Prop := allZero p 6 2 = true ∧ u8 p 16 = 0 ∧ allZero p 17 15 = true

/-- A MGMT_READ names from 1 to 1024 registers of one mapped block, at an aligned address (R502 step 4). -/
def ReadMapped (p : List Byte) : Prop :=
  u32 p 0 % 4 = 0 ∧ blockMapped (u32 p 0) = true ∧ 1 ≤ u16 p 4 ∧ u16 p 4 ≤ 1024 ∧
    (u32 p 0 + 4 * (u16 p 4 - 1)) / 65536 = u32 p 0 / 65536

/-- The selectors under which a payload asks to read: the session's, or those with one replaced (R501). -/
def readView (d : Selectors) (p : List Byte) : Selectors :=
  if u8 p 16 = 0 then d else Dict.store d (u32 p 20) (BitVec.ofNat 32 (u32 p 24)).toNat

/-- A refusal of a MGMT_READ (R503): no success code, and an index with E_GATED alone, then that of the first gated register under the
selectors that the payload asks for. -/
def State.ReadRefusal (s : State) (x : Session) (p : List Byte) (c : Code) (i : Nat) : Prop :=
  c ≠ Code.OK ∧ (c ≠ Code.E_GATED → i = 65535) ∧ (c = Code.E_GATED → s.gated (readView x.selectors p) (u32 p 0 + 4 * i) = true ∧
    ∀ j, j < i → s.gated (readView x.selectors p) (u32 p 0 + 4 * j) = false)

theorem readRange_length (p : List Byte) : (readRange p).length = u16 p 4 := by simp [readRange]

theorem mem_readRange {p : List Byte} {a : Nat} : a ∈ readRange p ↔ ∃ i, i < u16 p 4 ∧ u32 p 0 + 4 * i = a := by
  simp [readRange]

/-- Every register that a mapped MGMT_READ names lies in the block of the first one. -/
theorem ReadMapped.block {p : List Byte} (h : ReadMapped p) {a : Nat} (ha : a ∈ readRange p) : a / 65536 = u32 p 0 / 65536 := by
  obtain ⟨-, -, -, -, hend⟩ := h
  obtain ⟨i, hi, rfl⟩ := mem_readRange.1 ha
  omega

/-- The index found in a range is that of its first address with the property. -/
theorem findIdx_readRange {p : List Byte} {g : Nat → Bool} {i : Nat} (h : (readRange p).findIdx? g = some i) :
    g (u32 p 0 + 4 * i) = true ∧ ∀ j, j < i → g (u32 p 0 + 4 * j) = false := by
  obtain ⟨hi, hfound, hbefore⟩ := List.findIdx?_eq_some_iff_getElem.1 h
  simp only [readRange, List.getElem_map, List.getElem_range] at hfound hbefore
  exact ⟨hfound, fun j hj => by simpa using hbefore j hj⟩

/-- The value rule of a selector refuses with E_RESERVED alone (R497). -/
theorem State.valueRefusal_selector (s : State) (d : Selectors) {a : Nat} (old new value : Word)
    (hsel : selectorRegs.contains a = true) : ∃ ok, s.valueRefusal d a old new value = need ok := by
  simp only [selectorRegs, List.contains_eq_mem, List.mem_cons, List.not_mem_nil, or_false, decide_eq_true_eq] at hsel
  obtain rfl | rfl | rfl | rfl | rfl | rfl | rfl | rfl | rfl | rfl | rfl := hsel
  exacts [⟨_, rfl⟩, ⟨_, rfl⟩, ⟨true, rfl⟩, ⟨true, rfl⟩, ⟨true, rfl⟩, ⟨_, rfl⟩, ⟨true, rfl⟩, ⟨_, rfl⟩, ⟨_, rfl⟩, ⟨true, rfl⟩, ⟨_, rfl⟩]

theorem need_eq_some {ok : Bool} {c e : Code} (h : need ok c = some e) : e = c := by
  cases ok
  · exact (Option.some.inj h).symm
  · cases h

/-- A write of a selector is refused with E_RESERVED or E_LOCKED (R505 steps 4 to 6). -/
theorem State.fieldRefusal_selector {s : State} {d : Selectors} {w : RegWrite} {c : Code} (hsel : selectorRegs.contains w.addr = true)
    (h : s.fieldRefusal d w = some c) : c = Code.E_RESERVED ∨ c = Code.E_LOCKED := by
  simp only [State.fieldRefusal] at h
  split at h
  · exact .inl (Option.some.inj h).symm
  · split at h
    · exact .inr (Option.some.inj h).symm
    · obtain ⟨ok, hok⟩ := s.valueRefusal_selector d _ _ _ hsel
      exact .inl (need_eq_some (hok.symm.trans h))

/-- An override is refused with E_PARAM, E_RESERVED or E_LOCKED (R502 step 5). -/
theorem State.overrideSel_error {s : State} {d : Selectors} {p : List Byte} {c : Code} (h : s.overrideSel d p = .error c) :
    c = Code.E_PARAM ∨ c = Code.E_RESERVED ∨ c = Code.E_LOCKED := by
  simp only [State.overrideSel] at h
  split at h
  · cases h
  · split at h
    · exact .inl (Except.error.inj h).symm
    · rename_i hsel
      split at h
      · rename_i hrefused
        obtain rfl := Except.error.inj h
        exact .inr (State.fieldRefusal_selector (by simpa using hsel) hrefused)
      · cases h

theorem State.overrideSel_ok {s : State} {d e : Selectors} {p : List Byte} (h : s.overrideSel d p = .ok e) : e = readView d p := by
  simp only [State.overrideSel] at h
  unfold readView
  split at h
  · rename_i hplain
    rw [if_pos hplain, Except.ok.inj h]
  · rename_i hplain
    rw [if_neg hplain]
    split at h
    · cases h
    · split at h
      · cases h
      · exact (Except.ok.inj h).symm

theorem State.overrideSel_plain (s : State) (d : Selectors) {p : List Byte} (h : ReadPlain p) : s.overrideSel d p = .ok d := by
  obtain ⟨-, hflag, -⟩ := h
  simp [State.overrideSel, hflag]

-- The checks of R502 in order.

section
variable {s : State} {x : Session} {p : List Byte}

theorem State.readCheck_role (hrole : s.roleAllows x.role 0x0300 = false) : s.readCheck x p = .error (Code.E_ROLE, 65535) := by
  simp [State.readCheck, hrole]

theorem State.readCheck_size (hrole : s.roleAllows x.role 0x0300 = true) (hlen : p.length ≠ 32) :
    s.readCheck x p = .error (Code.E_INPUT_SIZE, 65535) := by
  simp [State.readCheck, hrole, hlen]

theorem State.readCheck_reserved (hrole : s.roleAllows x.role 0x0300 = true) (hlen : p.length = 32)
    (h : allZero p 6 2 = false ∨ 1 < u8 p 16 ∨ allZero p 17 3 = false ∨ allZero p 28 4 = false) :
    s.readCheck x p = .error (Code.E_RESERVED, 65535) := by
  have hbad : (allZero p 6 2 && decide (u8 p 16 < 2) && allZero p 17 3 && allZero p 28 4 && (u8 p 16 == 1 || allZero p 20 8)) =
      false := by
    obtain h | h | h | h := h
    · simp [h]
    · simp [show ¬ u8 p 16 < 2 by omega]
    · simp [h]
    · simp [h]
  simp only [State.readCheck, hrole, hlen, hbad]
  rfl

/-- The reserved bytes of a plain MGMT_READ pass step 3 of R502. -/
theorem ReadPlain.passes (h : ReadPlain p) :
    (allZero p 6 2 && decide (u8 p 16 < 2) && allZero p 17 3 && allZero p 28 4 && (u8 p 16 == 1 || allZero p 20 8)) = true := by
  obtain ⟨hpad, hplain, htail⟩ := h
  have hflags : allZero p 17 3 = true := allZero_within p 17 15 0 3 htail (by omega)
  have hselector : allZero p 20 8 = true := allZero_within p 17 15 3 8 htail (by omega)
  have hlast : allZero p 28 4 = true := allZero_within p 17 15 11 4 htail (by omega)
  simp [hpad, hplain, hflags, hselector, hlast]

/-- Step 4 of R502 asks for a mapped range. -/
theorem readMapped_iff : (addressOk (u32 p 0) && decide (1 ≤ u16 p 4 ∧ u16 p 4 ≤ 1024) &&
    (u32 p 0 + 4 * (u16 p 4 - 1)) / 65536 == u32 p 0 / 65536) = true ↔ ReadMapped p := by
  simp only [addressOk, ReadMapped, Bool.and_eq_true, beq_iff_eq, decide_eq_true_eq]
  tauto

theorem State.readCheck_param (hrole : s.roleAllows x.role 0x0300 = true) (hlen : p.length = 32) (hplain : ReadPlain p)
    (h : ¬ ReadMapped p) : s.readCheck x p = .error (Code.E_PARAM, 65535) := by
  rw [← readMapped_iff, Bool.not_eq_true] at h
  simp only [State.readCheck, hrole, hlen, hplain.passes, h]
  rfl

/-- A plain MGMT_READ of a mapped range is decided by the gates (R502 step 6). -/
theorem State.readCheck_gated (hrole : s.roleAllows x.role 0x0300 = true) (hlen : p.length = 32) (hplain : ReadPlain p)
    (hmapped : ReadMapped p) {i : Nat} (h : ((readRange p).findIdx? fun a => s.gated x.selectors a) = some i) :
    s.readCheck x p = .error (Code.E_GATED, i) := by
  simp only [State.readCheck, hrole, hlen, hplain.passes, readMapped_iff.2 hmapped, s.overrideSel_plain x.selectors hplain, h]
  rfl

theorem State.readCheck_ungated (hrole : s.roleAllows x.role 0x0300 = true) (hlen : p.length = 32) (hplain : ReadPlain p)
    (hmapped : ReadMapped p) (h : ((readRange p).findIdx? fun a => s.gated x.selectors a) = none) :
    s.readCheck x p = .ok x.selectors := by
  simp only [State.readCheck, hrole, hlen, hplain.passes, readMapped_iff.2 hmapped, s.overrideSel_plain x.selectors hplain, h]
  rfl

theorem State.readRefusal_of_fixed {c : Code} (hok : c ≠ Code.OK) (hgated : c ≠ Code.E_GATED) : s.ReadRefusal x p c 65535 :=
  ⟨hok, fun _ => rfl, fun he => absurd he hgated⟩

/-- A failing check of R502 is a refusal that R503 describes. -/
theorem State.readCheck_error {c : Code} {i : Nat} (h : s.readCheck x p = .error (c, i)) : s.ReadRefusal x p c i := by
  have hfixed : ∀ e : Code, e ≠ Code.OK → e ≠ Code.E_GATED →
      (Except.error (e, 65535) : Except (Code × Nat) Selectors) = .error (c, i) → s.ReadRefusal x p c i := by
    rintro e hok hgated ⟨⟩
    exact State.readRefusal_of_fixed hok hgated
  simp only [State.readCheck] at h
  iterate 4
    split at h
    · exact hfixed _ (by decide) (by decide) h
  split at h
  · rename_i e hoverride
    have hcodes : e ≠ Code.OK ∧ e ≠ Code.E_GATED := by
      obtain rfl | rfl | rfl := State.overrideSel_error hoverride <;> decide
    exact hfixed e hcodes.1 hcodes.2 h
  · rename_i d hoverride
    obtain rfl := State.overrideSel_ok hoverride
    split at h
    · rename_i k hfound
      obtain ⟨rfl, rfl⟩ := Prod.mk.inj (Except.error.inj h)
      exact ⟨by decide, fun hne => absurd rfl hne, fun _ => findIdx_readRange hfound⟩
    · cases h

end

-- The gates of the blocks that O23 names (R494, R498).

/-- The registers of ARR are gated by their enable bit of SYS.GATE. -/
theorem State.gated_of_arr {s : State} (d : Selectors) {a : Nat} (hblock : a / 65536 = 0x10) (hgate : s.rget Fld.SYS_GATE_ARR = 0) :
    s.gated d a = true := by
  have hbit : (Regs.word s.regs 0x10 0).getLsbD 11 = false := by
    have hfield := testBit_natBits (Regs.word s.regs 0x10 0).toNat 11 1 0
    rw [show natBits (Regs.word s.regs 0x10 0).toNat 11 1 = 0 from hgate] at hfield
    rw [← BitVec.testBit_toNat]
    simpa using hfield.symm
  simp only [State.gated, gateOf, hblock, hbit, Bool.not_false]

/-- The registers of the blocks without an enable bit are never gated. -/
theorem State.gated_of_ungatedBlock (s : State) (d : Selectors) {a : Nat}
    (hblock : a / 65536 ∈ [0, 1, 2, 3, 4, 0x13, 0x21, 0x22, 0x30, 0x31, 0x41, 0x50, 0x51]) : s.gated d a = false := by
  have hnone : gateOf d a = none := by
    unfold gateOf
    split <;> simp_all
  simp [State.gated, hnone]

/-- The first register of a range of ARR is the first gated one. -/
theorem State.findIdx_gated_arr {s : State} {p : List Byte} (d : Selectors) (hmapped : ReadMapped p) (hblock : u32 p 0 / 65536 = 0x10)
    (hgate : s.rget Fld.SYS_GATE_ARR = 0) : ((readRange p).findIdx? fun a => s.gated d a) = some 0 := by
  obtain ⟨-, -, hsome, -, -⟩ := id hmapped
  have hfirst : 0 < (readRange p).length := by rwa [readRange_length]
  refine List.findIdx?_eq_some_iff_getElem.2 ⟨hfirst, ?_, fun j hj => absurd hj (Nat.not_lt_zero j)⟩
  exact State.gated_of_arr d ((hmapped.block (List.getElem_mem hfirst)).trans hblock) hgate

theorem State.findIdx_gated_ungatedBlock (s : State) {p : List Byte} (d : Selectors) (hmapped : ReadMapped p)
    (hblock : u32 p 0 / 65536 ∈ [0, 1, 2, 3, 4, 0x13, 0x21, 0x22, 0x30, 0x31, 0x41, 0x50, 0x51]) :
    ((readRange p).findIdx? fun a => s.gated d a) = none :=
  List.findIdx?_eq_none_iff.2 fun _ ha => s.gated_of_ungatedBlock d (hmapped.block ha ▸ hblock)

-- MGMT_READ.

theorem State.readRegs_length (s : State) (d : Selectors) (l : Dict Word) (as : List Nat) : (s.readRegs d l as).1.length = as.length := by
  induction as generalizing l with
  | nil => rfl
  | cons a as ih => simp [State.readRegs, ih]

/-- The field area of a MGMT_READ reply (R503). -/
def readArea (p : List Byte) (count index : Nat) : List Byte :=
  slice p 0 4 ++ leBytes 2 count ++ leBytes 2 index ++ slice p 8 8 ++ zeroBytes 16

section
variable {s : State} {m : Msg} {x : Session} (hopen : s.session m.session = some x) (hgoing : x.closing = false)
  (hmay : s.mayActFor m.session = true) (hhere : s.leftToTwin m = false)
include hopen hgoing hmay hhere

theorem mgmtRead_of_error {c : Code} {i : Nat} (hcheck : s.readCheck x m.payload = .error (c, i)) :
    mgmtRead m s = s.mgmtReply m 0x0300 c (readArea m.payload 0 i) := by
  simp [mgmtRead, hhere, hopen, hgoing, hmay, hcheck, readArea]

theorem mgmtRead_of_ok {d : Selectors} (hcheck : s.readCheck x m.payload = .ok d) :
    mgmtRead m s = (s.onSession m.session fun y => { y with latches := (s.readRegs d x.latches (readRange m.payload)).2 }).mgmtReply m
      0x0300 Code.OK (readArea m.payload (s.readRegs d x.latches (readRange m.payload)).1.length 65535 ++
        ((s.readRegs d x.latches (readRange m.payload)).1.map fun w => leBytes 4 w.toNat).flatten) := by
  simp [mgmtRead, hhere, hopen, hgoing, hmay, hcheck, readArea]

/-- A failing check is answered with its code and index, noted in SYS.MGMT, and changes nothing else (R502, R503, R511). -/
theorem mgmtRead_refused {c : Code} {i : Nat} (hcheck : s.readCheck x m.payload = .error (c, i)) :
    Completes (.mgmtRead m) s fun t =>
      s.Answers t m x 0x0300 c (readArea m.payload 0 i) [] ∧ t = { s with net := t.net, regs := t.regs } ∧
      t.rget Fld.SYS_MGMT_LAST_CODE = c.toNat ∧ s.RegsBut t [(Fld.SYS_MGMT_LAST_CODE, 0), (Fld.SYS_MGMT_REFUSED, 0)] := by
  obtain ⟨hcode, -, -⟩ := State.readCheck_error hcheck
  have hread := (mgmtRead_of_error hopen hgoing hmay hhere hcheck).trans (s.mgmtReply_of_refusal _ _ _ hcode)
  have hregs : (mgmtRead m s).regs = (s.mgmtNoted c).regs := by rw [hread]; simp
  refine ⟨_, rfl, ?_, State.eq_with_net_regs ?_, ?_, fun g n haddr hfree => ?_⟩
  · rw [hread]
    exact State.answers_reply_consume _ _ _ _ ((State.session_congr (by simp) _).trans hopen)
      (fun n _ => State.session_congr (by simp) n) (by simp)
  · rw [hread]; simp [State.mgmtNoted]
  · rw [State.rget_congr hregs, State.mgmtNoted_lastCode]
  · exact (State.rget_congr hregs g n).trans (s.mgmtNoted_regsBut c g n haddr hfree)

/-- A MGMT_READ that passes its checks is answered with the words that it names, and changes nothing but the session's latches (R500,
R503). -/
theorem mgmtRead_answered {d : Selectors} (hcheck : s.readCheck x m.payload = .ok d) :
    Completes (.mgmtRead m) s fun t =>
      let r := s.readRegs d x.latches (readRange m.payload)
      s.Answers t m { x with latches := r.2 } 0x0300 Code.OK
        (readArea m.payload (u16 m.payload 4) 65535 ++ (r.1.map fun w => leBytes 4 w.toNat).flatten) [] ∧
      r.1.length = u16 m.payload 4 ∧ t = { s with net := t.net } := by
  have hcount : (s.readRegs d x.latches (readRange m.payload)).1.length = u16 m.payload 4 := by
    rw [State.readRegs_length, readRange_length]
  have hread := mgmtRead_of_ok hopen hgoing hmay hhere hcheck
  rw [State.mgmtReply_of_ok, hcount] at hread
  refine ⟨_, rfl, ?_, hcount, State.eq_with_net (State.eq_with_net_regs ?_) ?_⟩
  · rw [hread]
    exact State.answers_reply_consume _ _ _ _ (State.session_onSession_self _ hopen rfl)
      (fun n hn => State.session_onSession_other s m.session n _ (fun _ => rfl) hn) (by simp)
  · rw [hread]; simp
  · rw [hread]; simp

end

/-- Settles O23: each clause is one check of R502, and what passes them all is read. -/
theorem managementReads : Obligations.ManagementReads := by
  unfold Obligations.ManagementReads
  intro s m x hopen hgoing hmay hhere
  refine ⟨?_, fun hrole => ?_, fun hrole hlen => ?_, fun hrole hlen hbad => ?_, fun hrole hlen hplain hmapped => ?_,
    fun hrole hlen hplain hmapped hblock hgate => ?_, fun hrole hlen hplain hmapped hblock => ?_⟩
  · cases hcheck : s.readCheck x m.payload with
    | error e =>
      obtain ⟨c, i⟩ := e
      obtain ⟨hcode, hindex, hgated⟩ := State.readCheck_error hcheck
      obtain ⟨t, hrun, hanswers, -⟩ := mgmtRead_refused hopen hgoing hmay hhere hcheck
      exact ⟨t, hrun, x, c, i, [], by simpa [readArea] using hanswers, fun hok => absurd hok hcode, fun _ => rfl, hindex, hgated⟩
    | ok d =>
      obtain ⟨t, hrun, hanswers, hcount, -⟩ := mgmtRead_answered hopen hgoing hmay hhere hcheck
      rw [← hcount] at hanswers
      exact ⟨t, hrun, _, Code.OK, 65535, _, hanswers, fun _ => hcount, fun hne => absurd rfl hne, fun _ => rfl,
        fun hgated => absurd hgated (by decide)⟩
  · exact mgmtRead_refused hopen hgoing hmay hhere (State.readCheck_role hrole)
  · exact mgmtRead_refused hopen hgoing hmay hhere (State.readCheck_size hrole hlen)
  · exact mgmtRead_refused hopen hgoing hmay hhere (State.readCheck_reserved hrole hlen hbad)
  · exact mgmtRead_refused hopen hgoing hmay hhere (State.readCheck_param hrole hlen hplain hmapped)
  · exact mgmtRead_refused hopen hgoing hmay hhere
      (State.readCheck_gated hrole hlen hplain hmapped (State.findIdx_gated_arr _ hmapped hblock hgate))
  · exact mgmtRead_answered hopen hgoing hmay hhere
      (State.readCheck_ungated hrole hlen hplain hmapped (s.findIdx_gated_ungatedBlock _ hmapped hblock))

end Sys2Proof.Machine
end
